-- ==== Sys2Proof/Word.lean ====
section
/-! DEFINITION. The words the FLM-1024's manual counts in: a byte of memory, a 32-bit BAR0 word, and the
sparse list of keyed values that every store of this model (register file, memories, tables) is held in. -/

namespace Sys2Proof

/-- One byte of a memory, a record or a link payload. -/
abbrev Byte := BitVec 8

/-- One 32-bit word of BAR0. -/
abbrev Word := BitVec 32

/-- Bytes at addresses, as a command brings them (what the host wrote into its own memory). -/
abbrev Cells := List (Nat × BitVec 8)

/-- A store of values by a number: keys strictly rising, no entry equal to what an unlisted key reads as. -/
abbrev Sparse (β : Type) := List (Nat × β)

end Sys2Proof
end

