-- ==== Sys2Proof/Syntax.lean ====
section
/-! DEFINITION. The commands of the FLM-1024: the inductive `Instr`, one constructor per row of
spec/opcode_table.json, and the types of their operands. The table gives its rows no operand fields (each row's
"fields" is empty), so the operands are what the rows' rules let the outside world bring: the word of a bus
write, the ring a taken entry stands on, the payload of a record of the head or of the partner, a position frame,
a measurement. Assumption log entry 1 says how they were chosen. -/

namespace Sys2Proof

/-- What a firmware image holds of one test (R402): the block (0 to 15), the kind of test (1 cold start, 2 park,
3 on demand), the full pattern count and the expected signature. -/
structure BistExpect where
  block : Nat
  kind : Nat
  count : Nat
  sig : Nat
  deriving DecidableEq, Repr

/-- A firmware image slot whose CRC-32C is good (R58): its version and what it holds for R402. -/
structure FwImage where
  version : Nat
  expect : List BistExpect
  deriving DecidableEq, Repr

/-- The values a block's test ends with (R402). -/
structure BistRun where
  block : Nat
  misr : Nat
  count : Nat
  code : Nat
  deriving DecidableEq, Repr

/-- What training measures of a lane (R269): whether the loopback test found an error on it, and the width, in 0.01 UI,
and height, in mV, of its centred eye. -/
structure LaneTest where
  loopErr : Bool
  width : Nat
  height : Nat
  deriving DecidableEq, Repr

/-- One measurement of HBM3 training (R269), in the order made: a lane of a byte group (`group` 0 to 3 for a data byte, 4
for the ECC byte), the group's redundant lane once used, a command/address lane of a channel, its redundant lane once
used, and whether strobe alignment of a pseudo-channel found a passing window. -/
inductive TrainFinding where
  | lane (pc group lane : Nat) (t : LaneTest)
  | redundant (pc group : Nat) (t : LaneTest)
  | ca (channel lane : Nat) (t : LaneTest)
  | caRedundant (channel : Nat) (t : LaneTest)
  | strobe (pc : Nat) (window : Bool)
  deriving DecidableEq, Repr

/-- A 64-bit word of HBM3 that a read found in error (R283): its address, and whether the stack's on-die ECC reported
it. -/
structure EccWord where
  addr : Nat
  onDie : Bool
  deriving DecidableEq, Repr

/-- What the HBM3 controller found on the reads that a command makes (R283, R284): the words corrected, in order, and the
first uncorrectable one. -/
structure EccReads where
  corrected : List EccWord
  bad : Option EccWord
  deriving DecidableEq, Repr

/-- A record from the shutter head as it arrives (R320, R330): the 10-bit codes of its copies on the back-channel lanes
BC0 and BC1, bit a the most significant; empty where a lane brings none. -/
structure BackCopies where
  bc0 : List Nat
  bc1 : List Nat
  deriving DecidableEq, Repr

/-- What a calibration item measured (R375, R376). `ohms` is RCAL in 0.1 ohm (item 0). `taps` gives (code,
deviation from target) for the present code and each tap after it, of lane 0 where the item has lanes. `elems` gives
the deviation of each of the four elements. `eye` gives, beside the taps of lane 0, the centred eye's width in 0.01 UI,
height in mV and shift in 0.01 UI of the worst lane; `step` of `taps`/`elems` is the tap step in 0.1 ps and `width` the
eye in 0.01 UI for item 3, 0 where the item has none. -/
inductive CalMeas where
  | ohms (x10 : Nat)
  | taps (m : List (Nat × Int)) (step width : Nat)
  | elems (dev : List Int) (step width : Nat)
  | eye (m : List (Nat × Int)) (width height shift : Nat)
  deriving DecidableEq, Repr

/-- The commands: every step that spec/opcode_table.json lists, under its row's name. -/
inductive Instr where
  /-- RESET_N_FALL (R54). A fall of RESET_N acts at once in any state: the engine enters OFF, stops any stripe on this chip and loses HBM3 contents unless it was in PARK. -/
  | resetNFall
  /-- RESET_N_RISE (R53). A rise of RESET_N after at least 10 µs low, with the rails in range, starts the engine from OFF on the cold path, or on the quick path from PARK. -/
  | resetNRise (lowUs : Nat) (twinId : Bool) (speed width : Nat) (prog : Cells)
  /-- RAIL_TRIP (R55). A rail below its monitor trip for 2 µs or longer fences the chip and puts it into SAFE with SAFE_CAUSE 0x05. -/
  | railTrip (rail us : Nat)
  /-- CLOCK_LOSS (R23). Loss of REFCLK or of root lock silences the shutter-link and Nalu lanes within 1 µs, fences the chip, moves the management logic to the oscillator and enters SAFE with SAFE_CAUSE 0x04. -/
  | clockLoss (refclkLost : Bool)
  /-- ROOT_PLL_LOCK (R21). The root PLL locks; the derived clocks and HEAD_REFCLK start, and the management logic moves from the oscillator to the root-derived clock. -/
  | rootPllLock
  /-- FIRMWARE_IMAGE_CHECK (R58). The firmware is read from serial flash and the good slot with the higher version is chosen; with no good slot the engine enters SAFE with SAFE_CAUSE 0x02. -/
  | firmwareImageCheck (slot0 slot1 : Option FwImage)
  /-- HBM_TRAINING (R268). HBM3 initialisation and training end, with soft lane repair on the cold path and the saved repair map on the quick path. -/
  | hbmTraining (found : List TrainFinding) (raaimt raammt : Nat)
  /-- PARK_RESTORE (R398). The park record is checked and the firmware and SRAM image are restored from HBM3; a mismatch sends the engine to the cold path. -/
  | parkRestore (image : Option Nat) (ecc : EccReads)
  /-- DEVICE_TRIM_READ (R386). The device-trim slots are read and the valid slot with the higher SEQ becomes active; with none valid, event 0x6C is posted and built-in defaults are used. -/
  | deviceTrimRead
  /-- FULL_SELF_TEST (R59). The cold-start SRAM march and logic BIST end; a failure enters SAFE with SAFE_CAUSE 0x01, and NOT_RUN is retried once after 10 ms. -/
  | fullSelfTest (ran : Bool) (runs : List BistRun)
  /-- READY_REACHED (R57). Start-up ends with every block at its defaults; MGT_STATE reads READY, and the engine parks at once if PARK_REQ_N is low. -/
  | readyReached (ms : Nat)
  /-- PERST_N_FALL (R61). A fall of PERST_N is a host reset: the HIF, its rings and the entries taken are reset, the held stripe aborts, waiting COMMITs are dropped and the holding queue is emptied. -/
  | perstNFall (speed width : Nat)
  /-- FUNCTION_LEVEL_RESET (R67). A function-level reset acts as a host reset under R61. -/
  | functionLevelReset (speed width : Nat)
  /-- D3HOT_ENTRY (R67). Entry to D3hot acts as a host reset under R61. -/
  | d3hotEntry (speed width : Nat)
  /-- CHIP_RESET (R59). A CHIP_RESET write with KEY 0x3C3C resets every block except the HIF link and starts the cold path, or sets REFUSED while a stripe is ARMED or RUN. -/
  | chipReset (w : Word)
  /-- PARK_REQ_FALL (R44). PARK_REQ_N going low requests park at the next stripe boundary. -/
  | parkReqFall
  /-- PARK_REQ_RISE (R44). PARK_REQ_N going high starts a quick start from PARK, or withdraws a pending strap request when no CONTROL-ring PARK is pending. -/
  | parkReqRise
  /-- SOS_RISE (R298). A rising SOS is latched in ARMED, is taken in WAIT_SOS when its conditions hold (to RUN or TAIL), aborts the stripe with cause 0x07 after T(0), and is otherwise ignored with event 0x52. -/
  | sosRise (stageOk : Bool)
  /-- STAGE_OK_TIMEOUT (R296). STAGE_OK low at 25 consecutive slot reads in RUN or TAIL aborts the stripe with cause 0x0B. -/
  | stageOkTimeout
  /-- DOORBELL_POLL (R70). At each polling interval the engine reads the doorbell page, takes new entries in ring order and writes back SQ_CONS and EQ_PROD. -/
  | doorbellPoll (hw : Cells)
  /-- NUDGE (R70). A write to HIF_NUDGE starts a poll within 100 ns, or exactly one further poll if a poll is already under way. -/
  | nudge (underWay : Bool) (hw : Cells)
  /-- DOORBELL_ENABLE (R109). Setting HIF_CTRL.DB_EN reads the doorbell base and starts polling, or posts event 0x21 when the page lies outside every live window. -/
  | doorbellEnable (w : Word)
  /-- SQ_ENABLE (R73). Enabling a submission ring reads its base and configuration, sets its consumer index to 0, binds a STREAM channel, or refuses the enable. -/
  | sqEnable (q : Nat) (w : Word)
  /-- SQ_DISABLE (R73). Disabling a submission ring stops the engine taking its entries while entries already taken still run to completion. -/
  | sqDisable (q : Nat) (w : Word)
  /-- EQ_ENABLE (R88). Enabling an event ring sets EQ_PROD to 0 and PHASE to 1 for the first pass. -/
  | eqEnable (e : Nat) (w : Word)
  /-- EVENT_QUEUE_DRAIN (R89). When event-ring space returns, held events are written in order, followed by one events-lost entry for the discarded device events. -/
  | eventQueueDrain (hw : Cells)
  /-- EQ_MOD_TIMER (R90). When TIME_US has passed since the oldest pending event was written, the ring raises its MSI-X vector. -/
  | eqModTimer (e : Nat)
  /-- ARM_STRIPE (R79). ARM_STRIPE (0x01) is validated when taken and answered with REJECTED or UNCALIBRATED, or else held waiting to arm. -/
  | armStripe (q : Nat) (partnerOff : Bool)
  /-- ABORT_STRIPE (R80). ABORT_STRIPE (0x02) aborts the named stripe, drops it if it is waiting to arm, or completes with REJECTED. -/
  | abortStripe (q : Nat) (partnerOff : Bool)
  /-- STREAM_BUF (R81). STREAM_BUF (0x10) adds one buffer to a stripe's stream; a mismatched stripe or pass makes it MALFORMED and aborts the stripe. -/
  | streamBuf (q : Nat) (hw : Cells)
  /-- LOAD_TABLE (R82). LOAD_TABLE (0x20) writes host data into the staged copy of a table and checks its CRC. -/
  | loadTable (q : Nat) (hw : Cells)
  /-- SAVE_TABLE (R82). SAVE_TABLE (0x21) reads the live copy of a table out to the host and returns its CRC. -/
  | saveTable (q : Nat)
  /-- COMPRESS (R175). COMPRESS (0x30) compresses host data as an Azrad stream, optionally resuming or saving its state. -/
  | compress (q : Nat) (hw : Cells)
  /-- DECOMPRESS (R175). DECOMPRESS (0x31) decodes an Azrad stream from host memory, optionally resuming or saving its state. -/
  | decompress (q : Nat) (hw : Cells)
  /-- CODEC_JOB_COMPLETE (R176). A codec job ends with OK, OUT_FULL, NO_GAIN or a fault, writes its state if asked and posts its completion. -/
  | codecJobComplete (engine : Nat)
  /-- CODEC_JOB_RESUME (R174). A preempted host job continues on decompressor 3 or after the stripe. -/
  | codecJobResume (engine : Nat)
  /-- SCAN (R121). SCAN (0x40) computes a CRC over host memory or HBM3, after its range and seed checks. -/
  | scan (q : Nat) (hw : Cells)
  /-- SCAN_COMPLETE (R123). A scan ends, writes its end value to SEED_ADDR if asked, and posts its result. -/
  | scanComplete (engine : Nat) (ecc : EccReads)
  /-- WITNESS (R235). WITNESS (0x50) asks for one pane of corrected dose and is held, or completes at once with REJECTED, BUSY or NOT_RUN. -/
  | witness (q : Nat)
  /-- WITNESS_COMPLETE (R184). A compressor finishes a witness stream and completes the entry, or the entry ends ABORTED when its stripe ends first. -/
  | witnessComplete (compressor : Nat) (ecc : EccReads)
  /-- COMMIT (R93). COMMIT (0x60) copies the staged fields of the named blocks into a pending set, validates it, and takes effect at once or waits for a stripe boundary. -/
  | commit (q : Nat)
  /-- BARRIER (R86). BARRIER (0x61) holds back later CONTROL entries until every entry taken before it has completed. -/
  | barrier (q : Nat)
  /-- BARRIER_DONE (R86). The BARRIER completes once every entry taken before it has completed. -/
  | barrierDone
  /-- PARK (R396). PARK (0x62) requests park; the engine stops taking entries and waits for a stripe boundary, no open gap and no outstanding entry. -/
  | park (q : Nat)
  /-- PROT_STAGE (R95). CMD STAGE computes the CRC and a nonce for the staged value, sets PENDING and asserts SMB_ALERT_N, or answers REJECTED or BUSY. -/
  | protStage (w : Word)
  /-- PROT_CANCEL (R95). CMD CANCEL ends a pending protection sequence with ABORTED. -/
  | protCancel (w : Word)
  /-- PROT_STATUS (R98). The SMBus command PROT_STATUS (0x40) returns the state, item, length, CRC and nonce. -/
  | protStatus (target : Nat) (pecOk : Bool)
  /-- PROT_READ (R98). The SMBus command PROT_READ (0x41) returns 32 staged bytes from the given offset. -/
  | protRead (target count offset32 : Nat) (pecOk : Bool)
  /-- PROT_CONFIRM (R95). The SMBus command PROT_CONFIRM (0x42) accepts the item when CRC and nonce match, otherwise ends the sequence with BAD_CHECK. -/
  | protConfirm (target count crc nonce : Nat) (pecOk : Bool)
  /-- PROT_REFUSE (R95). The SMBus command PROT_REFUSE (0x43) ends the sequence with BAD_CHECK. -/
  | protRefuse (target count : Nat) (pecOk : Bool)
  /-- PROT_TIMEOUT (R95). No confirmation within 1 s ends the sequence with TIMEOUT. -/
  | protTimeout
  /-- PWR_REQ_WRITE (R62). A write to MGT_PWR_REQ changes block power requests; an OFF request to a busy block sets PEND and posts event 0x10. -/
  | pwrReqWrite (w : Word)
  /-- BLOCK_DRAINED_OFF (R394). A block with an OFF request goes OFF at the first moment it is drained. -/
  | blockDrainedOff (k : Nat)
  /-- BLOCK_IDLE_TIMER (R393). After 64 cc without work a block moves from RUN to IDLE. -/
  | blockIdleTimer (k : Nat)
  /-- BLOCK_NAP_TIMER (R393). After 1 ms in IDLE without work an AUTO block enters NAP. -/
  | blockNapTimer (k : Nat)
  /-- BLOCK_WAKE (R116). An access to a block in NAP or IDLE wakes it to RUN while the channel holds the burst. -/
  | blockWake (k ch : Nat)
  /-- BLOCK_LEAVE_OFF (R395). A write that leaves OFF brings the block back at its reset values within 200 µs, or withdraws a pending OFF request. -/
  | blockLeaveOff (k : Nat) (req : Nat)
  /-- REGISTER_WRITE (R10). A write to a register field with no row of its own updates the field, or its staged copy for commit fields, or is discarded. -/
  | registerWrite (addr : Nat) (w : Word)
  /-- LATCHED_LO_READ (R127). A read of the LO word of a 64-bit register pair latches the HI word for the next HI read. -/
  | latchedLoRead (addr : Nat) (wide : Bool)
  /-- READ_CLEAR (R10). A read of an rc field returns it and clears it. -/
  | readClear (addr : Nat)
  /-- DMA_ABORT (R112). A write of DMA_CH_CTRL.ABORT stops the channel's request after its current burst. -/
  | dmaAbort (ch : Nat)
  /-- DMA_RELEASE_HALT (R113). Writing 1 to DMA_CH_STATUS.HALTED releases a halted channel. -/
  | dmaReleaseHalt (ch : Nat)
  /-- DMA_CPL_TIMEOUT (R111). An access unanswered within CPL_TO_MS stops the channel with TIMEOUT after it waits for its other accesses. -/
  | dmaCplTimeout (ch : Nat)
  /-- DMA_CPL_ERROR (R111). A completion with UR or CA status stops the channel with ABORTED, cause CPL_ERR. -/
  | dmaCplError (ch : Nat)
  /-- LATE_COMPLETION (R111). A completion that arrives after its timeout is discarded and reported through AER. -/
  | lateCompletion (ch : Nat)
  /-- DESCRIPTOR_FETCH (R108). A fetched link descriptor is checked for format, hop limit and windows before its data moves. -/
  | descriptorFetch (ch : Nat) (hw : Cells)
  /-- TRANSFER_COMPLETE (R110). The flushing read returns, the transfer completes, and its completion, SQ_CONS advance and records are written. -/
  | transferComplete (ch : Nat)
  /-- AZRAD_BLOCK (R169). A feed decompressor decodes one Azrad block, checking every format rule and, for the END block, TOTAL and CRC. -/
  | azradBlock (ecc : EccReads)
  /-- SOVIS_RECORD (R131). The parser checks one Sovis record against every rule of its chapter and confirms band sections by their check values. -/
  | sovisRecord (ecc : EccReads)
  /-- TEMPLATE_LINE_FILL (R196). A missed template line arrives from the spill region and expansion continues. -/
  | templateLineFill (line : Nat) (ecc : EccReads)
  /-- BAND_RELEASE (R195). Once stream band k + 1 is confirmed and expanded, output band k passes to the pre-scan and the lookahead queue. -/
  | bandRelease
  /-- PARSER_RESUME (R199). A stalled parser resumes when the queue has room and it is below AHEAD_MAX. -/
  | parserResume
  /-- BAND_RETIRE (R198). The fine path retires an output band after its last pane and frees the space no later bin refers to. -/
  | bandRetire
  /-- DENSITY_BAND_DONE (R234). The pre-scan finishes a band's sash density into its grid slot once the slot is free. -/
  | densityBandDone
  /-- BLUR_BAND_DONE (R225). B and F of a band are complete after the box passes. -/
  | blurBandDone
  /-- PANE_SLICE_DONE (R216). The rasteriser emits the class planes of one slice of a pane into the pane buffers. -/
  | paneSliceDone (ecc : EccReads)
  /-- PANE_BUFFER_FREE (R217). Correction frees a class plane and a waiting rasteriser continues. -/
  | paneBufferFree
  /-- RECOMPUTE_BAND (R218). A requested band recompute is taken at the next slice boundary, ahead of regular work. -/
  | recomputeBand
  /-- BAND_CORRECTED (R231). PEC writes a band's corrected dose into its dose-buffer slot once the scheduler has finished band b − 8. -/
  | bandCorrected
  /-- ENTRY_STEP_BEGIN (R25). An entry step begins, at the trigger of flash m for m ≥ 0 or as fast as the pipeline allows in ARMED, after the band-completeness check. -/
  | entryStepBegin
  /-- ENTRY_STEP_COMPLETE (R249). An entry step finishes writing its 64 depth blocks and its journal row, and its signatures are sent. -/
  | entryStepComplete (ecc : EccReads)
  /-- REPAYMENT_WRITE (R257). A read-modify-write sets a reserve slat's bit and the debt counts as repaid when it lands. -/
  | repaymentWrite (ecc : EccReads)
  /-- REFRESH_CREDIT (R275). A refresh credit accrues every tREFI, and a forced REFab is issued when P is 8. -/
  | refreshCredit (pc : Nat)
  /-- REFRESH_PAY (R275). After 64 cc without requests a pseudo-channel pays a credit by REFab or REFpb. -/
  | refreshPay (pc : Nat)
  /-- STACK_TEMP_READ (R276). The stack temperature is read every 256 µs; a change of hot state rescales P and posts event 0x4B. -/
  | stackTempRead (tempC : Nat)
  /-- RFM_ISSUE (R278). An RFM is issued to a bank whose RAA has reached RAAIMT at its first idle moment. -/
  | rfmIssue (pc bank : Nat) (acts : List Nat)
  /-- THROTTLE_EXPIRE (R279). After THROTTLE_US the throttled port regains its weight. -/
  | throttleExpire (port : Nat)
  /-- POWER_DOWN_ENTRY (R280). A pseudo-channel idle for PD_IDLE cc enters power-down. -/
  | powerDownEntry (pc : Nat)
  /-- SELF_REFRESH_REQUEST (R282). A request before the commit point cancels self-refresh entry; at or after it the request is held through entry and exit. -/
  | selfRefreshRequest
  /-- ECC_CE_REPORT (R283). At most once per second, event 0x48 is posted if HMC_ECC_CE has grown. -/
  | eccCeReport
  /-- SILL_FETCH_DONE (R308). A frame arrives complete in the sill and panic is raised or released by the fill. -/
  | sillFetchDone (ecc : EccReads)
  /-- POSITION_SLOT (R289). A position frame slot is taken whole, checked, filtered and accepted, updating lock and Yf and deciding at most one flash. -/
  | positionSlot (fy fx : BitVec 50) (stageOk blankReq twinId : Bool)
  /-- ENTER_WAIT_SOS (R296). Once steps −L to −1 are complete, the sill is full, the link is open and the port is locked, the stripe enters WAIT_SOS and frame 0's segment is sent. -/
  | enterWaitSos
  /-- STRIPE_ARM (R296). A waiting stripe arms once no stripe is held and the link is open and proved, after the head, target-range and generation checks. -/
  | stripeArm
  /-- STRIPE_DONE (R296). In TAIL, once the last flash is decided and every repayment is written, the stripe enters DONE. -/
  | stripeDone
  /-- STRIPE_OUTCOME (R313). The outcome record and hole records are written, the end events are posted and then the outcome event. -/
  | stripeOutcome
  /-- STALL_TIMEOUT (R296). No flash decided for STALL_MS aborts the stripe with cause 0x0D. -/
  | stallTimeout
  /-- FB_HOLD_EXPIRE (R300). After FB_HOLD_MS the abort hold of FAULT_BLANK_N ends and the aborted stripe may return to IDLE. -/
  | fbHoldExpire
  /-- FLASH_COUNT_CLEAR (R314). Writing EMS_FLASHES_CTRL.CLEAR starts a new epoch of the lifetime flash count. -/
  | flashCountClear
  /-- LINK_ENABLE (R331). Writing 1 to SHL_CTRL.LINK_EN starts the knock. -/
  | linkEnable (w : Word)
  /-- LINK_DISABLE (R331). Writing 0 to LINK_EN takes the link DOWN and lifts a link fence, and on a solo engine the chip's fence. -/
  | linkDisable (w : Word)
  /-- RELATCH (R334). Setting SHL_CTRL.RELATCH relatches the link at the next stripe boundary. -/
  | relatch (w : Word)
  /-- KNOCK_SEND (R332). Every 10 µs in KNOCK the engine sends a KNOCK record. -/
  | knockSend
  /-- KNOCK_TIMEOUT (R332). A knock running 100 ms without reply posts event 0x58 with TIMEOUT once. -/
  | knockTimeout
  /-- KNOCK_REPLY (R332). A valid KNOCK_REPLY fixes the generation and rate, and LATCH_GO is sent three times. -/
  | knockReply (h : BackCopies)
  /-- LATCH_START (R332). 20 µs after the last LATCH_GO every used lane sends latch sets at the negotiated rate. -/
  | latchStart
  /-- LANE_STATUS (R333). A LANE_STATUS ends LATCH when all used lanes lock, completes OPEN, or, while OPEN, loses lanes to the spares. -/
  | laneStatus (h : BackCopies)
  /-- LATCH_TIMEOUT (R333). At 10 ms LATCH ends on the last LANE_STATUS, mapping lanes or lowering the rate or entering FAILED. -/
  | latchTimeout
  /-- OPEN_TIMEOUT (R333). An OPEN step that exceeds its 1 ms limit lowers the rate and relatches. -/
  | openTimeout
  /-- AUTH_RESPONSE (R336). An AUTH_RESPONSE is checked by MAC, HEAD_ID and SHOTS, proving the head or failing with event 0x5A. -/
  | authResponse (h : BackCopies)
  /-- AUTH_TIMEOUT (R336). No AUTH_RESPONSE within 1 ms, or no head key, ends the proof with TIMEOUT. -/
  | authTimeout
  /-- TRIM_ACK (R338). A TRIM_ACK matching the stripe and TRIM_CRC lets the link count as open for WAIT_SOS. -/
  | trimAck (h : BackCopies)
  /-- TRIM_RETRY (R338). With no matching TRIM_ACK within 1 ms, ARM and the trim segments are sent again and event 0x5D is posted once. -/
  | trimRetry
  /-- FRAME_STATUS (R342). A FRAME_STATUS updates switches and blanked counts and posts event 0x5B for a blanked lane. -/
  | frameStatus (h : BackCopies)
  /-- FRAME_STATUS_MISSING (R342). A fired frame without FRAME_STATUS after 4 µs counts in SHL_BC.MISSING. -/
  | frameStatusMissing (frame : Nat)
  /-- DONE_STATUS_WAIT_EXPIRE (R342). At DONE, 100 µs without the last frame's FRAME_STATUS ends the wait and counts it missing. -/
  | doneStatusWaitExpire
  /-- BACKCHANNEL_TIMEOUT (R341). A back-channel lane silent 1 ms posts event 0x5E; both silent fence the link or return it to KNOCK. -/
  | backchannelTimeout (lane : Nat)
  /-- NALU_HELLO (R370). HELLO forms the pair when roles differ and stepping and firmware match, or fences with cause 0x06. -/
  | naluHello (seq role stepping fw die lanes : Nat)
  /-- NALU_ACK (R354). An ACK acknowledges messages in SEQ order and reports the partner's state and fence. -/
  | naluAck (ackSeq state fenced : Nat)
  /-- NALU_ACK_TIMER (R354). At least every 1 µs each chip sends ACK with the highest in-order SEQ. -/
  | naluAckTimer
  /-- NALU_RESEND (R354). A message unacknowledged after 4 µs is resent. -/
  | naluResend (seq : Nat)
  /-- NALU_LINK_LOST (R366). 16 µs without a good message or a fourth resend loses the link; the lead continues and the mirror continues or fences. -/
  | naluLinkLost
  /-- NALU_LANE_DROP (R353). A Nalu lane with 8 consecutive code errors or 8 failed messages is dropped until the next training. -/
  | naluLaneDrop (lane : Nat)
  /-- NALU_ENTRY (R348). The mirror receives a forwarded ring entry with its ring index. -/
  | naluEntry (seq ring index : Nat) (raw : List Byte)
  /-- NALU_COMMIT_SET (R348). The mirror receives a validated commit set to apply at the same boundary. -/
  | naluCommitSet (seq commitId mask : Nat) (set : List (Nat × Nat)) (crcs : List Nat)
  /-- NALU_TABLE_CHUNK (R348). The mirror receives a chunk of a table load or rejoin copy. -/
  | naluTableChunk (seq tableId offset : Nat) (data : List Byte)
  /-- NALU_FETCHED (R348). The lead learns the mirror fetched a STREAM_BUF, which then completes. -/
  | naluFetched (seq ring index : Nat)
  /-- NALU_SIG (R356). The partner's step signatures are compared and a mismatch starts a recompute. -/
  | naluSig (seq : Nat) (step : Int) (dose : Nat) (blocks : List Nat)
  /-- NALU_RECOMPUTE (R357). A RECOMPUTE message starts a dose or block recompute of the step. -/
  | naluRecompute (seq : Nat) (step : Int) (round kind mask : Nat)
  /-- RECOMPUTE_DONE (R357). A recompute ends and its signatures are sent in a RESULT message. -/
  | recomputeDone (ecc : EccReads)
  /-- NALU_RESULT (R357). The partner's recompute result enters the vote, which may call a second round. -/
  | naluResult (seq : Nat) (step : Int) (round dose : Nat) (blocks : List Nat) (ecc : EccReads)
  /-- VOTE_CLOSE (R359). Two flashes before the deadline the lead closes the vote, rewriting losers and withholding undecided blocks. -/
  | voteClose (step : Int) (ecc : EccReads)
  /-- NALU_VERDICT (R357). The mirror applies the lead's VERDICT, rewriting or withholding blocks, or fences if its own verdict differs. -/
  | naluVerdict (seq : Nat) (step : Int) (doseV : Nat) (blockV : List Nat)
  /-- NALU_BLOCK (R359). A BLOCK message delivers the partner's entry bits of a block to be withheld. -/
  | naluBlock (seq : Nat) (step : Int) (depth : Nat) (data : List Byte)
  /-- NALU_DECISION (R361). The partner's flash decision is compared, and a difference fences the mirror. -/
  | naluDecision (seq flash outcome : Nat)
  /-- NALU_MISS_LIST (R310). The mirror's ledger books a flash from the lead's list of missed flashes. -/
  | naluMissList (seq flash : Nat)
  /-- NALU_FINDING (R362). A partner's FINDING confirms a stripe-ending cause or shows the finding chip passed. -/
  | naluFinding (seq kind point code : Nat)
  /-- NALU_FENCE (R364). A FENCE message reports that the partner has fenced. -/
  | naluFence (seq cause hard flash : Nat)
  /-- NALU_EVENT (R352). The lead posts a mirror device event with SOURCE 0x04. -/
  | naluEvent (seq : Nat) (raw : List Byte)
  /-- NALU_OUTCOME (R365). A fenced lead writes the outcome record and first hole records received from the mirror. -/
  | naluOutcome (seq : Nat) (record holes : List Byte)
  /-- NALU_HOLES (R365). A fenced lead writes further hole records, and posts the outcome after the last one. -/
  | naluHoles (seq first : Nat) (holes : List Byte)
  /-- NALU_SOLO_TIMEOUT (R371). No partner within 30 ms makes a lead run solo and a mirror fence with cause 0x09. -/
  | naluSoloTimeout
  /-- NLK_REJOIN (R370). Writing NLK_CTRL.REJOIN requests rejoin at the next stripe boundary. -/
  | nlkRejoin (w : Word)
  /-- NLK_FENCE (R363). Writing NLK_CTRL.FENCE fences this chip with cause 0x0C. -/
  | nlkFence (w : Word)
  /-- REJOIN_TIMEOUT (R370). A rejoin not ended within 50 ms leaves the chip fenced and the stripe arms without it. -/
  | rejoinTimeout
  /-- SENSOR_READ (R379). Once per millisecond the die sensors are read and drift beyond THRESH_C makes enabled items due. -/
  | sensorRead (temps : List Int)
  /-- CAL_RUN_NOW (R379). Writing CAL_CTRL.RUN_NOW makes every enabled item due. -/
  | calRunNow (w : Word)
  /-- CAL_GAP_OPEN (R380). A calibration gap opens at a stripe boundary or in READY while an item is due, holding arming and park. -/
  | calGapOpen
  /-- CAL_ITEM_DONE (R377). A calibration item ends OK and is applied, IMPLAUSIBLE, or NOT_RUN, and the next item that fits starts. -/
  | calItemDone (item : Nat) (m : CalMeas)
  /-- CAL_GAP_END (R381). The gap ends after GAP_MS, retaking baselines with event 0x68 when nothing is due. -/
  | calGapEnd
  /-- CAL_OVERDUE (R382). 60 s of drift above twice THRESH_C without a gap sets OVERDUE and posts event 0x69. -/
  | calOverdue
  /-- DERIVE_GO (R390). Writing CAL_DERIVE.GO starts the derivation of the staged placement offsets, or reads BUSY. -/
  | deriveGo (w : Word)
  /-- DERIVE_DONE (R390). The derivation ends, writing the staged offset table and CAL_DERIVE_CRC. -/
  | deriveDone
  /-- TRIM_STORE (R387). Erase, program and read-back of the inactive trim slot end, validating or refusing the COMMIT. -/
  | trimStore (eraseOk programOk validOk : Bool)
  /-- BIST_REQUEST (R403). Writing BST_REQ.GO starts an on-demand test of a block, or answers REJECTED, BUSY or NOT_RUN. -/
  | bistRequest (w : Word)
  /-- BIST_DONE (R406). A block test ends; its SRAM is restored and its result is judged, and a failure fences the chip into SAFE. -/
  | bistDone (misr count code ms : Nat)
  /-- BIST_WATCHDOG (R403). A test still running at 35 ms ends with CODE 0x3C and fails. -/
  | bistWatchdog (misr count : Nat)
  /-- BIST_PRECONDITION_LOSS (R407). VDD_CORE leaving range or loss of root lock during a test ends it NOT_RUN. -/
  | bistPreconditionLoss
  /-- PARK_ENTER (R397). When the park wait ends the engine enters PARK, completes PARK, stops polling, idles the links and starts the save. -/
  | parkEnter
  /-- PARK_SAVE_DONE (R398). The firmware, gatekeeper data and SRAM image are saved and the park record written. -/
  | parkSaveDone
  /-- PARK_BIST_DONE (R399). Park BIST ends: pass switches domains off and writes the tag, failure enters SAFE, NOT_RUN stays in PARK untagged. -/
  | parkBistDone (ran : Bool) (runs : List BistRun) (entryMs bistMs : Nat)
  /-- PARK_WAKE (R401). Writing BST_PARK_CTRL.WAKE in PARK starts a quick start, or is held until park entry finishes. -/
  | parkWake
  /-- COUNTER_CONFIG (R413). A write to PMU_CNT_CFG selects the counter's event and starts a new epoch. -/
  | counterConfig (b k : Nat) (w : Word)
  /-- COUNTER_FREEZE (R414). Setting or clearing PMU_CTRL.FREEZE stops or restarts every counter in the same cc. -/
  | counterFreeze (w : Word)
  /-- SLOT_CLEAR (R416). Writing PMU_CTRL.TD_CLEAR starts a new epoch for all 24 slot counters. -/
  | slotClear (w : Word)
  /-- SNAPSHOT_ENABLE (R419). Setting PMU_SNAP_CFG.ENABLE reads SNAP_BASE and LOG2N. -/
  | snapshotEnable (w : Word)
  /-- SNAPSHOT_GO (R418). Writing PMU_SNAP_CTRL.GO takes a snapshot of every counter into the host ring. -/
  | snapshotGo
  /-- SNAPSHOT_PERIOD (R418). Every PERIOD_US µs a snapshot is taken, or skipped while the previous one is still being written. -/
  | snapshotPeriod
  /-- POWER_LOSS (R57). The rails are removed: the engine falls to OFF and cannot drive FAULT_BLANK_N; the park tag, the HBM3 contents and the live protected items are lost, and a trim store in progress is left as R388 gives. -/
  | powerLoss
  /-- RAILS_UP (R53). The rails come up: MGT_RESET_CAUSE.POWER_ON is set, the pulls and FAULT_BLANK_N low take effect, and if RESET_N is already high the engine stays in OFF until RESET_N is held low for 10 µs and rises again. -/
  | railsUp (resetHigh : Bool)
  /-- SELF_REFRESH_REENTRY (R282). After a request has cancelled self-refresh entry, the gatekeeper starts entry again once 64 cc have passed without a request. -/
  | selfRefreshReentry
  deriving DecidableEq, Repr

end Sys2Proof
end

