-- ==== Sys2Proof/WellFormed.lean ====
section
/-! DEFINITION. Well-formed commands: the ranges of their operands. A ring index is below 64, an event ring below 8,
a channel below 32, a word address is a multiple of 4 in the 1 MiB of BAR0, in BAR2 or in configuration space, a flash
address lies in the 16 MiB of a serial flash that takes 24-bit addresses, a record field fits the width that its
message gives it, a payload has the length that its format gives it. -/

namespace Sys2Proof

/-- What the host writes into its own memory stands at addresses a PCIe request can name. -/
abbrev cellsOk (hw : Cells) : Prop := ∀ c ∈ hw, c.1 < 2 ^ 64

/-- A word address: BAR0 below 0x10_0000, BAR2 from there on, configuration space from 0x20_0000 on. -/
abbrev addrOk (a : Nat) : Prop := a % 4 = 0 ∧ (a < 0x101000 ∨ (0x200000 ≤ a ∧ a < 0x201000))

/-- The address of a 64-bit word of HBM3. -/
abbrev eccAddrOk (a : Nat) : Prop := a % 8 = 0 ∧ a < 0x600000000

/-- The words in error that a command reports lie in HBM3 (R266). -/
abbrev eccOk (e : EccReads) : Prop := (∀ w ∈ e.corrected, eccAddrOk w.addr) ∧ ∀ w ∈ e.bad, eccAddrOk w.addr

/-- The copies of a record are 10-bit codes (R320). -/
abbrev copiesOk (h : BackCopies) : Prop := (∀ w ∈ h.bc0, w < 2 ^ 10) ∧ ∀ w ∈ h.bc1, w < 2 ^ 10

/-- A negotiated PCIe link: a speed and a width of R64, or both 0 for none. -/
abbrev linkOk (speed width : Nat) : Prop := speed < 16 ∧ width < 32

/-- Whether every operand of a command is in its range. -/
def Instr.wf : Instr → Bool
  | .resetNFall => true
  | .resetNRise _ _ speed width prog => decide (linkOk speed width ∧ ∀ c ∈ prog, c.1 < 2 ^ 24)
  | .railTrip rail _ => decide (rail < 6)
  | .clockLoss _ => true
  | .rootPllLock => true
  | .firmwareImageCheck _ _ => true
  | .hbmTraining _ raaimt raammt => decide (raaimt < 512 ∧ raammt < 512)
  | .parkRestore image ecc => decide ((∀ v ∈ image, v < 2 ^ 16) ∧ eccOk ecc)
  | .deviceTrimRead => true
  | .fullSelfTest _ runs => runs.all (fun r => r.block < 16)
  | .readyReached _ => true
  | .perstNFall speed width => decide (linkOk speed width)
  | .functionLevelReset speed width => decide (linkOk speed width)
  | .d3hotEntry speed width => decide (linkOk speed width)
  | .chipReset _ => true
  | .parkReqFall => true
  | .parkReqRise => true
  | .sosRise _ => true
  | .stageOkTimeout => true
  | .doorbellPoll hw => decide (cellsOk hw)
  | .nudge _ hw => decide (cellsOk hw)
  | .doorbellEnable _ => true
  | .sqEnable q _ => decide (q < 64)
  | .sqDisable q _ => decide (q < 64)
  | .eqEnable e _ => decide (e < 8)
  | .eventQueueDrain hw => decide (cellsOk hw)
  | .eqModTimer e => decide (e < 8)
  | .armStripe q _ => decide (q < 64)
  | .abortStripe q _ => decide (q < 64)
  | .streamBuf q hw => decide (q < 64 ∧ cellsOk hw)
  | .loadTable q hw => decide (q < 64 ∧ cellsOk hw)
  | .saveTable q => decide (q < 64)
  | .compress q hw => decide (q < 64 ∧ cellsOk hw)
  | .decompress q hw => decide (q < 64 ∧ cellsOk hw)
  | .codecJobComplete engine => decide (engine < 6)
  | .codecJobResume engine => decide (engine < 6)
  | .scan q hw => decide (q < 64 ∧ cellsOk hw)
  | .scanComplete engine ecc => decide (engine < 4 ∧ eccOk ecc)
  | .witness q => decide (q < 64)
  | .witnessComplete compressor ecc => decide (compressor < 2 ∧ eccOk ecc)
  | .commit q => decide (q < 64)
  | .barrier q => decide (q < 64)
  | .barrierDone => true
  | .park q => decide (q < 64)
  | .protStage _ => true
  | .protCancel _ => true
  | .protStatus target _ => decide (target < 128)
  | .protRead target count offset32 _ => decide (target < 128 ∧ count < 2 ^ 8 ∧ offset32 < 2 ^ 8)
  | .protConfirm target count crc nonce _ => decide (target < 128 ∧ count < 2 ^ 8 ∧ crc < 2 ^ 32 ∧ nonce < 2 ^ 32)
  | .protRefuse target count _ => decide (target < 128 ∧ count < 2 ^ 8)
  | .protTimeout => true
  | .pwrReqWrite _ => true
  | .blockDrainedOff k => decide (k < 16)
  | .blockIdleTimer k => decide (k < 16)
  | .blockNapTimer k => decide (k < 16)
  | .blockWake k ch => decide (k < 16 ∧ ch < 32)
  | .blockLeaveOff k req => decide (k < 16 ∧ req < 4)
  | .registerWrite addr _ => decide (addrOk addr)
  | .latchedLoRead addr wide => decide (addrOk addr) && (!wide || decide (addrOk (addr + 4)))
  | .readClear addr => decide (addrOk addr)
  | .dmaAbort ch => decide (ch < 32)
  | .dmaReleaseHalt ch => decide (ch < 32)
  | .dmaCplTimeout ch => decide (ch < 32)
  | .dmaCplError ch => decide (ch < 32)
  | .lateCompletion ch => decide (ch < 32)
  | .descriptorFetch ch hw => decide (ch < 32 ∧ cellsOk hw)
  | .transferComplete ch => decide (ch < 32)
  | .azradBlock ecc => decide (eccOk ecc)
  | .sovisRecord ecc => decide (eccOk ecc)
  | .templateLineFill line ecc => decide (line < 262144 ∧ eccOk ecc)
  | .bandRelease => true
  | .parserResume => true
  | .bandRetire => true
  | .densityBandDone => true
  | .blurBandDone => true
  | .paneSliceDone ecc => decide (eccOk ecc)
  | .paneBufferFree => true
  | .recomputeBand => true
  | .bandCorrected => true
  | .entryStepBegin => true
  | .entryStepComplete ecc => decide (eccOk ecc)
  | .repaymentWrite ecc => decide (eccOk ecc)
  | .refreshCredit pc => decide (pc < 32)
  | .refreshPay pc => decide (pc < 32)
  | .stackTempRead tempC => decide (tempC < 256)
  | .rfmIssue pc bank acts => decide (pc < 32 ∧ bank < 48 ∧ acts.length = 9)
  | .throttleExpire port => decide (port < 9)
  | .powerDownEntry pc => decide (pc < 32)
  | .selfRefreshRequest => true
  | .eccCeReport => true
  | .sillFetchDone ecc => decide (eccOk ecc)
  | .positionSlot _ _ _ _ _ => true
  | .enterWaitSos => true
  | .stripeArm => true
  | .stripeDone => true
  | .stripeOutcome => true
  | .stallTimeout => true
  | .fbHoldExpire => true
  | .flashCountClear => true
  | .linkEnable _ => true
  | .linkDisable _ => true
  | .relatch _ => true
  | .knockSend => true
  | .knockTimeout => true
  | .knockReply h => decide (copiesOk h)
  | .latchStart => true
  | .laneStatus h => decide (copiesOk h)
  | .latchTimeout => true
  | .openTimeout => true
  | .authResponse h => decide (copiesOk h)
  | .authTimeout => true
  | .trimAck h => decide (copiesOk h)
  | .trimRetry => true
  | .frameStatus h => decide (copiesOk h)
  | .frameStatusMissing frame => decide (frame < 2 ^ 48)
  | .doneStatusWaitExpire => true
  | .backchannelTimeout lane => decide (lane < 2)
  | .naluHello seq role stepping fw die lanes => decide (lanes < 2 ^ 8 ∧ seq < 2 ^ 16 ∧ role < 2 ^ 8 ∧ stepping < 2 ^ 8 ∧ fw < 2 ^ 16 ∧ die < 2 ^ 64)
  | .naluAck ackSeq state fenced => decide (ackSeq < 2 ^ 16 ∧ state < 2 ^ 8 ∧ fenced < 2 ^ 8)
  | .naluAckTimer => true
  | .naluResend seq => decide (seq < 2 ^ 16)
  | .naluLinkLost => true
  | .naluLaneDrop lane => decide (lane < 8)
  | .naluEntry seq ring index raw => decide (seq < 2 ^ 16 ∧ ring < 64 ∧ index < 2 ^ 32 ∧ raw.length = 64)
  | .naluCommitSet seq commitId mask _ crcs => decide ((∀ c ∈ crcs, c < 2 ^ 32) ∧ seq < 2 ^ 16 ∧ commitId < 2 ^ 32 ∧ mask < 2 ^ 16)
  | .naluTableChunk seq tableId offset data => decide (seq < 2 ^ 16 ∧ tableId < 2 ^ 16 ∧ offset < 2 ^ 32 ∧ data.length ≤ 2048)
  | .naluFetched seq ring index => decide (seq < 2 ^ 16 ∧ ring < 64 ∧ index < 2 ^ 32)
  | .naluSig seq _ dose blocks => decide (seq < 2 ^ 16 ∧ dose < 2 ^ 32 ∧ blocks.length = 64)
  | .naluRecompute seq _ round kind mask => decide (seq < 2 ^ 16 ∧ round < 2 ^ 8 ∧ kind < 2 ^ 8 ∧ mask < 2 ^ 64)
  | .recomputeDone ecc => decide (eccOk ecc)
  | .naluResult seq _ round dose blocks ecc => decide (seq < 2 ^ 16 ∧ round < 2 ^ 8 ∧ dose < 2 ^ 32 ∧ blocks.length = 64 ∧ eccOk ecc)
  | .voteClose _ ecc => decide (eccOk ecc)
  | .naluVerdict seq _ doseV blockV => decide (seq < 2 ^ 16 ∧ doseV < 2 ^ 8 ∧ blockV.length = 64)
  | .naluBlock seq _ depth data => decide (seq < 2 ^ 16 ∧ depth < 64 ∧ data.length ≤ 2048)
  | .naluDecision seq flash outcome => decide (seq < 2 ^ 16 ∧ flash < 2 ^ 48 ∧ outcome < 2 ^ 8)
  | .naluMissList seq flash => decide (seq < 2 ^ 16 ∧ flash < 2 ^ 48)
  | .naluFinding seq kind point code => decide (seq < 2 ^ 16 ∧ kind < 2 ^ 8 ∧ point < 2 ^ 64 ∧ code < 2 ^ 8)
  | .naluFence seq cause hard flash => decide (seq < 2 ^ 16 ∧ cause < 2 ^ 8 ∧ hard < 2 ∧ flash < 2 ^ 48)
  | .naluEvent seq raw => decide (seq < 2 ^ 16 ∧ raw.length = 32)
  | .naluOutcome seq record holes => decide (seq < 2 ^ 16 ∧ record.length = 64 ∧ holes.length % 16 = 0)
  | .naluHoles seq first holes => decide (seq < 2 ^ 16 ∧ first < 2 ^ 32 ∧ holes.length % 16 = 0)
  | .naluSoloTimeout => true
  | .nlkRejoin _ => true
  | .nlkFence _ => true
  | .rejoinTimeout => true
  | .sensorRead temps => decide (temps.length = 16)
  | .calRunNow _ => true
  | .calGapOpen => true
  | .calItemDone item _ => decide (item < 6)
  | .calGapEnd => true
  | .calOverdue => true
  | .deriveGo _ => true
  | .deriveDone => true
  | .trimStore _ _ _ => true
  | .bistRequest _ => true
  | .bistDone misr count code _ => decide (misr < 2 ^ 64 ∧ count < 2 ^ 32 ∧ code < 2 ^ 8)
  | .bistWatchdog misr count => decide (misr < 2 ^ 64 ∧ count < 2 ^ 32)
  | .bistPreconditionLoss => true
  | .parkEnter => true
  | .parkSaveDone => true
  | .parkBistDone _ runs _ _ => runs.all (fun r => r.block < 16)
  | .parkWake => true
  | .counterConfig b k _ => decide (b < 16 ∧ k < 8)
  | .counterFreeze _ => true
  | .slotClear _ => true
  | .snapshotEnable _ => true
  | .snapshotGo => true
  | .snapshotPeriod => true
  | .powerLoss => true
  | .railsUp _ => true
  | .selfRefreshReentry => true

end Sys2Proof
end

