-- ==== Sys2Proof/Decode.lean ====
section
/-! DEFINITION. The command that a word spells. The table of commands gives no row any bits (every row's "fields" is
empty): commands reach the engine at its registers, its rings, its lanes and its balls, so no word spells one. -/

namespace Sys2Proof

/-- The command that `nbits` bits of value `w` spell: none, since no row of the table has bits. -/
def decodeTableWord (nbits w : Nat) : Option Instr :=
  match nbits, w with
  | _, _ => none

end Sys2Proof
end

