-- ==== Sys2Proof/Machine/Memory.lean ====
section
/-! DEFINITION. Sparse stores and memories: reading, writing, the canonical form, and byte order. Every register
file, table and memory of the model is a list of (key, value) pairs with keys strictly rising and no entry equal to
what its key reads as when unlisted; the functions here are the only ones that touch such a list. -/

namespace Sys2Proof.Machine

/-- The value at key `k`: the listed one, or what an unlisted `k` reads as, `d k`. -/
def Sparse.get {β : Type} (d : Nat → β) : Sparse β → Nat → β
  | [], k => d k
  | (a, b) :: m, k => if a = k then b else Sparse.get d m k

/-- Insert `v` at `k` into a list with rising keys, replacing what stands there. -/
def Sparse.put {β : Type} : Sparse β → Nat → β → Sparse β
  | [], k, v => [(k, v)]
  | (a, b) :: m, k, v =>
    if k < a then (k, v) :: (a, b) :: m
    else if k = a then (k, v) :: m
    else (a, b) :: Sparse.put m k v

/-- Remove key `k`. -/
def Sparse.drop {β : Type} : Sparse β → Nat → Sparse β
  | [], _ => []
  | (a, b) :: m, k => if a = k then Sparse.drop m k else (a, b) :: Sparse.drop m k

/-- Write `v` at `k`, keeping the canonical form: a value equal to what `k` reads as unlisted removes the entry. -/
def Sparse.set {β : Type} [DecidableEq β] (d : Nat → β) (m : Sparse β) (k : Nat) (v : β) : Sparse β :=
  if v = d k then Sparse.drop m k else Sparse.put m k v

/-- Write the values of `vs` at `k`, `k + 1`, ... -/
def Sparse.setList {β : Type} [DecidableEq β] (d : Nat → β) (m : Sparse β) (k : Nat) : List β → Sparse β
  | [] => m
  | v :: vs => Sparse.setList d (Sparse.set d m k v) (k + 1) vs

/-- The values at `k`, ..., `k + n - 1`. -/
def Sparse.getList {β : Type} (d : Nat → β) (m : Sparse β) (k n : Nat) : List β :=
  (List.range n).map (fun i => Sparse.get d m (k + i))

/-- The canonical form: keys strictly rising, no entry equal to its default. -/
def Sparse.wf {β : Type} [DecidableEq β] (d : Nat → β) : Sparse β → Bool
  | [] => true
  | [(a, b)] => b ≠ d a
  | (a, b) :: (a', b') :: m => b ≠ d a && a < a' && Sparse.wf d ((a', b') :: m)

/-! ## Memories -/

/-- What an unlisted byte of host memory or of HBM3 reads as: 0 (DESIGN CHOICE, log entry 3). -/
def ramByte : Nat → Byte := fun _ => 0#8

/-- What an unlisted byte of the serial flash reads as: unwritten bytes read 0xFF (R385). -/
def flashByte : Nat → Byte := fun _ => 0xFF#8

/-- The canonical form of a memory (host memory, HBM3). -/
def Memory.wf (m : Sparse Byte) : Bool := Sparse.wf ramByte m

/-- One byte of host memory or HBM3. -/
def Memory.byte (m : Sparse Byte) (a : Nat) : Byte := Sparse.get ramByte m a

/-- `n` bytes from address `a`. -/
def Memory.bytes (m : Sparse Byte) (a n : Nat) : List Byte := Sparse.getList ramByte m a n

/-- Write bytes from address `a` on. -/
def Memory.write (m : Sparse Byte) (a : Nat) (bs : List Byte) : Sparse Byte := Sparse.setList ramByte m a bs

/-- Apply what a command says the host wrote into its memory, in order. -/
def Memory.apply (m : Sparse Byte) (hw : Cells) : Sparse Byte :=
  hw.foldl (fun m c => Sparse.set ramByte m c.1 c.2) m

/-! ## Little-endian numbers (R9) -/

/-- The `k` bytes of `n`, least significant first. -/
def le : Nat → Nat → List Byte
  | 0, _ => []
  | k + 1, n => BitVec.ofNat 8 n :: le k (n / 256)

/-- The number whose bytes, least significant first, are given. -/
def unle : List Byte → Nat
  | [] => 0
  | b :: bs => b.toNat + 256 * unle bs

/-- The unsigned number in bytes `o` to `o + k - 1` of `bs`; bytes past the end count 0. -/
def num (bs : List Byte) (o k : Nat) : Nat := unle ((bs.drop o).take k)

/-- A `w`-bit pattern read as a two's complement number. -/
def sgn (w n : Nat) : Int := if n % 2 ^ w < 2 ^ (w - 1) then (n % 2 ^ w : Nat) else (n % 2 ^ w : Nat) - (2 ^ w : Nat)

/-- The `w`-bit two's complement pattern of a number. -/
def unsgn (w : Nat) (i : Int) : Nat := (i % (2 ^ w : Nat)).toNat

/-- Bits [lo + w - 1 : lo] of `n`. -/
def bits (n lo w : Nat) : Nat := n / 2 ^ lo % 2 ^ w

/-- Bit `i` of `n`. -/
def bit (n i : Nat) : Bool := n.testBit i

/-- A count that saturates at `w` bits. -/
def sat (w n : Nat) : Nat := min n (2 ^ w - 1)

/-- 1 for true, 0 for false. -/
def b2n (b : Bool) : Nat := if b then 1 else 0

/-- Replace element `i` of a list; an index past the end changes nothing. -/
def setAt {α : Type} (l : List α) (i : Nat) (v : α) : List α := l.set i v

/-- Change element `i` of a list. -/
def modAt {α : Type} (l : List α) (i : Nat) (f : α → α) : List α := l.modify i f

end Sys2Proof.Machine
end

