-- ==== Sys2Proof/Machine/Crc.lean ====
section
/-! DEFINITION. Check values: CRC-32C and CRC-64/ECMA-182 (R119, R120), the position frame's CRC-5 (R288), SHA-256
and HMAC-SHA-256 (R336: RFC 2104, FIPS 180-4), and the lane scrambler (R328). -/

namespace Sys2Proof.Machine

/-- One bit of the reflected CRC-32C division (R119). -/
def crc32cBit (r : Nat) : Nat := if r % 2 = 1 then (r / 2) ^^^ 0x82F63B78 else r / 2

/-- One byte of the reflected CRC-32C division. -/
def crc32cByte (r : Nat) (b : Byte) : Nat :=
  crc32cBit (crc32cBit (crc32cBit (crc32cBit (crc32cBit (crc32cBit (crc32cBit (crc32cBit (r ^^^ b.toNat))))))))

/-- CRC-32C of `bs` from `seed`, both in reported form (R120). -/
def crc32c (seed : Nat) (bs : List Byte) : Nat :=
  (bs.foldl crc32cByte (seed ^^^ 0xFFFFFFFF)) ^^^ 0xFFFFFFFF

/-- One bit of the CRC-64/ECMA-182 division (R119). -/
def crc64Bit (r : Nat) : Nat :=
  if r.testBit 63 then (r * 2 % 2 ^ 64) ^^^ 0x42F0E1EBA9EA3693 else r * 2 % 2 ^ 64

/-- One byte of the CRC-64/ECMA-182 division. -/
def crc64Byte (r : Nat) (b : Byte) : Nat :=
  crc64Bit (crc64Bit (crc64Bit (crc64Bit (crc64Bit (crc64Bit (crc64Bit (crc64Bit (r ^^^ (b.toNat * 2 ^ 56)))))))))

/-- CRC-64/ECMA-182 of `bs` from `seed` (R120). -/
def crc64 (seed : Nat) (bs : List Byte) : Nat := bs.foldl crc64Byte seed

/-- The check value a POLY selects (R119): 0 CRC-32C, 1 CRC-64/ECMA-182. -/
def checkValue (poly seed : Nat) (bs : List Byte) : Nat := if poly = 0 then crc32c seed bs else crc64 seed bs

/-- One bit of the CRC-5 of a position frame: x^5 + x^2 + 1, shifting toward the most significant bit (R288). -/
def crc5Bit (r : Nat) (b : Bool) : Nat :=
  if xor (r.testBit 4) b then (r * 2 % 32) ^^^ 5 else r * 2 % 32

/-- The CRC-5 of the listed bits, in transmission order, from 0b11111 (R288). -/
def crc5 (bs : List Bool) : Nat := bs.foldl crc5Bit 31

/-! ## SHA-256 (FIPS 180-4) and HMAC (RFC 2104), for the proof of the head (R336) -/

/-- Apply a function `n` times. -/
def iter {α : Type} (f : α → α) : Nat → α → α
  | 0, a => a
  | n + 1, a => iter f n (f a)

/-- The whole part of the `k`-th root of `n`: `r` is what its bits above bit `i` make. -/
def rootBits (k n : Nat) : Nat → Nat → Nat
  | 0, r => r
  | i + 1, r => rootBits k n i (if (r + 2 ^ i) ^ k ≤ n then r + 2 ^ i else r)

/-- The first 32 bits of the fractional part of the `k`-th root of a prime below 2^10, from which SHA-256 takes its
constants. -/
def rootFrac (k p : Nat) : Nat := rootBits k (p * 2 ^ (32 * k)) 37 0 % 2 ^ 32

/-- The first 64 primes: no divisor from 2 to 17 but themselves. -/
def primes64 : List Nat :=
  (List.range 312).filter (fun p => 2 ≤ p && (List.range 18).all (fun d => d < 2 || d == p || p % d != 0))

/-- A 32-bit word turned right by `n` places. -/
def turn (n x : Nat) : Nat := x * (2 ^ 32 + 1) / 2 ^ n % 2 ^ 32

/-- Three turns of a word, added without carry. -/
def turns (i j k x : Nat) : Nat := turn i x ^^^ turn j x ^^^ turn k x

/-- The eight variables of the hash. -/
structure ShaVars where
  a : Nat
  b : Nat
  c : Nat
  d : Nat
  e : Nat
  f : Nat
  g : Nat
  h : Nat
  deriving DecidableEq, Repr

/-- One round with its constant and its message word. -/
def ShaVars.round (v : ShaVars) (k w : Nat) : ShaVars :=
  let t := v.h + turns 6 11 25 v.e + (v.g ^^^ (v.e &&& (v.f ^^^ v.g))) + k + w
  let m := (v.a &&& (v.b ||| v.c)) ||| (v.b &&& v.c)
  { a := (t + turns 2 13 22 v.a + m) % 2 ^ 32, b := v.a, c := v.b, d := v.c, e := (v.d + t) % 2 ^ 32, f := v.e,
    g := v.f, h := v.g }

/-- The 16 message words from the next round on move up by one. -/
def slide (win : List Nat) : List Nat :=
  let x := win.getD 1 0
  let y := win.getD 14 0
  win.drop 1 ++ [(win.getD 0 0 + (turn 7 x ^^^ turn 18 x ^^^ x / 8) + win.getD 9 0 +
    (turn 17 y ^^^ turn 19 y ^^^ y / 1024)) % 2 ^ 32]

/-- A round for each constant, the message words passing through the window. -/
def ShaVars.rounds : List Nat → List Nat → ShaVars → ShaVars
  | [], _, v => v
  | k :: ks, win, v => ShaVars.rounds ks (slide win) (v.round k (win.headD 0))

/-- The sum of two sets of variables. -/
def ShaVars.add (v u : ShaVars) : ShaVars :=
  let s := fun x y => (x + y) % 2 ^ 32
  ⟨s v.a u.a, s v.b u.b, s v.c u.c, s v.d u.d, s v.e u.e, s v.f u.f, s v.g u.g, s v.h u.h⟩

/-- The variables after one 64-byte block. -/
def ShaVars.block (v : ShaVars) (blk : List Byte) : ShaVars :=
  let win := (List.range 16).map (fun i => unle ((blk.drop (4 * i)).take 4).reverse)
  v.add (ShaVars.rounds (primes64.map (rootFrac 3)) win v)

/-- The digest: the variables, each most significant byte first. -/
def ShaVars.digest (v : ShaVars) : List Byte :=
  [v.a, v.b, v.c, v.d, v.e, v.f, v.g, v.h].flatMap (fun x => (le 4 x).reverse)

/-- The variables before a message: from the square roots of the first eight primes. -/
def ShaVars.start : ShaVars :=
  let r := fun p => rootFrac 2 p
  ⟨r 2, r 3, r 5, r 7, r 11, r 13, r 17, r 19⟩

/-- A message padded to whole blocks: 0x80, zeros, its length in bits. -/
def shaPad (m : List Byte) : List Byte :=
  m ++ 0x80#8 :: List.replicate ((119 - m.length % 64) % 64) 0#8 ++ (le 8 (8 * m.length)).reverse

/-- SHA-256 of a byte string. -/
def sha256 (m : List Byte) : List Byte :=
  let p := shaPad m
  ((List.range (p.length / 64)).foldl (fun v i => v.block ((p.drop (64 * i)).take 64)) ShaVars.start).digest

/-- HMAC-SHA-256 with a key of at most 64 bytes. -/
def hmacSha256 (key msg : List Byte) : List Byte :=
  let masked := fun x => (key ++ List.replicate (64 - key.length) 0#8).map (fun b => b ^^^ x)
  sha256 (masked 0x5C#8 ++ sha256 (masked 0x36#8 ++ msg))

/-! ## The lane scrambler (R328) -/

/-- One bit of the scrambler: the register after it and the bit sent. -/
def scrambleBit (r : Nat) : Nat × Nat :=
  let fb := r / 2 ^ 15 % 2
  let r2 := r * 2 % 2 ^ 16
  (if fb = 1 then r2 ^^^ 0x0039 else r2, fb)

/-- The next scrambled byte of a lane whose register is `r`: the register after it and the byte (R328). -/
def scrambleByte (r : Nat) : Nat × Nat :=
  (List.range 8).foldl (fun (p : Nat × Nat) i => ((scrambleBit p.1).1, p.2 + (scrambleBit p.1).2 * 2 ^ i)) (r, 0)

/-- The next `n` scrambled bytes of a lane whose register is `r`, and the register after them. -/
def scrambled : Nat → Nat → List Byte × Nat
  | 0, r => ([], r)
  | n + 1, r =>
    let p := scrambleByte r
    let q := scrambled n p.1
    (BitVec.ofNat 8 p.2 :: q.1, q.2)

end Sys2Proof.Machine
end

