-- ==== Sys2Proof/Config.lean ====
section
/-! DEFINITION. What the FLM-1024's manual leaves to the part, to chance or unstated: free values. Each is an opaque
constant without a body, so nothing can be proved of its value (assumption log entries 5 to 8). -/

namespace Sys2Proof.Config

/-- The fused 64-bit die identity (MGT_DIE_ID, R65): a value of the part, not of the manual (log entry 5). -/
opaque dieId : Nat

/-- The `n`-th 32-bit nonce of the protection sequence: drawn from the on-die random source (R95; log entry 6). -/
opaque protNonce : Nat → BitVec 32

/-- The `n`-th CHALLENGE nonce, 16 bytes as one number: drawn from the on-die random source (R336; log entry 6). -/
opaque authNonce : Nat → BitVec 128

/-- The 320 code lengths that the compressor chooses for a block, given the history before it (newest first) and the
block's bytes. R183 leaves the choice of matches and code lengths undefined beyond R182 (log entry 7). -/
opaque azradLengths : List Byte → List Byte → List Nat

/-- The next literal or match that the compressor writes within a block: its bits and the bytes that it codes, given the
history before it (newest first), the block, the place within the block and the block's code lengths (R183, log entry 7).
-/
opaque azradNext : List Byte → List Byte → Nat → List Nat → List Bool × Nat

/-- The `n`-th value that the manual leaves unstated where the machine goes on (log entry 4 lists the uses). -/
opaque freeValue : Nat → BitVec 64

end Sys2Proof.Config
end

