-- ==== Sys2Proof/Machine/State.lean ====
section
/-! DEFINITION. The state of one FLM-1024, as plain data: the BAR0 register file, the balls, the always-on domain,
and what each of the seventeen subsystems holds beside its registers. Register fields live in `regs` (what a read
returns; for a commit field the staged copy) and `live` (the live copy of a commit field, R10), kept under the
number `Field.key`; every other structure below is state that the manual gives the machine beside its registers. -/

namespace Sys2Proof.Machine

/-- A memory: bytes at addresses, canonical (Ops/Memory.lean). -/
abbrev Memory := List Host.Cell

/-- The global device states (R14). -/
inductive GState where
  | off | start | ready | armed | run | park | safe
  deriving DecidableEq, Repr

/-- The stripe states other than IDLE (R295); IDLE is "no stripe held". -/
inductive StripeState where
  | armed | waitSos | run | tail | done | aborted
  deriving DecidableEq, Repr

/-- The shutter link's states (R331). -/
inductive LinkState where
  | down | knock | latch | opened | failed | fenced
  deriving DecidableEq, Repr

/-- The actual states of a block (MGT_PWR_STATE). -/
inductive PwrState where
  | run | idle | nap | off
  deriving DecidableEq, Repr

/-- How far START has come (the phases of R57 that a command ends). -/
inductive StartPhase where
  | boot | locked | imaged | stackUp | restored | trimsRead | tested
  deriving DecidableEq, Repr

/-- One event-ring entry before SQ_CONS, TIME and PHASE are added (R87). -/
structure Event where
  status : Nat
  source : Nat
  tag : Nat
  sq : Nat
  code : Nat
  info : Nat
  data0 : Nat
  data1 : Nat
  deriving DecidableEq, Repr

/-- An event waiting on chip for its event ring (R18, R89). -/
structure HeldEvent where
  ring : Nat
  ev : Event
  deriving DecidableEq, Repr

/-- What the HIF holds of a submission ring beside its registers (R71, R73): the base and size read at enable, its
event ring, its consumer index, the consumer index last written back (2^32 for none since the enable), the producer index
last read from the doorbell page, the stripes whose remaining buffers are being discarded (identity, pass, index of the
ARM_STRIPE), in stream order (R158), and how often the ring has been enabled. -/
structure SubRing where
  base : Nat
  size : Nat
  eq : Nat
  cons : Nat
  written : Nat
  prodSeen : Nat
  discard : List (Nat × Nat × Nat)
  epoch : Nat
  deriving DecidableEq, Repr

/-- What the HIF holds of an event ring beside its registers (R71, R88, R90): base and size read at enable, the
producer index, the producer index last written back (2^32 for none since the enable), the consumer index last read, and
how many written events no interrupt has covered yet. -/
structure EvRing where
  base : Nat
  size : Nat
  prod : Nat
  written : Nat
  consSeen : Nat
  uncovered : Nat
  deriving DecidableEq, Repr

/-- A submission entry taken and not completed (R75, R77): its ring, its index (with the number of the ring's enable
above bit 31, so that two entries never share one), its 64 bytes, whether its action has begun, and for an ARM_STRIPE
this chip's answer to R79 at the moment it was taken (0 when it passes). -/
structure Entry where
  q : Nat
  idx : Nat
  raw : List Byte
  started : Bool
  answer : Nat
  deriving DecidableEq, Repr

/-- The host interface beside its registers: polling, rings, entries taken (oldest first), the holding queue of R89,
the count still to be posted as events lost, a further poll due (R70), what a host reset keeps until the DEV_EQ
ring is enabled (R61), and the vectors raised (R90; the output of MSI-X, newest first). -/
structure Hif where
  polling : Bool
  sq : List SubRing
  eq : List EvRing
  entries : List Entry
  hold : List HeldEvent
  lostToPost : Nat
  pollAgain : Bool
  keptOutcomes : List Event
  keptEvents : List Event
  awaitDevEq : Bool
  msi : List Nat
  deriving DecidableEq, Repr

/-- A held beam-state authorisation (R96): the confirmed CRC and the entry (ring, index) of the COMMIT that has
reserved it. -/
structure BeamAuth where
  crc : Nat
  reserved : Option (Nat × Nat)
  deriving DecidableEq, Repr

/-- The protection store (R94 to R97): the pending sequence (item and staged bytes) if one is PENDING, the item, LEN,
CRC and nonce of the last sequence, items accepted and waiting for a stripe boundary, the live items, and the
number of nonces drawn. -/
structure Prot where
  pending : Option (Nat × List Byte)
  lastItem : Nat
  lastLen : Nat
  lastCrc : Nat
  lastNonce : Nat
  waiting : List (Nat × List Byte)
  windows : List (Nat × Nat)
  flashWe : Bool
  pmuUser : Bool
  headKey : Option (List Byte)
  beamAuth : Option BeamAuth
  draws : Nat
  smbReply : List Byte
  smbAlert : Bool
  deriving DecidableEq, Repr

/-- A validated COMMIT waiting for its stripe boundary (R92, R93): its entry, BLOCK_MASK, COMMIT_ID, the fields and
tables of its pending set, whether it stores device trims (R387), and on a mirror the stripe whose end it waits for: the
low 32 bits of the index of its ARM_STRIPE plus 1; 0 for none (R29, log entry 140). -/
structure PendingCommit where
  q : Nat
  idx : Nat
  mask : Nat
  id : Nat
  fields : List (Nat × Nat)
  tables : List (Nat × Memory)
  storesTrims : Bool
  after : Nat
  deriving DecidableEq, Repr

/-- The commit controller: on a mirror what it copied of its staged tables when its lead took the last COMMIT (R92, R348),
validated COMMITs in CONTROL-ring order, the COMMIT whose trim store (R387) is still running, and on a mirror the sets
that arrived behind it. -/
structure Commits where
  taken : Option PendingCommit
  waiting : List PendingCommit
  storing : Option PendingCommit
  behind : List PendingCommit
  deriving DecidableEq, Repr

/-- The nine tables (R82): current, dwell trim, beam state, pass feed, placement offsets, correction, lane
equalisation, device trims, alignment; each as the bytes that differ from its cold-start contents. -/
structure Tables where
  cur : Memory
  dwell : Memory
  bstate : Memory
  feed : Memory
  offs : Memory
  corr : Memory
  eq : Memory
  trims : Memory
  align : Memory
  deriving DecidableEq, Repr

/-- A piece of host memory that a channel is moving (R105, R106): address, length, swap mode, wrap exponent (0 for
none), bytes moved. -/
structure Piece where
  addr : Nat
  len : Nat
  swap : Nat
  wrap : Nat
  moved : Nat
  deriving DecidableEq, Repr

/-- The request a channel runs (R107, R112): its entry, the piece being moved, the next link descriptor, the
descriptors read, and the bytes named and delivered so far. -/
structure Request where
  q : Nat
  idx : Nat
  piece : Piece
  next : Nat
  hops : Nat
  named : Nat
  delivered : Nat
  deriving DecidableEq, Repr

/-- What a DMA channel holds beside its registers: its request (R102); the bytes that have gone out of and into its
queue: of a STREAM channel the staging queue since it was last emptied (the queue itself stands in HBM3, R100, R267), of
a CODEC channel the codec's input since its job began (R102); and the STREAM ring that it was bound to last, whose work
it ends when the ring is disabled (R73). -/
structure Chan where
  req : Option Request
  rd : Nat
  wr : Nat
  ring : Option Nat
  deriving DecidableEq, Repr

/-- An Azrad decoder between two tokens (R162 to R169): its phase (0 before the stream header, 1 between blocks, 2
within a block, 3 ended), the block's 8-byte header, its output bytes so far, its 320 code lengths once read (CODED),
the payload bits used and whether that count is whole (after a resume inside a block it is known only mod 8: the state
area does not hold it), the history (newest first), and the bytes and CRC decoded so far. -/
structure Dec where
  phase : Nat
  hdr : List Byte
  done : Nat
  lens : List Nat
  used : Nat
  exact : Bool
  hist : List Byte
  total : Nat
  crc : Nat
  deriving DecidableEq, Repr

/-- The stream being fed to the parser (R170 to R173): its mode once known, its bytes fetched and used so far, coded
bytes that the FEED channels have moved out of the staging queue and no decompressor has decoded, the index of the next
block, the decoder, the decoded bytes from STRIPE_END on that wait for the END block (R172), whether the LAST buffer
has been taken, and the FEED channels that have stopped (R112). -/
structure Feed where
  raw : Option Bool
  fetched : Nat
  used : Nat
  buf : List Byte
  block : Nat
  dec : Dec
  tail : List Byte
  lastTaken : Bool
  stopped : List Nat
  deriving DecidableEq, Repr

/-- A host codec job or witness on an engine (R174 to R185): its entry, what it is (1 compress, 2 decompress,
3 witness), its DMA channel, whether it is preempted, for a witness the copy in HBM3 that holds its capture, and the bytes
that it has written so far (R186). -/
structure CodecJob where
  q : Nat
  idx : Nat
  kind : Nat
  ch : Nat
  preempted : Bool
  copy : Nat
  out : Nat
  deriving DecidableEq, Repr

/-- The codec beside its registers: the stream feed (R171), and the job of each engine 0 to 5 (R185). -/
structure Cdc where
  feed : Feed
  engines : List (Option CodecJob)
  deriving DecidableEq, Repr

/-- A host scan on a check engine or waiting for one (R84, R123): its entry, address, length, its starting value in
reported form, polynomial, space and SEED_ADDR, and the bytes scanned before it last stopped at a burst boundary. -/
structure Scan where
  q : Nat
  idx : Nat
  addr : Nat
  len : Nat
  value : Nat
  poly : Nat
  space : Nat
  seedAddr : Nat
  done : Nat
  deriving DecidableEq, Repr

/-- A shape in su (R143, R144): the two kinds the rasteriser sees (R188). -/
inductive Shape where
  | polygon (v : List (Int × Int))
  | contour (codes : List Nat) (points : List (Int × Int))
  deriving DecidableEq, Repr

/-- An item of a band or of a definition (R131): a shape with its class, or a placement grid. A PLACE is an ARRAY of
one instance; `cls` 255 keeps the classes (R148, R149). -/
inductive Item where
  | shape (cls : Nat) (s : Shape)
  | place (tid orient cls nx ny : Nat) (dx dy px py : Int)
  deriving DecidableEq, Repr

/-- A template (R145, R196): identity, declared box, its items each with its byte offset in the spill region and its
byte length, depth, the offset of its definition in the spill region, and the definition's bytes. -/
structure Template where
  id : Nat
  bx0 : Int
  by0 : Int
  bx1 : Int
  by1 : Int
  items : List (Item × Nat × Nat)
  depth : Nat
  off : Nat
  raw : List Byte
  deriving DecidableEq, Repr

/-- A primitive (R187): its class and its shape. -/
structure Prim where
  cls : Nat
  shape : Shape
  deriving DecidableEq, Repr

/-- A placed primitive, in the pass's pixel grid, with the output bands `k0` to `k1` and panes `p0` to `p1` whose bins
it enters (R194). -/
structure Placed where
  prim : Prim
  k0 : Nat
  k1 : Nat
  p0 : Nat
  p1 : Nat
  deriving DecidableEq, Repr

/-- The definition being read (between TEMPLATE_DEFINE and TEMPLATE_END, R145): the template so far, records counted,
and whether its content left the declared box. -/
structure OpenDef where
  t : Template
  count : Nat
  outside : Bool
  deriving DecidableEq, Repr

/-- A section read and not yet confirmed (R136): items in order, templates, fog rows, density edges (side, columns). -/
structure Section where
  items : List Item
  templates : List Template
  fogRows : List (Nat × List Nat)
  edges : List (Nat × List (List Nat))
  deriving DecidableEq, Repr

/-- The parser (R128 to R203) beside its registers: decoded input not yet read; whether STRIPE_BEGIN has been read,
the next SEQ, the offset of the next record; bands begun, whether STRIPE_END has been read and whether the stream has
ended in order or by a fault; FOG and the next fog row; classes defined, the warp; in the section being read the last
xmin, whether an item has come, the sides given; running CRCs of the section and the stream; template identities
defined, definition bytes, the definition being read; the section; confirmed templates; the stream bands confirmed and
not wholly expanded, bands expanded, expansion steps done in the oldest of them, the template line waited for, the
on-chip lines and the cached directory entries (R196; most recently used first); placed primitives in the order of
R189 whose last band is not retired; and the output bands released and retired. -/
structure Prs where
  input : List Byte
  opened : Bool
  seq : Nat
  offset : Nat
  bandsBegun : Nat
  endSeen : Bool
  finished : Bool
  failed : Bool
  fog : Bool
  fogNext : Nat
  classes : List (Nat × Nat)
  warp : Option (List Int × List Int)
  lastX : Option Int
  itemSeen : Bool
  sides : List Nat
  crcSection : Nat
  crcStripe : Nat
  defIds : List Nat
  defBytes : Nat
  curDef : Option OpenDef
  sect : Section
  templates : List Template
  todo : List (List Item)
  expanded : Nat
  expandPos : Nat
  needLine : Option Nat
  lines : List Nat
  dirs : List Nat
  placed : List Placed
  released : Nat
  retired : Nat
  deriving DecidableEq, Repr

/-- A class plane in the pane buffers (R216): its place and its coverage values, row by row. -/
structure Plane where
  band : Nat
  pane : Nat
  slice : Nat
  cls : Nat
  cov : List Nat
  deriving DecidableEq, Repr

/-- The rasteriser beside its registers: class planes held (oldest first), the next pane and slice of regular work
(R214), the band being recomputed (R218) with its own next unit (256 once rasterised), and of a slice begun and not
ended whether it belongs to the recompute, and how many of its planes are in the pane buffers (R217). A unit is 16
pane + slice. -/
structure Csm where
  planes : List Plane
  band : Nat
  unit : Nat
  recompute : Option (Nat × Nat)
  part : Option (Bool × Nat)
  deriving DecidableEq, Repr

/-- A witness entry held (R235): entry, stripe, pass, pane, band and, once its capture is taken, the copy in HBM3 that
holds it (R184, R267). -/
structure WitnessReq where
  q : Nat
  idx : Nat
  stripe : Nat
  pass : Nat
  paneX : Nat
  band : Nat
  capture : Option Nat
  deriving DecidableEq, Repr

/-- Dose correction beside its registers: the sash density grid (R222, R234; key Y * 1024 + X), neighbour density
(band, side, columns), fog nodes (key 5 r + c), the bands' B (R225; key as the grid), the sums v of R229 of the
band in correction (key row * 16384 + x; `vRecompute` for a recomputed band), panes that have entered correction
(band * 16 + pane), and the witnesses held. -/
structure Pec where
  rho : Sparse Nat
  edges : List (Nat × Nat × List (List Nat))
  fog : Sparse Nat
  blur : Sparse Nat
  v : Sparse Nat
  vRecompute : Sparse Nat
  entered : List Nat
  witnesses : List WitnessReq
  deriving DecidableEq, Repr

/-- A hole record (R261) without its reserved byte. -/
structure Hole where
  row : Nat
  louver : Nat
  depth : Nat
  cause : Nat
  flash : Nat
  reason : Nat
  deriving DecidableEq, Repr

/-- A repayment whose write has not landed (R257): target frame, depth, louver. -/
structure Repay where
  frame : Nat
  depth : Nat
  louver : Nat
  deriving DecidableEq, Repr

/-- The debt ledger of the held stripe (R256 to R261): flashes booked among the last 256, missed flashes still to be
booked (in a pair, until FRAME_STATUS time passes), repayments to write, holes in booked order, whether LEDGER_FULL
was posted, and the repayment bits set so far (frame, depth, louver). -/
structure Ledger where
  booked : List Nat
  writes : List Repay
  holes : List Hole
  fullPosted : Bool
  repaid : List Repay
  deriving DecidableEq, Repr

/-- The model of the segment of the next flash's frame (R304): its start slot has not come, or came without the frame
in the sill, or it was sent at a slot. Slots are absolute counts. -/
inductive SegState where
  | pending (startAt : Nat)
  | nosill
  | sent (start : Nat)
  deriving DecidableEq, Repr

/-- A stripe that passed R79 (R78): its entry and its fields. -/
structure ArmReq where
  q : Nat
  idx : Nat
  tag : Nat
  id : Nat
  pass : Nat
  passes : Nat
  streamSq : Nat
  rows : Nat
  lead : Nat
  originY : Nat
  originX : Nat
  resultAddr : Nat
  resultLen : Nat
  deriving DecidableEq, Repr

/-- The stripe held (R295): its request, state, the state it ended in, its counts (R313), the decision state of R303
and R304, the TRIM_ACK state (R338) with the last CRC that did not match, the entry steps
begun and completed, the frames whole in the sill and those being fetched (R308), fired frames whose FRAME_STATUS has
not come and those counted as missing, the frame fired last and whether its 4 µs have passed without one (R342), withheld
blocks (key 64 frame + depth), its ledger. Slots are
absolute slot counts of the port. -/
structure Stripe where
  req : ArmReq
  st : StripeState
  cause : Nat
  endState : Nat
  fbHold : Bool
  outcomeDone : Bool
  fired : Nat
  missed : Nat
  missCause : List Nat
  debts : Nat
  repaid : Nat
  switches : Nat
  withheld : Nat
  lastFlash : Option Nat
  nextFlash : Nat
  seg : SegState
  segEnd : Nat
  lastFire : Option Nat
  recentOver : List Nat
  missRun : Option (Nat × Nat × Nat)
  blankRun : Nat
  stageLow : Nat
  sosLatched : Bool
  stepNext : Int
  stepBusy : Option Int
  stepsDone : Int
  trimAcked : Bool
  trimRetryPosted : Bool
  trimWrong : Option Nat
  sill : List Nat
  sillWanted : List Nat
  awaiting : List Nat
  counted : List Nat
  lastFired : Option Nat
  overdue : Bool
  blanked : List Nat
  ledger : Ledger
  deriving DecidableEq, Repr

/-- The position port and the filter (R289, R293, R294): good slots in a row, locked, failing slots in a row, the
absolute slot count, the count at which w was 0, the last accepted Y of this lock, Y, X and Yf. -/
structure Port where
  good : Nat
  locked : Bool
  bad : Nat
  slots : Nat
  base : Nat
  lastY : Option Nat
  y : Nat
  x : Nat
  yf : Nat
  deriving DecidableEq, Repr

/-- The control symbols of the line code (R320). -/
inductive Ctl where
  | k28_5 | k28_2 | k28_1 | k28_4 | k27_7 | k29_7
  deriving DecidableEq, Repr

/-- A symbol of a lane before coding (R320): a data byte or a control symbol. -/
inductive Sym where
  | data (b : Byte)
  | ctl (c : Ctl)
  deriving DecidableEq, Repr

/-- A segment (R324, R325): the physical lane that carries it, the fields of its lintel, and the bytes of its payload
that are not 0. -/
structure Segment where
  phys : Nat
  frame : Nat
  stripe : Nat
  pass : Nat
  lane : Nat
  flags : Nat
  payload : Memory
  deriving DecidableEq, Repr

/-- A control record of the engine (R330). -/
inductive FwdRecord where
  | knock (maxRate role die : Nat)
  | latchGo (rate gen : Nat)
  | openMap (map : List Nat)
  | challenge (nonce : Nat)
  | arm (stripe pass dwell trimCrc : Nat)
  deriving DecidableEq, Repr

/-- What leaves the chip on its lanes, in the order sent (newest first): segments, the fire mark of a frame on its
physical lanes, tracking frames, a control record on its physical lanes, and the first idle or latch set of a lane
after a change of what it sends (R328); the sets between are in `LaneTx.sets`. -/
inductive Sent where
  | segment (g : Segment)
  | fire (lanes : List Nat) (frame : Nat)
  | track (lane word : Nat)
  | record (lanes : List Nat) (r : FwdRecord)
  | idleSet (lane : Nat) (body : List Byte)
  | latchSet (lane : Nat) (body : List Byte)
  deriving DecidableEq, Repr

/-- What a transmit lane sends when it has nothing else to send (R328, R331). -/
inductive TxMode where
  | electricalIdle | idleSets | latchSets
  deriving DecidableEq, Repr

/-- A transmit lane (R320, R328, R335): what it sends between segments, marks and records, its scrambler, the
equalisation entry in force, its running disparity (`neg` for negative), and the symbols of the sets that it sent before
its last segment, mark or record. -/
structure LaneTx where
  mode : TxMode
  lfsr : Nat
  pre : Nat
  main : Nat
  post : Nat
  neg : Bool
  sets : List (List Sym)
  deriving DecidableEq, Repr

/-- The shutter link beside its registers: state, the 34 transmit lanes, the physical lane of each logical lane of the
generation, whether the latch sets of this LATCH run, the last LANE_STATUS of this LATCH (R333), whether OPEN was
sent, the CHALLENGE outstanding (R336) and whether the proof in progress is the fresh one of R337, whether it has
ended, the proved identity, SHOTS proved per HEAD_ID, the number of nonces drawn, watching of the back-channel (R341),
a relatch or new knock due (R334), whether the knock timeout was posted (R332), and what was sent. -/
structure Shl where
  st : LinkState
  lanes : List LaneTx
  map : List (Nat × Nat)
  latching : Bool
  latchLock : Nat
  openSent : Bool
  challenge : Option Nat
  freshAsked : Bool
  freshEnded : Bool
  proved : Option Nat
  provedShots : List (Nat × Nat)
  draws : Nat
  watching : Bool
  relatchDue : Bool
  knockDue : Bool
  knockPosted : Bool
  sent : List Sent
  deriving DecidableEq, Repr

/-- A Nalu message sent (R355), with the fields of its payload. -/
inductive NaluMsg where
  | hello (role stepping fw die : Nat)
  | ack (seq state fenced : Nat)
  | entry (ring index : Nat) (raw : List Byte)
  | commitSet (id mask : Nat) (set : List (Nat × Nat)) (crcs : List Nat)
  | tableChunk (tableId offset : Nat) (data : List Byte)
  | fetched (ring index : Nat)
  | sig (step : Int) (dose : Nat) (blocks : List Nat)
  | recompute (step : Int) (round kind mask : Nat)
  | result (step : Int) (round dose : Nat) (blocks : List Nat)
  | verdict (step : Int) (doseV : Nat) (blockV : List Nat)
  | block (step : Int) (depth : Nat) (data : List Byte)
  | decision (flash outcome : Nat)
  | missList (flash : Nat)
  | finding (kind point code : Nat)
  | fence (cause hard flash : Nat)
  | event (ev : Event)
  | outcome (record holes : List Byte)
  | holes (first : Nat) (holes : List Byte)
  deriving DecidableEq, Repr

/-- The signatures of a step (R356): the dose row's and the written blocks'. -/
structure Sig where
  dose : Nat
  blocks : List Nat
  deriving DecidableEq, Repr

/-- The cross-check of a step whose vote is open (R356 to R360): this chip's and the partner's signatures, the kind of
recompute under way (0 dose, 1 blocks), its round (0 before the first) and its block mask, the bands corrected again in
this round with the doses they gave (key louver), the doses of the rounds before, this chip's and the partner's results
per round, the partner's entry bits of the blocks to be withheld, and whether this chip has sent its own. -/
structure Vote where
  step : Int
  mine : Option Sig
  theirs : Option Sig
  kind : Nat
  round : Nat
  mask : Nat
  redone : List Nat
  redose : Sparse Nat
  earlier : List (Sparse Nat)
  myResults : List Sig
  theirResults : List Sig
  theirBlocks : List (Nat × List Byte)
  blocksSent : Bool
  deriving DecidableEq, Repr

/-- A finding (R362): kind (0 stream fault, 1 input late, 2 stripe cause 0x06 to 0x0D), point and code; with it, for
this chip's own, the events that the lead posts when it is confirmed, and the cause that then ends the stripe. -/
structure Finding where
  kind : Nat
  point : Nat
  code : Nat
  posts : List Event
  cause : Nat
  deriving DecidableEq, Repr

/-- A Nalu message sent and not acknowledged (R354): its SEQ, the message, how often it was resent, and the lane that
carried it last. -/
structure NaluTx where
  seq : Nat
  msg : NaluMsg
  resent : Nat
  lane : Nat
  deriving DecidableEq, Repr

/-- The Nalu link and the pair, beside the registers of NLK: whether this chip is in a pair (R370), whether the link
is up, its 8 transmit lanes and the lane that carried the last message, the next SEQ to send and to receive (R354),
messages not acknowledged, the ACKs sent with their lanes, the partner's state and fence, whether that is hard, votes
(R357), this chip's and the partner's findings (R362), this chip's and the partner's flash decisions, a running count
of decided flashes, its values at the votes lost, the first entry step that no partner checks (R367), rejoin wanted or
running, on a mirror whether its lead has armed a stripe that the mirror has not (R29, log entry 140), the bytes of a
mirror's tables that have come for each SAVE_TABLE (ring, index, bytes; R351), the wakes from PARK that a lead has
forwarded (R396), the ledger's flashes awaiting FRAME_STATUS (R361) and on a mirror those whose time has passed, an outcome
being received for a fenced lead (R365), and whether a mirror whose lead has gone silent waits for the head's next
FRAME_STATUS, and whether it then carries the stripe (R366). -/
structure Nlk where
  paired : Bool
  linkUp : Bool
  lanes : List LaneTx
  turn : Nat
  txSeq : Nat
  rxSeq : Nat
  unacked : List NaluTx
  acksSent : List (Nat × NaluMsg)
  partnerState : Nat
  partnerFenced : Bool
  partnerHard : Bool
  votes : List Vote
  myFindings : List Finding
  theirFindings : List Finding
  decisions : List (Nat × Nat)
  theirDecisions : List (Nat × Nat)
  flashClock : Nat
  lossFlashes : List Nat
  aloneFrom : Option Int
  rejoinWanted : Bool
  rejoining : Bool
  leadArmed : Bool
  saves : List (Nat × Nat × List Byte)
  wakesSent : Nat
  fetchedByMirror : List (Nat × Nat)
  pendingMiss : List Nat
  missTimed : List Nat
  outcomeIn : Option (List Byte × List Byte)
  silentCheck : Bool
  leadSilent : Bool
  deriving DecidableEq, Repr

/-- One pseudo-channel of the HBM3 stack (R275, R278, R280): postponed count P, power-down, and per bank the rolling
activation count with the ACTs of each port since the bank's last refresh (bank, RAA, per-port counts). -/
structure PseudoChan where
  p : Int
  down : Bool
  banks : List (Nat × Nat × List Nat)
  deriving DecidableEq, Repr

/-- The HBM3 controller beside its registers: the 32 pseudo-channels, the corrected-error count last reported, the
address of the last correction (R285), and self-refresh entry (R281): whether entry was cancelled and may start again,
and a request held past the commit point. -/
structure Hmc where
  pcs : List PseudoChan
  ceReported : Nat
  ceAddr : Nat
  srCancelled : Bool
  srHeld : Bool
  deriving DecidableEq, Repr

/-- A trim store in serial flash (R387), programmed and read back: its slot and SEQ, and whether the flash will take
VALID. -/
structure Store where
  slot : Nat
  seq : Nat
  validOk : Bool
  deriving DecidableEq, Repr

/-- Calibration beside its registers: the sensors' readings and baselines in 1/4 degree (with the offsets of the device
trims), the open gap (items run, items IMPLAUSIBLE, readings, drift and sensor at its start), whether the timer of R382
runs and the milliseconds it has counted, whether a stripe has just reached IDLE with an ARM_STRIPE waiting (R380), the trim store, whether the drift trigger of R379 stands, the items that have
run in START (R383), and the items applied since the start (R378). -/
structure Cal where
  temps : List Int
  baseline : List Int
  gap : Option (Nat × Nat × List Int × Nat × Nat)
  overdueArmed : Bool
  overdueMs : Nat
  turn : Bool
  store : Option Store
  drifting : Bool
  ran : Nat
  applied : Nat
  deriving DecidableEq, Repr

/-- A block test under way (R403, R404): its block, YIELD, writes held, and what each word of the block's window read
when the test was requested. -/
structure BlockTest where
  block : Nat
  yields : Bool
  held : List (Nat × Word)
  words : List (Nat × Nat)
  deriving DecidableEq, Repr

/-- Self-test and park beside their registers: the test running, what the firmware image expects (R402), a cold
self-test retried, park requested by strap and by ring, the entry of the PARK, the park tag and the park
record's count (R398), device events held in domain 1 (R400), whether a write of BST_PARK_CTRL.WAKE waits (R401), and the
blocks whose OFF request was pending when park switched their domains off (R62, R395). -/
structure Bst where
  test : Option BlockTest
  expect : List BistExpect
  retried : Bool
  strapReq : Bool
  ringReq : Option (Nat × Nat)
  tag : Option (Nat × Nat)
  parkCount : Nat
  heldEvents : List Event
  wakeAsked : Bool
  offPending : List Nat
  deriving DecidableEq, Repr

/-- A performance counter (R411, R413): u48 count, overflow, epoch. -/
structure Counter where
  count : Nat
  ovf : Bool
  epoch : Nat
  deriving DecidableEq, Repr

/-- The performance monitor beside its registers: counter (b, k) at 8 b + k, slot counter (s, c) at 4 s + c, the ring
read at ENABLE, the address, header and SEQ of a record whose body is being written (R418), the latch of BAR2, and whether
a snapshot waits for the end of a test of the PMU (R404). -/
structure Pmu where
  counters : List Counter
  slots : List Counter
  base : Nat
  log2n : Nat
  writing : Option (Nat × List Byte × Nat)
  latch2 : Nat
  due : Bool
  deriving DecidableEq, Repr

/-- A fence of this chip (R363): its cause and whether it is hard. -/
structure Fence where
  cause : Nat
  hard : Bool
  deriving DecidableEq, Repr

/-- The PCIe function beside BAR0 and BAR2 (R64 to R67, R111): the negotiated link (0 while down), the Command
register, the BARs, Device Control and Device Control 2, MSI-X enable and function mask, the AER status, mask and
severity registers, and whether the function is in D3hot. -/
structure Cfg where
  speed : Nat
  width : Nat
  command : Nat
  bar0 : Nat
  bar2 : Nat
  devCtl : Nat
  devCtl2 : Nat
  msixOn : Bool
  msixMask : Bool
  uncStatus : Nat
  uncMask : Nat
  uncSev : Nat
  corStatus : Nat
  corMask : Nat
  d3 : Bool
  deriving DecidableEq, Repr

/-- The balls and the always-on domain (R38, R43, R392): the fused die identity, rails in range, RESET_N high,
PARK_REQ_N high, the live levels of SOS, STAGE_OK, BLANK_REQ and TWIN_ID, the sampled role, REFCLK present, root
locked, RESET_N seen low since the rails came up, THERM_N[0] and THERM_N[1] driven low. -/
structure Aon where
  dieId : Nat
  rails : Bool
  resetHigh : Bool
  parkHigh : Bool
  sos : Bool
  stageOk : Bool
  blankReq : Bool
  twinPin : Bool
  mirror : Bool
  refclk : Bool
  rootLock : Bool
  seenLow : Bool
  therm0 : Bool
  therm1 : Bool
  deriving DecidableEq, Repr

/-- The state of the engine. `cc` counts core-clock cycles since READY (R87, R417); `free` is the model's own: how many
values of `Config.freeValue` have been used. `answer` is the word the last read command returned. -/
structure State where
  pending : List Instr
  g : GState
  phase : StartPhase
  quick : Bool
  fence : Option Fence
  aon : Aon
  regs : Sparse Nat
  live : Sparse Nat
  latches : Sparse Nat
  answer : Nat
  cc : Nat
  free : Nat
  host : Memory
  hbm : Memory
  flash : Memory
  tabLive : Tables
  tabStaged : Tables
  prot : Prot
  cfg : Cfg
  commits : Commits
  power : List PwrState
  hif : Hif
  chans : List Chan
  cdc : Cdc
  scans : List (Option Scan)
  scanWait : List Scan
  prs : Prs
  csm : Csm
  pec : Pec
  waiting : Option ArmReq
  stripe : Option Stripe
  lastOutcome : List Byte
  port : Port
  shl : Shl
  nlk : Nlk
  hmc : Hmc
  cal : Cal
  bst : Bst
  pmu : Pmu
  deriving DecidableEq, Repr

/-- The reasons the machine stops with a fault. -/
inductive Fault where
  /-- An access to an HBM3 address at or above 0x6_0000_0000, which R266 says no internal port generates. SAFE. No
  command raises it: a SCAN is refused before it would reach such an address, and every other address is formed
  below it. -/
  | hbmAddress (addr : Nat)
  deriving DecidableEq, Repr

/-- The reasons the model refuses a command. -/
inductive Refusal where
  /-- A command without a meaning in the model: for a refused arm of `exec`, of which none is left. SAFE. -/
  | notModelled (mnemonic : String)
  deriving DecidableEq, Repr

/-! ## The state after reset -/

/-- No tables loaded: every table at its cold-start contents. -/
def Tables.cold : Tables := ⟨[], [], [], [], [], [], [], [], []⟩

/-- A submission ring at reset. -/
def SubRing.reset : SubRing := ⟨0, 0, 0, 0, 0, 0, [], 0⟩

/-- An event ring at reset. -/
def EvRing.reset : EvRing := ⟨0, 0, 0, 0, 0, 0⟩

/-- The host interface at reset: no ring enabled, nothing held. -/
def Hif.reset : Hif :=
  { polling := false, sq := List.replicate 64 .reset, eq := List.replicate 8 .reset, entries := [], hold := [],
    lostToPost := 0, pollAgain := false, keptOutcomes := [], keptEvents := [], awaitDevEq := false, msi := [] }

/-- The protection store after a cold start (R97): no window, no key, nothing live. -/
def Prot.reset : Prot :=
  { pending := none, lastItem := 0, lastLen := 0, lastCrc := 0, lastNonce := 0, waiting := [], windows := [],
    flashWe := false, pmuUser := false, headKey := none, beamAuth := none, draws := 0, smbReply := [],
    smbAlert := false }

/-- A decoder before its stream. -/
def Dec.reset : Dec :=
  { phase := 0, hdr := [], done := 0, lens := [], used := 0, exact := true, hist := [], total := 0, crc := 0 }

/-- A feed with no stream open. -/
def Feed.reset : Feed :=
  { raw := none, fetched := 0, used := 0, buf := [], block := 0, dec := .reset, tail := [], lastTaken := false, stopped := [] }

/-- An empty section. -/
def Section.empty : Section := ⟨[], [], [], []⟩

/-- The parser with no stream open. -/
def Prs.reset : Prs :=
  { input := [], opened := false, seq := 0, offset := 0, bandsBegun := 0, endSeen := false, finished := false,
    failed := false, fog := false, fogNext := 0, classes := [], warp := none, lastX := none, itemSeen := false,
    sides := [], crcSection := 0, crcStripe := 0, defIds := [], defBytes := 0, curDef := none, sect := .empty,
    templates := [], todo := [], expanded := 0, expandPos := 0, needLine := none, lines := [],
    dirs := [], placed := [], released := 0, retired := 0 }

/-- A channel with no request. -/
def Chan.reset : Chan := ⟨none, 0, 0, none⟩

/-- An idle codec. -/
def Cdc.reset : Cdc := ⟨.reset, List.replicate 6 none⟩

/-- An idle rasteriser. -/
def Csm.reset : Csm := ⟨[], 0, 0, none, none⟩

/-- Dose correction with nothing computed. -/
def Pec.reset : Pec := ⟨[], [], [], [], [], [], [], []⟩

/-- The position port out of lock. -/
def Port.reset : Port := ⟨0, false, 0, 0, 0, none, 0, 0, 0⟩

/-- A lane in electrical idle, with the equalisation of a cold start (R331, R335, R353) and the running disparity with
which IEEE 802.3 has a transmitter start (PRESUMED, log entry 119). -/
def LaneTx.reset : LaneTx := ⟨.electricalIdle, 0xFFFF, 0, 48, 8, true, []⟩

/-- The shutter link DOWN. -/
def Shl.reset : Shl :=
  { st := .down, lanes := List.replicate 34 .reset, map := [], latching := false, latchLock := 0, openSent := false, challenge := none,
    freshAsked := false, freshEnded := false, proved := none, provedShots := [], draws := 0, watching := false,
    relatchDue := false, knockDue := false, knockPosted := false, sent := [] }

/-- No partner. -/
def Nlk.reset : Nlk :=
  { paired := false, linkUp := false, lanes := List.replicate 8 .reset, turn := 0, txSeq := 0, rxSeq := 0,
    unacked := [], acksSent := [], partnerState := 0, partnerFenced := false, partnerHard := false, votes := [],
    myFindings := [], theirFindings := [], decisions := [], theirDecisions := [], flashClock := 0, lossFlashes := [], aloneFrom := none,
    rejoinWanted := false, rejoining := false, leadArmed := false, saves := [], wakesSent := 0, fetchedByMirror := [], pendingMiss := [], missTimed := [],
    outcomeIn := none, silentCheck := false, leadSilent := false }

/-- The stack's controller with no credit owed. -/
def Hmc.reset : Hmc := ⟨List.replicate 32 ⟨0, false, []⟩, 0, 0, false, false⟩

/-- Calibration with every sensor and baseline at 0. -/
def Cal.reset : Cal := ⟨List.replicate 16 0, List.replicate 16 0, none, false, 0, false, none, false, 0, 0⟩

/-- No test, no park. -/
def Bst.reset : Bst :=
  { test := none, expect := [], retried := false, strapReq := false, ringReq := none, tag := none, parkCount := 0,
    heldEvents := [], wakeAsked := false, offPending := [] }

/-- A counter at 0 in epoch 0 (R421). -/
def Counter.reset : Counter := ⟨0, false, 0⟩

/-- Every counter at 0 (R421). -/
def Pmu.reset : Pmu := ⟨List.replicate 128 .reset, List.replicate 24 .reset, 0, 0, none, 0, false⟩

/-- Configuration space after a reset of the function: the link down, relaxed ordering and no-snoop enabled and a
maximum read request of 512 B, as the PCIe Base Specification resets Device Control (PRESUMED, log entry 100). -/
def Cfg.reset : Cfg :=
  { speed := 0, width := 0, command := 0, bar0 := 0, bar2 := 0, devCtl := 0x2810, devCtl2 := 0, msixOn := false,
    msixMask := false, uncStatus := 0, uncMask := 0, uncSev := 0x00462030, corStatus := 0, corMask := 0x2000, d3 := false }

/-- The balls with the rails in range and RESET_N held low; input balls at their on-die pulls (R38): STAGE_OK, SOS and
TWIN_ID low, BLANK_REQ and PARK_REQ_N high. -/
def Aon.reset : Aon :=
  { dieId := Config.dieId, rails := true, resetHigh := false, parkHigh := true, sos := false, stageOk := false,
    blankReq := true, twinPin := false, mirror := false, refclk := true, rootLock := false, seenLow := true,
    therm0 := false, therm1 := false }

/-- The engine right after reset: OFF, RESET_N low with the rails in range (R54), every register at the reset value of
its field table, every table at its cold-start contents, memories with nothing listed, no command waiting. -/
def State.reset : State :=
  { pending := [], g := .off, phase := .boot, quick := false, fence := none, aon := .reset, regs := [], live := [],
    latches := [], answer := 0, cc := 0, free := 0, host := [], hbm := [], flash := [], tabLive := .cold,
    tabStaged := .cold, prot := .reset, cfg := .reset, commits := ⟨none, [], none, []⟩, power := List.replicate 16 .run, hif := .reset,
    chans := List.replicate 32 .reset, cdc := .reset, scans := List.replicate 4 none, scanWait := [], prs := .reset,
    csm := .reset, pec := .reset, waiting := none, stripe := none, lastOutcome := [], port := .reset, shl := .reset,
    nlk := .reset, hmc := .reset, cal := .reset, bst := .reset, pmu := .reset }

end Sys2Proof.Machine
end

