-- ==== Sys2Proof/Machine/Azrad.lean ====
section
/-! DEFINITION. The Azrad format (R162 to R169, R181, R182): reading one token, a decoder's run, the tokens that a
compressor writes, and the state area. -/

namespace Sys2Proof.Machine

/-! ## Bits (R165) -/

/-- The bits of bytes, from each byte's least significant bit. -/
def bitsOf (bs : List Byte) : List Bool := bs.flatMap (fun b => (List.range 8).map (fun i => b.toNat.testBit i))

/-- An unsigned number, least significant bit first. -/
def numBits : List Bool → Nat
  | [] => 0
  | b :: bs => b2n b + 2 * numBits bs

/-- The whole bytes of a bit string, `n` of them. -/
def bytesOfBits : Nat → List Bool → List Byte
  | 0, _ => []
  | n + 1, bs => BitVec.ofNat 8 (numBits (bs.take 8)) :: bytesOfBits n (bs.drop 8)

/-! ## Prefix codes (R166, R167) -/

/-- The symbols of an alphabet with a code length. -/
def symbolsOf (lens : List Nat) (l : Nat) : List Nat := (List.range lens.length).filter (fun s => lens.getD s 0 == l)

/-- The used symbols of an alphabet. -/
def usedSymbols (lens : List Nat) : Nat := (lens.filter (fun l => l != 0)).length

/-- An alphabet's lengths keep R166; `dist` for the distance alphabet, which may be empty. -/
def lengthsOk (dist : Bool) (lens : List Nat) : Bool :=
  let used := lens.filter (fun l => l != 0)
  (used.map (fun l => 2 ^ (15 - l))).sum == 32768 || used == [1] || (dist && used.isEmpty)

/-- What reading a symbol gives: too few bits, bits of no symbol, or a symbol and the bits it took. -/
inductive SymRead where
  | short
  | none
  | sym (s bits : Nat)
  deriving DecidableEq, Repr

/-- Read a canonical code word from its most significant bit, at length `l` with the first code word of that length
(R166); a lone symbol's code word is 0, and 1 is no symbol. -/
def readSym (lens : List Nat) : Nat → Nat → Nat → Nat → List Bool → SymRead
  | 0, _, _, _, _ => .none
  | _ + 1, _, _, _, [] => .short
  | n + 1, l, code, first, b :: bs =>
    let code := 2 * code + b2n b
    let syms := symbolsOf lens l
    if first ≤ code && code - first < syms.length then .sym (syms.getD (code - first) 0) l
    else if usedSymbols lens = 1 then .none
    else readSym lens n (l + 1) code ((first + syms.length) * 2) bs

/-- Read a symbol of an alphabet. -/
def symbol (lens : List Nat) (inp : List Bool) : SymRead := readSym lens 15 1 0 0 inp

/-- Extra bits of a symbol with direct count 2^k (R167). -/
def extraBits (k sym : Nat) : Nat := if sym < 2 ^ k then 0 else (sym - 2 ^ k) / 2 + k - 1

/-- The value of a symbol and its extra bits (R167). -/
def symValue (k sym extra : Nat) : Nat :=
  if sym < 2 ^ k then sym
  else
    let j := sym - 2 ^ k
    let n := j / 2 + k + 1
    2 ^ (n - 1) + j % 2 * 2 ^ (n - 2) + extra

/-- The symbol of a value (R167). -/
def valueSym (k v : Nat) : Nat :=
  if v < 2 ^ k then v
  else
    let n := Nat.log2 v + 1
    2 ^ k + 2 * (n - k - 1) + v / 2 ^ (n - 2) % 2

/-! ## Tokens (R162 to R169, R177) -/

/-- Output of the current block in all. -/
def Dec.ulen (d : Dec) : Nat := num d.hdr 2 2 + 1

/-- CLEN of the current block. -/
def Dec.clen (d : Dec) : Nat := num d.hdr 4 4

/-- What the next token is: not all there, a fault of R169, or whole: its bits, its output, the decoder after it. -/
inductive Tok where
  | short
  | fault (reason : Nat)
  | tok (bits : Nat) (out : List Byte) (d : Dec)
  deriving DecidableEq, Repr

/-- The history that a match may reach (R164). -/
def azradWindow : Nat := 262144

/-- A decoder after it has output `out`. -/
def Dec.output (d : Dec) (out : List Byte) : Dec :=
  { d with done := d.done + out.length, total := d.total + out.length, crc := crc32c d.crc out,
           hist := (out.reverse ++ d.hist).take azradWindow }

/-- Copy `n` bytes from `dist` back, one at a time (R168): the output, newest first, on the history. -/
def copyMatch (dist : Nat) : Nat → List Byte → List Byte → List Byte
  | 0, _, out => out
  | n + 1, hist, out =>
    let b := hist.getD (dist - 1) 0#8
    copyMatch dist n (b :: hist) (b :: out)

/-- A token of a CODED block that outputs `out` in `n` bits: inside CLEN, and with the block's last token the padding
and CLEN checked (R168, R169 reason 0x08). A token that already runs past CLEN is a fault at once, before the token
that completes the block: the manual names the check only after that one (DESIGN CHOICE, log entry 112). -/
def Dec.coded (d : Dec) (inp : List Bool) (n : Nat) (out : List Byte) : Tok :=
  let used := d.used + n
  let pad := (8 - used % 8) % 8
  let d' := { d.output out with used := used }
  if used > 8 * d.clen then .fault 0x08
  else if d'.done < d.ulen then .tok n out d'
  else if ((inp.drop n).take pad).contains true then .fault 0x08
  else if d.exact && (used + pad) / 8 ≠ d.clen then .fault 0x08
  else if inp.length < n + pad then .short
  else .tok (n + pad) out { d' with phase := 1, lens := [] }

/-- The next token of a CODED block whose lengths have been read. -/
def Dec.codedTok (d : Dec) (inp : List Bool) : Tok :=
  let lit := d.lens.take 284
  let dist := d.lens.drop 284
  match symbol lit inp with
  | .short => .short
  | .none => .fault 0x05
  | .sym s n =>
    if s < 256 then d.coded inp n [BitVec.ofNat 8 s]
    else if usedSymbols dist = 0 then .fault 0x05
    else
      let e1 := extraBits 4 (s - 256)
      let len := symValue 4 (s - 256) (numBits ((inp.drop n).take e1)) + 4
      if inp.length < n + e1 then .short
      else
        match symbol dist (inp.drop (n + e1)) with
        | .short => .short
        | .none => .fault 0x05
        | .sym t m =>
          let e2 := extraBits 2 t
          let far := symValue 2 t (numBits ((inp.drop (n + e1 + m)).take e2)) + 1
          if inp.length < n + e1 + m + e2 then .short
          else if far > min d.total azradWindow then .fault 0x06
          else if len > d.ulen - d.done then .fault 0x07
          else d.coded inp (n + e1 + m + e2) (copyMatch far len d.hist []).reverse

/-- The code lengths of a CODED block (R166); a CLEN too short for them is a fault at once (log entry 112). -/
def Dec.lengthsTok (d : Dec) (inp : List Bool) : Tok :=
  let lens := (List.range 320).map (fun i => numBits ((inp.drop (4 * i)).take 4))
  if inp.length < 1280 then .short
  else if !lengthsOk false (lens.take 284) || !lengthsOk true (lens.drop 284) then .fault 0x04
  else if d.clen < 160 then .fault 0x08
  else .tok 1280 [] { d with lens := lens, used := d.used + 1280 }

/-- A block header, with an END block its payload (R163). -/
def Dec.headerTok (d : Dec) (inp : List Bool) : Tok :=
  let h := bytesOfBits (min 8 (inp.length / 8)) inp
  let ty := num h 0 1
  if ty > 2 || num h 1 1 ≠ 0 then .fault 0x02
  else if h.length < 8 then .short
  else if ty = 1 && num h 4 4 ≠ num h 2 2 + 1 then .fault 0x03
  else if ty ≠ 0 then .tok 64 [] { d with phase := 2, hdr := h, done := 0, lens := [], used := 0, exact := true }
  else if num h 2 2 ≠ 0 || num h 4 4 ≠ 12 then .fault 0x03
  else if inp.length < 160 then .short
  else if numBits ((inp.drop 64).take 64) ≠ d.total then .fault 0x0A
  else if numBits ((inp.drop 128).take 32) ≠ d.crc then .fault 0x0B
  else .tok 160 [] { d with phase := 3 }

/-- The stream header (R162). -/
def azradHeader : List Byte := [0x41#8, 0x5A#8, 0x01#8, 0x00#8]

/-- The next token. A header that is wrong as far as it has arrived is a fault at once. -/
def Dec.next (d : Dec) (inp : List Bool) : Tok :=
  match d.phase with
  | 0 =>
    let n := min 4 (inp.length / 8)
    if bytesOfBits n inp != azradHeader.take n then .fault 0x01
    else if n < 4 then .short
    else .tok 32 [] { d with phase := 1 }
  | 1 => d.headerTok inp
  | 2 =>
    if num d.hdr 0 1 = 1 then
      if inp.length < 8 then .short
      else
        let out := bytesOfBits 1 inp
        let d' := d.output out
        .tok 8 out (if d'.done < d.ulen then d' else { d' with phase := 1 })
    else if d.lens = [] then d.lengthsTok inp
    else d.codedTok inp
  | _ => .short

/-- How a run of a decoder ends. -/
inductive RunEnd where
  | short
  | full
  | ended
  | fault (reason : Nat)
  deriving DecidableEq, Repr

/-- A run of a decoder: how it ended, the decoder, the bits used, the output, the tokens that output something. -/
structure DecRun where
  stop : RunEnd
  dec : Dec
  bits : Nat
  out : List Byte
  toks : Nat
  deriving DecidableEq, Repr

/-- Run a decoder until its output space is full, the END block has passed, the input is used up or a rule is broken
(R177); `n` bounds the tokens. -/
def Dec.run : Nat → Nat → Dec → List Bool → DecRun
  | 0, _, d, _ => ⟨.short, d, 0, [], 0⟩
  | n + 1, room, d, inp =>
    if d.phase = 3 then ⟨.ended, d, 0, [], 0⟩
    else
      match d.next inp with
      | .short => ⟨.short, d, 0, [], 0⟩
      | .fault r => ⟨.fault r, d, 0, [], 0⟩
      | .tok k out d' =>
        if out.length > room then ⟨.full, d, 0, [], 0⟩
        else
          let r := Dec.run n (room - out.length) d' (inp.drop k)
          { r with bits := k + r.bits, out := out ++ r.out, toks := r.toks + b2n (!out.isEmpty) }

/-- Decode up to the end of one block, or the END block (R171): `n` bounds the tokens. -/
def Dec.block : Nat → Dec → List Bool → DecRun
  | 0, d, _ => ⟨.short, d, 0, [], 0⟩
  | n + 1, d, inp =>
    match d.next inp with
    | .short => ⟨.short, d, 0, [], 0⟩
    | .fault r => ⟨.fault r, d, 0, [], 0⟩
    | .tok k out d' =>
      if d'.phase = 3 || (d.phase = 2 && d'.phase = 1) then ⟨.ended, d', k, out, b2n (!out.isEmpty)⟩
      else
        let r := Dec.block n d' (inp.drop k)
        { r with bits := k + r.bits, out := out ++ r.out, toks := r.toks + b2n (!out.isEmpty) }

/-! ## The compressor (R177, R182, R183) -/

/-- Input bytes of a block. -/
def azradBlock : Nat := 65536

/-- A token to write: what it is (0 stream header, 1 block header, 2 code lengths, 3 data, 4 END block), its bits, and
the input bytes that it codes. -/
structure OutTok where
  kind : Nat
  bits : List Bool
  codes : Nat
  deriving DecidableEq, Repr

/-- The tokens of a block as a decoder reads them; `n` bounds them. The 160 bytes of code lengths are a token of their
own, between the header and the first literal or match: R177's list does not name them (DESIGN CHOICE, log entry 113).
-/
def Dec.tokens : Nat → Dec → List Bool → List OutTok
  | 0, _, _ => []
  | n + 1, d, inp =>
    match d.next inp with
    | .tok k out d' =>
      let kind := if d.phase = 1 then 1 else if out.isEmpty then 2 else 3
      { kind := kind, bits := inp.take k, codes := out.length } :: Dec.tokens n d' (inp.drop k)
    | _ => []

/-- The header of a block with `u` output bytes and `c` payload bytes. -/
def blockHeader (ty u c : Nat) : List Byte := le 1 ty ++ [0#8] ++ le 2 (u - 1) ++ le 4 c

/-- A decoder that stands before a block, with a history (newest first). -/
def Dec.before (hist : List Byte) (total : Nat) : Dec := { Dec.reset with phase := 1, hist := hist, total := total }

/-- The 160 bytes of 320 code lengths. -/
def packLengths (lens : List Nat) : List Byte :=
  (List.range 160).map (fun i => BitVec.ofNat 8 (lens.getD (2 * i) 0 + 16 * lens.getD (2 * i + 1) 0))

/-- The literals and matches that the compressor writes for a block from byte `pos` on (R183), the last one padded to a
whole byte of the `used` bits and its own: `n` bounds them. They rest on the 262,144 bytes before each, on the block and
its code lengths, all of which a state area saved within the block holds (R178, R181). -/
def chosenTokens : Nat → List Byte → List Byte → Nat → List Nat → Nat → List OutTok
  | 0, _, _, _, _, _ => []
  | n + 1, hist, blk, pos, lens, used =>
    let t := Config.azradNext hist blk pos lens
    if blk.length ≤ pos || t.2 = 0 then []
    else
      let m := used + t.1.length
      let bits := if blk.length ≤ pos + t.2 then t.1 ++ List.replicate ((8 - m % 8) % 8) false else t.1
      { kind := 3, bits, codes := t.2 } ::
        chosenTokens n ((((blk.drop pos).take t.2).reverse ++ hist).take azradWindow) blk (pos + t.2) lens m

/-- The code lengths that the compressor chooses for a block. -/
def chosenLengths (hist blk : List Byte) : List Nat :=
  (List.range 320).map (fun i => (Config.azradLengths hist blk).getD i 0 % 16)

/-- The tokens of a CODED block of the compressor's choice. -/
def chosenBlock (hist blk : List Byte) : List OutTok :=
  let lens := chosenLengths hist blk
  let data := chosenTokens azradBlock hist blk 0 lens 0
  let clen := 160 + (data.map (·.bits.length)).sum / 8
  { kind := 1, bits := bitsOf (blockHeader 2 blk.length clen), codes := 0 } ::
    { kind := 2, bits := bitsOf (packLengths lens), codes := 0 } :: data

/-- The tokens of a STORED block. -/
def storedTokens (blk : List Byte) : List OutTok :=
  { kind := 1, bits := bitsOf (blockHeader 1 blk.length blk.length), codes := 0 } ::
    blk.map (fun b => { kind := 3, bits := bitsOf [b], codes := 1 })

/-- The tokens of one block, with `total` bytes of the stream before it: those of the compressor's choice when they are
fewer bytes than the block and decode to it, token by token, else STORED (R182, R183). -/
def blockTokens (hist blk : List Byte) (total : Nat) : List OutTok :=
  let toks := chosenBlock hist blk
  let bits := toks.flatMap (·.bits)
  let r := Dec.block bits.length (Dec.before hist total) bits
  if bits.length < 8 * (blk.length + 8) && r.stop == .ended && r.out == blk && r.bits == bits.length &&
      Dec.tokens bits.length (Dec.before hist total) bits == toks then toks
  else storedTokens blk

/-- The tokens of the blocks of `data`, the last one only when `close`: `n` bounds them. -/
def dataTokens : Nat → Bool → List Byte → Nat → List Byte → List OutTok
  | 0, _, _, _, _ => []
  | n + 1, close, hist, total, data =>
    let blk := data.take azradBlock
    if blk.length = azradBlock || (close && !blk.isEmpty) then
      blockTokens hist blk total ++
        dataTokens n close ((blk.reverse ++ hist).take azradWindow) (total + blk.length) (data.drop azradBlock)
    else []

/-- The END block (R163). -/
def endBlock (total crc : Nat) : List Byte := blockHeader 0 1 12 ++ le 8 total ++ le 4 crc

/-- STORED blocks among whole blocks of a coded stream. -/
def storedBlocks : Nat → List Byte → Nat
  | 0, _ => 0
  | n + 1, bs =>
    let len := 8 + num bs 4 4
    if bs.length < len then 0 else b2n (num bs 0 1 == 1) + storedBlocks n (bs.drop len)

/-! ## The state area (R181) -/

/-- Bytes of a state area. -/
def stateSize : Nat := 331776

/-- What a state area holds. Of a compression, `crc` covers all the input consumed, `buf` is the current block's input
so far, and `blockDone` counts the bytes at its end that no token has coded yet. -/
structure AzState where
  kind : Nat
  inTotal : Nat
  outTotal : Nat
  crc : Nat
  held : List Bool
  phase : Nat
  blockDone : Nat
  hdr : List Byte
  lens : List Nat
  hist : List Byte
  buf : List Byte
  deriving DecidableEq, Repr

/-- Fill a byte string with zeros to a length. -/
def padTo (n : Nat) (bs : List Byte) : List Byte := bs ++ List.replicate (n - bs.length) 0#8

/-- The bytes of a state area. The history is written oldest first. -/
def AzState.bytes (a : AzState) : List Byte :=
  let heldValue := if a.kind = 1 then numBits a.held else 0
  let head := padTo 4092 (le 1 a.kind ++ le 1 1 ++ le 2 0 ++ le 8 a.inTotal ++ le 8 a.outTotal ++ le 4 a.crc ++
    le 1 a.held.length ++ le 1 heldValue ++ le 1 a.phase ++ le 1 0 ++ le 4 a.blockDone ++ padTo 8 a.hdr ++
    packLengths a.lens)
  let rest := padTo azradWindow (a.hist.take azradWindow).reverse ++ padTo azradBlock a.buf
  head ++ le 4 (crc32c 0 (head ++ rest)) ++ rest

/-- What a state area in memory holds. -/
def azStateOf (bs : List Byte) : AzState :=
  let kind := num bs 0 1
  let heldBits := min 7 (num bs 24 1)
  let total := if kind = 1 then num bs 4 8 - num bs 28 4 else num bs 12 8
  let lens := (List.range 320).map (fun i => num bs (40 + i / 2) 1 / 16 ^ (i % 2) % 16)
  { kind, inTotal := num bs 4 8, outTotal := num bs 12 8, crc := num bs 20 4
    held := (List.range heldBits).map (fun i => (num bs 25 1).testBit i), phase := num bs 26 1
    blockDone := num bs 28 4, hdr := (bs.drop 32).take 8
    lens := if lens.all (fun l => l == 0) then [] else lens
    hist := ((bs.drop 4096).take (min total azradWindow)).reverse
    buf := if kind ≠ 1 then []
      else (bs.drop 266240).take (if num bs 26 1 = 2 then num bs 4 8 % azradBlock else min azradBlock (num bs 28 4)) }

/-- STATE_CRC of a state area is right. -/
def stateCheck (bs : List Byte) : Bool := num bs 4092 4 == crc32c 0 (bs.take 4092 ++ (bs.drop 4096).take (stateSize - 4096))

/-- The decoder that a decompress state resumes. The state area does not hold how many bits of the current block are
used: before its first output byte they are known, and in the stream's first block IN_TOTAL less the two headers gives
them; in a later block `used` is the least they can be. -/
def AzState.dec (a : AzState) : Dec :=
  let first := a.blockDone != 0 && a.outTotal == a.blockDone
  { phase := a.phase, hdr := a.hdr, done := a.blockDone, lens := a.lens, exact := a.blockDone == 0 || first
    used := if first then 8 * (a.inTotal - 12) + a.held.length
      else if a.lens = [] then 0 else 1280 + (if a.blockDone = 0 then 0 else a.held.length)
    hist := a.hist, total := a.outTotal, crc := a.crc }

end Sys2Proof.Machine
end

