-- ==== Sys2Proof/Machine/Fields.lean ====
section
/-! DEFINITION. The BAR0 register fields of the FLM-1024, transcribed from the field tables of spec/ (R9, R10):
for each its word address, lowest bit, width, access type, whether it is a commit field, and its reset value. A
field of a LO/HI pair is one field of the LO word's address that runs on into the HI word. `fieldsAt` gives the
fields that stand in one word. A reserved field is no field: it reads 0 and its writes are ignored (R10, R11). -/

namespace Sys2Proof.Machine

/-- Access types of R10. `rsvd` has no member: a reserved bit belongs to no field. -/
inductive Access where
  | rw | ro | wo | w1c | w1s | rc | sc
  deriving DecidableEq, Repr

/-- One register field: word address in BAR0, lowest bit (from bit 0 of that word), width, access, whether it is
shadowed ("commit", R10), reset value. -/
structure Field where
  addr : Nat
  lo : Nat
  width : Nat
  access : Access
  commit : Bool
  reset : Nat
  deriving DecidableEq, Repr

/-- The number a field is kept under: its address and lowest bit, one number for each field. -/
def Field.key (f : Field) : Nat := f.addr * 64 + f.lo

/-- Class of DMA channel `ch` (R99): 0 HIF, 1 STREAM, 2 TABLE, 3 CODEC, 4 SCAN, 5 WITNESS, 6 FEED, 7 GATE. -/
def dmaClass (ch : Nat) : Nat :=
  if ch = 0 then 0 else if ch ≤ 8 then 1 else if ch ≤ 10 then 2 else if ch ≤ 16 then 3
  else if ch ≤ 20 then 4 else if ch ≤ 22 then 5 else if ch ≤ 26 then 6 else 7

/-- Whether the class of channel `ch` is paced (R99): STREAM, CODEC (its input side) and FEED. -/
def dmaPaced (ch : Nat) : Bool := dmaClass ch == 1 || dmaClass ch == 3 || dmaClass ch == 6

/-- Default LOW mark of channel `ch` (R102). -/
def dmaLow (ch : Nat) : Nat := if dmaClass ch = 1 then 32 else if dmaPaced ch then 16 else 0

/-- Default HIGH mark of channel `ch` (R102). -/
def dmaHigh (ch : Nat) : Nat := if dmaClass ch = 1 then 56 else if dmaPaced ch then 48 else 0

/-- Default QLOG2 of channel `ch`: 26 on STREAM channels, 0 on others (DMA_CH_CFG). -/
def dmaQlog2 (ch : Nat) : Nat := if dmaClass ch = 1 then 26 else 0

/-- Leaf requesters of HMC port `p`, which are its weight (R271). -/
def portLeaves (p : Nat) : Nat := [64, 64, 4, 20, 21, 8, 2, 3, 4].getD p 0

/-- The fields `fs` if word `a` is one of the `words` words from `base`. -/
def fieldsOf (a base words : Nat) (fs : List Field) : List Field :=
  if base ≤ a ∧ a < base + 4 * words then fs else []

/-- The fields of register `i` of an indexed group, if word `a` is one of its words. -/
def fieldsIdx (a base stride n words : Nat) (fs : Nat → List Field) : List Field :=
  if base ≤ a ∧ (a - base) / stride < n ∧ (a - base) % stride < 4 * words then fs ((a - base) / stride) else []

/-- 02_package_pins_power.md. -/
def MGT_ID.DEVICE : Field := ⟨0x0, 16, 16, .ro, false, 0x1024⟩
/-- 02_package_pins_power.md. -/
def MGT_ID.VENDOR : Field := ⟨0x0, 0, 16, .ro, false, 0x1f3d⟩
/-- 02_package_pins_power.md. -/
def MGT_REV.STEPPING : Field := ⟨0x4, 24, 8, .ro, false, 16⟩
/-- 02_package_pins_power.md. -/
def MGT_REV.FW_VERSION : Field := ⟨0x4, 0, 16, .ro, false, 0⟩
/-- 02_package_pins_power.md. -/
def MGT_DIE_ID.DIE_ID : Field := ⟨0x8, 0, 64, .ro, false, 0⟩
/-- 02_package_pins_power.md. -/
def MGT_STATE.STATE : Field := ⟨0x10, 0, 3, .ro, false, 1⟩
/-- 02_package_pins_power.md. -/
def MGT_STATE.TWIN_ROLE : Field := ⟨0x10, 3, 1, .ro, false, 0⟩
/-- 02_package_pins_power.md. -/
def MGT_STATE.UNCAL : Field := ⟨0x10, 4, 1, .ro, false, 0⟩
/-- 02_package_pins_power.md. -/
def MGT_STATE.QUICK : Field := ⟨0x10, 5, 1, .ro, false, 0⟩
/-- 02_package_pins_power.md. -/
def MGT_STATE.FENCED : Field := ⟨0x10, 6, 1, .ro, false, 0⟩
/-- 02_package_pins_power.md. -/
def MGT_STATE.SAFE_CAUSE : Field := ⟨0x10, 8, 8, .ro, false, 0⟩
/-- 02_package_pins_power.md. -/
def MGT_STATE.START_MS : Field := ⟨0x10, 16, 16, .ro, false, 0⟩
/-- 02_package_pins_power.md. -/
def MGT_RESET.CHIP_RESET : Field := ⟨0x20, 0, 1, .sc, false, 0⟩
/-- 02_package_pins_power.md. -/
def MGT_RESET.REFUSED : Field := ⟨0x20, 1, 1, .w1c, false, 0⟩
/-- 02_package_pins_power.md. -/
def MGT_RESET.KEY : Field := ⟨0x20, 16, 16, .wo, false, 0⟩
/-- 02_package_pins_power.md. -/
def MGT_RESET_CAUSE.POWER_ON : Field := ⟨0x24, 0, 1, .w1c, false, 1⟩
/-- 02_package_pins_power.md. -/
def MGT_RESET_CAUSE.RESET_PIN : Field := ⟨0x24, 1, 1, .w1c, false, 0⟩
/-- 02_package_pins_power.md. -/
def MGT_RESET_CAUSE.CHIP : Field := ⟨0x24, 2, 1, .w1c, false, 0⟩
/-- 02_package_pins_power.md. -/
def MGT_RESET_CAUSE.PERST : Field := ⟨0x24, 3, 1, .w1c, false, 0⟩
/-- 02_package_pins_power.md. -/
def MGT_RESET_CAUSE.WAKE : Field := ⟨0x24, 4, 1, .w1c, false, 0⟩
/-- 02_package_pins_power.md. -/
def MGT_CLK.ROOT_LOCK : Field := ⟨0x30, 0, 1, .ro, false, 0⟩
/-- 02_package_pins_power.md. -/
def MGT_CLK.REFCLK_OK : Field := ⟨0x30, 1, 1, .ro, false, 0⟩
/-- 02_package_pins_power.md. -/
def MGT_CLK.PCIE_REF_OK : Field := ⟨0x30, 2, 1, .ro, false, 0⟩
/-- 02_package_pins_power.md. -/
def MGT_CLK.SPREAD : Field := ⟨0x30, 3, 1, .rw, true, 0⟩
/-- 02_package_pins_power.md. -/
def MGT_CLK.HEAD_REFCLK_ON : Field := ⟨0x30, 4, 1, .ro, false, 0⟩
/-- 02_package_pins_power.md. -/
def MGT_PINS.SOS : Field := ⟨0x34, 0, 1, .ro, false, 0⟩
/-- 02_package_pins_power.md. -/
def MGT_PINS.STAGE_OK : Field := ⟨0x34, 1, 1, .ro, false, 0⟩
/-- 02_package_pins_power.md. -/
def MGT_PINS.BLANK_REQ : Field := ⟨0x34, 2, 1, .ro, false, 0⟩
/-- 02_package_pins_power.md. -/
def MGT_PINS.PARK_REQ_N : Field := ⟨0x34, 3, 1, .ro, false, 0⟩
/-- 02_package_pins_power.md. -/
def MGT_PINS.TWIN_ID : Field := ⟨0x34, 4, 1, .ro, false, 0⟩
/-- 02_package_pins_power.md. -/
def MGT_PINS.FAULT_BLANK_N : Field := ⟨0x34, 5, 1, .ro, false, 0⟩
/-- 02_package_pins_power.md. -/
def MGT_PINS.THERM_N : Field := ⟨0x34, 6, 2, .ro, false, 3⟩
/-- 02_package_pins_power.md. -/
def MGT_TEMP.HOTTEST : Field := ⟨0x38, 0, 8, .ro, false, 0⟩
/-- 02_package_pins_power.md. -/
def MGT_TEMP.HOT_SENSOR : Field := ⟨0x38, 8, 4, .ro, false, 0⟩
/-- 02_package_pins_power.md. -/
def MGT_TEMP.WARN_C : Field := ⟨0x38, 16, 8, .rw, false, 100⟩
/-- 02_package_pins_power.md. -/
def MGT_TEMP.STACK : Field := ⟨0x38, 24, 8, .ro, false, 0⟩
/-- 02_package_pins_power.md. -/
def MGT_PWR_REQ.REQ : Field := ⟨0x40, 0, 32, .rw, false, 0⟩
/-- 02_package_pins_power.md. -/
def MGT_PWR_STATE.STATE : Field := ⟨0x44, 0, 32, .ro, false, 0⟩
/-- 02_package_pins_power.md. -/
def MGT_PWR_PEND.PEND : Field := ⟨0x48, 0, 16, .ro, false, 0⟩
/-- 03_host_rings.md. -/
def HIF_DB_BASE.ADDR : Field := ⟨0x10000, 0, 64, .rw, false, 0⟩
/-- 03_host_rings.md. -/
def HIF_CTRL.DB_EN : Field := ⟨0x10008, 0, 1, .rw, false, 0⟩
/-- 03_host_rings.md. -/
def HIF_CTRL.POLL_US : Field := ⟨0x10008, 8, 10, .rw, false, 10⟩
/-- 03_host_rings.md. -/
def HIF_CTRL.DEV_EQ : Field := ⟨0x10008, 18, 3, .rw, false, 0⟩
/-- 03_host_rings.md. -/
def HIF_NUDGE.NUDGE : Field := ⟨0x1000C, 0, 32, .wo, false, 0⟩
/-- 03_host_rings.md. -/
def HIF_EVT_LOST.LOST : Field := ⟨0x10010, 0, 32, .rc, false, 0⟩
/-- 03_host_rings.md. -/
def HIF_LINK.SPEED : Field := ⟨0x10014, 0, 3, .ro, false, 0⟩
/-- 03_host_rings.md. -/
def HIF_LINK.WIDTH : Field := ⟨0x10014, 3, 5, .ro, false, 0⟩
/-- 03_host_rings.md. -/
def HIF_LINK.MPS : Field := ⟨0x10014, 8, 3, .ro, false, 0⟩
/-- 03_host_rings.md. -/
def HIF_LINK.MRRS : Field := ⟨0x10014, 11, 3, .ro, false, 2⟩
/-- 03_host_rings.md. -/
def HIF_SQ_BASE.ADDR (i : Nat) : Field := ⟨0x11000 + 16 * i, 0, 64, .rw, false, 0⟩
/-- 03_host_rings.md. -/
def HIF_SQ_CFG.ENABLE (i : Nat) : Field := ⟨0x11008 + 16 * i, 0, 1, .rw, false, 0⟩
/-- 03_host_rings.md. -/
def HIF_SQ_CFG.HALTED (i : Nat) : Field := ⟨0x11008 + 16 * i, 1, 1, .ro, false, 0⟩
/-- 03_host_rings.md. -/
def HIF_SQ_CFG.REFUSED (i : Nat) : Field := ⟨0x11008 + 16 * i, 2, 1, .w1c, false, 0⟩
/-- 03_host_rings.md. -/
def HIF_SQ_CFG.TYPE (i : Nat) : Field := ⟨0x11008 + 16 * i, 8, 4, .rw, false, 0⟩
/-- 03_host_rings.md. -/
def HIF_SQ_CFG.LOG2SIZE (i : Nat) : Field := ⟨0x11008 + 16 * i, 12, 5, .rw, false, 6⟩
/-- 03_host_rings.md. -/
def HIF_SQ_CFG.EQ (i : Nat) : Field := ⟨0x11008 + 16 * i, 17, 3, .rw, false, 0⟩
/-- 03_host_rings.md. -/
def HIF_SQ_CONS.CONS (i : Nat) : Field := ⟨0x1100C + 16 * i, 0, 32, .ro, false, 0⟩
/-- 03_host_rings.md. -/
def HIF_EQ_BASE.ADDR (i : Nat) : Field := ⟨0x12000 + 32 * i, 0, 64, .rw, false, 0⟩
/-- 03_host_rings.md. -/
def HIF_EQ_CFG.ENABLE (i : Nat) : Field := ⟨0x12008 + 32 * i, 0, 1, .rw, false, 0⟩
/-- 03_host_rings.md. -/
def HIF_EQ_CFG.LOG2SIZE (i : Nat) : Field := ⟨0x12008 + 32 * i, 8, 5, .rw, false, 6⟩
/-- 03_host_rings.md. -/
def HIF_EQ_CFG.VECTOR (i : Nat) : Field := ⟨0x12008 + 32 * i, 13, 6, .rw, false, 0⟩
/-- 03_host_rings.md. -/
def HIF_EQ_MOD.COUNT (i : Nat) : Field := ⟨0x1200C + 32 * i, 0, 8, .rw, false, 1⟩
/-- 03_host_rings.md. -/
def HIF_EQ_MOD.TIME_US (i : Nat) : Field := ⟨0x1200C + 32 * i, 16, 16, .rw, false, 0⟩
/-- 03_host_rings.md. -/
def HIF_EQ_PROD.PROD (i : Nat) : Field := ⟨0x12010 + 32 * i, 0, 32, .ro, false, 0⟩
/-- 03_host_rings.md. -/
def MGT_CMT_STATUS.PENDING : Field := ⟨0x100, 0, 4, .ro, false, 0⟩
/-- 03_host_rings.md. -/
def MGT_CMT_STATUS.LAST_STATUS : Field := ⟨0x100, 8, 8, .ro, false, 0⟩
/-- 03_host_rings.md. -/
def MGT_CMT_STATUS.LAST_BLOCK : Field := ⟨0x100, 16, 4, .ro, false, 0⟩
/-- 03_host_rings.md. -/
def MGT_CMT_STATUS.LAST_REASON : Field := ⟨0x100, 24, 8, .ro, false, 0⟩
/-- 03_host_rings.md. -/
def MGT_CMT_LAST_ID.COMMIT_ID : Field := ⟨0x104, 0, 32, .ro, false, 0⟩
/-- 03_host_rings.md. -/
def MGT_PROT_CTRL.CMD : Field := ⟨0x110, 0, 2, .sc, false, 0⟩
/-- 03_host_rings.md. -/
def MGT_PROT_CTRL.ITEM : Field := ⟨0x110, 8, 3, .rw, false, 0⟩
/-- 03_host_rings.md. -/
def MGT_PROT_CTRL.LEN : Field := ⟨0x110, 16, 9, .rw, false, 0⟩
/-- 03_host_rings.md. -/
def MGT_PROT_STATUS.STATE : Field := ⟨0x114, 0, 1, .ro, false, 0⟩
/-- 03_host_rings.md. -/
def MGT_PROT_STATUS.RESULT : Field := ⟨0x114, 8, 8, .ro, false, 0⟩
/-- 03_host_rings.md. -/
def MGT_PROT_STATUS.ITEM : Field := ⟨0x114, 16, 3, .ro, false, 0⟩
/-- 03_host_rings.md. -/
def MGT_PROT_CRC.VALUE : Field := ⟨0x118, 0, 32, .ro, false, 0⟩
/-- 03_host_rings.md. -/
def MGT_PROT_NONCE.VALUE : Field := ⟨0x11C, 0, 32, .ro, false, 0⟩
/-- 03_host_rings.md. -/
def MGT_PROT_LIVE.FLASH_WE : Field := ⟨0x120, 0, 1, .ro, false, 0⟩
/-- 03_host_rings.md. -/
def MGT_PROT_LIVE.PMU_USER : Field := ⟨0x120, 1, 1, .ro, false, 0⟩
/-- 03_host_rings.md. -/
def MGT_PROT_LIVE.HEAD_KEY : Field := ⟨0x120, 2, 1, .ro, false, 0⟩
/-- 03_host_rings.md. -/
def MGT_PROT_LIVE.BEAM_AUTH : Field := ⟨0x120, 3, 1, .ro, false, 0⟩
/-- 03_host_rings.md. -/
def MGT_PROT_LIVE.WINDOWS : Field := ⟨0x120, 8, 5, .ro, false, 0⟩
/-- 03_host_rings.md. -/
def MGT_PROT_STAGE.DATA (i : Nat) : Field := ⟨0x200 + 4 * i, 0, 32, .rw, false, 0⟩
/-- 04_dma_scan.md. -/
def DMA_CTRL.CPL_TO_MS : Field := ⟨0x20000, 0, 7, .rw, false, 16⟩
/-- 04_dma_scan.md. -/
def DMA_HALTED.HALTED : Field := ⟨0x20004, 0, 32, .ro, false, 0⟩
/-- 04_dma_scan.md. -/
def DMA_CH_CFG.CLASS (i : Nat) : Field := ⟨0x21000 + 32 * i, 0, 4, .ro, false, (dmaClass i)⟩
/-- 04_dma_scan.md. -/
def DMA_CH_CFG.LOW (i : Nat) : Field := ⟨0x21000 + 32 * i, 8, 7, .rw, true, (dmaLow i)⟩
/-- 04_dma_scan.md. -/
def DMA_CH_CFG.HIGH (i : Nat) : Field := ⟨0x21000 + 32 * i, 16, 7, .rw, true, (dmaHigh i)⟩
/-- 04_dma_scan.md. -/
def DMA_CH_CFG.QLOG2 (i : Nat) : Field := ⟨0x21000 + 32 * i, 24, 5, .rw, true, (dmaQlog2 i)⟩
/-- 04_dma_scan.md. -/
def DMA_CH_CTRL.ABORT (i : Nat) : Field := ⟨0x21004 + 32 * i, 0, 1, .sc, false, 0⟩
/-- 04_dma_scan.md. -/
def DMA_CH_STATUS.ACTIVE (i : Nat) : Field := ⟨0x21008 + 32 * i, 0, 1, .ro, false, 0⟩
/-- 04_dma_scan.md. -/
def DMA_CH_STATUS.HALTED (i : Nat) : Field := ⟨0x21008 + 32 * i, 1, 1, .w1c, false, 0⟩
/-- 04_dma_scan.md. -/
def DMA_CH_STATUS.HELD (i : Nat) : Field := ⟨0x21008 + 32 * i, 2, 1, .ro, false, 0⟩
/-- 04_dma_scan.md. -/
def DMA_CH_STATUS.WAKE_WAIT (i : Nat) : Field := ⟨0x21008 + 32 * i, 3, 1, .ro, false, 0⟩
/-- 04_dma_scan.md. -/
def DMA_CH_STATUS.LAST_STATUS (i : Nat) : Field := ⟨0x21008 + 32 * i, 8, 8, .ro, false, 0⟩
/-- 04_dma_scan.md. -/
def DMA_CH_STATUS.CAUSE (i : Nat) : Field := ⟨0x21008 + 32 * i, 16, 4, .ro, false, 0⟩
/-- 04_dma_scan.md. -/
def DMA_CH_STATUS.RING (i : Nat) : Field := ⟨0x21008 + 32 * i, 24, 6, .ro, false, 0⟩
/-- 04_dma_scan.md. -/
def DMA_CH_STATUS.BOUND (i : Nat) : Field := ⟨0x21008 + 32 * i, 31, 1, .ro, false, 0⟩
/-- 04_dma_scan.md. -/
def DMA_CH_DONE.DONE (i : Nat) : Field := ⟨0x21010 + 32 * i, 0, 64, .ro, false, 0⟩
/-- 04_dma_scan.md. -/
def DMA_CH_RESIDUE.RESIDUE (i : Nat) : Field := ⟨0x21018 + 32 * i, 0, 64, .ro, false, 0⟩
/-- 04_dma_scan.md. -/
def CHK_ENG_STATUS.OWNER (i : Nat) : Field := ⟨0xC0000 + 16 * i, 0, 2, .ro, false, 0⟩
/-- 04_dma_scan.md. -/
def CHK_ENG_STATUS.POLY (i : Nat) : Field := ⟨0xC0000 + 16 * i, 2, 1, .ro, false, 0⟩
/-- 04_dma_scan.md. -/
def CHK_ENG_STATUS.SPACE (i : Nat) : Field := ⟨0xC0000 + 16 * i, 3, 1, .ro, false, 0⟩
/-- 04_dma_scan.md. -/
def CHK_ENG_VAL.VAL (i : Nat) : Field := ⟨0xC0004 + 16 * i, 0, 64, .ro, false, 0⟩
/-- 04_dma_scan.md. -/
def CHK_ENG_DONE.BYTES (i : Nat) : Field := ⟨0xC000C + 16 * i, 0, 32, .ro, false, 0⟩
/-- 06_codec.md. -/
def CDC_CTRL.HOST_SHARE : Field := ⟨0x30000, 0, 1, .rw, true, 0⟩
/-- 06_codec.md. -/
def CDC_FEED_IN.IN : Field := ⟨0x30008, 0, 64, .ro, false, 0⟩
/-- 06_codec.md. -/
def CDC_FEED_OUT.OUT : Field := ⟨0x30010, 0, 64, .ro, false, 0⟩
/-- 06_codec.md. -/
def CDC_ENG_STATUS.OWNER (i : Nat) : Field := ⟨0x30100 + 32 * i, 0, 2, .ro, false, 0⟩
/-- 06_codec.md. -/
def CDC_ENG_STATUS.KIND (i : Nat) : Field := ⟨0x30100 + 32 * i, 2, 1, .ro, false, (if i < 4 then 0 else 1)⟩
/-- 06_codec.md. -/
def CDC_ENG_STATUS.PREEMPTED (i : Nat) : Field := ⟨0x30100 + 32 * i, 3, 1, .ro, false, 0⟩
/-- 06_codec.md. -/
def CDC_ENG_STATUS.CHANNEL (i : Nat) : Field := ⟨0x30100 + 32 * i, 8, 5, .ro, false, 0⟩
/-- 06_codec.md. -/
def CDC_ENG_STATUS.LAST_STATUS (i : Nat) : Field := ⟨0x30100 + 32 * i, 16, 8, .ro, false, 0⟩
/-- 06_codec.md. -/
def CDC_ENG_STATUS.LAST_REASON (i : Nat) : Field := ⟨0x30100 + 32 * i, 24, 8, .ro, false, 0⟩
/-- 06_codec.md. -/
def CDC_ENG_IN.IN (i : Nat) : Field := ⟨0x30104 + 32 * i, 0, 64, .ro, false, 0⟩
/-- 06_codec.md. -/
def CDC_ENG_OUT.OUT (i : Nat) : Field := ⟨0x3010C + 32 * i, 0, 64, .ro, false, 0⟩
/-- 07_parser_templates.md. -/
def PRS_CTRL.LAQ_LOG2 : Field := ⟨0x40000, 0, 6, .rw, true, 31⟩
/-- 07_parser_templates.md. -/
def PRS_CTRL.AHEAD_MAX : Field := ⟨0x40000, 8, 8, .rw, true, 64⟩
/-- 07_parser_templates.md. -/
def PRS_STATUS.ACTIVE : Field := ⟨0x40004, 0, 1, .ro, false, 0⟩
/-- 07_parser_templates.md. -/
def PRS_STATUS.STALL_LAQ : Field := ⟨0x40004, 1, 1, .ro, false, 0⟩
/-- 07_parser_templates.md. -/
def PRS_STATUS.STALL_AHEAD : Field := ⟨0x40004, 2, 1, .ro, false, 0⟩
/-- 07_parser_templates.md. -/
def PRS_STATUS.STARVED : Field := ⟨0x40004, 3, 1, .ro, false, 0⟩
/-- 07_parser_templates.md. -/
def PRS_STATUS.WARP_ON : Field := ⟨0x40004, 4, 1, .ro, false, 0⟩
/-- 07_parser_templates.md. -/
def PRS_STATUS.LAST_STATUS : Field := ⟨0x40004, 8, 8, .ro, false, 0⟩
/-- 07_parser_templates.md. -/
def PRS_STATUS.LAST_REASON : Field := ⟨0x40004, 16, 8, .ro, false, 0⟩
/-- 07_parser_templates.md. -/
def PRS_BAND_CONF.BAND : Field := ⟨0x40008, 0, 32, .ro, false, 0xffffffff⟩
/-- 07_parser_templates.md. -/
def PRS_BAND_REL.BAND : Field := ⟨0x4000C, 0, 32, .ro, false, 0xffffffff⟩
/-- 07_parser_templates.md. -/
def PRS_BAND_FINE.BAND : Field := ⟨0x40010, 0, 32, .ro, false, 0⟩
/-- 07_parser_templates.md. -/
def PRS_FEED.FX : Field := ⟨0x40014, 0, 16, .ro, false, 0⟩
/-- 07_parser_templates.md. -/
def PRS_FEED.FY : Field := ⟨0x40014, 16, 16, .ro, false, 0⟩
/-- 07_parser_templates.md. -/
def PRS_WARP_BOUND.BX : Field := ⟨0x40018, 0, 12, .ro, false, 0⟩
/-- 07_parser_templates.md. -/
def PRS_WARP_BOUND.BY : Field := ⟨0x40018, 16, 12, .ro, false, 0⟩
/-- 07_parser_templates.md. -/
def PRS_TSTORE.LINES : Field := ⟨0x4001C, 0, 13, .ro, false, 0⟩
/-- 07_parser_templates.md. -/
def PRS_TSTORE.LOCKED : Field := ⟨0x4001C, 16, 4, .ro, false, 0⟩
/-- 07_parser_templates.md. -/
def PRS_TDEF.BYTES : Field := ⟨0x40020, 0, 64, .ro, false, 0⟩
/-- 07_parser_templates.md. -/
def PRS_LAQ_FILL.BYTES : Field := ⟨0x40028, 0, 64, .ro, false, 0⟩
/-- 07_parser_templates.md. -/
def PRS_PRIMS.COUNT : Field := ⟨0x40030, 0, 64, .ro, false, 0⟩
/-- 08_casement_raster.md. -/
def CSM_CTRL.OFFSET_EN : Field := ⟨0x50000, 0, 1, .rw, true, 1⟩
/-- 08_casement_raster.md. -/
def CSM_STATUS.ACTIVE : Field := ⟨0x50004, 0, 1, .ro, false, 0⟩
/-- 08_casement_raster.md. -/
def CSM_STATUS.WAIT_INPUT : Field := ⟨0x50004, 1, 1, .ro, false, 0⟩
/-- 08_casement_raster.md. -/
def CSM_STATUS.WAIT_BUF : Field := ⟨0x50004, 2, 1, .ro, false, 0⟩
/-- 08_casement_raster.md. -/
def CSM_STATUS.RECOMPUTE : Field := ⟨0x50004, 3, 1, .ro, false, 0⟩
/-- 08_casement_raster.md. -/
def CSM_STATUS.PANE : Field := ⟨0x50004, 8, 4, .ro, false, 0⟩
/-- 08_casement_raster.md. -/
def CSM_STATUS.SLICE : Field := ⟨0x50004, 12, 4, .ro, false, 0⟩
/-- 08_casement_raster.md. -/
def CSM_BAND.BAND : Field := ⟨0x50008, 0, 32, .ro, false, 0⟩
/-- 08_casement_raster.md. -/
def CSM_PBUF.PLANES : Field := ⟨0x5000C, 0, 9, .ro, false, 0⟩
/-- 08_casement_raster.md. -/
def CSM_PBUF.PEAK : Field := ⟨0x5000C, 16, 9, .ro, false, 0⟩
/-- 08_casement_raster.md. -/
def CSM_OFS_CRC.CRC : Field := ⟨0x50010, 0, 32, .ro, false, 0xdc5d4a1c⟩
/-- 08_casement_raster.md. -/
def CSM_PIECES.COUNT : Field := ⟨0x50018, 0, 64, .ro, false, 0⟩
/-- 08_casement_raster.md. -/
def CSM_BUSY.CC : Field := ⟨0x50020, 0, 64, .ro, false, 0⟩
/-- 08_casement_raster.md. -/
def CSM_STALL.CC : Field := ⟨0x50028, 0, 64, .ro, false, 0⟩
/-- 09_dose_correction.md. -/
def PEC_CTRL.ETA : Field := ⟨0x60000, 0, 12, .rw, true, 0⟩
/-- 09_dose_correction.md. -/
def PEC_BETA.BETA_NM : Field := ⟨0x60004, 0, 15, .rw, true, 0x2710⟩
/-- 09_dose_correction.md. -/
def PEC_BETA.R : Field := ⟨0x60004, 16, 7, .ro, false, 43⟩
/-- 09_dose_correction.md. -/
def PEC_SCALE.SCALE : Field := ⟨0x60008, 0, 10, .rw, true, 512⟩
/-- 09_dose_correction.md. -/
def PEC_STATUS.ACTIVE : Field := ⟨0x6000C, 0, 1, .ro, false, 0⟩
/-- 09_dose_correction.md. -/
def PEC_STATUS.WAIT_GRID : Field := ⟨0x6000C, 1, 1, .ro, false, 0⟩
/-- 09_dose_correction.md. -/
def PEC_STATUS.WAIT_COV : Field := ⟨0x6000C, 2, 1, .ro, false, 0⟩
/-- 09_dose_correction.md. -/
def PEC_STATUS.WAIT_SLOT : Field := ⟨0x6000C, 3, 1, .ro, false, 0⟩
/-- 09_dose_correction.md. -/
def PEC_STATUS.WITNESS : Field := ⟨0x6000C, 8, 5, .ro, false, 0⟩
/-- 09_dose_correction.md. -/
def PEC_BAND_DENS.BAND : Field := ⟨0x60010, 0, 32, .ro, false, 0xffffffff⟩
/-- 09_dose_correction.md. -/
def PEC_BAND_B.BAND : Field := ⟨0x60014, 0, 32, .ro, false, 0xffffffff⟩
/-- 09_dose_correction.md. -/
def PEC_BAND_DOSE.BAND : Field := ⟨0x60018, 0, 32, .ro, false, 0xffffffff⟩
/-- 09_dose_correction.md. -/
def PEC_TABLE_CRC.CRC : Field := ⟨0x6001C, 0, 32, .ro, false, 0⟩
/-- 09_dose_correction.md. -/
def PEC_CLAMPS.COUNT : Field := ⟨0x60020, 0, 64, .ro, false, 0⟩
/-- 10_shutter_scheduler.md. -/
def SCH_CTRL.MODE : Field := ⟨0x70000, 0, 2, .rw, true, 0⟩
/-- 10_shutter_scheduler.md. -/
def SCH_DWELL.DWELL_NS : Field := ⟨0x70004, 0, 12, .rw, true, 3000⟩
/-- 10_shutter_scheduler.md. -/
def SCH_HEAD_ID.ID : Field := ⟨0x70008, 0, 64, .rw, true, 0⟩
/-- 10_shutter_scheduler.md. -/
def SCH_STATUS.ACTIVE : Field := ⟨0x70010, 0, 1, .ro, false, 0⟩
/-- 10_shutter_scheduler.md. -/
def SCH_STATUS.LEDGER_BUSY : Field := ⟨0x70010, 1, 1, .ro, false, 0⟩
/-- 10_shutter_scheduler.md. -/
def SCH_STATUS.RECOMPUTE : Field := ⟨0x70010, 2, 1, .ro, false, 0⟩
/-- 10_shutter_scheduler.md. -/
def SCH_STATUS.BOUND : Field := ⟨0x70010, 3, 1, .ro, false, 0⟩
/-- 10_shutter_scheduler.md. -/
def SCH_STATUS.MODE : Field := ⟨0x70010, 4, 2, .ro, false, 0⟩
/-- 10_shutter_scheduler.md. -/
def SCH_STEP.STEP : Field := ⟨0x70014, 0, 32, .ro, false, 0⟩
/-- 10_shutter_scheduler.md. -/
def SCH_LEDGER.WINDOW : Field := ⟨0x70018, 0, 6, .ro, false, 0⟩
/-- 10_shutter_scheduler.md. -/
def SCH_LEDGER.PENDING : Field := ⟨0x70018, 16, 16, .ro, false, 0⟩
/-- 10_shutter_scheduler.md. -/
def SCH_CUR_CRC.CRC : Field := ⟨0x70020, 0, 32, .ro, false, 0⟩
/-- 10_shutter_scheduler.md. -/
def SCH_TRIM_CRC.CRC : Field := ⟨0x70024, 0, 32, .ro, false, 0⟩
/-- 10_shutter_scheduler.md. -/
def SCH_STATE_CRC.CRC : Field := ⟨0x70028, 0, 32, .ro, false, 0⟩
/-- 10_shutter_scheduler.md. -/
def SCH_FEED_CRC.CRC : Field := ⟨0x7002C, 0, 32, .ro, false, 0⟩
/-- 10_shutter_scheduler.md. -/
def SCH_RING_BASE.ADDR : Field := ⟨0x70030, 0, 64, .ro, false, 0⟩
/-- 10_shutter_scheduler.md. -/
def SCH_JRNL_BASE.ADDR : Field := ⟨0x70038, 0, 64, .ro, false, 0x2C2000000⟩
/-- 10_shutter_scheduler.md. -/
def SCH_DEBTS.COUNT : Field := ⟨0x70040, 0, 64, .ro, false, 0⟩
/-- 10_shutter_scheduler.md. -/
def SCH_REPAID.COUNT : Field := ⟨0x70048, 0, 64, .ro, false, 0⟩
/-- 10_shutter_scheduler.md. -/
def SCH_HOLES.COUNT : Field := ⟨0x70050, 0, 64, .ro, false, 0⟩
/-- 10_shutter_scheduler.md. -/
def SCH_SHORT.COUNT : Field := ⟨0x70058, 0, 64, .ro, false, 0⟩
/-- 10_shutter_scheduler.md. -/
def SCH_OVER.COUNT : Field := ⟨0x70060, 0, 64, .ro, false, 0⟩
/-- 11_hbm_controller.md. -/
def HMC_CTRL.PANIC_FRAMES : Field := ⟨0x80000, 0, 5, .rw, true, 8⟩
/-- 11_hbm_controller.md. -/
def HMC_CTRL.PANIC_EXIT : Field := ⟨0x80000, 8, 6, .rw, true, 16⟩
/-- 11_hbm_controller.md. -/
def HMC_CTRL.REF_PB : Field := ⟨0x80000, 16, 1, .rw, true, 0⟩
/-- 11_hbm_controller.md. -/
def HMC_CTRL.PD_EN : Field := ⟨0x80000, 17, 1, .rw, true, 1⟩
/-- 11_hbm_controller.md. -/
def HMC_PD.PD_IDLE : Field := ⟨0x80004, 0, 16, .rw, true, 512⟩
/-- 11_hbm_controller.md. -/
def HMC_RH.RAAIMT : Field := ⟨0x80008, 0, 9, .ro, false, 0⟩
/-- 11_hbm_controller.md. -/
def HMC_RH.RAAMMT : Field := ⟨0x80008, 16, 9, .ro, false, 0⟩
/-- 11_hbm_controller.md. -/
def HMC_THROTTLE.THROTTLE_US : Field := ⟨0x8000C, 0, 10, .rw, true, 20⟩
/-- 11_hbm_controller.md. -/
def HMC_STATUS.TRAINED : Field := ⟨0x80010, 0, 1, .ro, false, 0⟩
/-- 11_hbm_controller.md. -/
def HMC_STATUS.HOT : Field := ⟨0x80010, 1, 1, .ro, false, 0⟩
/-- 11_hbm_controller.md. -/
def HMC_STATUS.PANIC : Field := ⟨0x80010, 2, 1, .ro, false, 0⟩
/-- 11_hbm_controller.md. -/
def HMC_STATUS.SR_ENTRY : Field := ⟨0x80010, 3, 1, .ro, false, 0⟩
/-- 11_hbm_controller.md. -/
def HMC_STATUS.SELF_REFRESH : Field := ⟨0x80010, 4, 1, .ro, false, 0⟩
/-- 11_hbm_controller.md. -/
def HMC_STATUS.THROTTLED : Field := ⟨0x80010, 8, 9, .ro, false, 0⟩
/-- 11_hbm_controller.md. -/
def HMC_STATUS.STACK_C : Field := ⟨0x80010, 24, 8, .ro, false, 0⟩
/-- 11_hbm_controller.md. -/
def HMC_TRAIN.RESULT : Field := ⟨0x80014, 0, 8, .ro, false, 0⟩
/-- 11_hbm_controller.md. -/
def HMC_TRAIN.FAIL_PC : Field := ⟨0x80014, 8, 5, .ro, false, 0⟩
/-- 11_hbm_controller.md. -/
def HMC_TRAIN.FAIL_KIND : Field := ⟨0x80014, 13, 3, .ro, false, 0⟩
/-- 11_hbm_controller.md. -/
def HMC_TRAIN.REPAIRS : Field := ⟨0x80014, 16, 8, .ro, false, 0⟩
/-- 11_hbm_controller.md. -/
def HMC_REPAIR.BYTE0 (i : Nat) : Field := ⟨0x80100 + 8 * i, 0, 8, .ro, false, 0⟩
/-- 11_hbm_controller.md. -/
def HMC_REPAIR.BYTE1 (i : Nat) : Field := ⟨0x80100 + 8 * i, 8, 8, .ro, false, 0⟩
/-- 11_hbm_controller.md. -/
def HMC_REPAIR.BYTE2 (i : Nat) : Field := ⟨0x80100 + 8 * i, 16, 8, .ro, false, 0⟩
/-- 11_hbm_controller.md. -/
def HMC_REPAIR.BYTE3 (i : Nat) : Field := ⟨0x80100 + 8 * i, 24, 8, .ro, false, 0⟩
/-- 11_hbm_controller.md. -/
def HMC_REPAIR_ECC.BYTE0 (i : Nat) : Field := ⟨0x80104 + 8 * i, 0, 8, .ro, false, 0⟩
/-- 11_hbm_controller.md. -/
def HMC_REF.P (i : Nat) : Field := ⟨0x80200 + 4 * i, 0, 5, .ro, false, 0⟩
/-- 11_hbm_controller.md. -/
def HMC_REF.PEAK (i : Nat) : Field := ⟨0x80200 + 4 * i, 8, 4, .ro, false, 0⟩
/-- 11_hbm_controller.md. -/
def HMC_REF.FORCED (i : Nat) : Field := ⟨0x80200 + 4 * i, 16, 16, .ro, false, 0⟩
/-- 11_hbm_controller.md. -/
def HMC_PORT.WEIGHT (i : Nat) : Field := ⟨0x80300 + 4 * i, 0, 7, .ro, false, (portLeaves i)⟩
/-- 11_hbm_controller.md. -/
def HMC_PORT.THROTTLED (i : Nat) : Field := ⟨0x80300 + 4 * i, 7, 1, .ro, false, 0⟩
/-- 11_hbm_controller.md. -/
def HMC_PORT.THROTTLES (i : Nat) : Field := ⟨0x80300 + 4 * i, 16, 16, .ro, false, 0⟩
/-- 11_hbm_controller.md. -/
def HMC_ECC_CE.COUNT : Field := ⟨0x80400, 0, 64, .ro, false, 0⟩
/-- 11_hbm_controller.md. -/
def HMC_ECC_UE.COUNT : Field := ⟨0x80408, 0, 32, .ro, false, 0⟩
/-- 11_hbm_controller.md. -/
def HMC_ECC_ADDR.ADDR : Field := ⟨0x80410, 0, 64, .ro, false, 0⟩
/-- 11_hbm_controller.md. -/
def HMC_ECC_INFO.UE : Field := ⟨0x80418, 0, 1, .ro, false, 0⟩
/-- 11_hbm_controller.md. -/
def HMC_ECC_INFO.ON_DIE : Field := ⟨0x80418, 1, 1, .ro, false, 0⟩
/-- 11_hbm_controller.md. -/
def HMC_ECC_INFO.PORT : Field := ⟨0x80418, 2, 4, .ro, false, 0⟩
/-- 11_hbm_controller.md. -/
def HMC_ECC_INFO.PC : Field := ⟨0x80418, 6, 5, .ro, false, 0⟩
/-- 12_emission_sequencer.md. -/
def EMS_CTRL.TRK_EN : Field := ⟨0x90000, 0, 1, .rw, true, 1⟩
/-- 12_emission_sequencer.md. -/
def EMS_STATE.STATE : Field := ⟨0x90004, 0, 3, .ro, false, 0⟩
/-- 12_emission_sequencer.md. -/
def EMS_STATE.SOS_LATCHED : Field := ⟨0x90004, 3, 1, .ro, false, 0⟩
/-- 12_emission_sequencer.md. -/
def EMS_STATE.POS_LOCK : Field := ⟨0x90004, 4, 1, .ro, false, 0⟩
/-- 12_emission_sequencer.md. -/
def EMS_STATE.FB_HOLD : Field := ⟨0x90004, 5, 1, .ro, false, 0⟩
/-- 12_emission_sequencer.md. -/
def EMS_STATE.CAUSE : Field := ⟨0x90004, 8, 8, .ro, false, 0⟩
/-- 12_emission_sequencer.md. -/
def EMS_STRIPE.STRIPE_ID : Field := ⟨0x90008, 0, 32, .ro, false, 0⟩
/-- 12_emission_sequencer.md. -/
def EMS_POS_CFG.JTOL_PU : Field := ⟨0x9000C, 0, 7, .rw, true, 4⟩
/-- 12_emission_sequencer.md. -/
def EMS_POS_CFG.FWD_MAX_PU : Field := ⟨0x9000C, 8, 7, .rw, true, 64⟩
/-- 12_emission_sequencer.md. -/
def EMS_FLASH_CFG.TMIN_SLOTS : Field := ⟨0x90010, 0, 10, .rw, true, 100⟩
/-- 12_emission_sequencer.md. -/
def EMS_FLASH_CFG.OVS_LIMIT : Field := ⟨0x90010, 16, 6, .rw, true, 16⟩
/-- 12_emission_sequencer.md. -/
def EMS_XTOL.XTOL_PU : Field := ⟨0x90014, 0, 17, .rw, true, 0x8000⟩
/-- 12_emission_sequencer.md. -/
def EMS_TIMEOUT.STALL_MS : Field := ⟨0x90018, 0, 16, .rw, true, 500⟩
/-- 12_emission_sequencer.md. -/
def EMS_TIMEOUT.FB_HOLD_MS : Field := ⟨0x90018, 16, 10, .rw, true, 2⟩
/-- 12_emission_sequencer.md. -/
def EMS_EFF.TMIN_EFF : Field := ⟨0x9001C, 0, 10, .ro, false, 100⟩
/-- 12_emission_sequencer.md. -/
def EMS_EFF.SEG_SLOTS : Field := ⟨0x9001C, 16, 10, .ro, false, 84⟩
/-- 12_emission_sequencer.md. -/
def EMS_Y.VALUE : Field := ⟨0x90020, 0, 64, .ro, false, 0⟩
/-- 12_emission_sequencer.md. -/
def EMS_YF.VALUE : Field := ⟨0x90028, 0, 64, .ro, false, 0⟩
/-- 12_emission_sequencer.md. -/
def EMS_X.VALUE : Field := ⟨0x90030, 0, 64, .ro, false, 0⟩
/-- 12_emission_sequencer.md. -/
def EMS_TARGET.VALUE : Field := ⟨0x90038, 0, 64, .ro, false, 0⟩
/-- 12_emission_sequencer.md. -/
def EMS_NEXT.N : Field := ⟨0x90040, 0, 64, .ro, false, 0⟩
/-- 12_emission_sequencer.md. -/
def EMS_FLASHES.COUNT : Field := ⟨0x90048, 0, 48, .ro, false, 0⟩
/-- 12_emission_sequencer.md. -/
def EMS_FLASHES.OVF : Field := ⟨0x90048, 48, 1, .ro, false, 0⟩
/-- 12_emission_sequencer.md. -/
def EMS_FLASHES.EPOCH : Field := ⟨0x90048, 56, 8, .ro, false, 0⟩
/-- 12_emission_sequencer.md. -/
def EMS_FLASHES_CTRL.CLEAR : Field := ⟨0x90050, 0, 1, .sc, false, 0⟩
/-- 12_emission_sequencer.md. -/
def EMS_POS_ERR.BAD : Field := ⟨0x90054, 0, 16, .rc, false, 0⟩
/-- 12_emission_sequencer.md. -/
def EMS_POS_ERR.GLITCH : Field := ⟨0x90054, 16, 8, .rc, false, 0⟩
/-- 12_emission_sequencer.md. -/
def EMS_POS_ERR.LOSSES : Field := ⟨0x90054, 24, 8, .rc, false, 0⟩
/-- 12_emission_sequencer.md. -/
def EMS_SOS_IGN.COUNT : Field := ⟨0x90058, 0, 16, .rc, false, 0⟩
/-- 12_emission_sequencer.md. -/
def EMS_MISS.COUNT (i : Nat) : Field := ⟨0x90060 + 4 * i, 0, 32, .ro, false, 0⟩
/-- 12_emission_sequencer.md. -/
def EMS_OUTCOME.WORD (i : Nat) : Field := ⟨0x90100 + 4 * i, 0, 32, .ro, false, 0⟩
/-- 13_shutter_link.md. -/
def SHL_CTRL.LINK_EN : Field := ⟨0xA0000, 0, 1, .rw, false, 0⟩
/-- 13_shutter_link.md. -/
def SHL_CTRL.RELATCH : Field := ⟨0xA0000, 1, 1, .sc, false, 0⟩
/-- 13_shutter_link.md. -/
def SHL_CTRL.MAX_RATE : Field := ⟨0xA0000, 4, 2, .rw, true, 3⟩
/-- 13_shutter_link.md. -/
def SHL_STATE.STATE : Field := ⟨0xA0004, 0, 3, .ro, false, 0⟩
/-- 13_shutter_link.md. -/
def SHL_STATE.RATE : Field := ⟨0xA0004, 3, 2, .ro, false, 0⟩
/-- 13_shutter_link.md. -/
def SHL_STATE.GEN : Field := ⟨0xA0004, 5, 2, .ro, false, 0⟩
/-- 13_shutter_link.md. -/
def SHL_STATE.PROVED : Field := ⟨0xA0004, 7, 1, .ro, false, 0⟩
/-- 13_shutter_link.md. -/
def SHL_STATE.LAST_STATUS : Field := ⟨0xA0004, 8, 8, .ro, false, 0⟩
/-- 13_shutter_link.md. -/
def SHL_STATE.LOSSES : Field := ⟨0xA0004, 16, 2, .ro, false, 0⟩
/-- 13_shutter_link.md. -/
def SHL_SPARE.LANE32 : Field := ⟨0xA0008, 0, 5, .ro, false, 0⟩
/-- 13_shutter_link.md. -/
def SHL_SPARE.USED32 : Field := ⟨0xA0008, 5, 1, .ro, false, 0⟩
/-- 13_shutter_link.md. -/
def SHL_SPARE.LANE33 : Field := ⟨0xA0008, 8, 5, .ro, false, 0⟩
/-- 13_shutter_link.md. -/
def SHL_SPARE.USED33 : Field := ⟨0xA0008, 13, 1, .ro, false, 0⟩
/-- 13_shutter_link.md. -/
def SHL_LOCK.LANES : Field := ⟨0xA0010, 0, 64, .ro, false, 0⟩
/-- 13_shutter_link.md. -/
def SHL_LOST.LANES : Field := ⟨0xA0018, 0, 64, .ro, false, 0⟩
/-- 13_shutter_link.md. -/
def SHL_BC.GOOD : Field := ⟨0xA0020, 0, 2, .ro, false, 0⟩
/-- 13_shutter_link.md. -/
def SHL_BC.MISSING : Field := ⟨0xA0020, 8, 8, .rc, false, 0⟩
/-- 13_shutter_link.md. -/
def SHL_BC.BAD : Field := ⟨0xA0020, 16, 16, .rc, false, 0⟩
/-- 13_shutter_link.md. -/
def SHL_HEAD_ID.VALUE : Field := ⟨0xA0028, 0, 64, .ro, false, 0⟩
/-- 13_shutter_link.md. -/
def SHL_SHOTS.VALUE : Field := ⟨0xA0030, 0, 64, .ro, false, 0⟩
/-- 13_shutter_link.md. -/
def SHL_TRIM_CRC.CRC : Field := ⟨0xA0038, 0, 32, .ro, false, 0⟩
/-- 13_shutter_link.md. -/
def SHL_EQ_CRC.CRC : Field := ⟨0xA003C, 0, 32, .ro, false, 0⟩
/-- 13_shutter_link.md. -/
def SHL_BLANKED.COUNT : Field := ⟨0xA0040, 0, 64, .ro, false, 0⟩
/-- 13_shutter_link.md. -/
def SHL_SWITCHES.COUNT : Field := ⟨0xA0048, 0, 32, .ro, false, 0⟩
/-- 14_twin_pair.md. -/
def NLK_CTRL.AUTO_REJOIN : Field := ⟨0xB0000, 0, 1, .rw, false, 1⟩
/-- 14_twin_pair.md. -/
def NLK_CTRL.REJOIN : Field := ⟨0xB0000, 1, 1, .sc, false, 0⟩
/-- 14_twin_pair.md. -/
def NLK_CTRL.FENCE : Field := ⟨0xB0000, 2, 1, .sc, false, 0⟩
/-- 14_twin_pair.md. -/
def NLK_CTRL.SOLO : Field := ⟨0xB0000, 3, 1, .rw, true, 0⟩
/-- 14_twin_pair.md. -/
def NLK_CTRL.LOSS_LIMIT : Field := ⟨0xB0000, 8, 8, .rw, true, 4⟩
/-- 14_twin_pair.md. -/
def NLK_STATE.PAIR : Field := ⟨0xB0004, 0, 3, .ro, false, 0⟩
/-- 14_twin_pair.md. -/
def NLK_STATE.HARD : Field := ⟨0xB0004, 3, 1, .ro, false, 0⟩
/-- 14_twin_pair.md. -/
def NLK_STATE.LANES_UP : Field := ⟨0xB0004, 8, 8, .ro, false, 0⟩
/-- 14_twin_pair.md. -/
def NLK_STATE.CAUSE : Field := ⟨0xB0004, 16, 8, .ro, false, 0⟩
/-- 14_twin_pair.md. -/
def NLK_PARTNER.DIE_ID : Field := ⟨0xB0008, 0, 64, .ro, false, 0⟩
/-- 14_twin_pair.md. -/
def NLK_MISMATCH.COUNT : Field := ⟨0xB0010, 0, 64, .ro, false, 0⟩
/-- 14_twin_pair.md. -/
def NLK_RESOLVED.COUNT : Field := ⟨0xB0018, 0, 64, .ro, false, 0⟩
/-- 14_twin_pair.md. -/
def NLK_WITHHELD.COUNT : Field := ⟨0xB0020, 0, 64, .ro, false, 0⟩
/-- 14_twin_pair.md. -/
def NLK_LOSSES.LOST : Field := ⟨0xB0028, 0, 16, .ro, false, 0⟩
/-- 14_twin_pair.md. -/
def NLK_LOSSES.FENCES : Field := ⟨0xB0028, 16, 16, .ro, false, 0⟩
/-- 14_twin_pair.md. -/
def NLK_MARGIN.TF : Field := ⟨0xB002C, 0, 16, .ro, false, 0xffff⟩
/-- 14_twin_pair.md. -/
def NLK_RETX.RESENT : Field := ⟨0xB0030, 0, 16, .rc, false, 0⟩
/-- 14_twin_pair.md. -/
def NLK_RETX.DROPS : Field := ⟨0xB0030, 16, 8, .rc, false, 0⟩
/-- 14_twin_pair.md. -/
def NLK_RETX.LOSSES : Field := ⟨0xB0030, 24, 8, .rc, false, 0⟩
/-- 15_calibration.md. -/
def CAL_CTRL.THRESH_C : Field := ⟨0xD0000, 0, 5, .rw, true, 4⟩
/-- 15_calibration.md. -/
def CAL_CTRL.GAP_MS : Field := ⟨0xD0000, 8, 5, .rw, true, 3⟩
/-- 15_calibration.md. -/
def CAL_CTRL.RUN_NOW : Field := ⟨0xD0000, 16, 1, .sc, false, 0⟩
/-- 15_calibration.md. -/
def CAL_CTRL.AUTO : Field := ⟨0xD0000, 17, 1, .rw, true, 1⟩
/-- 15_calibration.md. -/
def CAL_STATUS.STATE : Field := ⟨0xD0004, 0, 2, .ro, false, 0⟩
/-- 15_calibration.md. -/
def CAL_STATUS.OVERDUE : Field := ⟨0xD0004, 2, 1, .ro, false, 0⟩
/-- 15_calibration.md. -/
def CAL_STATUS.RCAL_FROZEN : Field := ⟨0xD0004, 3, 1, .ro, false, 0⟩
/-- 15_calibration.md. -/
def CAL_STATUS.TRIMS_VALID : Field := ⟨0xD0004, 4, 1, .ro, false, 0⟩
/-- 15_calibration.md. -/
def CAL_STATUS.ACTIVE_SLOT : Field := ⟨0xD0004, 5, 1, .ro, false, 0⟩
/-- 15_calibration.md. -/
def CAL_STATUS.STORE_PENDING : Field := ⟨0xD0004, 6, 1, .ro, false, 0⟩
/-- 15_calibration.md. -/
def CAL_STATUS.DUE : Field := ⟨0xD0004, 8, 6, .ro, false, 0⟩
/-- 15_calibration.md. -/
def CAL_STATUS.GAPS : Field := ⟨0xD0004, 16, 16, .ro, false, 0⟩
/-- 15_calibration.md. -/
def CAL_DRIFT.DRIFT : Field := ⟨0xD0008, 0, 10, .ro, false, 0⟩
/-- 15_calibration.md. -/
def CAL_DRIFT.SENSOR : Field := ⟨0xD0008, 12, 4, .ro, false, 0⟩
/-- 15_calibration.md. -/
def CAL_DRIFT.OVERDUE_S : Field := ⟨0xD0008, 16, 16, .ro, false, 0⟩
/-- 15_calibration.md. -/
def CAL_RCAL.OHMS_X10 : Field := ⟨0xD000C, 0, 16, .ro, false, 0⟩
/-- 15_calibration.md. -/
def CAL_RCAL.FAULT : Field := ⟨0xD000C, 16, 2, .ro, false, 0⟩
/-- 15_calibration.md. -/
def CAL_TRIM_SEQ.SEQ : Field := ⟨0xD0010, 0, 32, .ro, false, 0xffffffff⟩
/-- 15_calibration.md. -/
def CAL_TRIM_CRC.CRC : Field := ⟨0xD0014, 0, 32, .ro, false, 0⟩
/-- 15_calibration.md. -/
def CAL_ALIGN_CRC.CRC : Field := ⟨0xD0018, 0, 32, .ro, false, 0⟩
/-- 15_calibration.md. -/
def CAL_DERIVE.GO : Field := ⟨0xD001C, 0, 1, .sc, false, 0⟩
/-- 15_calibration.md. -/
def CAL_DERIVE.BUSY : Field := ⟨0xD001C, 1, 1, .ro, false, 0⟩
/-- 15_calibration.md. -/
def CAL_DERIVE.LAST_STATUS : Field := ⟨0xD001C, 8, 8, .ro, false, 0⟩
/-- 15_calibration.md. -/
def CAL_DERIVE_CRC.CRC : Field := ⟨0xD0020, 0, 32, .ro, false, 0⟩
/-- 15_calibration.md. -/
def CAL_ITEM_CFG.ENABLE (i : Nat) : Field := ⟨0xD0100 + 8 * i, 0, 1, .rw, true, 1⟩
/-- 15_calibration.md. -/
def CAL_ITEM_CFG.METHOD (i : Nat) : Field := ⟨0xD0100 + 8 * i, 1, 2, .rw, true, 0⟩
/-- 15_calibration.md. -/
def CAL_ITEM_STATUS.LAST_STATUS (i : Nat) : Field := ⟨0xD0104 + 8 * i, 0, 8, .ro, false, 0⟩
/-- 15_calibration.md. -/
def CAL_ITEM_STATUS.CODE (i : Nat) : Field := ⟨0xD0104 + 8 * i, 8, 7, .ro, false, 0⟩
/-- 15_calibration.md. -/
def CAL_ITEM_STATUS.ELEMENT (i : Nat) : Field := ⟨0xD0104 + 8 * i, 16, 2, .ro, false, 0⟩
/-- 15_calibration.md. -/
def CAL_ITEM_STATUS.RUNS (i : Nat) : Field := ⟨0xD0104 + 8 * i, 18, 14, .ro, false, 0⟩
/-- 16_selftest_power.md. -/
def BST_REQ.BLOCK : Field := ⟨0xE0000, 0, 4, .rw, false, 0⟩
/-- 16_selftest_power.md. -/
def BST_REQ.YIELD : Field := ⟨0xE0000, 4, 1, .rw, false, 0⟩
/-- 16_selftest_power.md. -/
def BST_REQ.GO : Field := ⟨0xE0000, 8, 1, .sc, false, 0⟩
/-- 16_selftest_power.md. -/
def BST_STATUS.BUSY : Field := ⟨0xE0004, 0, 1, .ro, false, 0⟩
/-- 16_selftest_power.md. -/
def BST_STATUS.BLOCK : Field := ⟨0xE0004, 4, 4, .ro, false, 0⟩
/-- 16_selftest_power.md. -/
def BST_STATUS.LAST_STATUS : Field := ⟨0xE0004, 8, 8, .ro, false, 0⟩
/-- 16_selftest_power.md. -/
def BST_STATUS.LAST_MS : Field := ⟨0xE0004, 16, 6, .ro, false, 0⟩
/-- 16_selftest_power.md. -/
def BST_PARK.PHASE : Field := ⟨0xE0010, 0, 3, .ro, false, 0⟩
/-- 16_selftest_power.md. -/
def BST_PARK.TAG : Field := ⟨0xE0010, 3, 1, .ro, false, 0⟩
/-- 16_selftest_power.md. -/
def BST_PARK.WAKE_HELD : Field := ⟨0xE0010, 4, 1, .ro, false, 0⟩
/-- 16_selftest_power.md. -/
def BST_PARK.BIST_STATUS : Field := ⟨0xE0010, 8, 8, .ro, false, 0⟩
/-- 16_selftest_power.md. -/
def BST_PARK.PARKS : Field := ⟨0xE0010, 16, 16, .ro, false, 0⟩
/-- 16_selftest_power.md. -/
def BST_PARK_CTRL.WAKE : Field := ⟨0xE0014, 0, 1, .sc, false, 0⟩
/-- 16_selftest_power.md. -/
def BST_PARK_MS.ENTRY_MS : Field := ⟨0xE0018, 0, 16, .ro, false, 0⟩
/-- 16_selftest_power.md. -/
def BST_PARK_MS.BIST_MS : Field := ⟨0xE0018, 16, 16, .ro, false, 0⟩
/-- 16_selftest_power.md. -/
def BST_RESULT.STATUS (i : Nat) : Field := ⟨0xE0100 + 16 * i, 0, 8, .ro, false, 0⟩
/-- 16_selftest_power.md. -/
def BST_RESULT.CODE (i : Nat) : Field := ⟨0xE0100 + 16 * i, 8, 8, .ro, false, 0⟩
/-- 16_selftest_power.md. -/
def BST_RESULT.KIND (i : Nat) : Field := ⟨0xE0100 + 16 * i, 16, 2, .ro, false, 0⟩
/-- 16_selftest_power.md. -/
def BST_RESULT.RUNS (i : Nat) : Field := ⟨0xE0100 + 16 * i, 18, 14, .ro, false, 0⟩
/-- 16_selftest_power.md. -/
def BST_SIG.SIG (i : Nat) : Field := ⟨0xE0104 + 16 * i, 0, 64, .ro, false, 0⟩
/-- 16_selftest_power.md. -/
def BST_COUNT.COUNT (i : Nat) : Field := ⟨0xE010C + 16 * i, 0, 32, .ro, false, 0⟩
/-- 17_counters.md. -/
def PMU_CTRL.FREEZE : Field := ⟨0xF0000, 0, 1, .rw, false, 0⟩
/-- 17_counters.md. -/
def PMU_CTRL.TD_CLEAR : Field := ⟨0xF0000, 1, 1, .sc, false, 0⟩
/-- 17_counters.md. -/
def PMU_SNAP_BASE.ADDR : Field := ⟨0xF0010, 0, 64, .rw, false, 0⟩
/-- 17_counters.md. -/
def PMU_SNAP_CFG.LOG2N : Field := ⟨0xF0018, 0, 4, .rw, false, 0⟩
/-- 17_counters.md. -/
def PMU_SNAP_CFG.ON_END : Field := ⟨0xF0018, 4, 1, .rw, false, 0⟩
/-- 17_counters.md. -/
def PMU_SNAP_CFG.ENABLE : Field := ⟨0xF0018, 5, 1, .rw, false, 0⟩
/-- 17_counters.md. -/
def PMU_SNAP_CFG.PERIOD_US : Field := ⟨0xF0018, 16, 16, .rw, false, 0⟩
/-- 17_counters.md. -/
def PMU_SNAP_CTRL.GO : Field := ⟨0xF001C, 0, 1, .sc, false, 0⟩
/-- 17_counters.md. -/
def PMU_SNAP_SEQ.SEQ : Field := ⟨0xF0020, 0, 32, .ro, false, 0⟩
/-- 17_counters.md. -/
def PMU_SNAP_STATUS.LAST_STATUS : Field := ⟨0xF0024, 0, 8, .ro, false, 0⟩
/-- 17_counters.md. -/
def PMU_SNAP_STATUS.SKIPPED : Field := ⟨0xF0024, 16, 16, .rc, false, 0⟩
/-- 17_counters.md. -/
def PMU_CNT_CFG.EVENT (b k : Nat) : Field := ⟨0xF1000 + 128 * b + 16 * k, 0, 8, .rw, false, 0⟩
/-- 17_counters.md. -/
def PMU_CNT.COUNT (b k : Nat) : Field := ⟨0xF1004 + 128 * b + 16 * k, 0, 48, .ro, false, 0⟩
/-- 17_counters.md. -/
def PMU_CNT.OVF (b k : Nat) : Field := ⟨0xF1004 + 128 * b + 16 * k, 48, 1, .ro, false, 0⟩
/-- 17_counters.md. -/
def PMU_CNT.EPOCH (b k : Nat) : Field := ⟨0xF1004 + 128 * b + 16 * k, 56, 8, .ro, false, 0⟩
/-- 17_counters.md. -/
def PMU_TD.COUNT (s c : Nat) : Field := ⟨0xF2000 + 32 * s + 8 * c, 0, 48, .ro, false, 0⟩
/-- 17_counters.md. -/
def PMU_TD.OVF (s c : Nat) : Field := ⟨0xF2000 + 32 * s + 8 * c, 48, 1, .ro, false, 0⟩
/-- 17_counters.md. -/
def PMU_TD.EPOCH (s c : Nat) : Field := ⟨0xF2000 + 32 * s + 8 * c, 56, 8, .ro, false, 0⟩
/-- MSI-X table entry `i` (R66), laid out by the PCIe Base Specification: message address. -/
def MSIX.ADDR (i : Nat) : Field := ⟨0x18000 + 16 * i, 0, 64, .rw, false, 0⟩
/-- Message data of MSI-X table entry `i`. -/
def MSIX.DATA (i : Nat) : Field := ⟨0x18008 + 16 * i, 0, 32, .rw, false, 0⟩
/-- Mask bit of MSI-X table entry `i`; 1 at reset (PRESUMED, the PCIe Base Specification; log entry 9). -/
def MSIX.MASK (i : Nat) : Field := ⟨0x1800C + 16 * i, 0, 1, .rw, false, 1⟩
/-- Pending bit of vector `i` (R66). -/
def MSIX.PENDING (i : Nat) : Field := ⟨0x19000 + 8 * (i / 64), i % 64, 1, .ro, false, 0⟩


/-- The fields of window 0 (MGT) that stand in word `a`. -/
def mgtFields (a : Nat) : List Field :=
  fieldsOf a 0x0 1 [MGT_ID.DEVICE, MGT_ID.VENDOR] ++
  fieldsOf a 0x4 1 [MGT_REV.STEPPING, MGT_REV.FW_VERSION] ++
  fieldsOf a 0x8 2 [MGT_DIE_ID.DIE_ID] ++
  fieldsOf a 0x10 1 [MGT_STATE.STATE, MGT_STATE.TWIN_ROLE, MGT_STATE.UNCAL, MGT_STATE.QUICK, MGT_STATE.FENCED, MGT_STATE.SAFE_CAUSE, MGT_STATE.START_MS] ++
  fieldsOf a 0x20 1 [MGT_RESET.CHIP_RESET, MGT_RESET.REFUSED, MGT_RESET.KEY] ++
  fieldsOf a 0x24 1 [MGT_RESET_CAUSE.POWER_ON, MGT_RESET_CAUSE.RESET_PIN, MGT_RESET_CAUSE.CHIP, MGT_RESET_CAUSE.PERST, MGT_RESET_CAUSE.WAKE] ++
  fieldsOf a 0x30 1 [MGT_CLK.ROOT_LOCK, MGT_CLK.REFCLK_OK, MGT_CLK.PCIE_REF_OK, MGT_CLK.SPREAD, MGT_CLK.HEAD_REFCLK_ON] ++
  fieldsOf a 0x34 1 [MGT_PINS.SOS, MGT_PINS.STAGE_OK, MGT_PINS.BLANK_REQ, MGT_PINS.PARK_REQ_N, MGT_PINS.TWIN_ID, MGT_PINS.FAULT_BLANK_N, MGT_PINS.THERM_N] ++
  fieldsOf a 0x38 1 [MGT_TEMP.HOTTEST, MGT_TEMP.HOT_SENSOR, MGT_TEMP.WARN_C, MGT_TEMP.STACK] ++
  fieldsOf a 0x40 1 [MGT_PWR_REQ.REQ] ++
  fieldsOf a 0x44 1 [MGT_PWR_STATE.STATE] ++
  fieldsOf a 0x48 1 [MGT_PWR_PEND.PEND] ++
  fieldsOf a 0x100 1 [MGT_CMT_STATUS.PENDING, MGT_CMT_STATUS.LAST_STATUS, MGT_CMT_STATUS.LAST_BLOCK, MGT_CMT_STATUS.LAST_REASON] ++
  fieldsOf a 0x104 1 [MGT_CMT_LAST_ID.COMMIT_ID] ++
  fieldsOf a 0x110 1 [MGT_PROT_CTRL.CMD, MGT_PROT_CTRL.ITEM, MGT_PROT_CTRL.LEN] ++
  fieldsOf a 0x114 1 [MGT_PROT_STATUS.STATE, MGT_PROT_STATUS.RESULT, MGT_PROT_STATUS.ITEM] ++
  fieldsOf a 0x118 1 [MGT_PROT_CRC.VALUE] ++
  fieldsOf a 0x11C 1 [MGT_PROT_NONCE.VALUE] ++
  fieldsOf a 0x120 1 [MGT_PROT_LIVE.FLASH_WE, MGT_PROT_LIVE.PMU_USER, MGT_PROT_LIVE.HEAD_KEY, MGT_PROT_LIVE.BEAM_AUTH, MGT_PROT_LIVE.WINDOWS] ++
  fieldsIdx a 0x200 4 64 1 (fun i => [MGT_PROT_STAGE.DATA i])

/-- The fields of window 1 (HIF) that stand in word `a`. -/
def hifFields (a : Nat) : List Field :=
  fieldsOf a 0x10000 2 [HIF_DB_BASE.ADDR] ++
  fieldsOf a 0x10008 1 [HIF_CTRL.DB_EN, HIF_CTRL.POLL_US, HIF_CTRL.DEV_EQ] ++
  fieldsOf a 0x1000C 1 [HIF_NUDGE.NUDGE] ++
  fieldsOf a 0x10010 1 [HIF_EVT_LOST.LOST] ++
  fieldsOf a 0x10014 1 [HIF_LINK.SPEED, HIF_LINK.WIDTH, HIF_LINK.MPS, HIF_LINK.MRRS] ++
  fieldsIdx a 0x11000 16 64 2 (fun i => [HIF_SQ_BASE.ADDR i]) ++
  fieldsIdx a 0x11008 16 64 1 (fun i => [HIF_SQ_CFG.ENABLE i, HIF_SQ_CFG.HALTED i, HIF_SQ_CFG.REFUSED i, HIF_SQ_CFG.TYPE i, HIF_SQ_CFG.LOG2SIZE i, HIF_SQ_CFG.EQ i]) ++
  fieldsIdx a 0x1100C 16 64 1 (fun i => [HIF_SQ_CONS.CONS i]) ++
  fieldsIdx a 0x12000 32 8 2 (fun i => [HIF_EQ_BASE.ADDR i]) ++
  fieldsIdx a 0x12008 32 8 1 (fun i => [HIF_EQ_CFG.ENABLE i, HIF_EQ_CFG.LOG2SIZE i, HIF_EQ_CFG.VECTOR i]) ++
  fieldsIdx a 0x1200C 32 8 1 (fun i => [HIF_EQ_MOD.COUNT i, HIF_EQ_MOD.TIME_US i]) ++
  fieldsIdx a 0x12010 32 8 1 (fun i => [HIF_EQ_PROD.PROD i]) ++
  fieldsIdx a 0x18000 16 64 4 (fun i => if (a - 0x18000) % 16 < 8 then [MSIX.ADDR i] else if (a - 0x18000) % 16 < 12 then [MSIX.DATA i] else [MSIX.MASK i]) ++
  fieldsOf a 0x19000 2 ((List.range 64).map MSIX.PENDING)

/-- The fields of window 2 (DMA) that stand in word `a`. -/
def dmaFields (a : Nat) : List Field :=
  fieldsOf a 0x20000 1 [DMA_CTRL.CPL_TO_MS] ++
  fieldsOf a 0x20004 1 [DMA_HALTED.HALTED] ++
  fieldsIdx a 0x21000 32 32 1 (fun i => [DMA_CH_CFG.CLASS i, DMA_CH_CFG.LOW i, DMA_CH_CFG.HIGH i, DMA_CH_CFG.QLOG2 i]) ++
  fieldsIdx a 0x21004 32 32 1 (fun i => [DMA_CH_CTRL.ABORT i]) ++
  fieldsIdx a 0x21008 32 32 1 (fun i => [DMA_CH_STATUS.ACTIVE i, DMA_CH_STATUS.HALTED i, DMA_CH_STATUS.HELD i, DMA_CH_STATUS.WAKE_WAIT i, DMA_CH_STATUS.LAST_STATUS i, DMA_CH_STATUS.CAUSE i, DMA_CH_STATUS.RING i, DMA_CH_STATUS.BOUND i]) ++
  fieldsIdx a 0x21010 32 32 2 (fun i => [DMA_CH_DONE.DONE i]) ++
  fieldsIdx a 0x21018 32 32 2 (fun i => [DMA_CH_RESIDUE.RESIDUE i])

/-- The fields of window 3 (CDC) that stand in word `a`. -/
def cdcFields (a : Nat) : List Field :=
  fieldsOf a 0x30000 1 [CDC_CTRL.HOST_SHARE] ++
  fieldsOf a 0x30008 2 [CDC_FEED_IN.IN] ++
  fieldsOf a 0x30010 2 [CDC_FEED_OUT.OUT] ++
  fieldsIdx a 0x30100 32 6 1 (fun i => [CDC_ENG_STATUS.OWNER i, CDC_ENG_STATUS.KIND i, CDC_ENG_STATUS.PREEMPTED i, CDC_ENG_STATUS.CHANNEL i, CDC_ENG_STATUS.LAST_STATUS i, CDC_ENG_STATUS.LAST_REASON i]) ++
  fieldsIdx a 0x30104 32 6 2 (fun i => [CDC_ENG_IN.IN i]) ++
  fieldsIdx a 0x3010C 32 6 2 (fun i => [CDC_ENG_OUT.OUT i])

/-- The fields of window 4 (PRS) that stand in word `a`. -/
def prsFields (a : Nat) : List Field :=
  fieldsOf a 0x40000 1 [PRS_CTRL.LAQ_LOG2, PRS_CTRL.AHEAD_MAX] ++
  fieldsOf a 0x40004 1 [PRS_STATUS.ACTIVE, PRS_STATUS.STALL_LAQ, PRS_STATUS.STALL_AHEAD, PRS_STATUS.STARVED, PRS_STATUS.WARP_ON, PRS_STATUS.LAST_STATUS, PRS_STATUS.LAST_REASON] ++
  fieldsOf a 0x40008 1 [PRS_BAND_CONF.BAND] ++
  fieldsOf a 0x4000C 1 [PRS_BAND_REL.BAND] ++
  fieldsOf a 0x40010 1 [PRS_BAND_FINE.BAND] ++
  fieldsOf a 0x40014 1 [PRS_FEED.FX, PRS_FEED.FY] ++
  fieldsOf a 0x40018 1 [PRS_WARP_BOUND.BX, PRS_WARP_BOUND.BY] ++
  fieldsOf a 0x4001C 1 [PRS_TSTORE.LINES, PRS_TSTORE.LOCKED] ++
  fieldsOf a 0x40020 2 [PRS_TDEF.BYTES] ++
  fieldsOf a 0x40028 2 [PRS_LAQ_FILL.BYTES] ++
  fieldsOf a 0x40030 2 [PRS_PRIMS.COUNT]

/-- The fields of window 5 (CSM) that stand in word `a`. -/
def csmFields (a : Nat) : List Field :=
  fieldsOf a 0x50000 1 [CSM_CTRL.OFFSET_EN] ++
  fieldsOf a 0x50004 1 [CSM_STATUS.ACTIVE, CSM_STATUS.WAIT_INPUT, CSM_STATUS.WAIT_BUF, CSM_STATUS.RECOMPUTE, CSM_STATUS.PANE, CSM_STATUS.SLICE] ++
  fieldsOf a 0x50008 1 [CSM_BAND.BAND] ++
  fieldsOf a 0x5000C 1 [CSM_PBUF.PLANES, CSM_PBUF.PEAK] ++
  fieldsOf a 0x50010 1 [CSM_OFS_CRC.CRC] ++
  fieldsOf a 0x50018 2 [CSM_PIECES.COUNT] ++
  fieldsOf a 0x50020 2 [CSM_BUSY.CC] ++
  fieldsOf a 0x50028 2 [CSM_STALL.CC]

/-- The fields of window 6 (PEC) that stand in word `a`. -/
def pecFields (a : Nat) : List Field :=
  fieldsOf a 0x60000 1 [PEC_CTRL.ETA] ++
  fieldsOf a 0x60004 1 [PEC_BETA.BETA_NM, PEC_BETA.R] ++
  fieldsOf a 0x60008 1 [PEC_SCALE.SCALE] ++
  fieldsOf a 0x6000C 1 [PEC_STATUS.ACTIVE, PEC_STATUS.WAIT_GRID, PEC_STATUS.WAIT_COV, PEC_STATUS.WAIT_SLOT, PEC_STATUS.WITNESS] ++
  fieldsOf a 0x60010 1 [PEC_BAND_DENS.BAND] ++
  fieldsOf a 0x60014 1 [PEC_BAND_B.BAND] ++
  fieldsOf a 0x60018 1 [PEC_BAND_DOSE.BAND] ++
  fieldsOf a 0x6001C 1 [PEC_TABLE_CRC.CRC] ++
  fieldsOf a 0x60020 2 [PEC_CLAMPS.COUNT]

/-- The fields of window 7 (SCH) that stand in word `a`. -/
def schFields (a : Nat) : List Field :=
  fieldsOf a 0x70000 1 [SCH_CTRL.MODE] ++
  fieldsOf a 0x70004 1 [SCH_DWELL.DWELL_NS] ++
  fieldsOf a 0x70008 2 [SCH_HEAD_ID.ID] ++
  fieldsOf a 0x70010 1 [SCH_STATUS.ACTIVE, SCH_STATUS.LEDGER_BUSY, SCH_STATUS.RECOMPUTE, SCH_STATUS.BOUND, SCH_STATUS.MODE] ++
  fieldsOf a 0x70014 1 [SCH_STEP.STEP] ++
  fieldsOf a 0x70018 1 [SCH_LEDGER.WINDOW, SCH_LEDGER.PENDING] ++
  fieldsOf a 0x70020 1 [SCH_CUR_CRC.CRC] ++
  fieldsOf a 0x70024 1 [SCH_TRIM_CRC.CRC] ++
  fieldsOf a 0x70028 1 [SCH_STATE_CRC.CRC] ++
  fieldsOf a 0x7002C 1 [SCH_FEED_CRC.CRC] ++
  fieldsOf a 0x70030 2 [SCH_RING_BASE.ADDR] ++
  fieldsOf a 0x70038 2 [SCH_JRNL_BASE.ADDR] ++
  fieldsOf a 0x70040 2 [SCH_DEBTS.COUNT] ++
  fieldsOf a 0x70048 2 [SCH_REPAID.COUNT] ++
  fieldsOf a 0x70050 2 [SCH_HOLES.COUNT] ++
  fieldsOf a 0x70058 2 [SCH_SHORT.COUNT] ++
  fieldsOf a 0x70060 2 [SCH_OVER.COUNT]

/-- The fields of window 8 (HMC) that stand in word `a`. -/
def hmcFields (a : Nat) : List Field :=
  fieldsOf a 0x80000 1 [HMC_CTRL.PANIC_FRAMES, HMC_CTRL.PANIC_EXIT, HMC_CTRL.REF_PB, HMC_CTRL.PD_EN] ++
  fieldsOf a 0x80004 1 [HMC_PD.PD_IDLE] ++
  fieldsOf a 0x80008 1 [HMC_RH.RAAIMT, HMC_RH.RAAMMT] ++
  fieldsOf a 0x8000C 1 [HMC_THROTTLE.THROTTLE_US] ++
  fieldsOf a 0x80010 1 [HMC_STATUS.TRAINED, HMC_STATUS.HOT, HMC_STATUS.PANIC, HMC_STATUS.SR_ENTRY, HMC_STATUS.SELF_REFRESH, HMC_STATUS.THROTTLED, HMC_STATUS.STACK_C] ++
  fieldsOf a 0x80014 1 [HMC_TRAIN.RESULT, HMC_TRAIN.FAIL_PC, HMC_TRAIN.FAIL_KIND, HMC_TRAIN.REPAIRS] ++
  fieldsIdx a 0x80100 8 32 1 (fun i => [HMC_REPAIR.BYTE0 i, HMC_REPAIR.BYTE1 i, HMC_REPAIR.BYTE2 i, HMC_REPAIR.BYTE3 i]) ++
  fieldsIdx a 0x80104 8 32 1 (fun i => [HMC_REPAIR_ECC.BYTE0 i]) ++
  fieldsIdx a 0x80200 4 32 1 (fun i => [HMC_REF.P i, HMC_REF.PEAK i, HMC_REF.FORCED i]) ++
  fieldsIdx a 0x80300 4 9 1 (fun i => [HMC_PORT.WEIGHT i, HMC_PORT.THROTTLED i, HMC_PORT.THROTTLES i]) ++
  fieldsOf a 0x80400 2 [HMC_ECC_CE.COUNT] ++
  fieldsOf a 0x80408 1 [HMC_ECC_UE.COUNT] ++
  fieldsOf a 0x80410 2 [HMC_ECC_ADDR.ADDR] ++
  fieldsOf a 0x80418 1 [HMC_ECC_INFO.UE, HMC_ECC_INFO.ON_DIE, HMC_ECC_INFO.PORT, HMC_ECC_INFO.PC]

/-- The fields of window 9 (EMS) that stand in word `a`. -/
def emsFields (a : Nat) : List Field :=
  fieldsOf a 0x90000 1 [EMS_CTRL.TRK_EN] ++
  fieldsOf a 0x90004 1 [EMS_STATE.STATE, EMS_STATE.SOS_LATCHED, EMS_STATE.POS_LOCK, EMS_STATE.FB_HOLD, EMS_STATE.CAUSE] ++
  fieldsOf a 0x90008 1 [EMS_STRIPE.STRIPE_ID] ++
  fieldsOf a 0x9000C 1 [EMS_POS_CFG.JTOL_PU, EMS_POS_CFG.FWD_MAX_PU] ++
  fieldsOf a 0x90010 1 [EMS_FLASH_CFG.TMIN_SLOTS, EMS_FLASH_CFG.OVS_LIMIT] ++
  fieldsOf a 0x90014 1 [EMS_XTOL.XTOL_PU] ++
  fieldsOf a 0x90018 1 [EMS_TIMEOUT.STALL_MS, EMS_TIMEOUT.FB_HOLD_MS] ++
  fieldsOf a 0x9001C 1 [EMS_EFF.TMIN_EFF, EMS_EFF.SEG_SLOTS] ++
  fieldsOf a 0x90020 2 [EMS_Y.VALUE] ++
  fieldsOf a 0x90028 2 [EMS_YF.VALUE] ++
  fieldsOf a 0x90030 2 [EMS_X.VALUE] ++
  fieldsOf a 0x90038 2 [EMS_TARGET.VALUE] ++
  fieldsOf a 0x90040 2 [EMS_NEXT.N] ++
  fieldsOf a 0x90048 2 [EMS_FLASHES.COUNT, EMS_FLASHES.OVF, EMS_FLASHES.EPOCH] ++
  fieldsOf a 0x90050 1 [EMS_FLASHES_CTRL.CLEAR] ++
  fieldsOf a 0x90054 1 [EMS_POS_ERR.BAD, EMS_POS_ERR.GLITCH, EMS_POS_ERR.LOSSES] ++
  fieldsOf a 0x90058 1 [EMS_SOS_IGN.COUNT] ++
  fieldsIdx a 0x90060 4 5 1 (fun i => [EMS_MISS.COUNT i]) ++
  fieldsIdx a 0x90100 4 16 1 (fun i => [EMS_OUTCOME.WORD i])

/-- The fields of window 10 (SHL) that stand in word `a`. -/
def shlFields (a : Nat) : List Field :=
  fieldsOf a 0xA0000 1 [SHL_CTRL.LINK_EN, SHL_CTRL.RELATCH, SHL_CTRL.MAX_RATE] ++
  fieldsOf a 0xA0004 1 [SHL_STATE.STATE, SHL_STATE.RATE, SHL_STATE.GEN, SHL_STATE.PROVED, SHL_STATE.LAST_STATUS, SHL_STATE.LOSSES] ++
  fieldsOf a 0xA0008 1 [SHL_SPARE.LANE32, SHL_SPARE.USED32, SHL_SPARE.LANE33, SHL_SPARE.USED33] ++
  fieldsOf a 0xA0010 2 [SHL_LOCK.LANES] ++
  fieldsOf a 0xA0018 2 [SHL_LOST.LANES] ++
  fieldsOf a 0xA0020 1 [SHL_BC.GOOD, SHL_BC.MISSING, SHL_BC.BAD] ++
  fieldsOf a 0xA0028 2 [SHL_HEAD_ID.VALUE] ++
  fieldsOf a 0xA0030 2 [SHL_SHOTS.VALUE] ++
  fieldsOf a 0xA0038 1 [SHL_TRIM_CRC.CRC] ++
  fieldsOf a 0xA003C 1 [SHL_EQ_CRC.CRC] ++
  fieldsOf a 0xA0040 2 [SHL_BLANKED.COUNT] ++
  fieldsOf a 0xA0048 1 [SHL_SWITCHES.COUNT]

/-- The fields of window 11 (NLK) that stand in word `a`. -/
def nlkFields (a : Nat) : List Field :=
  fieldsOf a 0xB0000 1 [NLK_CTRL.AUTO_REJOIN, NLK_CTRL.REJOIN, NLK_CTRL.FENCE, NLK_CTRL.SOLO, NLK_CTRL.LOSS_LIMIT] ++
  fieldsOf a 0xB0004 1 [NLK_STATE.PAIR, NLK_STATE.HARD, NLK_STATE.LANES_UP, NLK_STATE.CAUSE] ++
  fieldsOf a 0xB0008 2 [NLK_PARTNER.DIE_ID] ++
  fieldsOf a 0xB0010 2 [NLK_MISMATCH.COUNT] ++
  fieldsOf a 0xB0018 2 [NLK_RESOLVED.COUNT] ++
  fieldsOf a 0xB0020 2 [NLK_WITHHELD.COUNT] ++
  fieldsOf a 0xB0028 1 [NLK_LOSSES.LOST, NLK_LOSSES.FENCES] ++
  fieldsOf a 0xB002C 1 [NLK_MARGIN.TF] ++
  fieldsOf a 0xB0030 1 [NLK_RETX.RESENT, NLK_RETX.DROPS, NLK_RETX.LOSSES]

/-- The fields of window 12 (CHK) that stand in word `a`. -/
def chkFields (a : Nat) : List Field :=
  fieldsIdx a 0xC0000 16 4 1 (fun i => [CHK_ENG_STATUS.OWNER i, CHK_ENG_STATUS.POLY i, CHK_ENG_STATUS.SPACE i]) ++
  fieldsIdx a 0xC0004 16 4 2 (fun i => [CHK_ENG_VAL.VAL i]) ++
  fieldsIdx a 0xC000C 16 4 1 (fun i => [CHK_ENG_DONE.BYTES i])

/-- The fields of window 13 (CAL) that stand in word `a`. -/
def calFields (a : Nat) : List Field :=
  fieldsOf a 0xD0000 1 [CAL_CTRL.THRESH_C, CAL_CTRL.GAP_MS, CAL_CTRL.RUN_NOW, CAL_CTRL.AUTO] ++
  fieldsOf a 0xD0004 1 [CAL_STATUS.STATE, CAL_STATUS.OVERDUE, CAL_STATUS.RCAL_FROZEN, CAL_STATUS.TRIMS_VALID, CAL_STATUS.ACTIVE_SLOT, CAL_STATUS.STORE_PENDING, CAL_STATUS.DUE, CAL_STATUS.GAPS] ++
  fieldsOf a 0xD0008 1 [CAL_DRIFT.DRIFT, CAL_DRIFT.SENSOR, CAL_DRIFT.OVERDUE_S] ++
  fieldsOf a 0xD000C 1 [CAL_RCAL.OHMS_X10, CAL_RCAL.FAULT] ++
  fieldsOf a 0xD0010 1 [CAL_TRIM_SEQ.SEQ] ++
  fieldsOf a 0xD0014 1 [CAL_TRIM_CRC.CRC] ++
  fieldsOf a 0xD0018 1 [CAL_ALIGN_CRC.CRC] ++
  fieldsOf a 0xD001C 1 [CAL_DERIVE.GO, CAL_DERIVE.BUSY, CAL_DERIVE.LAST_STATUS] ++
  fieldsOf a 0xD0020 1 [CAL_DERIVE_CRC.CRC] ++
  fieldsIdx a 0xD0100 8 6 1 (fun i => [CAL_ITEM_CFG.ENABLE i, CAL_ITEM_CFG.METHOD i]) ++
  fieldsIdx a 0xD0104 8 6 1 (fun i => [CAL_ITEM_STATUS.LAST_STATUS i, CAL_ITEM_STATUS.CODE i, CAL_ITEM_STATUS.ELEMENT i, CAL_ITEM_STATUS.RUNS i])

/-- The fields of window 14 (BST) that stand in word `a`. -/
def bstFields (a : Nat) : List Field :=
  fieldsOf a 0xE0000 1 [BST_REQ.BLOCK, BST_REQ.YIELD, BST_REQ.GO] ++
  fieldsOf a 0xE0004 1 [BST_STATUS.BUSY, BST_STATUS.BLOCK, BST_STATUS.LAST_STATUS, BST_STATUS.LAST_MS] ++
  fieldsOf a 0xE0010 1 [BST_PARK.PHASE, BST_PARK.TAG, BST_PARK.WAKE_HELD, BST_PARK.BIST_STATUS, BST_PARK.PARKS] ++
  fieldsOf a 0xE0014 1 [BST_PARK_CTRL.WAKE] ++
  fieldsOf a 0xE0018 1 [BST_PARK_MS.ENTRY_MS, BST_PARK_MS.BIST_MS] ++
  fieldsIdx a 0xE0100 16 16 1 (fun i => [BST_RESULT.STATUS i, BST_RESULT.CODE i, BST_RESULT.KIND i, BST_RESULT.RUNS i]) ++
  fieldsIdx a 0xE0104 16 16 2 (fun i => [BST_SIG.SIG i]) ++
  fieldsIdx a 0xE010C 16 16 1 (fun i => [BST_COUNT.COUNT i])

/-- The fields of window 15 (PMU) that stand in word `a`. -/
def pmuFields (a : Nat) : List Field :=
  fieldsOf a 0xF0000 1 [PMU_CTRL.FREEZE, PMU_CTRL.TD_CLEAR] ++
  fieldsOf a 0xF0010 2 [PMU_SNAP_BASE.ADDR] ++
  fieldsOf a 0xF0018 1 [PMU_SNAP_CFG.LOG2N, PMU_SNAP_CFG.ON_END, PMU_SNAP_CFG.ENABLE, PMU_SNAP_CFG.PERIOD_US] ++
  fieldsOf a 0xF001C 1 [PMU_SNAP_CTRL.GO] ++
  fieldsOf a 0xF0020 1 [PMU_SNAP_SEQ.SEQ] ++
  fieldsOf a 0xF0024 1 [PMU_SNAP_STATUS.LAST_STATUS, PMU_SNAP_STATUS.SKIPPED] ++
  fieldsIdx a 0xF1000 16 128 1 (fun i => [PMU_CNT_CFG.EVENT (i / 8) (i % 8)]) ++
  fieldsIdx a 0xF1004 16 128 2 (fun i => [PMU_CNT.COUNT (i / 8) (i % 8), PMU_CNT.OVF (i / 8) (i % 8), PMU_CNT.EPOCH (i / 8) (i % 8)]) ++
  fieldsIdx a 0xF2000 8 24 2 (fun i => [PMU_TD.COUNT (i / 4) (i % 4), PMU_TD.OVF (i / 4) (i % 4), PMU_TD.EPOCH (i / 4) (i % 4)])

/-- The fields that stand in the BAR0 word at address `a`: the windows are 64 KiB each (R9, R66). -/
def fieldsAt (a : Nat) : List Field :=
  match a / 0x10000 with
  | 0 => mgtFields a
  | 1 => hifFields a
  | 2 => dmaFields a
  | 3 => cdcFields a
  | 4 => prsFields a
  | 5 => csmFields a
  | 6 => pecFields a
  | 7 => schFields a
  | 8 => hmcFields a
  | 9 => emsFields a
  | 10 => shlFields a
  | 11 => nlkFields a
  | 12 => chkFields a
  | 13 => calFields a
  | 14 => bstFields a
  | 15 => pmuFields a
  | _ => []

/-- Every commit field of block `k`, at every index (R10, R92). -/
def commitFields (k : Nat) : List Field :=
  match k with
  | 0 => [MGT_CLK.SPREAD]
  | 2 => [] ++ (List.range 32).flatMap (fun i => [DMA_CH_CFG.LOW i, DMA_CH_CFG.HIGH i, DMA_CH_CFG.QLOG2 i])
  | 3 => [CDC_CTRL.HOST_SHARE]
  | 4 => [PRS_CTRL.LAQ_LOG2, PRS_CTRL.AHEAD_MAX]
  | 5 => [CSM_CTRL.OFFSET_EN]
  | 6 => [PEC_CTRL.ETA, PEC_BETA.BETA_NM, PEC_SCALE.SCALE]
  | 7 => [SCH_CTRL.MODE, SCH_DWELL.DWELL_NS, SCH_HEAD_ID.ID]
  | 8 => [HMC_CTRL.PANIC_FRAMES, HMC_CTRL.PANIC_EXIT, HMC_CTRL.REF_PB, HMC_CTRL.PD_EN, HMC_PD.PD_IDLE, HMC_THROTTLE.THROTTLE_US]
  | 9 => [EMS_CTRL.TRK_EN, EMS_POS_CFG.JTOL_PU, EMS_POS_CFG.FWD_MAX_PU, EMS_FLASH_CFG.TMIN_SLOTS, EMS_FLASH_CFG.OVS_LIMIT, EMS_XTOL.XTOL_PU, EMS_TIMEOUT.STALL_MS, EMS_TIMEOUT.FB_HOLD_MS]
  | 10 => [SHL_CTRL.MAX_RATE]
  | 11 => [NLK_CTRL.SOLO, NLK_CTRL.LOSS_LIMIT]
  | 13 => [CAL_CTRL.THRESH_C, CAL_CTRL.GAP_MS, CAL_CTRL.AUTO] ++ (List.range 6).flatMap (fun i => [CAL_ITEM_CFG.ENABLE i, CAL_ITEM_CFG.METHOD i])
  | _ => []

end Sys2Proof.Machine
end

