-- ==== Sys2Proof/Machine/Regs.lean ====
section
/-! DEFINITION. Reading and writing one register field: the copy that a bus read sees (for a commit field the staged
copy) and the live copy of a commit field (R10). Every access of the model to a register goes through these. -/

namespace Sys2Proof.Machine

/-- The stored value of a field: for a commit field the staged copy (R10). -/
def State.reg (s : State) (f : Field) : Nat := Sparse.get (fun _ => f.reset) s.regs f.key

/-- Store a value in a field, cut to the field's width. -/
def State.setReg (s : State) (f : Field) (v : Nat) : State :=
  { s with regs := Sparse.set (fun _ => f.reset) s.regs f.key (v % 2 ^ f.width) }

/-- The live value of a commit field: the value that the block acts on (R10). -/
def State.lv (s : State) (f : Field) : Nat := Sparse.get (fun _ => f.reset) s.live f.key

/-- Make a value live in a commit field. -/
def State.setLive (s : State) (f : Field) (v : Nat) : State :=
  { s with live := Sparse.set (fun _ => f.reset) s.live f.key (v % 2 ^ f.width) }

/-- Add to a counting field, which saturates at its width. -/
def State.addReg (s : State) (f : Field) (n : Nat) : State := s.setReg f (sat f.width (s.reg f + n))

/-- The block whose BAR0 window holds the field number `k`. -/
def keyBlock (k : Nat) : Nat := k / 64 / 0x10000

/-- Drop from a register file every field that does not satisfy `p`, which then holds its reset value. -/
def keepFields (p : Nat → Bool) (m : Sparse Nat) : Sparse Nat := m.filter (fun e => p e.1)

/-- Block `k` starts at its reset values: staged, live and latched words of its window (R395). -/
def State.resetWindow (s : State) (k : Nat) : State :=
  { s with
    regs := keepFields (fun i => keyBlock i != k) s.regs
    live := keepFields (fun i => keyBlock i != k) s.live
    latches := keepFields (fun a => a / 0x10000 != k) s.latches }

/-- The next value that the manual leaves unstated, `w` bits wide, and the state that has used it (log entry 4). -/
def State.fresh (s : State) (w : Nat) : Nat × State :=
  ((Config.freeValue s.free).toNat % 2 ^ w, { s with free := s.free + 1 })

/-! ## Roles and states that many rules ask for -/

/-- The sampled role is mirror (R43). -/
def State.isMirror (s : State) : Bool := s.aon.mirror

/-- Rings are serviced: READY, ARMED or RUN (R60, R400, R408). -/
def State.serviced (s : State) : Bool :=
  match s.g with
  | .ready | .armed | .run => true
  | _ => false

/-- A stripe is ARMED or RUN, in the global sense of R295. -/
def State.stripeActive (s : State) : Bool :=
  match s.g with
  | .armed | .run => true
  | _ => false

/-- The chip works in a joined pair: the partner is there and not known to be fenced. -/
def State.joined (s : State) : Bool := s.nlk.paired && s.nlk.linkUp

/-- The partner carries the stripe if this chip fences (R30): the pair is joined and the partner is not fenced. -/
def State.covered (s : State) : Bool := s.joined && !s.nlk.partnerFenced

/-- Requested power state of block `k` (MGT_PWR_REQ): 0 AUTO, 1 HOLD_RUN, 2 OFF. -/
def State.pwrReq (s : State) (k : Nat) : Nat := bits (s.reg MGT_PWR_REQ.REQ) (2 * k) 2

/-- Actual power state of block `k`. -/
def State.pwr (s : State) (k : Nat) : PwrState := s.power.getD k .run

/-- Block `k` is requested OFF and not yet OFF (MGT_PWR_PEND). -/
def State.pwrPending (s : State) (k : Nat) : Bool := s.pwrReq k == 2 && s.pwr k != .off

/-- MGT_PWR_PEND: bit `k` while block `k` is requested OFF and not yet OFF. -/
def State.pwrPend (s : State) : Nat :=
  ((List.range 16).map (fun k => b2n (s.pwrPending k) * 2 ^ k)).sum

/-- The blocks of the data path (R62): DMA, CDC, PRS, CSM, PEC, SCH, HMC, EMS, SHL, CHK, and NLK in a pair. -/
def State.onDataPath (s : State) (k : Nat) : Bool :=
  (2 ≤ k && k ≤ 10) || k == 12 || (k == 11 && s.nlk.paired)

end Sys2Proof.Machine
end

