-- ==== Sys2Proof/Machine/Tables.lean ====
section
/-! DEFINITION. The nine tables of R82: sizes, owning blocks, cold-start contents, reading and writing, and the words
that the data path takes from them. A table is the list of its bytes that differ from its cold-start contents. -/

namespace Sys2Proof.Machine

/-- Size in bytes of the table with TABLE_ID `id` (R82); 0 for an unknown identity. -/
def tableSize (id : Nat) : Nat :=
  match id with
  | 1 => 0x200000 | 2 => 0x100000 | 3 => 0x40000 | 4 => 64 | 5 => 0x8000 | 6 => 1024 | 7 => 544 | 8 => 4096
  | 9 => 0x200000 | _ => 0

/-- The block that owns the table (R82). -/
def tableBlock (id : Nat) : Nat :=
  match id with
  | 1 | 2 | 3 | 4 => 7 | 5 => 5 | 6 => 6 | 7 => 10 | 8 | 9 => 13 | _ => 16

/-- Byte `i` of the table after a cold start (R241, R254, R212, R228, R335, R390; device trims are read from serial
flash, R386). -/
def tableCold (id i : Nat) : Byte :=
  match id with
  | 4 => if i % 8 = 4 then (if i / 8 < 2 then 128#8 else if i / 8 < 6 then 64#8 else 0#8) else 0#8
  | 6 => if i < 514 ∧ i % 2 = 1 then 16#8 else 0#8
  | 7 => if i % 4 = 1 then 48#8 else if i % 4 = 2 then 8#8 else 0#8
  | 9 => 0x80#8
  | _ => 0#8

/-- One of the nine tables of a set. -/
def Tables.get (t : Tables) (id : Nat) : Memory :=
  match id with
  | 1 => t.cur | 2 => t.dwell | 3 => t.bstate | 4 => t.feed | 5 => t.offs | 6 => t.corr | 7 => t.eq | 8 => t.trims
  | 9 => t.align | _ => []

/-- Replace one of the nine tables of a set. -/
def Tables.set (t : Tables) (id : Nat) (m : Memory) : Tables :=
  match id with
  | 1 => { t with cur := m } | 2 => { t with dwell := m } | 3 => { t with bstate := m }
  | 4 => { t with feed := m } | 5 => { t with offs := m } | 6 => { t with corr := m }
  | 7 => { t with eq := m } | 8 => { t with trims := m } | 9 => { t with align := m } | _ => t

/-- One byte of a table. -/
def Tables.byte (t : Tables) (id i : Nat) : Byte := Sparse.get (tableCold id) (t.get id) i

/-- `n` bytes of a table from offset `o`. -/
def Tables.bytes (t : Tables) (id o n : Nat) : List Byte := Sparse.getList (tableCold id) (t.get id) o n

/-- Write bytes into a table from offset `o`. -/
def Tables.write (t : Tables) (id o : Nat) (bs : List Byte) : Tables :=
  t.set id (Sparse.setList (tableCold id) (t.get id) o bs)

/-- The CRC-32C, seed 0, of a whole table (R120). -/
def Tables.crc (t : Tables) (id : Nat) : Nat := crc32c 0 (t.bytes id 0 (tableSize id))

/-- The little-endian u16 at byte `i`. -/
def Tables.u16 (t : Tables) (id i : Nat) : Nat := (t.byte id i).toNat + 256 * (t.byte id (i + 1)).toNat

/-- The tables that block `k` owns. -/
def blockTables (k : Nat) : List Nat := (List.range 10).filter (fun id => tableBlock id == k)

/-- The tables of block `k` return to their cold-start contents (R395). -/
def Tables.coldBlock (t : Tables) (k : Nat) : Tables := (blockTables k).foldl (fun t id => t.set id []) t

/-- The indices at which a table differs from its cold-start contents or from the other table's. -/
def tableIndices (a b : Memory) : List Nat := a.map (·.1) ++ b.map (·.1)

/-! ## Beam tables (R240): entry i = 64 x + d -/

/-- CUR of a slat. -/
def Tables.slatCur (t : Tables) (x d : Nat) : Nat := t.u16 1 (2 * (64 * x + d))

/-- TRIM of a slat, s7. -/
def Tables.slatTrim (t : Tables) (x d : Nat) : Int := sgn 7 (t.byte 2 (64 * x + d)).toNat

/-- The state bits of a slat: 0 dead, 1 good, 2 weak, 3 stuck-on. -/
def Tables.slatState (t : Tables) (x d : Nat) : Nat :=
  bits (t.byte 3 ((64 * x + d) / 4)).toNat (2 * ((64 * x + d) % 4)) 2

/-- A slat that never fires (R241): dead, or good or weak with CUR 0. -/
def Tables.slatDead (t : Tables) (x d : Nat) : Bool :=
  t.slatState x d == 0 || (t.slatState x d != 3 && t.slatCur x d == 0)

/-- The pass feed table (R254): FX, FY in su and FRAC in 1/256 of row `k`. -/
def Tables.feedFx (t : Tables) (k : Nat) : Int := sgn 16 (t.u16 4 (8 * k))

/-- FY of row `k` of the pass feed table. -/
def Tables.feedFy (t : Tables) (k : Nat) : Int := sgn 16 (t.u16 4 (8 * k + 2))

/-- FRAC of row `k` of the pass feed table. -/
def Tables.feedFrac (t : Tables) (k : Nat) : Nat := t.u16 4 (8 * k + 4)

/-- OX and OY of louver `x` (R212), s8 in su. -/
def Tables.offset (t : Tables) (x : Nat) : Int × Int :=
  (sgn 8 (t.byte 5 (2 * x)).toNat, sgn 8 (t.byte 5 (2 * x + 1)).toNat)

/-- K[i] of the correction table (R228). -/
def Tables.factor (t : Tables) (i : Nat) : Nat := t.u16 6 (2 * i)

/-- The feeds and dose fraction of a stripe's pass (R254, R255): (0, 0, 256) single-pass. -/
def Tables.passFeed (t : Tables) (passes pass : Nat) : Int × Int × Nat :=
  if passes = 2 then (t.feedFx pass, t.feedFy pass, t.feedFrac pass)
  else if passes = 4 then (t.feedFx (2 + pass), t.feedFy (2 + pass), t.feedFrac (2 + pass))
  else (0, 0, 256)

/-! ## Lane equalisation (R335) -/

/-- PRE, MAIN, POST and the reserved byte of entry `i` of an equalisation table (R335). -/
def Tables.eqEntry (t : Tables) (i : Nat) : Nat × Nat × Nat × Nat :=
  ((t.byte 7 (4 * i)).toNat, (t.byte 7 (4 * i + 1)).toNat, (t.byte 7 (4 * i + 2)).toNat, (t.byte 7 (4 * i + 3)).toNat)

end Sys2Proof.Machine
end

