-- ==== Sys2Proof/Machine/Operands.lean ====
section
/-! DEFINITION. The operand forms: what the 64 bytes of a submission entry say (R76 to R86), a link descriptor
(R104), and a position frame (R288). -/

namespace Sys2Proof.Machine

/-! ## The common header (R76) -/

/-- OPC of an entry. -/
def rawOpc (raw : List Byte) : Nat := num raw 0 1

/-- NOTIFY of an entry. -/
def rawNotify (raw : List Byte) : Bool := bit (num raw 1 1) 0

/-- ORDER of an entry. -/
def rawOrder (raw : List Byte) : Bool := bit (num raw 1 1) 1

/-- TAG of an entry. -/
def rawTag (raw : List Byte) : Nat := num raw 2 2

/-- The ring type whose OPCs these are: 1 STRIPE, 2 STREAM, 3 TABLE, 4 CODEC, 5 SCAN, 6 WITNESS, 7 CONTROL (R78 to
R86); 0 for an OPC that no ring type knows. -/
def opcType (opc : Nat) : Nat :=
  match opc with
  | 0x01 | 0x02 => 1
  | 0x10 => 2
  | 0x20 | 0x21 => 3
  | 0x30 | 0x31 => 4
  | 0x40 => 5
  | 0x50 => 6
  | 0x60 | 0x61 | 0x62 => 7
  | _ => 0

/-- The reserved bytes of an entry beside its header, as (first, count) (R78 to R85). -/
def reservedBytes (opc : Nat) : List (Nat × Nat) :=
  match opc with
  | 0x01 => [(15, 1), (22, 2), (52, 12)]
  | 0x10 => [(14, 2), (28, 4), (40, 24)]
  | 0x20 | 0x21 => [(10, 2), (32, 32)]
  | 0x30 | 0x31 => [(41, 23)]
  | 0x40 => [(11, 5), (48, 16)]
  | 0x50 => [(14, 2), (20, 4), (36, 28)]
  | _ => []

/-- The further fields of an entry that make it MALFORMED: reserved flag bits (R81, R83), a non-zero CHECK of a
SAVE_TABLE (R82), POLY, SPACE or CTX above 1 (R121), bits 16 to 31 of BLOCK_MASK (R86). -/
def badFields (opc : Nat) (raw : List Byte) : Bool :=
  match opc with
  | 0x10 => num raw 13 1 ≥ 4
  | 0x21 => num raw 28 4 ≠ 0
  | 0x30 | 0x31 => num raw 40 1 ≥ 4
  | 0x40 => num raw 8 1 > 1 || num raw 9 1 > 1 || num raw 10 1 > 1
  | 0x60 => num raw 8 4 ≥ 2 ^ 16
  | _ => false

/-- R76: the entry is MALFORMED on a ring of type `ty`. -/
def malformed (ty : Nat) (raw : List Byte) : Bool :=
  opcType (rawOpc raw) ≠ ty || opcType (rawOpc raw) = 0 || num raw 1 1 ≥ 4 || num raw 4 4 ≠ 0 ||
  (reservedBytes (rawOpc raw)).any (fun r => num raw r.1 r.2 ≠ 0) || badFields (rawOpc raw) raw

/-! ## The fields of each entry -/

/-- ARM_STRIPE (R78). LEAD 0 selects 2,048. -/
def armOf (q idx : Nat) (raw : List Byte) : ArmReq :=
  { q, idx, tag := rawTag raw, id := num raw 8 4, pass := num raw 12 1, passes := num raw 13 1,
    streamSq := num raw 14 1, rows := num raw 16 4, lead := if num raw 20 2 = 0 then 2048 else num raw 20 2,
    originY := num raw 24 8, originX := num raw 32 8, resultAddr := num raw 40 8, resultLen := num raw 48 4 }

/-- STREAM_BUF (R81). -/
structure StreamOp where
  id : Nat
  pass : Nat
  last : Bool
  raw : Bool
  addr : Nat
  len : Nat
  link : Nat
  deriving DecidableEq, Repr

/-- The fields of a STREAM_BUF. -/
def streamOf (raw : List Byte) : StreamOp :=
  { id := num raw 8 4, pass := num raw 12 1, last := bit (num raw 13 1) 0, raw := bit (num raw 13 1) 1,
    addr := num raw 16 8, len := num raw 24 4, link := num raw 32 8 }

/-- LOAD_TABLE and SAVE_TABLE (R82). -/
structure TableOp where
  id : Nat
  offset : Nat
  addr : Nat
  len : Nat
  check : Nat
  deriving DecidableEq, Repr

/-- The fields of a LOAD_TABLE or SAVE_TABLE. -/
def tableOf (raw : List Byte) : TableOp :=
  { id := num raw 8 2, offset := num raw 12 4, addr := num raw 16 8, len := num raw 24 4, check := num raw 28 4 }

/-- COMPRESS and DECOMPRESS (R83). -/
structure CodecOp where
  src : Nat
  dst : Nat
  srcLen : Nat
  dstLen : Nat
  state : Nat
  resume : Bool
  save : Bool
  deriving DecidableEq, Repr

/-- The fields of a COMPRESS or DECOMPRESS. -/
def codecOf (raw : List Byte) : CodecOp :=
  { src := num raw 8 8, dst := num raw 16 8, srcLen := num raw 24 4, dstLen := num raw 28 4, state := num raw 32 8,
    resume := bit (num raw 40 1) 0, save := bit (num raw 40 1) 1 }

/-- SCAN (R84). -/
structure ScanOp where
  poly : Nat
  space : Nat
  ctx : Nat
  addr : Nat
  len : Nat
  seed : Nat
  seedAddr : Nat
  deriving DecidableEq, Repr

/-- The fields of a SCAN. -/
def scanOf (raw : List Byte) : ScanOp :=
  { poly := num raw 8 1, space := num raw 9 1, ctx := num raw 10 1, addr := num raw 16 8, len := num raw 24 8,
    seed := num raw 32 8, seedAddr := num raw 40 8 }

/-- WITNESS (R85). -/
structure WitnessOp where
  id : Nat
  pass : Nat
  paneX : Nat
  band : Nat
  dst : Nat
  dstLen : Nat
  deriving DecidableEq, Repr

/-- The fields of a WITNESS. -/
def witnessOf (raw : List Byte) : WitnessOp :=
  { id := num raw 8 4, pass := num raw 12 1, paneX := num raw 13 1, band := num raw 16 4, dst := num raw 24 8,
    dstLen := num raw 32 4 }

/-- The blocks that an entry targets (R117), of the bits 0 to 15: a COMMIT those of its BLOCK_MASK; a table entry DMA
and the table's owner; the others the blocks that carry out their work. -/
def targets (raw : List Byte) : List Nat :=
  match opcType (rawOpc raw) with
  | 2 => if (streamOf raw).raw then [2, 4, 8] else [2, 3, 4, 8]
  | 3 =>
    let id := (tableOf raw).id
    let k := tableBlock (if id = 0x107 ∨ id = 0x108 then id - 0x100 else id)
    [2] ++ (if k < 16 then [k] else [])
  | 4 => [2, 3]
  | 5 => if (scanOf raw).space = 1 then [2, 8, 12] else [2, 12]
  | 6 => [2, 3, 6, 8]
  | 7 => if rawOpc raw = 0x60 then (List.range 16).filter (fun k => bit (num raw 8 4) k) else []
  | _ => []

/-! ## Link descriptors (R104 to R106) -/

/-- A link descriptor. -/
structure Descriptor where
  addr : Nat
  len : Nat
  flags : Nat
  wrapLog2 : Nat
  next : Nat
  zero : Bool
  deriving DecidableEq, Repr

/-- The descriptor in 32 bytes. -/
def descOf (bs : List Byte) : Descriptor :=
  { addr := num bs 0 8, len := num bs 8 4, flags := num bs 12 1, wrapLog2 := num bs 13 1, next := num bs 16 8,
    zero := num bs 14 2 == 0 && num bs 24 8 == 0 }

/-- SWAP of a descriptor. -/
def Descriptor.swap (d : Descriptor) : Nat := d.flags % 4

/-- WRAP of a descriptor. -/
def Descriptor.wrap (d : Descriptor) : Bool := bit d.flags 2

/-- Bytes in a unit of swap mode `m` (R106). -/
def swapUnit (m : Nat) : Nat := if m = 0 then 1 else if m = 1 then 2 else 4

/-- A descriptor is MALFORMED (R104 to R106). -/
def Descriptor.bad (d : Descriptor) : Bool :=
  !d.zero || d.flags ≥ 8 ||
  (if d.wrap then d.wrapLog2 < 12 || d.wrapLog2 > 40 || d.len > 2 ^ d.wrapLog2 else d.wrapLog2 ≠ 0) ||
  d.len % swapUnit d.swap ≠ 0

/-- Exchange the bytes of one unit by its swap mode (R106). -/
def swapWord (m : Nat) (u : List Byte) : List Byte :=
  match m with
  | 1 | 2 => u.reverse
  | 3 => u.drop 2 ++ u.take 2
  | _ => u

/-- Swap whole units of a byte string, `n` of them. -/
def swapUnits (m : Nat) : Nat → List Byte → List Byte
  | 0, _ => []
  | n + 1, bs => swapWord m (bs.take (swapUnit m)) ++ swapUnits m n (bs.drop (swapUnit m))

/-- Address of byte `i` of a piece (R105): wrapping at 2^k from B, or plainly rising. -/
def pieceAddr (p : Piece) (i : Nat) : Nat :=
  if p.wrap = 0 then p.addr + i
  else p.addr / 2 ^ p.wrap * 2 ^ p.wrap + (p.addr % 2 ^ p.wrap + i) % 2 ^ p.wrap

/-- Byte `i` of a piece after swapping (R106). -/
def pieceByte (m : Memory) (p : Piece) (i : Nat) : Byte :=
  let u := swapUnit p.swap
  (swapWord p.swap ((List.range u).map (fun j => Memory.byte m (pieceAddr p (i / u * u + j))))).getD (i % u) 0#8

/-! ## HBM3 addresses (R266) -/

/-- The pseudo-channel of an HBM3 address. -/
def hbmPc (a : Nat) : Nat := a / 2 ^ 8 % 32

/-- The granule within the row. -/
def hbmCol (a : Nat) : Nat := a / 2 ^ 13 % 4

/-- The bank group. -/
def hbmBg (a : Nat) : Nat := (a / 2 ^ 15 % 4) ^^^ (a / 2 ^ 19 % 4)

/-- The bank within the group. -/
def hbmBa (a : Nat) : Nat := (a / 2 ^ 17 % 4) ^^^ (a / 2 ^ 21 % 4)

/-- The row. -/
def hbmRow (a : Nat) : Nat := a / 2 ^ 19 % 16384

/-- The stack ID. -/
def hbmSid (a : Nat) : Nat := a / 2 ^ 33

/-- Pseudo-channel `pc` holds some of the `n` bytes from address `a`. -/
def hbmTouches (a n pc : Nat) : Bool :=
  n ≠ 0 && (pc + 32 - hbmPc a) % 32 ≤ (a + n - 1) / 2 ^ 8 - a / 2 ^ 8

/-! ## Position frames (R288) -/

/-- SYNC of a position frame is right. -/
def frameSync (f : BitVec 50) : Bool := f.toNat % 16 == 0b1011

/-- CHECK of a position frame is right: bit 45 is the register's most significant bit. -/
def frameCheck (f : BitVec 50) : Bool :=
  let r := crc5 ((List.range 41).map (fun i => f.toNat.testBit (4 + i)))
  (List.range 5).all (fun i => f.toNat.testBit (45 + i) == r.testBit (4 - i))

/-- WORD of a position frame. -/
def frameWord (f : BitVec 50) : Nat := f.toNat / 16 % 2 ^ 40

/-- VALID of a position frame. -/
def frameValid (f : BitVec 50) : Bool := f.toNat.testBit 44

/-- The position frame that carries a word (R288), for the stage controller. -/
def frameOf (word : Nat) (valid : Bool) : BitVec 50 :=
  let body := 0b1011 + word % 2 ^ 40 * 16 + b2n valid * 2 ^ 44
  let r := crc5 ((List.range 41).map (fun i => body.testBit (4 + i)))
  BitVec.ofNat 50 (body + ((List.range 5).map (fun i => b2n (r.testBit (4 - i)) * 2 ^ (45 + i))).sum)

/-- BANDS of a stripe (R132). -/
def bandsOf (rows : Nat) : Nat := (rows + 255) / 256

end Sys2Proof.Machine
end

