-- ==== Sys2Proof/Machine/Events.lean ====
section
/-! DEFINITION. Counting (R411 to R416), sending over the Nalu link (R354), and events: the event rings, the holding
queue and the interrupts (R87 to R91, R424, R426), completions (R76). -/

namespace Sys2Proof.Machine

/-! ## Performance counters -/

/-- Add to a counter, which wraps at 2^48 and then sets OVF (R411, R413). -/
def Counter.add (c : Counter) (n : Nat) : Counter :=
  { c with count := (c.count + n) % 2 ^ 48, ovf := c.ovf || 2 ^ 48 ≤ c.count + n }

/-- A new epoch (R413): COUNT and OVF clear, EPOCH increments and wraps at 256. -/
def Counter.clear (c : Counter) : Counter := ⟨0, false, (c.epoch + 1) % 256⟩

/-- Counters advance: not frozen (R414), PMU neither OFF nor under test (R421). -/
def State.counting (s : State) : Bool :=
  s.reg PMU_CTRL.FREEZE == 0 && s.pwr 15 != .off && (s.bst.test.map (·.block)) != some 15

/-- Event `ev` of block `b` advances (R421): of a block that is OFF, or in PARK, the common events alone. -/
def State.eventLive (s : State) (b ev : Nat) : Bool := ev < 0x10 || (s.pwr b != .off && s.g != .park)

/-- Count `n` units of event `ev` of block `b` in every counter of the block that is set to that event (R411). -/
def State.count (s : State) (b ev n : Nat) : State :=
  let one := fun cs k => if s.reg (PMU_CNT_CFG.EVENT b k) = ev then modAt cs (8 * b + k) (fun c => c.add n) else cs
  if s.counting && s.eventLive b ev then
    { s with pmu := { s.pmu with counters := (List.range 8).foldl one s.pmu.counters } }
  else s

/-- Book `n` slots of stage `st` in class `c` (R415): 0 retired, 1 wasted, 2 starved at the back, 3 at the front. -/
def State.slots (s : State) (st c n : Nat) : State :=
  if s.counting && s.stripeActive then
    { s with pmu := { s.pmu with slots := modAt s.pmu.slots (4 * st + c) (fun k => k.add n) } }
  else s

/-! ## Power states (R393) -/

/-- Set the actual state of block `k`. -/
def State.setPwr (s : State) (k : Nat) (p : PwrState) : State := { s with power := setAt s.power k p }

/-- Block `k` comes back to RUN on its next work; a wake from NAP is counted. -/
def State.wakeBlock (s : State) (k : Nat) : State :=
  if s.pwr k == .nap then (s.setPwr k .run).count k 0x04 1
  else if s.pwr k == .idle then s.setPwr k .run
  else s

/-- The blocks that satisfy `p` have work and come back to RUN. -/
def State.wakeBlocks (s : State) (p : Nat → Bool) : State :=
  (List.range 16).foldl (fun s k => if p k then s.wakeBlock k else s) s

/-! ## The Nalu link -/

/-- The lane whose turn it is (R354): the next one after lane `turn` that is up. -/
def nextLane (up turn : Nat) : Nat :=
  (((List.range 8).map (fun i => (turn + 1 + i) % 8)).find? (fun l => bit up l)).getD turn

/-- The lane that carries this chip's next message. -/
def State.naluLane (s : State) : Nat := nextLane (s.reg NLK_STATE.LANES_UP) s.nlk.turn

/-- Send a message over the Nalu link if it is up (R354): whole on the lane whose turn it is; it stays unacknowledged
until an ACK covers it. It is work for NLK (R393). -/
def State.naluSend (s : State) (m : NaluMsg) : State :=
  if s.nlk.linkUp then
    ({ s with nlk := { s.nlk with
        txSeq := (s.nlk.txSeq + 1) % 2 ^ 16, turn := s.naluLane
        unacked := s.nlk.unacked ++ [(⟨s.nlk.txSeq, m, 0, s.naluLane⟩ : NaluTx)] } }.count 11 0x10 1).wakeBlock 11
  else s

/-! ## Rings -/

/-- Submission ring `q` as the HIF holds it. -/
def State.ring (s : State) (q : Nat) : SubRing := s.hif.sq.getD q .reset

/-- Change submission ring `q`. -/
def State.modRing (s : State) (q : Nat) (f : SubRing → SubRing) : State :=
  { s with hif := { s.hif with sq := modAt s.hif.sq q f } }

/-- Event ring `e` as the HIF holds it. -/
def State.evRing (s : State) (e : Nat) : EvRing := s.hif.eq.getD e .reset

/-- Change event ring `e`. -/
def State.modEvRing (s : State) (e : Nat) (f : EvRing → EvRing) : State :=
  { s with hif := { s.hif with eq := modAt s.hif.eq e f } }

/-- Submission ring `q` is enabled. -/
def State.sqOn (s : State) (q : Nat) : Bool := s.reg (HIF_SQ_CFG.ENABLE q) == 1

/-- Event ring `e` is enabled. -/
def State.eqOn (s : State) (e : Nat) : Bool := s.reg (HIF_EQ_CFG.ENABLE e) == 1

/-- The `n` bytes from host address `a` lie within a single live window (R97, R108). -/
def State.inWindow (s : State) (a n : Nat) : Bool :=
  s.prot.windows.any (fun w => w.1 ≤ a && a + n ≤ w.1 + w.2)

/-- Difference of two free-running indices, mod 2^32 (R71). -/
def idxDiff (p c : Nat) : Nat := (p + 2 ^ 32 - c % 2 ^ 32) % 2 ^ 32

/-- Host address of the entry that event ring `e` writes next (R71). -/
def EvRing.slot (r : EvRing) : Nat := r.base + r.prod % r.size * 32

/-- Event ring `e` can take an entry: enabled, not full, EQ_CONS not ahead (R71, R72), the entry within a window. -/
def State.eqRoom (s : State) (e : Nat) : Bool :=
  let r := s.evRing e
  s.eqOn e && idxDiff r.prod r.consSeen < r.size && s.inWindow r.slot 32

/-! ## Interrupts (R66, R90) -/

/-- Vector `v` may send its message: MSI-X is enabled in configuration space and neither the function nor the vector is
masked (R64, log entry 100). -/
def State.vectorOpen (s : State) (v : Nat) : Bool := s.cfg.msixOn && !s.cfg.msixMask && s.reg (MSIX.MASK v) == 0

/-- Raise MSI-X vector `v`: a message, or the pending bit while it may send none. -/
def State.raiseVector (s : State) (v : Nat) : State :=
  if !s.vectorOpen v then s.setReg (MSIX.PENDING v) 1
  else { s with hif := { s.hif with msi := v :: s.hif.msi } }.count 1 0x13 1

/-- The interrupt of event ring `e`, which covers every event written so far. -/
def State.raiseEq (s : State) (e : Nat) : State :=
  (s.modEvRing e (fun r => { r with uncovered := 0 })).raiseVector (s.reg (HIF_EQ_CFG.VECTOR e) % 64)

/-- COUNT of event ring `e`; 0 acts as 1 (R90). -/
def State.modCount (s : State) (e : Nat) : Nat := max 1 (s.reg (HIF_EQ_MOD.COUNT e))

/-! ## Events -/

/-- Microseconds since READY: one core cycle is 0.64 ns (R2, R87). -/
def State.timeUs (s : State) : Nat := s.cc * 64 / 100000

/-- The 32 bytes of an event entry (R87). -/
def eventBytes (ev : Event) (cons time phase : Nat) : List Byte :=
  le 1 ev.status ++ le 1 ev.source ++ le 2 ev.tag ++ le 1 ev.sq ++ le 1 ev.code ++ le 2 ev.info ++ le 8 ev.data0 ++
  le 8 ev.data1 ++ le 4 cons ++ le 4 (time % 2 ^ 31 + phase * 2 ^ 31)

/-- The event in 32 bytes. -/
def eventOf (bs : List Byte) : Event :=
  { status := num bs 0 1, source := num bs 1 1, tag := num bs 2 2, sq := num bs 4 1, code := num bs 5 1,
    info := num bs 6 2, data0 := num bs 8 8, data1 := num bs 16 8 }

/-- PHASE of the entry with index `prod`: 1 in the first pass and inverted on each later wrap (R88). -/
def EvRing.phase (r : EvRing) : Nat := 1 - r.prod / r.size % 2

/-- Write an event into its ring (R87, R88): one 32-byte write, EQ_PROD advances, and the interrupt condition on COUNT
is tested (R90). -/
def State.writeEvent (s : State) (e : Nat) (ev : Event) : State :=
  let r := s.evRing e
  let cons := if ev.sq = 0xFF then 0 else (s.ring ev.sq).cons
  let s := { s with host := Memory.write s.host r.slot (eventBytes ev cons s.timeUs r.phase) }
  let s := (s.modEvRing e (fun r => { r with prod := (r.prod + 1) % 2 ^ 32, uncovered := r.uncovered + 1 })).count
    1 0x12 1 |>.count 2 0x11 32
  if s.modCount e ≤ (s.evRing e).uncovered then s.raiseEq e else s

/-- The event is advisory: a device event, or one of the mirror's (R89). -/
def Event.advisory (ev : Event) : Bool := ev.source == 2 || ev.source == 4

/-- Entries of the holding queue (R89). -/
def holdSize : Nat := 4096

/-- Entries of the holding queue kept for completions and outcomes (R89). -/
def holdKeep : Nat := 64

/-- Hold an event on chip; with the queue full a device event is discarded and counted (R89). -/
def State.holdEvent (s : State) (e : Nat) (ev : Event) : State :=
  if ev.advisory && holdSize - holdKeep ≤ s.hif.hold.length then
    { s.addReg HIF_EVT_LOST.LOST 1 with hif := { s.hif with lostToPost := s.hif.lostToPost + 1 } }
  else { s with hif := { s.hif with hold := s.hif.hold ++ [⟨e, ev⟩] } }

/-- An event can be written at once: rings are serviced, the wait of R61 is over, its ring has room, no earlier event
of its ring is held, and an outcome follows every device event before it (R424). -/
def State.mayWrite (s : State) (e : Nat) (ev : Event) : Bool :=
  s.serviced && !s.hif.awaitDevEq && s.eqRoom e && !s.hif.hold.any (fun h => h.ring == e) &&
  !(ev.source == 1 && s.hif.hold.any (fun h => h.ev.advisory))

/-- Post an event on ring `e`: written, or held on chip until its ring can take it (R18, R89). -/
def State.putEvent (s : State) (e : Nat) (ev : Event) : State :=
  if s.mayWrite e ev then s.writeEvent e ev else s.holdEvent e ev

/-- The event ring for device events (R426). -/
def State.devEq (s : State) : Nat := s.reg HIF_CTRL.DEV_EQ

/-- Write the held events in order as far as their rings have room, then one events-lost entry for the events
discarded (R89, R426). -/
def State.drainHeld (s : State) : State :=
  let s := s.hif.hold.foldl (fun s h => s.putEvent h.ring h.ev) { s with hif := { s.hif with hold := [] } }
  let lost : Event := ⟨0, 3, 0, 0xFF, 0, 0, s.hif.lostToPost, 0⟩
  if s.hif.lostToPost ≠ 0 && s.mayWrite s.devEq lost then
    let s := s.writeEvent s.devEq lost
    { s with hif := { s.hif with lostToPost := 0 } }
  else s

/-- The block that posts device events with this code (R91, R126 and the events tables of the chapters). -/
def eventBlock (code : Nat) : Nat :=
  match code / 8 with
  | 2 => 0 | 3 => 1 | 4 => 2 | 5 => 3 | 6 => 4 | 7 => 6 | 8 => 7 | 9 => 8 | 10 => 9 | 11 => 10 | 12 => 11 | 13 => 13
  | 15 => 15 | _ => 14

/-- Device events that domain 1 holds in PARK (R400). -/
def parkHold : Nat := 16

/-- Post a device event of this chip (R91, R352, R400, R425): none in OFF and SAFE; held in domain 1 in PARK; a mirror
sends its own to the lead, and one outside a pair holds them until it is in a pair. -/
def State.postDev (s : State) (code status info d0 d1 : Nat) : State :=
  let ev : Event := ⟨status, 2, 0, 0xFF, code, info, d0 % 2 ^ 64, d1 % 2 ^ 64⟩
  match s.g with
  | .off | .safe => s
  | .park =>
    let s := s.count (eventBlock code) 0x06 1
    if s.bst.heldEvents.length < parkHold then { s with bst := { s.bst with heldEvents := s.bst.heldEvents ++ [ev] } }
    else { s.addReg HIF_EVT_LOST.LOST 1 with hif := { s.hif with lostToPost := s.hif.lostToPost + 1 } }
  | _ =>
    let s := s.count (eventBlock code) 0x06 1
    if s.isMirror then
      if s.nlk.linkUp then s.naluSend (.event ev) else s.holdEvent s.devEq ev
    else s.putEvent s.devEq ev

/-- Post a device event that a pair posts once, on the lead (R262, R301, R315, R352). -/
def State.postOnce (s : State) (code status info d0 d1 : Nat) : State :=
  if s.isMirror then s else s.postDev code status info d0 d1

/-! ## Completions (R76, R426) -/

/-- The entry of ring `q` with index `idx`, if it is taken and not completed. -/
def State.entry? (s : State) (q idx : Nat) : Option Entry :=
  s.hif.entries.find? (fun e => e.q == q && e.idx == idx)

/-- Forget an entry. -/
def State.dropEntry (s : State) (q idx : Nat) : State :=
  { s with hif := { s.hif with entries := s.hif.entries.filter (fun e => !(e.q == q && e.idx == idx)) } }

/-- The action of an entry has begun. -/
def State.startEntry (s : State) (q idx : Nat) : State :=
  let start := fun (e : Entry) => if e.q == q && e.idx == idx then { e with started := true } else e
  { s with hif := { s.hif with entries := s.hif.entries.map start } }

/-- Complete an entry: it leaves the engine, and its completion is posted when the status is not OK or NOTIFY is set
(R76), on the event ring that its ring named when it was enabled (R73, R426), by the lead alone (R348). -/
def State.complete (s : State) (q idx status info d0 d1 : Nat) : State :=
  match s.entry? q idx with
  | none => s
  | some e =>
    let s := s.dropEntry q idx
    if !s.isMirror && (status ≠ 0 || rawNotify e.raw) then
      s.putEvent (s.ring q).eq
        ⟨status, 0, rawTag e.raw, q, rawOpc e.raw, info, d0 % 2 ^ 64, d1 % 2 ^ 64⟩
    else s

end Sys2Proof.Machine
end

