-- ==== Sys2Proof/Machine/LineCode.lean ====
section
/-! DEFINITION. The form of what travels on the lanes: the 8b/10b line code (R320), frame segments (R324, R325), fire
marks (R327), idle and latch sets (R328), control records (R330) and Nalu messages (R353 to R355), down to their
symbols. -/

namespace Sys2Proof.Machine

/-! ## The 8b/10b code (R320); its tables are those of IEEE 802.3 clause 36 (PRESUMED, log entry 119) -/

/-- The 6-bit codes of x = 0 to 31 at negative running disparity, bit a first. -/
def codes6 : List Nat :=
  [0b100111, 0b011101, 0b101101, 0b110001, 0b110101, 0b101001, 0b011001, 0b111000] ++
  [0b111001, 0b100101, 0b010101, 0b110100, 0b001101, 0b101100, 0b011100, 0b010111] ++
  [0b011011, 0b100011, 0b010011, 0b110010, 0b001011, 0b101010, 0b011010, 0b111010] ++
  [0b110011, 0b100110, 0b010110, 0b110110, 0b001110, 0b101110, 0b011110, 0b101011]

/-- The 4-bit codes of y = 0 to 7 of a data byte at negative running disparity, bit f first; 7 in its primary form. -/
def codes4 : List Nat := [0b1011, 0b1001, 0b0101, 0b1100, 0b1101, 0b1010, 0b0110, 0b1110]

/-- The 4-bit codes of y = 0 to 7 of a control symbol after a 6-bit code that leaves the disparity positive. -/
def ctlCodes4 : List Nat := [0b0100, 0b1001, 0b0101, 0b0011, 0b0010, 0b1010, 0b0110, 0b1000]

/-- Ones among the low `w` bits. -/
def onesOf (w n : Nat) : Nat := ((List.range w).filter (fun i => bit n i)).length

/-- A sub-block of `w` bits at running disparity `neg`, from its form `c` at negative disparity: complemented at
positive disparity where it is unbalanced or where `alt` says so. -/
def subBlock (w c : Nat) (alt neg : Bool) : Nat :=
  if neg || (2 * onesOf w c = w && !alt) then c else 2 ^ w - 1 - c

/-- The running disparity after a sub-block: it turns over unless the sub-block is balanced. -/
def disparity (w c : Nat) (neg : Bool) : Bool := if 2 * onesOf w c = w then neg else !neg

/-- The byte EDCBA HGF of a control symbol: (x, y) of Kx.y. -/
def Ctl.xy : Ctl → Nat × Nat
  | .k28_5 => (28, 5) | .k28_2 => (28, 2) | .k28_1 => (28, 1) | .k28_4 => (28, 4) | .k27_7 => (27, 7)
  | .k29_7 => (29, 7)

/-- The alternate form of y = 7 is sent after x. -/
def altSeven (neg : Bool) (x : Nat) : Bool :=
  if neg then x == 17 || x == 18 || x == 20 else x == 11 || x == 13 || x == 14

/-- The 10 bits of a symbol at a running disparity (`neg` for negative), bit a the most significant, and the disparity
after it. -/
def encodeSym (neg : Bool) (y : Sym) : Nat × Bool :=
  match y with
  | .data b =>
    let x := b.toNat % 32
    let h := b.toNat / 32
    let c := subBlock 6 (codes6.getD x 0) (x == 7) neg
    let mid := disparity 6 c neg
    let f := if h = 7 && altSeven mid x then 0b0111 else codes4.getD h 0
    let d := subBlock 4 f (h == 3) mid
    (c * 16 + d, disparity 4 d mid)
  | .ctl k =>
    let c := subBlock 6 (if k.xy.1 = 28 then 0b001111 else codes6.getD k.xy.1 0) false neg
    let d0 := ctlCodes4.getD k.xy.2 0
    let d := if neg then d0 else 15 - d0
    (c * 16 + d, disparity 4 d (disparity 6 c neg))

/-- The symbols of a lane as 10-bit codes, from a running disparity on. -/
def encodeSyms (neg : Bool) : List Sym → List Nat
  | [] => []
  | y :: ys => (encodeSym neg y).1 :: encodeSyms (encodeSym neg y).2 ys

/-- The running disparity after some symbols. -/
def disparityAfter (neg : Bool) (ys : List Sym) : Bool := ys.foldl (fun n y => (encodeSym n y).2) neg

/-- The symbols that a 10-bit code can stand for at a running disparity: the data bytes with its 6-bit part, and the six
control symbols of R320. -/
def nearSyms (neg : Bool) (w : Nat) : List Sym :=
  let xs := (List.range 32).filter (fun x => subBlock 6 (codes6.getD x 0) (x == 7) neg == w / 16)
  xs.flatMap (fun x => (List.range 8).map (fun h => Sym.data (BitVec.ofNat 8 (32 * h + x)))) ++
    [.ctl .k28_5, .ctl .k28_2, .ctl .k28_1, .ctl .k28_4, .ctl .k27_7, .ctl .k29_7]

/-- The symbol that a 10-bit code stands for at a running disparity; none is a code error, which every other control
symbol is too (R320). -/
def decodeSym (neg : Bool) (w : Nat) : Option Sym := (nearSyms neg w).find? (fun y => (encodeSym neg y).1 == w)

/-- The symbols of the codes that a lane brings, from a running disparity on; none where one is a code error. -/
def decodeSyms : Bool → List Nat → Option (List Sym)
  | _, [] => some []
  | neg, w :: ws =>
    match decodeSym neg w with
    | none => none
    | some y => (decodeSyms (encodeSym neg y).2 ws).map (fun ys => y :: ys)

/-! ## Segments, fire marks and sets (R324 to R328) -/

/-- Data bytes as symbols. -/
def dataSyms (bs : List Byte) : List Sym := bs.map Sym.data

/-- The 16 bytes of a lintel (R325). -/
def Segment.lintel (g : Segment) : List Byte :=
  le 6 g.frame ++ le 4 g.stripe ++ le 1 g.pass ++ le 1 g.lane ++ le 1 g.flags ++ le 3 0

/-- Lintel and payload of a segment. -/
def Segment.bytes (g : Segment) : List Byte := g.lintel ++ g.payload.foldl (fun l c => l.set c.1 c.2) (List.replicate 4096 0#8)

/-- The 4,118 symbols of a segment (R324). -/
def Segment.symbols (g : Segment) : List Sym :=
  .ctl .k27_7 :: dataSyms (g.bytes ++ le 4 (crc32c 0 g.bytes)) ++ [.ctl .k29_7]

/-- The 5 symbols of a fire mark (R327). -/
def fireMark (n : Nat) : List Sym :=
  let f := le 3 n
  .ctl .k28_1 :: dataSyms (f ++ [f.foldl (· ^^^ ·) 0x5A#8])

/-- An idle set (R328). -/
def idleSyms (body : List Byte) : List Sym := .ctl .k28_5 :: dataSyms body

/-- A latch set of a lane (R328). -/
def latchSyms (lane : Nat) (body : List Byte) : List Sym := .ctl .k28_2 :: dataSyms (le 1 lane ++ body)

/-! ## Control records (R330) -/

/-- TYPE of a record of the engine. -/
def FwdRecord.type : FwdRecord → Nat
  | .knock .. => 0x81 | .latchGo .. => 0x82 | .openMap _ => 0x83 | .challenge _ => 0x84 | .arm .. => 0x85

/-- The payload of a record of the engine. -/
def FwdRecord.payload : FwdRecord → List Byte
  | .knock maxRate role die => le 1 1 ++ le 1 maxRate ++ le 1 role ++ le 1 0 ++ le 8 die
  | .latchGo rate gen => le 1 rate ++ le 1 gen ++ le 2 0
  | .openMap map => map.flatMap (le 1)
  | .challenge nonce => le 16 nonce
  | .arm stripe pass dwell crc => le 4 stripe ++ le 1 pass ++ le 1 0 ++ le 2 dwell ++ le 4 crc

/-- A framed body: K28.4, the body, its CRC-32C, K29.7. -/
def framed (body : List Byte) : List Sym := .ctl .k28_4 :: dataSyms (body ++ le 4 (crc32c 0 body)) ++ [.ctl .k29_7]

/-- The symbols of a record of the engine. -/
def FwdRecord.symbols (r : FwdRecord) : List Sym :=
  framed (le 1 r.type ++ le 1 r.payload.length ++ r.payload)

/-- LEN of a record of the head by its TYPE; none for a TYPE that the engine does not know. -/
def backLen : Nat → Option Nat
  | 0x01 => some 20 | 0x02 => some 8 | 0x04 => some 48 | 0x05 => some 8 | 0x06 => some 22 | _ => none

/-- The copy of a record on one back-channel lane: TYPE, LEN and payload where the framing and the CRC hold. -/
def readRecord (ys : List Sym) : Option (Nat × List Byte) :=
  match ys with
  | .ctl .k28_4 :: .data ty :: .data len :: rest =>
    let n := len.toNat
    let bs := rest.filterMap (fun y => match y with | .data b => some b | .ctl _ => none)
    if n ≤ 240 && rest.length = n + 5 && bs.length = n + 4 && rest.getLast? == some (.ctl .k29_7) &&
        bs.drop n == le 4 (crc32c 0 (ty :: len :: bs.take n)) then
      some (ty.toNat, bs.take n)
    else none
  | _ => none

/-- The copy of a record that a lane brings, as codes: good code, framing and CRC (R320, R330). The idle sets before it
leave the running disparity either way, and no command brings them: the codes fit one or the other (PRESUMED, log
entry 119). -/
def readCopy (ws : List Nat) : Option (Nat × List Byte) :=
  match (decodeSyms true ws).bind readRecord with
  | some r => some r
  | none => (decodeSyms false ws).bind readRecord

/-- The record that the back-channel brings (R330): the first copy that is good. -/
def heardCopy (h : BackCopies) : Option (Nat × List Byte) :=
  match readCopy h.bc0 with
  | some r => some r
  | none => readCopy h.bc1

/-- The back-channel lanes with a good copy (R341): bit 0 BC0, bit 1 BC1. -/
def goodCopies (h : BackCopies) : Nat := b2n (readCopy h.bc0).isSome + 2 * b2n (readCopy h.bc1).isSome

/-- What a lane sends, as symbols; tracking frames are no symbols of this code (R311). -/
def Sent.symbols : Sent → List Sym
  | .segment g => g.symbols
  | .fire _ n => fireMark n
  | .track _ _ => []
  | .record _ r => r.symbols
  | .idleSet _ body => idleSyms body
  | .latchSet lane body => latchSyms lane body

/-- The physical lanes that carry something sent. -/
def Sent.lanes : Sent → List Nat
  | .segment g => [g.phys]
  | .fire ls _ => ls
  | .track _ _ => []
  | .record ls _ => ls
  | .idleSet n _ => [n]
  | .latchSet n _ => [n]

/-! ## A transmit lane (R320, R328) -/

/-- A lane sends symbols: its running disparity after them. -/
def LaneTx.sends (l : LaneTx) (ys : List Sym) : LaneTx := { l with neg := disparityAfter l.neg ys }

/-- The symbols of the next set of physical lane `n` cut short after `k` of them, and the lane after it: its scrambler
has advanced by the scrambled bytes among them. -/
def LaneTx.cutSet (l : LaneTx) (n k : Nat) : LaneTx :=
  let head : List Sym := if l.mode == .latchSets then [.ctl .k28_2, .data (BitVec.ofNat 8 n)] else [.ctl .k28_5]
  let r := scrambled (min (16 - head.length) (k - head.length)) l.lfsr
  let ys := head.take k ++ dataSyms r.1
  { l.sends ys with lfsr := r.2, sets := l.sets ++ [ys] }

/-- A lane sends sets for `k` symbols, the last one cut short; `fuel` bounds the sets. -/
def LaneTx.setRun (n : Nat) : Nat → Nat → LaneTx → LaneTx
  | 0, _, l => l
  | fuel + 1, k, l => if k = 0 then l else LaneTx.setRun n fuel (k - 16) (l.cutSet n k)

/-- Physical lane `n` has sent nothing but sets for `k` symbols since the last segment, mark or record on it. -/
def LaneTx.waits (l : LaneTx) (n k : Nat) : LaneTx :=
  if l.mode == .electricalIdle then l else LaneTx.setRun n k k { l with sets := [] }

/-! ## Nalu messages (R354, R355) -/

/-- TYPE of a message (R355). -/
def NaluMsg.type : NaluMsg → Nat
  | .hello .. => 0x01 | .ack .. => 0x02 | .entry .. => 0x10 | .commitSet .. => 0x11 | .tableChunk .. => 0x12
  | .fetched .. => 0x13 | .sig .. => 0x20 | .recompute .. => 0x21 | .result .. => 0x22 | .verdict .. => 0x23
  | .block .. => 0x24 | .decision .. => 0x30 | .missList _ => 0x31 | .finding .. => 0x32 | .fence .. => 0x33
  | .event _ => 0x40 | .outcome .. => 0x41 | .holes .. => 0x42

/-- The payload of a message (R355). R355 gives neither the form of a pending set nor what an EVENT's SQ_CONS and TIME
hold: the model takes each field as its number and its value, then the CRCs of a rejoin, and 0 (DESIGN CHOICE, log
entry 120). -/
def NaluMsg.payload : NaluMsg → List Byte
  | .hello role stepping fw die => le 1 role ++ le 1 stepping ++ le 2 fw ++ le 8 die
  | .ack seq state fenced => le 2 seq ++ le 1 state ++ le 1 fenced
  | .entry ring index raw => le 1 ring ++ le 4 index ++ raw
  | .commitSet id mask set crcs =>
    le 4 id ++ le 2 mask ++ set.flatMap (fun e => le 4 e.1 ++ le 8 e.2) ++ crcs.flatMap (le 4)
  | .tableChunk id offset data => le 2 id ++ le 4 offset ++ data
  | .fetched ring index => le 1 ring ++ le 4 index
  | .sig step dose blocks => le 4 (unsgn 32 step) ++ le 4 dose ++ blocks.flatMap (le 4)
  | .recompute step round kind mask => le 4 (unsgn 32 step) ++ le 1 round ++ le 1 kind ++ le 8 mask
  | .result step round dose blocks => le 4 (unsgn 32 step) ++ le 1 round ++ le 4 dose ++ blocks.flatMap (le 4)
  | .verdict step doseV blockV => le 4 (unsgn 32 step) ++ le 1 doseV ++ blockV.flatMap (le 1)
  | .block step depth data => le 4 (unsgn 32 step) ++ le 1 depth ++ data
  | .decision flash out => le 6 flash ++ le 1 out
  | .missList flash => le 6 flash
  | .finding kind point code => le 1 kind ++ le 8 point ++ le 1 code
  | .fence cause hard flash => le 1 cause ++ le 1 hard ++ le 6 flash
  | .event ev => eventBytes ev 0 0 0
  | .outcome record hs => record ++ hs
  | .holes first hs => le 4 first ++ hs

/-- The symbols of a message with SEQ `seq` (R354). -/
def NaluMsg.symbols (seq : Nat) (m : NaluMsg) : List Sym :=
  framed (le 1 m.type ++ le 2 m.payload.length ++ le 2 seq ++ m.payload)

end Sys2Proof.Machine
end

