-- ==== Sys2Proof/Machine/Ops.lean ====
section
/-! DEFINITION. The operations that several chapters share: power states, tests on demand, accesses to HBM3 and their
errors (R283, R284), snapshots, staging queues (R100, R267), stopping a DMA channel (R112), the shutter link's falls to
DOWN, KNOCK and LATCH, protected items (R96). -/

namespace Sys2Proof.Machine

/-! ## Codes of states -/

/-- MGT_STATE.STATE (0 and 7 are not used; in OFF no read is answered). -/
def GState.code : GState → Nat
  | .off => 1 | .start => 1 | .ready => 2 | .armed => 3 | .run => 4 | .park => 5 | .safe => 6

/-- EMS_STATE.STATE of a stripe that is held. -/
def StripeState.code : StripeState → Nat
  | .armed => 1 | .waitSos => 2 | .run => 3 | .tail => 4 | .done => 5 | .aborted => 6

/-- EMS_STATE.STATE (0 IDLE). -/
def State.stripeCode (s : State) : Nat := (s.stripe.map (fun st => st.st.code)).getD 0

/-- SHL_STATE.STATE. -/
def LinkState.code : LinkState → Nat
  | .down => 0 | .knock => 1 | .latch => 2 | .opened => 3 | .failed => 4 | .fenced => 5

/-- Change the held stripe. -/
def State.modStripe (s : State) (f : Stripe → Stripe) : State := { s with stripe := s.stripe.map f }

/-- The stripe held and not ended (ARMED, WAIT_SOS, RUN or TAIL). -/
def State.liveStripe (s : State) : Option Stripe := s.stripe.filter (fun st => st.st != .done && st.st != .aborted)

/-- The next flash of the held stripe; 0 with none held. -/
def State.nextFlash (s : State) : Nat := (s.stripe.map (·.nextFlash)).getD 0

/-! ## Tests on demand (R402 to R407) -/

/-- Block `k` is under an on-demand test (R404). -/
def State.underTest (s : State) (k : Nat) : Bool := s.bst.test.any (fun t => t.block == k)

/-- A request waits while a block it uses is under a test that does not yield (R404). -/
def State.bistHolds (s : State) (uses : Nat → Bool) : Bool := s.bst.test.any (fun t => !t.yields && uses t.block)

/-- The result registers of block `k` (R406). -/
def State.bistResult (s : State) (k status code kind sig count : Nat) : State :=
  let s := (s.setReg (BST_RESULT.STATUS k) status).setReg (BST_RESULT.CODE k) code
  let s := ((s.setReg (BST_RESULT.KIND k) kind).addReg (BST_RESULT.RUNS k) 1).setReg (BST_SIG.SIG k) sig
  let s := (s.setReg (BST_COUNT.COUNT k) count).count 14 0x10 1
  if status = 0x0A then s.count 14 0x11 1 else s

/-- A test of block `k` that was cut short and ends NOT_RUN: CODE 0x3C; its signature and count are values that the
manual does not give (R402, R407). -/
def State.bistNotRun (s : State) (kind k : Nat) : State :=
  let a := s.fresh 64
  let b := a.2.fresh 32
  b.2.bistResult k 0x0A 0x3C kind a.1 b.1

/-- The on-demand test that runs ends with a status and a duration in ms. -/
def State.bistOver (s : State) (status ms : Nat) : State :=
  let s := { s with bst := { s.bst with test := none } }
  ((s.setReg BST_STATUS.BUSY 0).setReg BST_STATUS.LAST_STATUS status).setReg BST_STATUS.LAST_MS (min ms 35)

/-- The test that runs ends NOT_RUN (R404, R407); its duration is not given. -/
def State.bistAbort (s : State) : State :=
  match s.bst.test with
  | none => s
  | some t =>
    let ms := s.fresh 6
    (ms.2.bistNotRun 3 t.block).bistOver 0x0A ms.1

/-- With YIELD set, the first request that the block would serve aborts the test (R404). -/
def State.bistYield (s : State) (uses : Nat → Bool) : State :=
  if s.bst.test.any (fun t => t.yields && uses t.block) then s.bistAbort else s

/-! ## Accesses to HBM3 (R266, R280) -/

/-- A request for the `n` bytes from HBM3 address `a` takes the pseudo-channels that hold them out of power-down. -/
def State.hbmUse (s : State) (a n : Nat) : State :=
  let wake := fun i (c : PseudoChan) => if hbmTouches a n i then { c with down := false } else c
  { s with hmc := { s.hmc with pcs := s.hmc.pcs.mapIdx wake } }

/-- The granules of 256 B that the `n` bytes from HBM3 address `a` touch (R266). -/
def granules (a n : Nat) : Nat := if n = 0 then 0 else (a + n - 1) / 256 + 1 - a / 256

/-- Write bytes into HBM3 from address `a` on, each granule counted (R411). -/
def State.hbmWrite (s : State) (a : Nat) (bs : List Byte) : State :=
  { s.hbmUse a bs.length with hbm := Memory.write s.hbm a bs }.count 8 0x11 (granules a bs.length)

/-- `n` bytes are written somewhere into the lookahead queue (R198, R280): the manual does not say where in it a
primitive or a reference stands (a free place; DESIGN CHOICE, log entry 151). -/
def State.laqWrite (s : State) (n : Nat) : State :=
  let a := s.fresh 32
  (a.2.hbmUse (0x100000000 + 32 * a.1 % 2 ^ s.lv PRS_CTRL.LAQ_LOG2) n).count 8 0x11 (granules 0 n)

/-! ## Errors of HBM3 (R283, R284) -/

/-- Word `w` lies, as a whole or in part, in the `n` bytes from address `lo`. -/
def eccWithin (w : EccWord) (lo n : Nat) : Bool := w.addr < lo + n && lo < w.addr + 8

/-- HMC_ECC_ADDR and HMC_ECC_INFO record a word in error on a read by `port`. -/
def State.eccRecord (s : State) (port ue : Nat) (w : EccWord) : State :=
  let s := ((s.setReg HMC_ECC_ADDR.ADDR w.addr).setReg HMC_ECC_INFO.UE ue).setReg HMC_ECC_INFO.ON_DIE (b2n w.onDie)
  (s.setReg HMC_ECC_INFO.PORT port).setReg HMC_ECC_INFO.PC (hbmPc w.addr)

/-- A word is corrected on a read by `port` (R283). -/
def State.corrected (s : State) (port : Nat) (w : EccWord) : State :=
  let s := (s.addReg HMC_ECC_CE.COUNT 1).eccRecord port 0 w
  { s with hmc := { s.hmc with ceAddr := w.addr } }

/-- An uncorrectable word is recorded and event 0x49 posted with its status (R284, R285). -/
def State.uncorrectable (s : State) (port : Nat) (w : EccWord) (status : Nat) : State :=
  ((s.addReg HMC_ECC_UE.COUNT 1).eccRecord port 1 w).postDev 0x49 status 0 w.addr
    (port + hbmPc w.addr * 2 ^ 4 + b2n w.onDie * 2 ^ 9)

/-- Port `port` reads the `n` bytes from address `lo` (R280, R283): the words corrected among them, and the first of
them that could not be. -/
def State.eccRead (s : State) (port lo n : Nat) (ecc : EccReads) : State × Option EccWord :=
  let ws := ecc.corrected.filter (fun w => eccWithin w lo n)
  (ws.foldl (fun s w => s.corrected port w) (s.hbmUse lo n), ecc.bad.filter (fun w => eccWithin w lo n))

/-- A word in error somewhere in the `n` bytes from address `lo`, which the manual does not fix. -/
def State.freeWord (s : State) (lo n : Nat) : EccWord × State :=
  let a := s.fresh 64
  let b := a.2.fresh 1
  (⟨(lo + a.1 % n) / 8 * 8, b.1 == 1⟩, b.2)

/-- So many of them. -/
def State.freeWords (lo n : Nat) : Nat → State → List EccWord × State
  | 0, s => ([], s)
  | k + 1, s =>
    let w := s.freeWord lo n
    let r := State.freeWords lo n k w.2
    (w.1 :: r.1, r.2)

/-- What the controller finds on a read of the `n` bytes from address `lo` of which no command tells (R283, R284): any
words corrected, and one that cannot be or none, as free values (DESIGN CHOICE, log entry 172). -/
def State.freeEcc (s : State) (lo n : Nat) : EccReads × State :=
  if n = 0 then (⟨[], none⟩, s)
  else
    let k := s.fresh 32
    let ws := State.freeWords lo n (k.1 % (n / 8 + 2)) k.2
    let bad := ws.2.fresh 1
    let w := bad.2.freeWord lo n
    (⟨ws.1, if bad.1 = 1 then some w.1 else none⟩, w.2)

/-! ## Snapshots (R417 to R419) -/

/-- The 8 bytes of a counter in a record (R417). -/
def Counter.bytes (c : Counter) : List Byte := le 8 (c.count + b2n c.ovf * 2 ^ 48 + c.epoch * 2 ^ 56)

/-- Bytes 64 to 1,279 of a record. -/
def State.snapBody (s : State) : List Byte :=
  s.pmu.counters.flatMap Counter.bytes ++ s.pmu.slots.flatMap Counter.bytes

/-- Bytes 0 to 63 of a record with SEQ `seq`. -/
def State.snapHead (s : State) (seq : Nat) : List Byte :=
  let h := le 4 0x444D5550 ++ le 4 seq ++ le 8 s.cc ++ le 4 (s.reg EMS_STRIPE.STRIPE_ID) ++ le 1 s.g.code ++
    le 1 s.stripeCode ++ le 2 0 ++ le 6 (s.reg EMS_NEXT.N) ++ List.replicate 30 0#8
  h ++ le 4 (crc32c 0 (h ++ s.snapBody))

/-- A snapshot is taken (R418, R419): refused outside the live windows, which clears ENABLE and posts event 0x78; else
the body is written through DMA channel 0 and the header waits for the flush. -/
def State.snapTaken (s : State) : State :=
  let seq := s.reg PMU_SNAP_SEQ.SEQ + 1
  let a := s.pmu.base + (seq - 1) % 2 ^ s.pmu.log2n * 1280
  if s.inWindow a 1280 then
    let t := { s with host := Memory.write s.host (a + 64) s.snapBody
                      pmu := { s.pmu with writing := some (a, s.snapHead seq, seq) } }
    ((t.wakeBlock 2).wakeBlock 15).count 2 0x11 1216
  else
    ((s.setReg PMU_SNAP_CFG.ENABLE 0).setReg PMU_SNAP_STATUS.LAST_STATUS 0x09).postDev 0x78 0x09 0 a (seq % 2 ^ 32)

/-- A snapshot falls due (R404, R418): skipped while the last record is still being written; it waits for a test of the
PMU or of DMA, and ends one that yields. A second one that falls due while one waits is skipped (DESIGN CHOICE, log
entry 166). -/
def State.snapshot (s : State) : State :=
  let uses := fun k => k == 2 || k == 15
  if s.reg PMU_SNAP_CFG.ENABLE = 0 || s.pwr 15 == .off then s
  else if s.pmu.writing.isSome || s.pmu.due then (s.addReg PMU_SNAP_STATUS.SKIPPED 1).count 15 0x11 1
  else if s.bistHolds uses then { s with pmu := { s.pmu with due := true } }
  else (s.bistYield uses).snapTaken

/-- A snapshot that waited for the end of a test is taken (R404), unless the chip has left service. -/
def State.snapDue (s : State) : State :=
  let t := { s with pmu := { s.pmu with due := false } }
  if s.pmu.due && s.serviced then t.snapshot else t

/-! ## DMA channels -/

/-- DMA channel `ch`. -/
def State.chan (s : State) (ch : Nat) : Chan := s.chans.getD ch .reset

/-- Change DMA channel `ch`. -/
def State.modChan (s : State) (ch : Nat) (f : Chan → Chan) : State := { s with chans := modAt s.chans ch f }

/-- Size of the staging queue of STREAM channel `ch` (R100). -/
def State.stagingSize (s : State) (ch : Nat) : Nat := 2 ^ s.lv (DMA_CH_CFG.QLOG2 ch)

/-- HBM3 address of the staging queue of STREAM channel `ch` (R267). -/
def stagingBase (ch : Nat) : Nat := 0x200000000 + (ch - 1) * 0x10000000

/-- Bytes in the staging queue of STREAM channel `ch`. -/
def State.stagedCount (s : State) (ch : Nat) : Nat := (s.chan ch).wr - (s.chan ch).rd

/-- The first `n` bytes of the staging queue of STREAM channel `ch`, which wraps at its size (R105). -/
def State.stagedBytes (s : State) (ch n : Nat) : List Byte :=
  let o := (s.chan ch).rd % s.stagingSize ch
  let k := min n (s.stagingSize ch - o)
  Memory.bytes s.hbm (stagingBase ch + o) k ++ Memory.bytes s.hbm (stagingBase ch) (n - k)

/-- Append bytes to the staging queue of STREAM channel `ch`. -/
def State.stagePut (s : State) (ch : Nat) (bs : List Byte) : State :=
  let o := (s.chan ch).wr % s.stagingSize ch
  let k := s.stagingSize ch - o
  ((s.hbmWrite (stagingBase ch + o) (bs.take k)).hbmWrite (stagingBase ch) (bs.drop k)).modChan ch
    (fun c => { c with wr := c.wr + bs.length })

/-- Take `n` bytes out of the staging queue of STREAM channel `ch`. -/
def State.stageTake (s : State) (ch n : Nat) : State :=
  s.modChan ch (fun c => { c with rd := min (c.rd + n) c.wr })

/-- Discard what is left in the staging queue of STREAM channel `ch` (R101). -/
def State.stageDiscard (s : State) (ch : Nat) : State :=
  (s.modChan ch (fun c => { c with rd := 0, wr := 0 })).setReg (DMA_CH_STATUS.HELD ch) 0

/-- The causes that halt a channel (R113): WINDOW, MALFORMED, hop limit, timeout, CPL_ERR. -/
def haltingCause (cause : Nat) : Bool := 3 ≤ cause && cause ≤ 7

/-- The status record of a stopped request (R112): LAST_STATUS, CAUSE, DONE, RESIDUE, and HALTED for a cause of
R113; the request is gone. -/
def State.stopRecord (s : State) (ch status cause : Nat) (r : Request) : State :=
  let s := (s.setReg (DMA_CH_STATUS.LAST_STATUS ch) status).setReg (DMA_CH_STATUS.CAUSE ch) cause
  let s := (s.setReg (DMA_CH_DONE.DONE ch) r.delivered).setReg (DMA_CH_RESIDUE.RESIDUE ch) (r.named - r.delivered)
  let s := (s.setReg (DMA_CH_STATUS.HELD ch) 0).setReg (DMA_CH_STATUS.WAKE_WAIT ch) 0
  let s := if haltingCause cause then s.setReg (DMA_CH_STATUS.HALTED ch) 1 else s
  s.modChan ch (fun c => { c with req := none })

/-- Event 0x20, DMA_STOP (R126). -/
def State.stopEvent (s : State) (ch status cause residue : Nat) : State :=
  s.postDev 0x20 status 0 residue (ch + status * 2 ^ 8 + cause * 2 ^ 16)

/-- The value of a scan after its first `n` bytes (R120, R123). -/
def State.scanValue (s : State) (sc : Scan) (n : Nat) : Nat :=
  checkValue sc.poly sc.value (Memory.bytes (if sc.space = 1 then s.hbm else s.host) sc.addr n)

/-- A scan's value is written to SEED_ADDR when that is not 0 (R123); the window was tested when the scan started, and
its withdrawal since then stops nothing (R108). -/
def State.scanWriteBack (s : State) (sc : Scan) (v : Nat) : State :=
  if sc.seedAddr ≠ 0 then { s with host := Memory.write s.host sc.seedAddr (le 8 v) } else s

/-- Check engine `e` is idle again; its value and byte count stay (CHK_ENG_VAL, CHK_ENG_DONE). -/
def State.freeScan (s : State) (e v n : Nat) : State :=
  ({ s with scans := setAt s.scans e none }.setReg (CHK_ENG_VAL.VAL e) v).setReg (CHK_ENG_DONE.BYTES e) (sat 32 n)

/-- What a stopping request has delivered (R112): reads already issued still arrive, so of the piece in work a count
that the manual does not fix, at most what is left of it; a channel in HELD, or one that waits for a block to wake, has
issued none. -/
def State.settle (s : State) (ch : Nat) (r : Request) : Request × State :=
  let left := r.piece.len - r.piece.moved
  if left = 0 || s.reg (DMA_CH_STATUS.WAKE_WAIT ch) = 1 || s.reg (DMA_CH_STATUS.HELD ch) = 1 then (r, s)
  else
    let a := s.fresh 32
    let n := a.1 % (left + 1)
    let saves := (s.entry? r.q r.idx).any (fun e => rawOpc e.raw == 0x21)
    ({ r with delivered := r.delivered + n }, a.2.count 2 (if saves then 0x11 else 0x10) n)

/-- The end of a stop (R112): the status record, event 0x20, the entry completed with the status. -/
def State.stopFinish (s : State) (ch status cause : Nat) (r : Request) (d0 d1 : Nat) : State :=
  ((s.stopRecord ch status cause r).stopEvent ch status cause (r.named - r.delivered)).complete r.q r.idx status 0 d0 d1

/-- Stop the request of channel `ch` (R112), which delivers into a queue that nothing reads any more. -/
def State.stopChan (s : State) (ch status cause : Nat) : State :=
  match (s.chan ch).req with
  | none => s
  | some r =>
    let a := s.settle ch r
    a.2.stopFinish ch status cause a.1 0 0

/-- The STREAM channels (R99). -/
def streamChans : List Nat := [1, 2, 3, 4, 5, 6, 7, 8]

/-- Channel `ch` is bound to STREAM ring `q` (R100). -/
def State.boundTo (s : State) (q ch : Nat) : Bool :=
  s.reg (DMA_CH_STATUS.BOUND ch) == 1 && s.reg (DMA_CH_STATUS.RING ch) == q

/-- Channel `ch` was bound to STREAM ring `q`, which has been disabled since (R73). -/
def State.leftBy (s : State) (q ch : Nat) : Bool := s.reg (DMA_CH_STATUS.BOUND ch) == 0 && (s.chan ch).ring == some q

/-- Channel `ch` has work left of a ring that was disabled (R73): a request, bytes in its staging queue, or an entry taken
and not begun. -/
def State.owes (s : State) (q ch : Nat) : Bool :=
  s.leftBy q ch && ((s.chan ch).req.isSome || s.stagedCount ch != 0 ||
    s.hif.entries.any (fun e => e.q == q && rawOpc e.raw == 0x10 && !e.started))

/-- The DMA channel that carries the buffers of STREAM ring `q`: one that ends what it has of the ring from before its
last disable (R73), else the one bound to it (R100), else the one that was. -/
def State.streamChan (s : State) (q : Nat) : Option Nat :=
  (streamChans.find? (s.owes q)).or ((streamChans.find? (s.boundTo q)).or (streamChans.find? (s.leftBy q)))

/-- Feed decompressors in use (R171). -/
def State.feedWidth (s : State) : Nat := 4 - s.lv CDC_CTRL.HOST_SHARE

/-- FEED channel `ch` carries the stream of the held stripe and has not stopped (R99, R170). -/
def State.feedCarries (s : State) (ch : Nat) : Bool :=
  23 ≤ ch && ch < 23 + s.feedWidth && s.cdc.feed.raw.isSome && s.stripeActive && !s.cdc.feed.stopped.contains ch

/-- A channel that serves no ring entry stops (R112): its record and event 0x20, of a count of bytes delivered and a
residue that the manual does not fix; a cause of R113 halts it. -/
def State.looseRecord (s : State) (ch status cause : Nat) : State :=
  let a := s.fresh 32
  let b := a.2.fresh 32
  let s := (b.2.setReg (DMA_CH_STATUS.LAST_STATUS ch) status).setReg (DMA_CH_STATUS.CAUSE ch) cause
  let s := (s.setReg (DMA_CH_DONE.DONE ch) a.1).setReg (DMA_CH_RESIDUE.RESIDUE ch) b.1
  let s := s.setReg (DMA_CH_STATUS.HELD ch) 0
  let s := if haltingCause cause then s.setReg (DMA_CH_STATUS.HALTED ch) 1 else s
  s.stopEvent ch status cause b.1

/-- The decompressors feed a coded stream that has not ended (R171). -/
def Feed.decoding (f : Feed) : Bool := f.raw == some false && f.dec.phase != 3

/-- FEED channel `ch` stops (R112, R114), once. The decompressor that it feeds records the status (R186), unless its
stream has ended, or the stripe ends by a fault of its stream, which has recorded its own. At a host reset the channels
of a stripe ARMED or RUN record cause 2, a stripe abort, and not 8 (DESIGN CHOICE, log entry 137). -/
def State.feedRecord (s : State) (ch status cause : Nat) : State :=
  let s := if !s.cdc.feed.decoding || s.stripe.any (fun st => st.cause == 0x02) then s
    else (s.setReg (CDC_ENG_STATUS.LAST_STATUS (ch - 23)) status).setReg (CDC_ENG_STATUS.LAST_REASON (ch - 23)) 0
  let feed := { s.cdc.feed with stopped := ch :: s.cdc.feed.stopped }
  { s with cdc := { s.cdc with feed } }.looseRecord ch status cause

/-! ## The shutter link's falls -/

/-- Put something on its lanes (R328): until then they have sent sets, for as many symbols as time went by, which the
manual does not fix (a free value); the last of them may be cut short. -/
def State.send (s : State) (x : Sent) : State :=
  let a := s.fresh 32
  let on := fun n (l : LaneTx) => if x.lanes.contains n then (l.waits n a.1).sends x.symbols else l
  { a.2 with shl := { s.shl with lanes := s.shl.lanes.mapIdx on, sent := x :: s.shl.sent } }

/-- The set with which a lane starts, and its scrambler after it (R328): 15 scrambled bytes in an idle set, in a latch
set the lane number and 14 of them; electrical idle sends nothing. -/
def LaneTx.firstSet (l : LaneTx) (n : Nat) : Option Sent × LaneTx :=
  match l.mode with
  | .electricalIdle => (none, l)
  | .idleSets => (some (.idleSet n (scrambled 15 l.lfsr).1),
      { l.sends (idleSyms (scrambled 15 l.lfsr).1) with lfsr := (scrambled 15 l.lfsr).2 })
  | .latchSets => (some (.latchSet n (scrambled 14 l.lfsr).1),
      { l.sends (latchSyms n (scrambled 14 l.lfsr).1) with lfsr := (scrambled 14 l.lfsr).2 })

/-- Lane `n` starts knock or latch (R328, R335): its scrambler at 0xFFFF, with its equalisation entry for the rate; its
running disparity goes on. -/
def State.laneStart (s : State) (mode : TxMode) (rate n : Nat) (l : LaneTx) : LaneTx :=
  let e := s.tabLive.eqEntry (34 * rate + n)
  { mode, lfsr := 0xFFFF, pre := e.1, main := e.2.1, post := e.2.2.1, neg := l.neg, sets := [] }

/-- The transmit lanes take up what `f` says, each that sends starting with a whole set. -/
def State.setLanes (s : State) (f : Nat → LaneTx → LaneTx) : State :=
  let lanes := s.shl.lanes.mapIdx (fun n l => (f n l).firstSet n)
  { s with shl := { s.shl with lanes := lanes.map (·.2), sent := (lanes.filterMap (·.1)).reverse ++ s.shl.sent } }

/-- The proved identity is cleared (R337). -/
def State.unprove (s : State) : State :=
  { s with shl := { s.shl with proved := none, challenge := none, freshAsked := false, freshEnded := false } }

/-- The transmit lanes stop: electrical idle, in the given state (DOWN, FAILED or FENCED); no identity is proved, the
back-channel is not watched (R331, R337, R341). -/
def State.linkStop (s : State) (st : LinkState) : State :=
  let s := s.unprove
  { s with shl := { s.shl with st, lanes := List.replicate 34 .reset, map := [], latching := false, openSent := false, watching := false,
                               relatchDue := false, knockDue := false } }.setReg SHL_BC.GOOD 0

/-- A new knock (R332): the identity is cleared and no reply has arrived; physical lanes 0 to 3 send idle sets at rate
index 0. -/
def State.startKnock (s : State) : State :=
  let s := ((s.wakeBlock 10).linkStop .knock).setLanes (fun n l => if n < 4 then s.laneStart .idleSets 0 n l else l)
  ({ s with shl := { s.shl with knockPosted := false } }.setReg SHL_STATE.RATE 0).setReg SHL_STATE.GEN 0

/-- LATCH at the rate in force (R332, R334): the latch sets start at LATCH_START; the loss count restarts (R340). -/
def State.startLatch (s : State) : State :=
  let s := { s with shl := { s.shl with st := .latch, map := [], latching := false, latchLock := 0,
                                        openSent := false, challenge := none, freshAsked := false,
                                        freshEnded := false, relatchDue := false } }
  (s.setReg SHL_STATE.LOSSES 0).setReg SHL_LOST.LANES 0

/-- The link is being brought up or up: the states in which R334 brings it up again. -/
def LinkState.active : LinkState → Bool
  | .knock | .latch | .opened => true
  | _ => false

/-- At a stripe boundary the link is brought up again where R334 asks for it: a new knock, or LATCH at the current
rate. -/
def State.linkBoundary (s : State) : State :=
  if s.shl.knockDue && s.shl.st.active then s.startKnock
  else if s.shl.relatchDue && (s.shl.st == .latch || s.shl.st == .opened) then s.startLatch
  else { s with shl := { s.shl with knockDue := false, relatchDue := false } }

/-- A chip without a partner lifts its fence. -/
def State.liftFence (s : State) : State :=
  { s with fence := none, nlk := { s.nlk with rejoining := false, rejoinWanted := false } }

/-- LINK_EN changes (R331): 1 starts a new knock, in START only once READY is reached; 0 takes the link DOWN, lifts its
fence and, on a solo engine, the chip's (R340, R363). -/
def State.linkEnable (s : State) (on : Bool) : State :=
  if on then
    let t := s.setReg SHL_CTRL.LINK_EN 1
    if s.g == .start || s.reg SHL_CTRL.LINK_EN = 1 then t else t.startKnock
  else
    let s := (s.setReg SHL_CTRL.LINK_EN 0).linkStop .down
    if !s.nlk.paired && s.fence.any (fun f => f.cause == 0x08 && !f.hard) then
      s.liftFence
    else s

/-- What a set carries of SHL_CTRL acts on a mirror (R29): LINK_EN where it differs, and RELATCH for the boundary at which
the set takes effect (DESIGN CHOICE, log entry 96). -/
def State.linkFollow (s : State) (fs : List (Nat × Nat)) : State :=
  let s := match fs.lookup SHL_CTRL.LINK_EN.key with
    | some v => if s.reg SHL_CTRL.LINK_EN = v % 2 then s else s.linkEnable (v % 2 == 1)
    | none => s
  if fs.lookup SHL_CTRL.RELATCH.key = some 1 then { s with shl := { s.shl with relatchDue := true } } else s

/-- Event 0x58, LINK_STATE (R345), which LAST_STATUS keeps. -/
def State.linkEvent (s : State) (status : Nat) : State :=
  (s.setReg SHL_STATE.LAST_STATUS status).postDev 0x58 status 0
    (s.shl.st.code + s.reg SHL_STATE.RATE * 8 + s.reg SHL_STATE.GEN * 32) (s.reg SHL_LOST.LANES)

/-! ## Protected items (R94, R96) -/

/-- The windows in a staged value: u64 base, u64 length each. -/
def windowsOf (bs : List Byte) : List (Nat × Nat) :=
  (List.range (bs.length / 16)).map (fun i => (num bs (16 * i) 8, num bs (16 * i + 8) 8))

/-- The doorbell page address that the engine uses: as read when DB_EN was set. -/
def State.page (s : State) : Nat := s.reg HIF_DB_BASE.ADDR / 4096 * 4096

/-- Event 0x21 when DB_EN is 1 and the page lies outside every live window (R109). -/
def State.pageCheck (s : State) : State :=
  if s.reg HIF_CTRL.DB_EN = 1 && !s.inWindow s.page 4096 then s.postDev 0x21 0x09 0 s.page 0 else s

/-- An accepted item becomes live (R96). -/
def State.itemLive (s : State) (item : Nat) (bs : List Byte) : State :=
  match item with
  | 1 => { s with prot := { s.prot with windows := windowsOf bs } }.pageCheck
  | 2 => { s with prot := { s.prot with flashWe := num bs 0 1 == 1 } }
  | 3 => { s with prot := { s.prot with headKey := some bs } }
  | 5 => { s with prot := { s.prot with pmuUser := num bs 0 1 == 1 } }
  | _ => s

/-- The items that wait for a stripe boundary become live, in the order accepted (R96). -/
def State.itemsLive (s : State) : State :=
  s.prot.waiting.foldl (fun s i => s.itemLive i.1 i.2) { s with prot := { s.prot with waiting := [] } }

end Sys2Proof.Machine
end

