-- ==== Sys2Proof/Machine/Serve.lean ====
section
/-! DEFINITION. Acting on a ring entry once it is taken (R76, R77, R99, R107, R108, R110, R116, R117, R404): what stands
before it, its channel, its request. -/

namespace Sys2Proof.Machine

/-! ## What stands before an entry that would act (R117, R404) -/

/-- The blocks that a taken entry would use, for R404: those it targets; for an ARM_STRIPE the data path. -/
def State.entryUses (s : State) (raw : List Byte) (k : Nat) : Bool :=
  if opcType (rawOpc raw) = 1 then rawOpc raw == 1 && s.onDataPath k else (targets raw).contains k

/-- What stands before an entry may act. -/
inductive Gate where
  | go
  | wait
  | refuse (status block : Nat)
  deriving DecidableEq, Repr

/-- R117 on the blocks an entry targets, lowest first: OFF gives NOT_RUN, else an OFF request gives BUSY, except, for any
entry but a COMMIT (R93), for data-path blocks while a stripe is ARMED or RUN. R404 makes it wait on a block under test.
-/
def State.gate (s : State) (raw : List Byte) : Gate :=
  let ts := targets raw
  match ts.find? (fun k => s.pwr k == .off) with
  | some k => .refuse 0x0A k
  | none =>
    match ts.find? (fun k => s.pwrPending k && !(s.stripeActive && s.onDataPath k && rawOpc raw != 0x60)) with
    | some k => .refuse 0x11 k
    | none => if s.bistHolds (s.entryUses raw) then .wait else .go

/-- What the host wrote into its memory before a command. -/
def State.hostWrites (s : State) (hw : Cells) : State := { s with host := Memory.apply s.host hw }

/-- Entries of ring `q` that are taken and not completed, oldest first. -/
def State.entriesOf (s : State) (q : Nat) : List Entry := s.hif.entries.filter (fun e => e.q == q)

/-! ## Acting on an entry (R77, R117, R404) -/

/-- The entries of ring `q` taken before the one with index `idx`. -/
def State.entriesBefore (s : State) (q idx : Nat) : List Entry := (s.entriesOf q).takeWhile (fun e => e.idx != idx)

/-- ORDER holds back an entry while an earlier one of its ring has not completed (R76). -/
def State.orderOk (s : State) (e : Entry) : Bool :=
  !rawOrder e.raw ||
  !(s.hif.entries.takeWhile (fun x => !(x.q == e.q && x.idx == e.idx))).any (fun x => x.q == e.q)

/-- The first entry of ring `q` with this OPC whose action has not begun and may begin. An ABORT_STRIPE with ORDER set
waits as R76 has it, although R80 has an ABORT_STRIPE act at once (DESIGN CHOICE, log entry 104). -/
def State.nextEntry (s : State) (q opc : Nat) : Option Entry :=
  s.hif.entries.find? (fun e => e.q == q && rawOpc e.raw == opc && !e.started && s.orderOk e)

/-- The first and last DMA channel that serves entries of a ring type (R99); SCAN channel 17 + e serves engine e. -/
def typeChans (ty : Nat) : List Nat :=
  match ty with
  | 3 => [9, 10]
  | 4 => [11, 12, 13, 14, 15, 16]
  | 5 => [17, 18, 19, 20]
  | 6 => [21, 22]
  | _ => []

/-- The lowest-numbered channel of a ring type that is free and not halted (R101, R113). -/
def State.freeChan (s : State) (ty : Nat) : Option Nat :=
  (typeChans ty).find? (fun ch => (s.chan ch).req.isNone && s.reg (DMA_CH_STATUS.HALTED ch) == 0)

/-- The status of the last request ended (DMA_CH_STATUS), its bytes delivered and its residue. -/
def State.chanRecord (s : State) (ch status cause done residue : Nat) : State :=
  let s := (s.setReg (DMA_CH_STATUS.LAST_STATUS ch) status).setReg (DMA_CH_STATUS.CAUSE ch) cause
  (s.setReg (DMA_CH_DONE.DONE ch) done).setReg (DMA_CH_RESIDUE.RESIDUE ch) residue

/-- The request of channel `ch` ends without a stop: its record, and its entry completed (R110). -/
def State.endReq (s : State) (ch status info d0 d1 : Nat) : State :=
  match (s.chan ch).req with
  | none => s
  | some r =>
    let s := s.chanRecord ch status 0 r.delivered (r.named - r.delivered)
    let s := (s.setReg (DMA_CH_STATUS.HELD ch) 0).setReg (DMA_CH_STATUS.WAKE_WAIT ch) 0
    (s.modChan ch (fun c => { c with req := none })).complete r.q r.idx status info d0 d1

/-- Act on an entry: refused by R117 (cause 9 on the channel it would have taken, for a target that is OFF), waiting, or
the action itself. -/
def State.tryEntry (s : State) (act : State → Entry → State) (e : Entry) : State :=
  match s.gate e.raw with
  | .wait => s
  | .refuse status _ =>
    let s := match (if status = 0x0A then s.freeChan (opcType (rawOpc e.raw)) else none) with
      | some ch => s.chanRecord ch status 9 0 0
      | none => s
    s.complete e.q e.idx status 0 0 0
  | .go => act (s.bistYield (s.entryUses e.raw)) e

/-- Act on the next entry of ring `q` with this OPC. -/
def State.onEntry (s : State) (q opc : Nat) (act : State → Entry → State) : State :=
  match (if s.serviced then s.nextEntry q opc else none) with
  | none => s
  | some e => s.tryEntry act e

/-- The entries of a ring type that still wait are tried again, oldest first, when a channel or engine is free. -/
def State.pump (s : State) (ty : Nat) (act : State → Entry → State) : State :=
  if s.serviced then
    (s.hif.entries.filter (fun e => opcType (rawOpc e.raw) == ty && !e.started)).foldl
      (fun s e => if s.orderOk e then s.tryEntry act e else s) s
  else s

/-- The blocks that a request of channel `ch` uses are reached (R116): one in IDLE is in RUN, one in NAP holds the
channel's burst until BLOCK_WAKE. -/
def State.reach (s : State) (ch : Nat) (raw : List Byte) : State :=
  let ts := targets raw
  let nap := ts.any (fun k => s.pwr k == .nap)
  let s := ts.foldl (fun s k => if s.pwr k == .idle then { s with power := setAt s.power k .run } else s) s
  s.setReg (DMA_CH_STATUS.WAKE_WAIT ch) (b2n nap)

/-- A request starts on channel `ch` (R107, R108). A non-empty buffer outside the live windows stops it at once. -/
def State.startReq (s : State) (ch : Nat) (e : Entry) (addr len link : Nat) : State :=
  let s := s.reach ch e.raw
  let out := len ≠ 0 && !s.inWindow addr len
  let piece : Piece := { addr, len := if out then 0 else len, swap := 0, wrap := 0, moved := 0 }
  let req : Request := { q := e.q, idx := e.idx, piece, next := link, hops := 0, named := len, delivered := 0 }
  let s := (s.startEntry e.q e.idx).modChan ch (fun c => { c with req := some req })
  let s := s.setReg (DMA_CH_STATUS.HELD ch) 0
  if out then s.stopChan ch 0x09 3 else s

end Sys2Proof.Machine
end

