-- ==== Sys2Proof/Machine/Scan.lean ====
section
/-! DEFINITION. The check engines' host scans (R84, R119 to R124). -/

namespace Sys2Proof.Machine

/-- The starting value of a SCAN in reported form: SEED, or the running value stored at SEED_ADDR. -/
def State.scanStart (s : State) (p : ScanOp) : Nat :=
  if p.ctx = 1 then unle (Memory.bytes s.host p.seedAddr 8) else p.seed

/-- A SCAN that R121 refuses, with SEED_ADDR, where it is read or written, held to the live windows as R97 and R108 hold
every access. -/
def State.scanBad (s : State) (p : ScanOp) : Bool :=
  ((p.ctx = 1 || (p.seedAddr ≠ 0 && p.len ≠ 0)) && !s.inWindow p.seedAddr 8) || (p.poly = 0 && s.scanStart p ≥ 2 ^ 32) ||
  (if p.space = 1 then p.addr + p.len > 0x600000000 else p.len ≠ 0 && !s.inWindow p.addr p.len)

/-- The check engines that host scans may take (R124): all four, or 2 and 3 while a pair runs a stripe. -/
def State.scanEngines (s : State) : List Nat := if s.joined && s.stripeActive then [2, 3] else [0, 1, 2, 3]

/-- The lowest-numbered engine that a host scan may take now. -/
def State.freeEngine (s : State) : Option Nat :=
  s.scanEngines.find? (fun e => (s.scans.getD e none).isNone && (s.chan (17 + e)).req.isNone &&
    s.reg (DMA_CH_STATUS.HALTED (17 + e)) == 0)

/-- The `n` bytes of HBM3 from `a` on touch a region whose bytes the model does not hold: the lookahead queue (R267, log
entry 15). -/
def hbmUnheld (a n : Nat) : Bool := n ≠ 0 && a < 0x200000000 && 0x100000000 < a + n

/-- The value of a scan after its first `n` bytes (R120, R121); over bytes that the model does not hold, a free value.
-/
def State.scanResult (s : State) (sc : Scan) (n : Nat) : Nat × State :=
  if sc.space = 1 && hbmUnheld sc.addr n then s.fresh (if sc.poly = 0 then 32 else 64) else (s.scanValue sc n, s)

/-- CHK_ENG_VAL and CHK_ENG_DONE of engine `e` (R127). -/
def State.scanRegs (s : State) (e v n : Nat) : State :=
  (s.setReg (CHK_ENG_VAL.VAL e) v).setReg (CHK_ENG_DONE.BYTES e) (sat 32 n)

/-- Put a scan on engine `e`, with its request on channel 17 + e. -/
def State.scanOn (s : State) (e : Nat) (sc : Scan) : State :=
  let piece : Piece := { addr := sc.addr, len := sc.len, swap := 0, wrap := 0, moved := 0 }
  let req : Request := { q := sc.q, idx := sc.idx, piece, next := 0, hops := 0, named := sc.done + sc.len,
                         delivered := sc.done }
  let s := ({ s with scans := setAt s.scans e (some sc) }.startEntry sc.q sc.idx).modChan (17 + e) (fun c => { c with
    req := some req })
  ((s.setReg (CHK_ENG_STATUS.POLY e) sc.poly).setReg (CHK_ENG_STATUS.SPACE e) sc.space).scanRegs e sc.value sc.done

/-- A scan that has come `n` bytes further, to the value `v` over all its bytes so far. -/
def Scan.ahead (sc : Scan) (n v : Nat) : Scan :=
  { sc with addr := sc.addr + n, len := sc.len - n, value := v, done := sc.done + n }

/-- The scan `sc` on engine `e` takes in its next `n` bytes as they stand now (R120, R121): its registers and its request
follow (R127), and the bytes count (R411). -/
def State.scanSteps (s : State) (e : Nat) (sc : Scan) (n : Nat) : State :=
  let v := s.scanResult sc n
  let sc' := sc.ahead n v.1
  let piece : Piece := { addr := sc'.addr, len := sc'.len, swap := 0, wrap := 0, moved := 0 }
  let s := v.2
  let t := ({ s with scans := setAt s.scans e (some sc') }.modChan (17 + e) (fun c => { c with
    req := c.req.map (fun (r : Request) => { r with piece := piece, delivered := sc'.done }) })).scanRegs e v.1 sc'.done
  (t.count 12 0x10 n).count 2 0x10 (if sc.space = 1 then 0 else n)

/-- The scan `sc` on engine `e` reads its next `n` bytes, HBM3 through port 4 (R280, R283): up to an uncorrectable word,
which is recorded with event 0x49 and no fence (R284). -/
def State.scanReads (s : State) (e : Nat) (sc : Scan) (n : Nat) (ecc : EccReads) : State × Bool :=
  if sc.space ≠ 1 then (s.scanSteps e sc n, false)
  else
    let r := (s.count 8 0x10 (granules sc.addr n)).eccRead 4 sc.addr n ecc
    match r.2 with
    | none => (r.1.scanSteps e sc n, false)
    | some w => ((r.1.uncorrectable 4 w 0x07).scanSteps e sc (w.addr - sc.addr), true)

/-- Where a scan that may stop after `n` bytes stops: in HBM3 at the end of an access (R112). -/
def Scan.burst (sc : Scan) (n : Nat) : Nat :=
  if sc.space = 1 && n < sc.len then (sc.addr + n) / 256 * 256 - sc.addr else min n sc.len

/-- The scan on engine `e` has come further by some bytes, how many the manual does not fix (R127: its registers follow
it burst by burst), or has met an uncorrectable word. -/
def State.scanAdvance (s : State) (e : Nat) : State × Bool :=
  match s.scans.getD e none with
  | none => (s, false)
  | some sc =>
    if s.reg (DMA_CH_STATUS.WAKE_WAIT (17 + e)) = 1 then (s, false)
    else
      let a := s.fresh 64
      let n := sc.burst (a.1 % (sc.len + 1))
      let x := if sc.space = 1 then a.2.freeEcc sc.addr n else (⟨[], none⟩, a.2)
      x.2.scanReads e sc n x.1

/-- What a SCAN does when it may act: refused, answered at once with LEN 0 (R122), on an engine, or waiting. -/
def State.scanEntry (s : State) (e : Entry) : State :=
  let p := scanOf e.raw
  let v := s.scanStart p
  if s.scanBad p then s.complete e.q e.idx 0x09 0 0 0
  else if p.len = 0 then s.complete e.q e.idx (if p.ctx = 1 then 0x00 else 0x01) 0 v 0
  else
    match s.freeEngine with
    | none => s
    | some k =>
      (s.reach (17 + k) e.raw).scanOn k { q := e.q, idx := e.idx, addr := p.addr, len := p.len, value := v,
                                          poly := p.poly, space := p.space,
                                          seedAddr := p.seedAddr, done := 0 }

/-- SCAN (R121, R122, R124). -/
def execScan (q : Nat) (hw : Cells) (s : State) : Host.Outcome State Fault Refusal :=
  .next ((s.hostWrites hw).onEntry q 0x40 State.scanEntry)

/-- Scans that stopped at a burst boundary go on as soon as an engine is free, ahead of entries that wait (R124); the
blocks they use are reached anew (R116). `n` bounds the scans. -/
def State.scanResume : Nat → State → State
  | 0, s => s
  | n + 1, s =>
    match s.scanWait, s.freeEngine with
    | sc :: rest, some k =>
      let s := { s with scanWait := rest }
      match s.entry? sc.q sc.idx with
      | none => State.scanResume n s
      | some e => State.scanResume n ((s.reach (17 + k) e.raw).scanOn k sc)
    | [], _ => s.pump 5 State.scanEntry
    | _, none => s

/-- The scans that wait take the engines that are free (R124). -/
def State.scanNext (s : State) : State := State.scanResume (s.scanWait.length + 1) s

/-- The scan on engine `e` is over, with a status (R123): its value goes to SEED_ADDR and to DATA0. -/
def State.scanOver (s : State) (e status : Nat) : State :=
  match s.scans.getD e none with
  | none => s
  | some sc =>
    (((s.scanWriteBack sc sc.value).freeScan e sc.value sc.done).endReq (17 + e) status 0 sc.value 0).scanNext

/-- The scan on engine `e` has come further; one that meets an uncorrectable word on the way ends with BAD_CHECK (R284). -/
def State.scanGoes (s : State) (e : Nat) : State :=
  let r := s.scanAdvance e
  if r.2 then r.1.scanOver e 0x07 else r.1

/-- The scan on engine `e` stops at its next burst boundary and keeps its running value (R124). -/
def State.scanLeaves (s : State) (e : Nat) : State :=
  let s := s.scanGoes e
  match s.scans.getD e none with
  | none => s
  | some sc =>
    ({ s with scans := setAt s.scans e none, scanWait := s.scanWait ++ [sc] }.modChan (17 + e) (fun c => { c with
      req := none })).setReg (DMA_CH_STATUS.WAKE_WAIT (17 + e)) 0

/-- A stripe arms in a pair (R124): host scans leave engines 0 and 1. -/
def State.scanMigrate (s : State) : State :=
  if s.joined then ([0, 1].foldl State.scanLeaves s).scanNext else s

/-- SCAN_COMPLETE (R123, R284): the scan reads to its end, or stops with BAD_CHECK at an uncorrectable word of HBM3. -/
def execScanComplete (engine : Nat) (ecc : EccReads) (s : State) : Host.Outcome State Fault Refusal :=
  .next (
    match (if !s.serviced || s.reg (DMA_CH_STATUS.WAKE_WAIT (17 + engine)) = 1 then none
      else s.scans.getD engine none) with
    | none => s
    | some sc =>
      let r := s.scanReads engine sc sc.len ecc
      r.1.scanOver engine (if r.2 then 0x07 else 0x00))

end Sys2Proof.Machine
end

