-- ==== Sys2Proof/Machine/Jobs.lean ====
section
/-! DEFINITION. Host jobs of the codec and the compression of witness captures (R174 to R186). -/

namespace Sys2Proof.Machine

/-- Engine `k` records how a job or the stream that it fed ended (R186). -/
def State.engineEnds (s : State) (k status reason : Nat) : State :=
  (s.setReg (CDC_ENG_STATUS.LAST_STATUS k) status).setReg (CDC_ENG_STATUS.LAST_REASON k) reason

/-! ## Host jobs: checks when an entry starts (R175, R176, R180) -/

/-- Two ranges (address, length) have a byte in common. -/
def overlaps (a b : Nat × Nat) : Bool := a.2 ≠ 0 && b.2 ≠ 0 && a.1 < b.1 + b.2 && b.1 < a.1 + a.2

/-- The state area of a job; empty without one. -/
def CodecOp.area (c : CodecOp) : Nat × Nat := (c.state, if c.state = 0 then 0 else stateSize)

/-- The state area as host memory holds it. -/
def State.areaBytes (s : State) (c : CodecOp) : List Byte := Memory.bytes s.host c.state stateSize

/-- A range of a job that R108 refuses. -/
def State.rangeOut (s : State) (r : Nat × Nat) : Bool := r.2 ≠ 0 && !s.inWindow r.1 r.2

/-- A job that R176 rejects; `kind` 1 compress, 2 decompress. A STATE that is no multiple of 8, against R181, is no
ground of R176: the area is read and written where STATE points (DESIGN CHOICE, log entry 146). -/
def State.codecBad (s : State) (kind : Nat) (c : CodecOp) : Bool :=
  let src := (c.src, c.srcLen)
  let dst := (c.dst, c.dstLen)
  ((c.resume || c.save) && c.state == 0) || overlaps src dst || overlaps src c.area || overlaps dst c.area ||
  s.rangeOut src || s.rangeOut dst || s.rangeOut c.area ||
  (c.resume && (num (s.areaBytes c) 0 1 ≠ kind || num (s.areaBytes c) 26 1 = 3))

/-- A host job waits under R174. -/
def State.jobPreempted (s : State) : Bool := s.cdc.engines.any (fun j => j.any (·.preempted))

/-- The engines that may take a host job of a kind now (R185): compressors 4 and 5; decompressors 0 to 2 while no stripe
is ARMED or RUN, 3 while HOST_SHARE is 1 and no preempted job waits to go on there (R174). -/
def State.jobEngines (s : State) (kind : Nat) : List Nat :=
  if kind = 2 then (if s.stripeActive then [] else [0, 1, 2]) ++
    (if s.lv CDC_CTRL.HOST_SHARE = 1 && !s.jobPreempted then [3] else [])
  else [4, 5]

/-- The lowest-numbered free engine for a job of a kind. -/
def State.jobEngine (s : State) (kind : Nat) : Option Nat :=
  (s.jobEngines kind).find? (fun k => (s.cdc.engines.getD k none).isNone)

/-- Set the job of engine `k`. -/
def State.setJob (s : State) (k : Nat) (j : Option CodecJob) : State :=
  { s with cdc := { s.cdc with engines := setAt s.cdc.engines k j } }

/-- The engine that runs the job of channel `ch`. -/
def State.engineOf (s : State) (ch : Nat) : Option (Nat × CodecJob) :=
  (List.range 6).findSome? (fun k => ((s.cdc.engines.getD k none).filter (fun j => j.ch == ch)).map (fun j => (k, j)))

/-- Channel `ch` has carried no input of the codec yet. -/
def State.freshInput (s : State) (ch : Nat) : State := s.modChan ch (fun c => { c with rd := 0, wr := 0 })

/-- A job takes engine `k`, which shows the bytes that it has consumed and written so far (R186). -/
def State.takeEngine (s : State) (k : Nat) (j : CodecJob) : State :=
  (((s.setJob k (some j)).setReg (CDC_ENG_STATUS.CHANNEL k) j.ch).setReg (CDC_ENG_IN.IN k) (s.chan j.ch).rd).setReg
    (CDC_ENG_OUT.OUT k) j.out

/-- A witness capture takes a compressor and a WITNESS channel, when it waits and both are free (R184). -/
def State.witnessNext (s : State) : State :=
  match s.pec.witnesses.find? (fun w => w.capture.isSome), s.jobEngine 1, s.freeChan 6 with
  | some w, some k, some ch =>
    match s.entry? w.q w.idx with
    | none => s
    | some e =>
      let job : CodecJob := { q := w.q, idx := w.idx, kind := 3, ch, preempted := false, copy := w.capture.getD 0, out := 0 }
      let rest := s.pec.witnesses.filter (fun x => !(x.q == w.q && x.idx == w.idx))
      let s := ({ s with pec := { s.pec with witnesses := rest } }.freshInput ch).takeEngine k job
      let req : Request := { q := w.q, idx := w.idx, piece := ⟨0, 0, 0, 0, 0⟩, next := 0, hops := 0,
                             named := (witnessOf e.raw).dstLen, delivered := 0 }
      (s.reach ch e.raw).modChan ch (fun c => { c with req := some req })
  | _, _, _ => s

/-- Witness captures take both compressors as far as they wait, ahead of host jobs (R184, R185). -/
def State.witnessStart (s : State) : State := s.witnessNext.witnessNext

/-- The state area of a job with RESUME has been read from host memory (R175, R411). -/
def State.areaRead (s : State) (c : CodecOp) : State := if c.resume then s.count 2 0x10 stateSize else s

/-- A COMPRESS or DECOMPRESS starts: refused (R176, R180), on an engine and a CODEC channel with nothing read yet, or
waiting for them. A state that R176 refuses is REJECTED whether or not its STATE_CRC is right: the rule gives REJECTED and
BAD_CHECK no order (DESIGN CHOICE, log entry 156). -/
def State.codecEntry (s : State) (e : Entry) : State :=
  let c := codecOf e.raw
  let kind := if rawOpc e.raw = 0x30 then 1 else 2
  if s.codecBad kind c then s.complete e.q e.idx 0x09 0 0 0
  else if kind = 2 && c.srcLen = 0 && !c.resume then s.complete e.q e.idx 0x01 0 0 0
  else if c.resume && !stateCheck (s.areaBytes c) then (s.areaRead c).complete e.q e.idx 0x07 0 0 0
  else
    match s.jobEngine kind, s.freeChan 4 with
    | some k, some ch =>
      let job : CodecJob := { q := e.q, idx := e.idx, kind, ch, preempted := false, copy := 0, out := 0 }
      (((s.areaRead c).freshInput ch).takeEngine k job).startReq ch e c.src c.srcLen 0
    | _, _ => s

/-- COMPRESS (R83, R175). -/
def execCompress (q : Nat) (hw : Cells) (s : State) : Host.Outcome State Fault Refusal :=
  .next ((s.hostWrites hw).onEntry q 0x30 State.codecEntry)

/-- DECOMPRESS (R83, R175). -/
def execDecompress (q : Nat) (hw : Cells) (s : State) : Host.Outcome State Fault Refusal :=
  .next ((s.hostWrites hw).onEntry q 0x31 State.codecEntry)

/-! ## Host jobs: what they compute (R175 to R181) -/

/-- What a job comes to: status, INFO, SRC bytes consumed, output, and the state to save. -/
structure JobEnd where
  status : Nat
  info : Nat
  consumed : Nat
  out : List Byte
  save : Option AzState
  deriving DecidableEq, Repr

/-- The state before a stream. -/
def AzState.fresh (kind : Nat) : AzState :=
  { kind := kind, inTotal := 0, outTotal := 0, crc := 0, held := [], phase := 0, blockDone := 0, hdr := [], lens := [],
    hist := [], buf := [] }

/-- A DECOMPRESS (R175 to R177): `a` is the state it starts from. With SRC_LEN 0 it does nothing (R180), and its input
has run out before the END block. A state saved between blocks keeps BLOCK_HDR and BLOCK_DONE of the block that has
ended, which nothing reads (DESIGN CHOICE, log entry 111). -/
def decompressJob (a : AzState) (src : List Byte) (room : Nat) (save : Bool) : JobEnd :=
  let inp := (bitsOf src).drop a.held.length
  let r := Dec.run (inp.length + 1) room a.dec inp
  let bits := a.held.length + r.bits
  let n := bits / 8
  let d := r.dec
  let st : AzState := { kind := 2, inTotal := a.inTotal + n, outTotal := d.total, crc := d.crc,
                        held := List.replicate (bits % 8) false, phase := d.phase, blockDone := d.done, hdr := d.hdr,
                        lens := d.lens, hist := d.hist, buf := [] }
  if src = [] then ⟨0x00, 0x200, 0, [], if save then some a else none⟩
  else
    match r.stop with
    | .ended =>
      if n < src.length then ⟨0x08, 0x109, n, r.out, none⟩
      else ⟨0x00, 0x100, n, r.out, if save then some st else none⟩
    | .full => ⟨0x03, 0, n, r.out, some st⟩
    | .short => if save then ⟨0x00, 0x200, n, r.out, some st⟩ else ⟨0x08, 0x209, n, r.out, none⟩
    | .fault k => ⟨if k = 0x0B then 0x07 else 0x08, if k = 0x0A || k = 0x0B then 0x100 + k else k, n, r.out, none⟩

/-- A compression in progress: its state, the input not yet coded, the input coded in all, the bits to write. -/
structure Pack where
  a : AzState
  rest : List Byte
  coded : Nat
  bits : List Bool
  deriving DecidableEq, Repr

/-- Write one token. `close` tells that the input ends the stream. -/
def Pack.put (p : Pack) (close : Bool) (t : OutTok) : Pack :=
  let bs := p.rest.take t.codes
  let rest := p.rest.drop t.codes
  let coded := p.coded + t.codes
  let whole := coded % azradBlock = 0 || (close && rest.isEmpty)
  let phase := match t.kind with | 0 => 1 | 1 => 2 | 2 => 2 | 3 => if whole then 1 else 2 | _ => 3
  let lens := if t.kind = 2 then (List.range 320).map (fun i => numBits ((t.bits.drop (4 * i)).take 4))
    else if phase = 2 && t.kind = 3 then p.a.lens else []
  { a := { p.a with phase := phase, lens := lens,
                    hist := (bs.reverse ++ p.a.hist).take azradWindow }
    rest := rest, coded := coded, bits := p.bits ++ t.bits }

/-- Write tokens while they fit `limit` bits; `gain` is the total input of a job that closes its stream (R179). -/
def Pack.run (close : Bool) (limit : Nat) (gain : Option Nat) : List OutTok → Pack → Nat × Pack
  | [], p => (0x00, p)
  | t :: ts, p =>
    let n := p.bits.length + t.bits.length
    if gain.any (fun g => g ≤ p.a.outTotal + n / 8) then (0x02, p)
    else if n > limit then (0x03, p)
    else Pack.run close limit gain ts (p.put close t)

/-- The bytes of its current block that a compression has coded: those of its input that no token has coded yet stand at
the end of `buf`. -/
def AzState.codedPart (a : AzState) : Nat := a.buf.length - a.blockDone

/-- The rest of the block within which a compression stands, `e` bytes of which it has coded: of a STORED block its bytes,
of a CODED one the literals and matches of the compressor's choice. -/
def restTokens (a : AzState) (blk : List Byte) (e : Nat) : List OutTok :=
  if a.lens = [] then ((storedTokens blk).drop 1).drop e
  else chosenTokens azradBlock a.hist blk e a.lens a.held.length

/-- The tokens that a job has still to write (R175, R182), from a state that stands before its stream, between blocks or
within one. -/
def compressTokens (a : AzState) (src : List Byte) (close : Bool) : List OutTok :=
  let e := a.codedPart
  let before := a.inTotal - a.buf.length
  let data := a.buf ++ src
  let blk := data.take azradBlock
  let blocks := data.length / azradBlock + 1
  let toks :=
    if a.phase = 2 && 0 < e then
      restTokens a blk e ++ dataTokens blocks close (((blk.drop e).reverse ++ a.hist).take azradWindow) (before + blk.length)
        (data.drop azradBlock)
    else
      (dataTokens blocks close a.hist before data).drop (if a.phase = 2 then 1 + b2n (a.lens != []) else 0)
  (if a.phase = 0 then [{ kind := 0, bits := bitsOf azradHeader, codes := 0 }] else []) ++ toks ++
    (if close then [{ kind := 4, bits := bitsOf (endBlock (a.inTotal + src.length) (crc32c a.crc src)), codes := 0 }]
     else [])

/-- The state of a compression that has consumed `input` more, with `buf` input bytes of its current block or waiting
for one, the last `held` of them not coded: CRC_RUN and IN_TOTAL cover all that is consumed, BLOCK_BUF holds the
current block's input so far (R181). -/
def AzState.consumed (a : AzState) (input buf : List Byte) (held : Nat) : AzState :=
  let n := if a.phase = 2 then (a.inTotal + input.length) % azradBlock else held
  { a with inTotal := a.inTotal + input.length, crc := crc32c a.crc input, blockDone := held
           buf := buf.drop (buf.length - n) }

/-- A COMPRESS (R175 to R180); `room` is DST_LEN. INFO[9] stays 0 where SAVE 1 ends the job without an END block: R176
has it tell of input that ran out, and R175 sets it for DECOMPRESS alone (DESIGN CHOICE, log entry 114). -/
def compressJob (a : AzState) (src : List Byte) (room : Nat) (save : Bool) : JobEnd :=
  let total := a.inTotal + src.length
  let gain := if save || total = 0 then none else some total
  let coded := a.inTotal - a.blockDone
  let start : Pack := { a, rest := a.buf.drop a.codedPart ++ src, coded, bits := a.held }
  let r := Pack.run (!save) (8 * room) gain (compressTokens a src (!save)) start
  let p := r.2
  let out := bytesOfBits (p.bits.length / 8) p.bits
  let consumed := if r.1 = 0x00 then src.length else p.coded - a.inTotal
  let st : AzState := { p.a.consumed (src.take consumed) (a.buf ++ src.take consumed) (a.inTotal + consumed - p.coded) with
    outTotal := a.outTotal + out.length, held := p.bits.drop (8 * out.length) }
  match r.1 with
  | 0x02 => ⟨0x02, 0, consumed, out, none⟩
  | 0x03 => ⟨0x03, 0, consumed, out, some st⟩
  | _ => ⟨0x00, if save then 0 else 0x100, consumed, out, if save then some st else none⟩

/-- Bytes that the manual gives no value. -/
def State.freshBytes (s : State) : Nat → List Byte × State
  | 0 => ([], s)
  | n + 1 =>
    let a := s.fresh 8
    let r := State.freshBytes a.2 n
    (BitVec.ofNat 8 a.1 :: r.1, r.2)

/-- What a compressor counts (R411): the bytes that it has consumed and the STORED blocks in the bytes `out` that it has
written, of a stream that it has begun unless `resume`. -/
def State.compressed (s : State) (resume : Bool) (n : Nat) (out : List Byte) : State :=
  (s.count 3 0x12 n).count 3 0x13 (storedBlocks out.length (out.drop (if resume then 0 else 4)))

/-- The result of a job reaches host memory, the registers of its engine, and its completion (R110, R176). After NO_GAIN
the bytes at DST have no meaning (R179): free values. -/
def State.jobEnds (s : State) (k : Nat) (j : CodecJob) (c : CodecOp) (r : JobEnd) : State :=
  let o := if r.status = 0x02 then s.freshBytes r.out.length else (r.out, s)
  let s := { o.2 with host := Memory.write s.host c.dst o.1 }
  let s := match r.save with
    | some a => if c.state = 0 then s
      else { s with host := Memory.write s.host c.state a.bytes }.count 2 0x11 stateSize
    | none => s
  let s := (s.setReg (CDC_ENG_IN.IN k) r.consumed).setReg (CDC_ENG_OUT.OUT k) r.out.length
  let moved := (((s.chan j.ch).req).map (·.delivered)).getD 0
  let s := ((s.engineEnds k r.status (r.info % 256)).count 2 0x10 (r.consumed - moved)).count 2 0x11 r.out.length
  let s := if j.kind = 1 then s.compressed c.resume r.consumed r.out else s
  let s := (s.setJob k none).modChan j.ch (fun c => { c with req := c.req.map (fun q =>
    { q with delivered := max q.delivered r.consumed }) })
  (s.endReq j.ch r.status r.info r.consumed r.out.length).witnessStart.pump 4 State.codecEntry

/-- What the job of an entry comes to (R175 to R181). -/
def State.jobResult (s : State) (j : CodecJob) (c : CodecOp) : JobEnd :=
  let a := if c.resume then azStateOf (s.areaBytes c) else AzState.fresh j.kind
  let src := Memory.bytes s.host c.src c.srcLen
  if j.kind = 1 then compressJob a src c.dstLen c.save else decompressJob a src c.dstLen c.save

/-- CODEC_JOB_COMPLETE (R175 to R181). -/
def execCodecJobComplete (engine : Nat) (s : State) : Host.Outcome State Fault Refusal :=
  .next (
    match s.cdc.engines.getD engine none with
    | none => s
    | some j =>
      match (if !s.serviced || j.kind = 3 || j.preempted || s.reg (DMA_CH_STATUS.WAKE_WAIT j.ch) = 1 then none
        else s.entry? j.q j.idx) with
      | none => s
      | some e =>
        s.jobEnds engine j (codecOf e.raw) (s.jobResult j (codecOf e.raw)))

/-- A stripe arms (R174): host jobs on the decompressors that the feed needs stop at a token boundary. -/
def State.codecPreempt (s : State) : State :=
  let stop := fun (j : CodecJob) => { j with preempted := true }
  let one := fun (i : Nat) (j : Option CodecJob) => if i < s.feedWidth then j.map stop else j
  let mark := fun (s : State) k =>
    s.setReg (CDC_ENG_STATUS.PREEMPTED k) (b2n ((s.cdc.engines.getD k none).any (·.preempted)))
  (List.range s.feedWidth).foldl mark { s with cdc := { s.cdc with engines := s.cdc.engines.mapIdx one } }

/-- CODEC_JOB_RESUME (R174, R185): on decompressor 3 when HOST_SHARE is 1 and it is free, or the job's own; otherwise after
the stripe. A decompressor that it gives up takes the next waiting job. The engine that it goes on with shows what it has
consumed and written in all (R186; log entry 115). -/
def execCodecJobResume (engine : Nat) (s : State) : Host.Outcome State Fault Refusal :=
  .next (
    match (s.cdc.engines.getD engine none).filter (·.preempted) with
    | none => s
    | some j =>
      let go := fun k => (((s.setJob engine none).takeEngine k { j with preempted := false }).setReg
        (CDC_ENG_STATUS.PREEMPTED engine) 0).pump 4 State.codecEntry
      if s.lv CDC_CTRL.HOST_SHARE = 1 && (engine = 3 || (s.cdc.engines.getD 3 none).isNone) then go 3
      else if s.stripeActive then s
      else go engine)

/-! ## Witness captures (R184, R235) -/

/-- One whole Azrad stream of a byte string (R162, R182). -/
def azradStream (bs : List Byte) : List Byte :=
  let bits := (compressTokens (AzState.fresh 1) bs true).flatMap (·.bits)
  bytesOfBits (bits.length / 8) bits

/-- HBM3 address of witness copy `h` (R267). -/
def witnessCopy (h : Nat) : Nat := 0x2C6000000 + h * 0x80000

/-- Bytes of a capture (R236). -/
def captureBytes : Nat := 327712

/-- Compressor `k` and the channel of its witness are free again, and what waits for them goes on. -/
def State.witnessDone (s : State) (k : Nat) : State := ((s.setJob k none).witnessStart).pump 4 State.codecEntry

/-- A capture has been compressed from its copy: it is written at DST, whose DST_LEN bytes must lie in a live window
(R108); DATA0 is 327,712 and DATA1 the bytes written (R236). -/
def State.witnessEnds (s : State) (k : Nat) (j : CodecJob) (w : WitnessOp) : State :=
  let bs := Memory.bytes s.hbm (witnessCopy j.copy) captureBytes
  let out := azradStream bs
  if !s.inWindow w.dst w.dstLen then ((s.engineEnds k 0x09 0).stopChan j.ch 0x09 3).witnessDone k
  else
    let all := fun (r : Request) => { r with named := out.length, delivered := out.length }
    let s := { s with host := Memory.write s.host w.dst out }.modChan j.ch (fun c => { c with req := c.req.map all })
    let s := (s.setReg (CDC_ENG_IN.IN k) captureBytes).setReg (CDC_ENG_OUT.OUT k) out.length
    let s := (s.engineEnds k 0x00 0).compressed false captureBytes out
    ((s.count 2 0x11 out.length).endReq j.ch 0x00 0 captureBytes out.length).witnessDone k

end Sys2Proof.Machine
end

