-- ==== Sys2Proof/Machine/Boundary.lean ====
section
/-! DEFINITION. Stripe boundaries and the end of a stripe: COMMITs at a boundary (R35, R387), fences (R363, R364), what the
lead of a pair sends, rejoin, calibration gaps (R380), the end of a stripe (R299, R300, R313, R424), SAFE (R425). -/

namespace Sys2Proof.Machine

/-! ## COMMITs at a boundary (R35, R93, R387) -/

/-- The commit field kept under number `k`. -/
def commitField? (k : Nat) : Option Field := (commitFields (keyBlock k)).find? (fun f => f.key == k)

/-- The fields of a set go live. -/
def State.fieldsLive (s : State) (fs : List (Nat × Nat)) : State :=
  fs.foldl (fun s kv => match commitField? kv.1 with | some f => s.setLive f kv.2 | none => s) s

/-- The tables of a set go live. -/
def State.tablesLive (s : State) (ts : List (Nat × Memory)) : State :=
  { s with tabLive := ts.foldl (fun t kv => t.set kv.1 kv.2) s.tabLive }

/-- Serial-flash offset of trim slot `k` (R385). -/
def trimSlot (k : Nat) : Nat := 0x800000 + 0x2000 * k

/-- Write bytes to the serial flash. -/
def State.flashWrite (s : State) (a : Nat) (bs : List Byte) : State :=
  { s with flash := Sparse.setList flashByte s.flash a bs }

/-- Erase trim slot `k`: every byte of its 8 KiB reads 0xFF. -/
def State.flashErase (s : State) (k : Nat) : State :=
  { s with flash := s.flash.filter (fun c => c.1 < trimSlot k || trimSlot k + 0x2000 ≤ c.1) }

/-- The new trims are the active set: registers, event 0x6B (R386, R387, R391). -/
def State.trimsActive (s : State) (st : Store) : State :=
  let s := ((s.setReg CAL_STATUS.TRIMS_VALID 1).setReg CAL_STATUS.ACTIVE_SLOT st.slot).setReg CAL_TRIM_SEQ.SEQ st.seq
  let s := (s.setReg MGT_STATE.UNCAL 0).setReg CAL_STATUS.STORE_PENDING 0
  s.postDev 0x6B 0x00 0 st.seq st.slot

/-- A COMMIT completes (R93): status, refusing block and reason are kept in MGT_CMT_STATUS, its identity in
MGT_CMT_LAST_ID; a refused COMMIT releases the authorisation it reserved (R96). -/
def State.commitEnds (s : State) (q idx id status block reason : Nat) : State :=
  let s := (s.setReg MGT_CMT_STATUS.LAST_STATUS status).setReg MGT_CMT_LAST_ID.COMMIT_ID id
  let s := if status = 0x09 then (s.setReg MGT_CMT_STATUS.LAST_BLOCK block).setReg MGT_CMT_STATUS.LAST_REASON reason
    else s
  let release := fun (b : BeamAuth) => if b.reserved == some (q, idx) then { b with reserved := none } else b
  let auth := if status = 0 then s.prot.beamAuth.filter (fun b => b.reserved != some (q, idx))
    else s.prot.beamAuth.map release
  { s with prot := { s.prot with beamAuth := auth } }.complete q idx status block id reason

/-- The factory codes of the device trims are in force for items 1 to 3, but for an item that has ended OK since the
start (R378, R386, R387). -/
def State.factoryCodes (s : State) : State :=
  let code := fun (s : State) i =>
    (s.setReg (CAL_ITEM_STATUS.CODE i) (s.tabLive.byte 8 (37 + i)).toNat).setReg (CAL_ITEM_STATUS.ELEMENT i)
      (s.tabLive.byte 8 (40 + i)).toNat
  [1, 2, 3].foldl (fun s i => if bit s.cal.applied i then s else code s i) s

/-- The shutter link is to be brought up again at the next boundary (R334), by a new knock or by LATCH. -/
def State.linkDue (s : State) (knock relatch : Bool) : State :=
  { s with shl := { s.shl with knockDue := s.shl.knockDue || knock, relatchDue := s.shl.relatchDue || relatch } }

/-- Every field and table of a COMMIT goes live, and what R334, R220 and R387 attach to it; the blocks it names have
work (R393). -/
def State.setLiveAll (s : State) (c : PendingCommit) : State :=
  let rate := s.lv SHL_CTRL.MAX_RATE
  let spread := s.lv MGT_CLK.SPREAD
  let eq := s.tabLive.eq
  let s := (s.fieldsLive c.fields).tablesLive c.tables
  let s := if bit c.mask 5 then s.setReg CSM_OFS_CRC.CRC (s.tabLive.crc 5) else s
  let s := ((if bit c.mask 13 then s.factoryCodes else s).linkFollow c.fields).wakeBlocks (fun k => bit c.mask k)
  (s.linkDue (s.lv SHL_CTRL.MAX_RATE != rate || s.lv MGT_CLK.SPREAD != spread) (s.tabLive.eq != eq)).count 0 0x10 1

/-! ## Fences (R363, R364, R370, R371) -/

/-- The fence itself (R363, R364): the cause and kind, the shutter link's lanes idle, FENCE sent, event 0x63. -/
def State.setFence (s : State) (cause : Nat) (hard : Bool) : State :=
  let s := ({ s with fence := some ⟨cause, hard⟩ }.setReg NLK_STATE.CAUSE cause).addReg NLK_LOSSES.FENCES 1
  let s := if cause = 0x08 then s else s.linkStop .down
  let s := s.naluSend (.fence cause (b2n hard) s.nextFlash)
  s.postDev 0x63 0x0C 0 (cause + b2n s.isMirror * 2 ^ 8 + b2n hard * 2 ^ 9) (s.nextFlash % 2 ^ 48)

/-- A mirror cannot follow the lead, which has validated a set for both chips: it takes none of it, and fences itself (R29,
R30, R35) with a cause that R363 does not give, until a rejoin copies the lead's settings (DESIGN CHOICE, log entry 138).
-/
def State.mirrorApart (s : State) : State :=
  if s.fence.isSome then s else (s.fresh 8).2.setFence (s.fresh 8).1 false

/-! ## What the lead of a pair sends of its settings (R348, R351, R355, R370) -/

/-- The number under which a set names the stripe whose end it waits for, in place of a field: MGT_ID's, which no set
names (log entries 120 and 140). -/
def setAfter : Nat := 0

/-- The stripe ARMED or RUN, as a set names it: the low 32 bits of the index of its ARM_STRIPE plus 1; none is not named.
-/
def State.setStripe (s : State) : List (Nat × Nat) :=
  match (if s.stripeActive then s.stripe else none) with
  | some st => [(setAfter, st.req.idx % 2 ^ 32 + 1)]
  | none => []

/-- A set that the lead of a pair has validated goes to the mirror (R348). -/
def State.sendSet (s : State) (id mask : Nat) (fields : List (Nat × Nat)) : State :=
  if s.joined && !s.isMirror then s.naluSend (.commitSet id mask (s.setStripe ++ fields) []) else s

/-- Send table bytes to the partner in chunks of 2,048 (R355). -/
def State.sendTable (s : State) (id offset : Nat) (bs : List Byte) : State :=
  (List.range ((bs.length + 2047) / 2048)).foldl
    (fun s i => s.naluSend (.tableChunk id (offset + 2048 * i) ((bs.drop (2048 * i)).take 2048))) s

/-- The live settings of every block, as a set, and LINK_EN (log entry 96). -/
def State.liveSet (s : State) : List (Nat × Nat) :=
  (List.range 16).flatMap (fun k => (commitFields k).map (fun f => (f.key, s.lv f))) ++
    [(SHL_CTRL.LINK_EN.key, s.reg SHL_CTRL.LINK_EN)]

/-- The table CRCs that the chips of a rejoin compare (R212, R228, R370): placement offsets, correction, and those of
the SCH registers. -/
def State.rejoinCrcs (s : State) : List Nat := [1, 2, 3, 4, 5, 6].map s.tabLive.crc

/-- The tables that the lead copies to its mirror (R351, R370). -/
def pairTables : List Nat := [1, 2, 3, 4, 5, 6, 9]

/-- Send some tables of a copy whole. -/
def State.sendTables (s : State) (t : Tables) (ids : List Nat) : State :=
  ids.foldl (fun s id => s.sendTable id 0 (t.bytes id 0 (tableSize id))) s

/-- Rejoin step 2 (R370): the lead sends every table but 7 and 8, and every live commit set with the CRCs to compare;
then what is loaded and not committed yet (R348, R351). -/
def State.sendAll (s : State) : State :=
  let set := NaluMsg.commitSet (s.reg MGT_CMT_LAST_ID.COMMIT_ID) 0xFFFF s.liveSet s.rejoinCrcs
  ((s.sendTables s.tabLive pairTables).naluSend set).sendTables s.tabStaged
    (pairTables.filter (fun id => s.tabStaged.get id != s.tabLive.get id))

/-- The set changes the device trims. -/
def State.changesTrims (s : State) (c : PendingCommit) : Bool := c.tables.any (fun t => t.1 == 8 && t.2 != s.tabLive.trims)

/-- A set that cannot take effect takes none (R35, R387): REJECTED by CAL with reason 0x06, and the authorisation it
reserved is released; on the mirror, whose lead has validated it, the chip fences itself. -/
def State.setFails (s : State) (c : PendingCommit) : State :=
  if s.isMirror then s.mirrorApart else s.commitEnds c.q c.idx c.id 0x09 13 0x06

/-- Apply one validated COMMIT (R35, R387): a set that stores device trims first programs VALID, and is refused as a
whole when the flash does not take it; the slot that was active before is then erased. So is one that was to find its
device trims live already when the set that would have made them so has been refused (DESIGN CHOICE, log entry 139). A set
that names no block is no COMMIT: it brings a mirror what its lead's host wrote to SHL_CTRL (log entry 96). -/
def State.applyCommit (s : State) (c : PendingCommit) : State :=
  match (if c.storesTrims then s.cal.store else none) with
  | none =>
    if c.mask = 0 then s.linkFollow c.fields
    else if s.changesTrims c then s.setFails c
    else (s.setLiveAll c).commitEnds c.q c.idx c.id 0x00 0 0
  | some st =>
    let s := { s with cal := { s.cal with store := none } }.setReg CAL_STATUS.STORE_PENDING 0
    if st.validOk then
      let old := s.reg CAL_STATUS.ACTIVE_SLOT
      let hadOld := s.reg CAL_STATUS.TRIMS_VALID == 1
      let s := s.flashWrite (trimSlot st.slot + 4104) (le 4 0x56414C44)
      let s := s.setLiveAll c
      let s := if hadOld then s.flashErase old else s
      (s.trimsActive st).commitEnds c.q c.idx c.id 0x00 0 0
    else s.setFails c

/-- The stripe of the ARM_STRIPE with this index (its low 32 bits plus 1) is still to arm on this chip. -/
def State.toArm (s : State) (n : Nat) : Bool :=
  n != 0 && (s.waiting.any (fun r => r.idx % 2 ^ 32 + 1 == n) ||
    s.hif.entries.any (fun e => rawOpc e.raw == 0x01 && !e.started && e.idx % 2 ^ 32 + 1 == n))

/-- A set that its lead has validated in a stripe waits on the mirror while that stripe is still to arm there (R29, R34).
-/
def State.setAwaits (s : State) (c : PendingCommit) : Bool := s.toArm c.after

/-- The sets that this boundary brings: on a mirror those ahead of a stripe that is still to arm. -/
def State.setsDue (s : State) : List PendingCommit := s.commits.waiting.takeWhile (fun c => !s.setAwaits c)

/-- A trim store is refused at this boundary (R387). -/
def State.validFails (s : State) : Bool :=
  s.setsDue.any (·.storesTrims) && s.cal.store.any (fun st => !st.validOk)

/-- Apply every COMMIT that waits, in CONTROL-ring order (R35). Where VALID fails on the lead of a pair, whose mirror has
the set already, the lead sends its live settings anew (DESIGN CHOICE, log entry 139). -/
def State.applyCommits (s : State) : State :=
  let due := s.setsDue
  let t := due.foldl State.applyCommit { s with commits := { s.commits with waiting := s.commits.waiting.drop due.length } }
  if s.validFails && s.joined && !s.isMirror then t.sendAll else t

/-- The chip holds a soft fence. -/
def State.softFenced (s : State) : Bool := s.fence.any (fun f => !f.hard)

/-- The chip rejoins by step 4 of R370 alone: a lead that runs without a partner. -/
def State.rejoinsAlone (s : State) : Bool :=
  !s.nlk.paired && !s.isMirror && !s.fence.any (fun f => f.cause == 0x06)

/-- The Nalu link carries nothing: its lanes stop, what was not acknowledged is gone, and no set is to come. -/
def State.naluDown (s : State) : State :=
  { s with nlk := { s.nlk with linkUp := false, unacked := [], leadArmed := false, lanes := List.replicate 8 .reset } }.setReg
    NLK_STATE.LANES_UP 0

/-- The Nalu lanes train: at START, and at a rejoin. -/
def State.naluTraining (s : State) : Bool := s.nlk.lanes.any (fun l => l.mode == .latchSets)

/-- NLK_STATE.PAIR (R374). -/
def State.pairState (s : State) : Nat :=
  if s.naluTraining then 1
  else if s.fence.any (fun f => f.cause == 0x06) then 6
  else if s.fence.isSome && (s.nlk.paired || s.isMirror) then 4
  else if !s.nlk.paired then 0
  else if !s.nlk.linkUp then 5
  else if s.nlk.partnerFenced then 3
  else 2

/-- Event 0x60, NALU_STATE (R372). -/
def State.naluState (s : State) (status : Nat) : State :=
  s.postDev 0x60 status 0 (s.pairState + s.reg NLK_STATE.LANES_UP * 8) (s.reg NLK_PARTNER.DIE_ID)

/-- STREAM_BUFs that this chip has fetched and that only waited for the partner complete (R81, R348). -/
def State.freeBufs (s : State) : State :=
  let served := fun (e : Entry) => s.chans.any (fun c => c.req.any (fun r => r.q == e.q && r.idx == e.idx))
  let done := s.hif.entries.filter (fun e => rawOpc e.raw == 0x10 && e.started && !served e)
  done.foldl (fun s e => s.complete e.q e.idx 0x00 0 0 0) s

/-- This chip is in no pair any more (R371, R381): no vote, and item 5 is not applicable and so not due. -/
def State.unpair (s : State) : State :=
  let due := s.reg CAL_STATUS.DUE
  { s with nlk := { s.nlk with paired := false, votes := [] } }.setReg CAL_STATUS.DUE (if bit due 5 then due - 32 else due)

/-- The Nalu lanes train (R353, R370): all 8 send latch sets. -/
def State.naluTrain (s : State) : State :=
  let s := s.naluDown
  { s with nlk := { s.nlk with lanes := List.replicate 8 { LaneTx.reset with mode := .latchSets } } }

/-- The shutter link of a rejoining chip relatches (R363, R370); a link that never knocked has nothing to relatch. -/
def State.relatch (s : State) : State :=
  if s.reg SHL_CTRL.LINK_EN = 1 && s.reg SHL_STATE.GEN ≠ 0 then s.startLatch else s

/-- The partner of this chip is to rejoin: it is fenced, and not for good. -/
def State.partnerRejoins (s : State) : Bool :=
  s.nlk.paired && s.fence.isNone && s.nlk.partnerFenced && !s.nlk.partnerHard

/-- The rejoin of a soft-fenced chip, or of its partner, starts at a stripe boundary (R363, R370): on a solo lead it is
step 4 alone, the shutter link relatches and proves the head; in a pair the Nalu lanes of both chips retrain first,
which takes an NLK that is not OFF. -/
def State.startRejoin (s : State) : State :=
  if (s.softFenced || s.partnerRejoins) && !s.nlk.rejoining && (s.rejoinsAlone || s.pwr 11 != .off) &&
      (s.reg NLK_CTRL.AUTO_REJOIN == 1 || s.nlk.rejoinWanted) then
    let s := { s with nlk := { s.nlk with rejoining := true, rejoinWanted := false } }
    if s.rejoinsAlone then s.relatch else s.naluTrain
  else { s with nlk := { s.nlk with rejoinWanted := false } }

/-- NLK_CTRL.SOLO live (R371): the lead runs solo from the boundary on; its mirror fences with cause 0x0C. -/
def State.soloBoundary (s : State) : State :=
  if s.lv NLK_CTRL.SOLO = 1 && s.nlk.paired then
    let s := s.naluDown.unpair
    if s.isMirror && s.fence.isNone then s.setFence 0x0C false else s
  else s

/-- Decompressors and check engines that a stripe, or a COMMIT of HOST_SHARE, has left free take what waits for one
(R124, R185). -/
def State.jobsGo (s : State) : State := (s.pump 4 State.codecEntry).scanNext

/-- What a stripe boundary brings (R35, R96, R334, R363, R371): protected items, then COMMITs in order, then the
link, then solo operation and rejoin, then the host jobs that waited. -/
def State.boundary (s : State) : State :=
  s.itemsLive.applyCommits.linkBoundary.soloBoundary.startRejoin.jobsGo

/-! ## Calibration gaps (R379 to R382) -/

/-- Item `k` may become due (R381): enabled, item 0 always; item 5 in a pair alone. -/
def State.itemEnabled (s : State) (k : Nat) : Bool :=
  (k == 0 || s.lv (CAL_ITEM_CFG.ENABLE k) == 1) && (k != 5 || s.nlk.paired)

/-- The items that may become due, as a mask. -/
def State.itemsEnabled (s : State) : Nat :=
  ((List.range 6).map (fun k => b2n (s.itemEnabled k) * 2 ^ k)).sum

/-- A gap opens (R380): the timer of R382 stops. -/
def State.openGap (s : State) : State :=
  let gap := (0, 0, s.cal.temps, s.reg CAL_DRIFT.DRIFT, s.reg CAL_DRIFT.SENSOR)
  let s := { s with cal := { s.cal with gap := some gap, overdueArmed := false, overdueMs := 0, turn := false } }
  ((s.setReg CAL_DRIFT.OVERDUE_S 0).addReg CAL_STATUS.GAPS 1).count 13 0x11 1

/-- A gap may open (R380): READY with no stripe held, an item due, and calibration not OFF. Its items wait for a test
(R404). -/
def State.gapMayOpen (s : State) : Bool :=
  s.g == .ready && s.stripe.isNone && s.cal.gap.isNone && s.reg CAL_STATUS.DUE != 0 && s.pwr 13 != .off

/-! ## The end of a stripe -/

/-- A stripe that has just been armed (R296): every count 0. -/
def Stripe.fresh (r : ArmReq) : Stripe :=
  { req := r, st := .armed, cause := 0, endState := 0, fbHold := false, outcomeDone := false, fired := 0, missed := 0,
    missCause := [0, 0, 0, 0], debts := 0, repaid := 0, switches := 0, withheld := 0,
    lastFlash := none, nextFlash := 0, seg := .pending 0, segEnd := 0, lastFire := none, recentOver := [],
    missRun := none, blankRun := 0, stageLow := 0, sosLatched := false, stepNext := -(r.lead : Int), stepBusy := none,
    stepsDone := -(r.lead : Int), trimAcked := false, trimRetryPosted := false, trimWrong := none, sill := [], sillWanted := [],
    awaiting := [], counted := [], lastFired := none, overdue := false, blanked := [],
    ledger := { booked := [], writes := [], holes := [], fullPosted := false, repaid := [] } }

/-- The last flash of a stripe (R6). -/
def Stripe.final (st : Stripe) : Nat := st.req.rows + 16367

/-- STATUS of an outcome (R13, R313). -/
def Stripe.status (st : Stripe) : Nat :=
  match st.cause with
  | 0 => if st.withheld ≠ 0 then 0x0E else if st.ledger.holes ≠ [] then 0x0D else 0x00
  | 0x09 => 0x10
  | 0x0A => 0x0F
  | 0x0E => 0x0C
  | _ => 0x04

/-- Misses of one cause, 1 to 4. -/
def Stripe.misses (st : Stripe) (c : Nat) : Nat := st.missCause.getD (c - 1) 0

/-- The 64-byte stripe outcome record (R313). -/
def Stripe.record (st : Stripe) : List Byte :=
  let b := le 4 st.req.id ++ le 1 st.req.pass ++ le 1 st.status ++ le 1 st.cause ++ le 1 st.endState ++
    le 6 st.fired ++ le 2 0 ++ le 4 (sat 32 st.missed) ++ le 4 (sat 32 (st.misses 1)) ++
    le 4 (sat 32 (st.misses 2)) ++ le 4 (sat 32 (st.misses 3 + st.misses 4)) ++ le 4 (sat 32 st.debts) ++
    le 4 (sat 32 st.repaid) ++ le 4 (sat 32 st.ledger.holes.length) ++ le 4 (sat 32 st.switches) ++
    le 6 (st.lastFlash.getD (2 ^ 48 - 1)) ++ le 2 0 ++ le 4 (sat 32 st.withheld)
  b ++ le 4 (crc32c 0 b)

/-- The 16 bytes of a hole record (R261). -/
def Hole.bytes (h : Hole) : List Byte :=
  le 4 h.row ++ le 2 h.louver ++ le 1 h.depth ++ le 1 h.cause ++ le 6 h.flash ++ le 1 h.reason ++ le 1 0

/-- The hole records that RESULT_LEN has room for (R79, R365). -/
def Stripe.holesWritten (st : Stripe) : List Hole := st.ledger.holes.take ((st.req.resultLen - 64) / 16)

/-- Write an outcome record and hole records into host memory, if they lie within a live window (R79, R97). A
RESULT_ADDR that is no multiple of 8, against R78, is no ground of R79 for REJECTED: the record is written where it
points (DESIGN CHOICE, log entry 144). -/
def State.putRecord (s : State) (a : Nat) (bs : List Byte) : State :=
  if s.inWindow a bs.length then { s with host := Memory.write s.host a bs }.count 2 0x11 bs.length else s

/-- Post the outcome event of a stripe (R87, R313), which completes its ARM_STRIPE (R79). -/
def State.outcomeEvent (s : State) (st : Stripe) : State :=
  let s := s.dropEntry st.req.q st.req.idx
  if s.isMirror then s
  else s.putEvent (s.ring st.req.q).eq
    ⟨st.status, 1, st.req.tag, st.req.q, 0x01, 0, st.req.id + st.req.pass * 2 ^ 32,
      sat 32 st.ledger.holes.length + sat 32 st.missed * 2 ^ 32⟩

/-- The mirror sends the outcome of a stripe to a fenced lead (R365): the record with the first 125 hole records, the
rest in HOLES messages of 128. -/
def State.sendOutcome (s : State) (st : Stripe) : State :=
  let hs := st.holesWritten
  let rest := hs.drop 125
  let s := s.naluSend (.outcome st.record ((hs.take 125).flatMap Hole.bytes))
  (List.range ((rest.length + 127) / 128)).foldl
    (fun s i => s.naluSend (.holes (125 + 128 * i) (((rest.drop (128 * i)).take 128).flatMap Hole.bytes))) s

/-- Write the outcome of a stripe and post its event (R313): by the lead or a solo chip; by the mirror over the Nalu
link to a fenced lead, or into host memory when its lead has gone silent and it carries the stripe (R364 to R366). A
stripe that a host reset ends leaves host memory as it is (`toHost` false, R61). -/
def State.writeOutcome (s : State) (toHost : Bool) (st : Stripe) : State :=
  let s := { s with lastOutcome := st.record }
  let bytes := st.record ++ st.holesWritten.flatMap Hole.bytes
  if s.isMirror then
    if s.nlk.linkUp then (if s.nlk.partnerFenced then s.sendOutcome st else s)
    else if toHost && s.nlk.leadSilent then s.putRecord st.req.resultAddr bytes else s
  else
    (if toHost then s.putRecord st.req.resultAddr bytes else s).outcomeEvent st

/-- Event 0x50 for a run of misses (R305, R315): first flash, count, cause. A run longer than the 16-bit count reads
65,535 (DESIGN CHOICE, log entry 165). -/
def State.missRunEvent (s : State) (id : Nat) (run : Nat × Nat × Nat) : State :=
  s.postOnce 0x50 0x00 0 run.1 (sat 16 run.2.1 + run.2.2 * 2 ^ 16 + id * 2 ^ 32)

/-- The events that the end of a stripe raises after the channel stops, in the order of R424: MISS_RUN for an open
run, DOSE_CLAMPED (R237), ALLOC_SHORT (R248). -/
def State.endEvents (s : State) (st : Stripe) : State :=
  let who := st.req.id + st.req.pass * 2 ^ 32
  let s := match st.missRun with | some r => s.missRunEvent st.req.id r | none => s
  let clamps := s.reg PEC_CLAMPS.COUNT
  let s := if clamps ≠ 0 then s.postOnce 0x38 0x00 0 clamps who else s
  if s.reg SCH_SHORT.COUNT ≠ 0 || s.reg SCH_OVER.COUNT ≠ 0 then
    s.postOnce 0x40 0x00 0 (sat 32 (s.reg SCH_SHORT.COUNT) + sat 32 (s.reg SCH_OVER.COUNT) * 2 ^ 32) who
  else s

/-- Witness entries whose stripe has ended complete with ABORTED and write nothing (R235). -/
def State.dropWitnesses (s : State) (id pass : Nat) : State :=
  let gone := s.pec.witnesses.filter (fun w => w.stripe == id && w.pass == pass && w.capture.isNone)
  let kept := s.pec.witnesses.filter (fun w => !(w.stripe == id && w.pass == pass && w.capture.isNone))
  gone.foldl (fun s w => s.complete w.q w.idx 0x04 0 0 0) { s with pec := { s.pec with witnesses := kept } }

/-- What the registers of parser and rasteriser show of a stream is over (R203, R220): nothing is starved, stalled or
cached; a stream still being parsed has ended with its stripe, ABORTED. WARP_ON stays until the next stripe arms (DESIGN
CHOICE, log entry 157). -/
def State.quietPath (s : State) : State :=
  let s := if s.reg PRS_STATUS.ACTIVE = 0 then s
    else ((s.setReg PRS_STATUS.ACTIVE 0).setReg PRS_STATUS.LAST_STATUS 0x04).setReg PRS_STATUS.LAST_REASON 0
  [PRS_STATUS.STALL_LAQ, PRS_STATUS.STALL_AHEAD, PRS_STATUS.STARVED, PRS_TSTORE.LINES, PRS_TSTORE.LOCKED,
    CSM_STATUS.WAIT_BUF].foldl (fun s f => s.setReg f 0) s

/-- Parser, feed and rasteriser hold nothing of a stream. -/
def State.emptyPath (s : State) : State :=
  { s with prs := .reset, cdc := { s.cdc with feed := .reset }, csm := { s.csm with planes := [], recompute := none, part := none } }

/-- The stream of a stripe ends: the parser and the feed hold nothing more of it, its templates are discarded (R157,
R196), and its staging queue is empty (R101). -/
def State.closeStream (s : State) (sq : Nat) : State :=
  let s := match s.streamChan sq with
    | some ch => s.stageDiscard ch
    | none => s
  ([23, 24, 25, 26].foldl (fun s ch => s.setReg (DMA_CH_STATUS.HELD ch) 0) s.quietPath).emptyPath

/-- What the two chips of a pair have exchanged about the stripe that ends (R356 to R362). -/
def State.forgetPair (s : State) : State :=
  { s with nlk := { s.nlk with votes := [], aloneFrom := none, myFindings := [], theirFindings := [], decisions := [],
                               theirDecisions := [], pendingMiss := [], missTimed := [], silentCheck := false,
                               leadSilent := false, fetchedByMirror := [] } }

/-- The flashes fired that still await FRAME_STATUS when their stripe is left are booked as retired: no report of a
blanked lane has come for them (R415). -/
def State.bookFired (s : State) : State := s.slots 5 0 ((s.stripe.map (fun st => st.awaiting.length)).getD 0)

/-- Of a ring's STREAM_BUFs in the order taken, those of a stripe and pass that are discarded with it: up to the one
marked LAST or a foreign one (R158). -/
def bufsOf (id pass : Nat) : List Entry → List Entry
  | [] => []
  | e :: es =>
    let b := streamOf e.raw
    if b.id ≠ id || b.pass ≠ pass then [] else if b.last then [e] else e :: bufsOf id pass es

/-- The STREAM_BUFs of ring `q` taken and not completed, from the first of a stripe and pass on. -/
def State.bufsHeld (s : State) (q id pass : Nat) : List Entry :=
  (s.hif.entries.filter (fun e => e.q == q && rawOpc e.raw == 0x10)).dropWhile
    (fun e => (streamOf e.raw).id != id || (streamOf e.raw).pass != pass)

/-- The remaining buffers of a stripe are to be discarded (R158): its ring keeps the stripes concerned in the order of
their ARM_STRIPEs, which is that of their streams. -/
def State.addDiscard (s : State) (r : ArmReq) : State :=
  let put := fun (l : List (Nat × Nat × Nat)) =>
    l.takeWhile (fun d => d.2.2 < r.idx) ++ (r.id, r.pass, r.idx) :: l.dropWhile (fun d => d.2.2 < r.idx)
  s.modRing r.streamSq (fun x => { x with discard := put x.discard })

/-- After an abort the buffers of the stripe and pass are discarded up to the one marked LAST (R158): those taken
complete with ABORTED, fetched by this chip alone or not begun; then those that the ring still names. -/
def State.startDiscard (s : State) (st : Stripe) : State :=
  let held := s.bufsHeld st.req.streamSq st.req.id st.req.pass
  let gone := bufsOf st.req.id st.req.pass held
  let ended := s.cdc.feed.lastTaken || gone.any (fun e => (streamOf e.raw).last) || gone.length < held.length
  let s := gone.foldl (fun s e => (s.complete e.q e.idx 0x04 0 0 0).dropEntry e.q e.idx) s
  if ended then s else s.addDiscard st.req

/-- The discards of ring `q` whose turn has come (R158): those ahead of the stripe ARMED or RUN, as long as that stripe's
LAST buffer has not been taken. -/
def State.discardsDue (s : State) (q : Nat) : List (Nat × Nat × Nat) :=
  match (if s.stripeActive && !s.cdc.feed.lastTaken then s.stripe else none) with
  | none => (s.ring q).discard
  | some st => (s.ring q).discard.filter (fun d => st.req.streamSq != q || st.st == .aborted || d.2.2 < st.req.idx)

/-- The first discard of ring `q` is over. -/
def State.discardOver (s : State) (q : Nat) : State := s.modRing q (fun r => { r with discard := r.discard.drop 1 })

/-- On the mirror of a pair, buffers of stripes that have ended come from the lead (R158): of those of ring `q` that it
has not begun, the ones of the stripe to be discarded are dropped, up to the one marked LAST; a foreign one ends the
discard. `n` bounds the steps. -/
def State.mirrorDiscard (q : Nat) : Nat → State → State
  | 0, s => s
  | n + 1, s =>
    match s.discardsDue q, s.hif.entries.find? (fun e => e.q == q && rawOpc e.raw == 0x10 && !e.started) with
    | d :: _, some e =>
      let b := streamOf e.raw
      if b.id ≠ d.1 || b.pass ≠ d.2.1 then State.mirrorDiscard q n (s.discardOver q)
      else
        let s := s.dropEntry e.q e.idx
        State.mirrorDiscard q n (if b.last then s.discardOver q else s)
    | _, _ => s

/-- What a mirror holds of ended stripes on ring `q` goes. -/
def State.mirrorDrops (s : State) (q : Nat) : State :=
  if s.isMirror then State.mirrorDiscard q (s.hif.entries.length + (s.ring q).discard.length) s else s

/-- Every ring of a mirror drops what it holds of stripes that have ended. -/
def State.mirrorDropsAll (s : State) : State :=
  if s.isMirror then (List.range 64).foldl State.mirrorDrops s else s

/-- No stripe is held any more: IDLE, the global state READY, and a stripe boundary (R295, R296, R34), at which a
calibration gap opens while an item is due (R380), before an ARM_STRIPE that waits goes on; on the mirror of a joined pair
the lead opens it (R383). -/
def State.toIdle (s : State) : State :=
  let s := { s.bookFired.forgetPair with stripe := none, g := .ready }.mirrorDropsAll.boundary
  let s := { s with cal := { s.cal with turn := s.waiting.isSome } }
  if s.gapMayOpen && !(s.isMirror && s.joined) then s.openGap else s

/-- The stripe state as END_STATE gives it (R313). -/
def StripeState.endCode : StripeState → Nat
  | .armed => 1 | .waitSos => 2 | .run => 3 | .tail => 4 | _ => 0

/-- The stop of the STREAM channel that carries the stripe's stream and of its FEED channels (R112, cause 2; R424). -/
def State.stopStream (s : State) (sq : Nat) : State :=
  let t := match s.streamChan sq with
    | some ch => s.stopChan ch 0x04 2
    | none => s
  [23, 24, 25, 26].foldl (fun t ch => if s.feedCarries ch then t.feedRecord ch 0x04 2 else t) t

/-- A fired frame is counted in SHL_BC.MISSING (R342). -/
def State.statusMissing (s : State) (frame : Nat) : State :=
  let s := s.modStripe (fun st => { st with
    awaiting := st.awaiting.filter (fun n => n != frame), counted := frame :: st.counted
    overdue := st.overdue && st.lastFired != some frame })
  (s.addReg SHL_BC.MISSING 1).slots 5 0 1

/-- The frame fired last, whose 4 µs have passed without a FRAME_STATUS, is not the last one of a stripe that reaches DONE:
it counts as missing (R342). -/
def State.overdueCounts (s : State) : State :=
  match (s.stripe.filter (·.overdue)).bind (·.lastFired) with
  | some n => s.statusMissing n
  | none => s

/-- Missed flashes that wait for FRAME_STATUS time are booked no more (R260). -/
def State.dropMisses (s : State) : State := { s with nlk := { s.nlk with pendingMiss := [], missTimed := [] } }

/-- Abort the held stripe with a cause (R296, R299, R300, R424): no further flash, unrepaid debt discarded, the
stream stopped, the end events and the outcome at once; FAULT_BLANK_N is held after RUN and TAIL, and otherwise the
stripe returns to IDLE. -/
def State.abortWith (s : State) (toHost : Bool) (cause : Nat) : State :=
  match s.stripe with
  | none => s
  | some st =>
    if st.st == .done || st.st == .aborted then s
    else
      let hold := st.st == .run || st.st == .tail
      let s := s.overdueCounts.dropMisses
      let st := s.stripe.getD st
      let st := { st with cause, endState := st.st.endCode, st := .aborted, fbHold := hold, outcomeDone := true,
                          stepBusy := none, ledger := { st.ledger with writes := [] } }
      let s := { s with stripe := some st, g := .run }.setReg EMS_STATE.CAUSE cause
      let s := ((s.stopStream st.req.streamSq).startDiscard st).closeStream st.req.streamSq
      let s := (s.dropWitnesses st.req.id st.req.pass).endEvents st
      let s := if s.reg PMU_SNAP_CFG.ON_END = 1 then s.snapshot else s
      let s := s.writeOutcome toHost st
      if hold then s else s.toIdle

/-- Abort the held stripe with a cause, its outcome written to host memory. -/
def State.abortStripe (s : State) (cause : Nat) : State := s.abortWith true cause

/-- On a mirror, sets that waited for the end of a stripe which does not arm there take effect (R29, R34). -/
def State.setsFollow (s : State) : State := if s.isMirror && s.g == .ready then s.applyCommits else s

/-- A stripe that never arms ends (R79, R80, R242, R297, R323, R371): ABORTED or FENCED by its cause, END_STATE 0, no
flash, with the snapshot that ON_END asks for, which shows it in ABORTED (R296, R417, R418); the global state stays READY,
and the proof it waited for is no proof for the next stripe (R337). -/
def State.endUnarmed (s : State) (toHost : Bool) (r : ArmReq) (cause : Nat) : State :=
  let st := { Stripe.fresh r with cause, st := .aborted }
  let s := { s with waiting := none, shl := { s.shl with freshAsked := false, freshEnded := false }
                    nlk := { s.nlk with leadArmed := false } }.setReg EMS_STATE.CAUSE cause
  let s := if s.stripe.isNone then s.setReg EMS_STRIPE.STRIPE_ID r.id else s
  let s := ((s.addDiscard r).mirrorDrops r.streamSq).dropWitnesses r.id r.pass
  let s := if s.reg PMU_SNAP_CFG.ON_END = 1 then
    { ({ s with stripe := s.stripe.or (some st) } : State).snapshot with stripe := s.stripe } else s
  (s.writeOutcome toHost st).setsFollow

/-! ## Fences and SAFE -/

/-- The chip fences itself with a soft cause (R363, R364): in a pair the partner carries the stripe (R30); a solo
stripe aborts with cause 0x0E (R296). A chip that is fenced already stays as it is. -/
def State.fenceChip (s : State) (cause : Nat) : State :=
  if s.g == .off || s.g == .safe || s.fence.isSome then s
  else
    let covered := s.covered
    let s := s.setFence cause false
    if covered then s
    else if s.stripe.isSome then s.abortStripe 0x0E
    else if s.g == .ready then s.boundary else s

/-- Enter SAFE (R59, R408, R425) with SAFE_CAUSE `safe`: the chip is fenced hard with the given cause, a stripe it
held ends without an outcome, no event is posted, its lanes stop (after FENCE, when `send`), and the items accepted for its end
are live (R96). A second cause in SAFE
replaces the first in SAFE_CAUSE: the manual does not say which of the two stays (DESIGN CHOICE, log entry 101). -/
def State.enterSafe (s : State) (safe cause : Nat) (send : Bool) : State :=
  if s.g == .off then s
  else
    let s := (if s.stripe.isSome && !s.covered then s.setReg EMS_STATE.CAUSE 0x0E else s).bookFired
    let s := { s with nlk := { s.nlk with linkUp := s.nlk.linkUp && send } }
    let s := { s with g := .safe }.setReg MGT_STATE.SAFE_CAUSE safe
    let s := (if s.fence.any (·.hard) then s else s.setFence cause true).naluDown
    ({ s with stripe := none, nlk := { s.nlk with rejoining := false } }.quietPath).emptyPath.itemsLive

/-- Enter SAFE without a fence (R58, R59, R399): a start or a park whose self-test or firmware check failed. -/
def State.holdSafe (s : State) (safe : Nat) : State :=
  { s.naluDown with g := .safe }.setReg MGT_STATE.SAFE_CAUSE safe

end Sys2Proof.Machine
end

