-- ==== Sys2Proof/Machine/Cal.lean ====
section
/-! DEFINITION. Calibration, device trims and the sensors (R51, R375 to R391). -/

namespace Sys2Proof.Machine

/-! ## Device trims in serial flash (R384 to R388) -/

/-- A little-endian number in the serial flash. -/
def State.flashNum (s : State) (a k : Nat) : Nat := unle (Sparse.getList flashByte s.flash a k)

/-- The built-in defaults as a table (R386). -/
def defaultTrims : List Byte :=
  le 4 0x4D495254 ++ le 2 1 ++ le 2 0 ++ le 8 Config.dieId ++ List.replicate 22 0#8 ++ List.replicate 3 32#8 ++
  List.replicate 3 0#8

/-- MAGIC, VERSION and DIE_ID of a device-trim table are right (R384, R386). -/
def trimHeadOk (bs : List Byte) : Bool :=
  num bs 0 4 == 0x4D495254 && num bs 4 2 == 1 && num bs 8 8 == Config.dieId % 2 ^ 64

/-- Trim slot `k` held a VALID marker. -/
def State.slotMarked (s : State) (k : Nat) : Bool := s.flashNum (trimSlot k + 4104) 4 == 0x56414C44

/-- SEQ of trim slot `k`. -/
def State.slotSeq (s : State) (k : Nat) : Nat := s.flashNum (trimSlot k + 4096) 4

/-- Trim slot `k` is valid (R386). -/
def State.slotValid (s : State) (k : Nat) : Bool :=
  s.slotMarked k && s.slotSeq k != 0xFFFFFFFF &&
  s.flashNum (trimSlot k + 4100) 4 == crc32c 0 (Sparse.getList flashByte s.flash (trimSlot k) 4100) &&
  trimHeadOk (Sparse.getList flashByte s.flash (trimSlot k) 16)

/-- The active slot (R386): the valid one with the higher SEQ, slot 0 on equal SEQ. -/
def State.activeSlot (s : State) : Option Nat :=
  match s.slotValid 0, s.slotValid 1 with
  | true, true => some (if s.slotSeq 1 > s.slotSeq 0 then 1 else 0)
  | true, false => some 0
  | false, true => some 1
  | false, false => none

/-- A device-trim table becomes the live one; the staged copy starts equal to it, and the factory codes of items 1 to 3
are in force (R378, R386). -/
def State.trimsLive (s : State) (bs : List Byte) : State :=
  let m := Sparse.setList (tableCold 8) [] 0 bs
  { s with tabLive := s.tabLive.set 8 m, tabStaged := s.tabStaged.set 8 m }.factoryCodes

/-- The device trims as serial flash gives them (R386). -/
def State.readTrims (s : State) : State :=
  match s.activeSlot with
  | some k =>
    let s := s.trimsLive (Sparse.getList flashByte s.flash (trimSlot k) 4096)
    ((s.setReg CAL_STATUS.TRIMS_VALID 1).setReg CAL_STATUS.ACTIVE_SLOT k).setReg CAL_TRIM_SEQ.SEQ (s.slotSeq k)
  | none => ((s.trimsLive defaultTrims).setReg CAL_STATUS.TRIMS_VALID 0).setReg CAL_TRIM_SEQ.SEQ 0xFFFFFFFF

/-- DEVICE_TRIM_READ (R386): after the stack is up (and, on the quick path, the image restored). -/
def execDeviceTrimRead (s : State) : Host.Outcome State Fault Refusal :=
  .next (
    if s.g == .start && s.phase == (if s.quick then .restored else .stackUp) then
      let t := { s.readTrims with phase := .trimsRead }
      if s.activeSlot.isNone then
        t.postDev 0x6C 0x12 0 (b2n (s.slotMarked 0) + 2 * b2n (s.slotMarked 1)) 0
      else t
    else s)

/-! ## Calibration items (R375 to R378) -/

/-- Replace bit `k` of the mask of due items. -/
def State.setDue (s : State) (k : Nat) (d : Bool) : State :=
  let m := s.reg CAL_STATUS.DUE
  s.setReg CAL_STATUS.DUE (if bit m k == d then m else if d then m + 2 ^ k else m - 2 ^ k)

/-- Every enabled item becomes due (R379). -/
def State.allDue (s : State) : State := s.setReg CAL_STATUS.DUE (s.reg CAL_STATUS.DUE ||| s.itemsEnabled)

/-- The largest code of item `k` (R375): 6 bits for items 1 and 2, 7 bits for the others. -/
def codeMax (k : Nat) : Nat := if k ≤ 2 then 63 else 127

/-- Deviation `d` reaches or passes the target, coming from deviation `first` (R376). -/
def tapPast (first d : Int) : Bool := d = 0 || (first < 0 && 0 < d) || (0 < first && d < 0)

/-- The measurements (code, deviation from the target) are those of the tap method (R376): from the code in force, one
tap at a time in one direction, none before the last reaching or passing the target. -/
def tapsMade (live : Nat) (l : List (Nat × Int)) : Bool :=
  match l with
  | [] => false
  | (_, first) :: _ =>
    let codes := l.map (·.1)
    (codes == (List.range l.length).map (live + ·) ||
      (l.length ≤ live + 1 && codes == (List.range l.length).map (live - ·))) &&
    l.dropLast.all (fun m => !tapPast first m.2)

/-- The code kept (R376): of the last tap and the one before it the nearer to the target, on equal distance the one
before. -/
def tapKeep : List (Nat × Int) → Nat
  | [] => 0
  | [m] => m.1
  | [p, m] => if m.2.natAbs < p.2.natAbs then m.1 else p.1
  | _ :: ms => tapKeep ms

/-- What the tap method on item `k` ends with: the code, and whether a tap reached the target; a run that comes to the
end of the range of codes without reaching it is outside the item's bounds (DESIGN CHOICE, log entry 102). -/
def tapResult (k live : Nat) (l : List (Nat × Int)) : Option (Nat × Bool) :=
  let reached := tapPast ((l.head?.map (·.2)).getD 0) ((l.getLast?.map (·.2)).getD 0)
  let atEnd := l.getLast?.any (fun m => m.1 == 0 || m.1 == codeMax k)
  if tapsMade live l && l.all (fun m => m.1 ≤ codeMax k) && (reached || atEnd) then some (tapKeep l, reached) else none

/-- The element whose measurement lies nearest the target, the lower-numbered on equal distance (R376). -/
def nearest : Nat → Nat × Nat → List Int → Nat
  | _, best, [] => best.1
  | i, best, d :: ds => nearest (i + 1) (if d.natAbs < best.2 then (i, d.natAbs) else best) ds

/-- The element that the redundant method ends with, of the four measured. -/
def elemResult : List Int → Option Nat
  | [a, b, c, d] => some (nearest 1 (0, a.natAbs) [b, c, d])
  | _ => none

/-- An item's measurements as its result (R375, R376): code, element and whether it lies inside the item's bounds. The
method is METHOD of the item; measurements that the method does not make give none. -/
def State.itemResult (s : State) (item : Nat) (m : CalMeas) : Option (Nat × Nat × Bool) :=
  let code := s.reg (CAL_ITEM_STATUS.CODE item)
  let elem := s.reg (CAL_ITEM_STATUS.ELEMENT item)
  let inside := fun c step width =>
    if item = 3 then 100 ≤ step && step ≤ 150 && 40 ≤ width
    else 8 ≤ c && c ≤ 56 && c ≤ code + 6 && code ≤ c + 6
  match m with
  | .taps l step width =>
    if 1 ≤ item && item ≤ 3 && s.lv (CAL_ITEM_CFG.METHOD item) == 0 then
      (tapResult item code l).map (fun c => (c.1, elem, c.2 && inside c.1 step width))
    else none
  | .elems l step width =>
    if 1 ≤ item && item ≤ 3 && s.lv (CAL_ITEM_CFG.METHOD item) == 1 then
      (elemResult l).map (fun e => (code, e, inside code step width))
    else none
  | .eye l width height shift =>
    if item = 4 || item = 5 then
      (tapResult item code l).map (fun c =>
        (c.1, elem, c.2 && 30 ≤ width && shift ≤ 10 && (item == 5 || 60 ≤ height)))
    else none
  | .ohms _ => none

/-- The items of the run in progress that have not ended: in START those of items 0 to 3 that may become due (R383),
in a gap the items due. -/
def State.itemDue (s : State) (k : Nat) : Bool :=
  if s.g == .start then k ≤ 3 && s.phase == .trimsRead && s.itemEnabled k && !bit s.cal.ran k
  else s.cal.gap.isSome && bit (s.reg CAL_STATUS.DUE) k

/-- The precondition of an item holds (R375). A frozen item needs none: it ends without measuring (R378). -/
def State.itemReady (s : State) (item : Nat) : Bool :=
  match item with
  | 3 => s.reg CAL_STATUS.RCAL_FROZEN == 1 || s.port.locked
  | 4 => s.reg HMC_STATUS.TRAINED == 1
  | 5 => s.joined
  | _ => true

/-- The blocks whose circuits item `k` measures and trims (R375): the balls' blocks with calibration itself. -/
def itemBlocks (k : Nat) : List Nat :=
  match k with
  | 1 => [9, 10, 11, 13]
  | 2 => [10, 11, 13]
  | 3 => [9, 13]
  | 4 => [8, 13]
  | 5 => [11, 13]
  | _ => [13]

/-- Item `k` uses block `b`. -/
def itemUses (k b : Nat) : Bool := (itemBlocks k).contains b

/-- Item `k` runs: it is the lowest-numbered one that is due and whose precondition holds (R375, R380); calibration is not
OFF, and no block that the item uses is under a test that does not yield (R404). -/
def State.itemRuns (s : State) (k : Nat) : Bool :=
  let may := fun j => s.itemDue j && s.itemReady j
  may k && (List.range k).all (fun j => !may j) && s.pwr 13 != .off && !s.bistHolds (itemUses k)

/-- An item ends (R377, R381): its status, and, unless NOT_RUN, one run, no longer due, and noted in START or in the
gap. -/
def State.itemEnds (s : State) (item status : Nat) : State :=
  let s := s.setReg (CAL_ITEM_STATUS.LAST_STATUS item) status
  if status = 0x0A then s.setDue item true
  else
    let note := fun (g : Nat × Nat × List Int × Nat × Nat) =>
      (g.1 ||| 2 ^ item, if status = 0x0B then g.2.1 ||| 2 ^ item else g.2.1, g.2.2)
    let s := ((s.addReg (CAL_ITEM_STATUS.RUNS item) 1).setDue item false).count 13 0x10 1
    { s with cal := { s.cal with gap := s.cal.gap.map note, ran := s.cal.ran ||| 2 ^ item } }

/-- An item ends with OK and is applied (R377). -/
def State.itemApplied (s : State) (item code elem : Nat) : State :=
  let s := (s.setReg (CAL_ITEM_STATUS.CODE item) code).setReg (CAL_ITEM_STATUS.ELEMENT item) elem
  { s with cal := { s.cal with applied := s.cal.applied ||| 2 ^ item } }.itemEnds item 0x00

/-- Class of an RCAL measurement in 0.1 ohm (R378): 0 none, 1 open, 2 short, 3 out of range. -/
def rcalFault (x10 : Nat) : Nat := if x10 > 24000 then 1 else if x10 < 240 then 2
  else if x10 < 2280 || x10 > 2520 then 3 else 0

/-- Item 0 ends (R378): a bad RCAL freezes items 1 to 3, those of this run ending with IMPLAUSIBLE unmeasured. -/
def State.rcalDone (s : State) (x10 : Nat) : State :=
  let f := rcalFault x10
  let run := s.itemDue
  let s := (s.setReg CAL_RCAL.OHMS_X10 (sat 16 x10)).setReg CAL_RCAL.FAULT f
  if f = 0 then (s.setReg CAL_STATUS.RCAL_FROZEN 0).itemEnds 0 0x00
  else
    let s := (s.setReg CAL_STATUS.RCAL_FROZEN 1).itemEnds 0 0x0B
    let s := [1, 2, 3].foldl (fun s k => if run k then s.itemEnds k 0x0B else s) s
    s.postDev 0x6A 0x0B 0 (sat 16 x10) f

/-- An item of 1 to 5 ends with its measurements (R375 to R378). -/
def State.itemDone (s : State) (item : Nat) (m : CalMeas) : State :=
  if item ≤ 3 && s.reg CAL_STATUS.RCAL_FROZEN == 1 then s.itemEnds item 0x0B
  else
    match s.itemResult item m with
    | none => s
    | some (c, e, true) => s.itemApplied item c e
    | some (_, _, false) => s.itemEnds item 0x0B

/-- Items 0 to 2, and item 3 if the port is locked, have ended in START (R383), unless calibration is OFF. -/
def State.startCalDone (s : State) : Bool :=
  s.pwr 13 == .off || (List.range 4).all (fun k => !(s.itemDue k && s.itemReady k))

/-- The RCAL phase of START ends (R57, R383): an item 3 that the port never let run ends with NOT_RUN and stays due. -/
def State.startCalEnds (s : State) : State :=
  if s.itemDue 3 && s.pwr 13 != .off then s.itemEnds 3 0x0A else s

/-! ## Sensors, drift and gaps (R51, R379 to R383) -/

/-- The largest reading and the lowest sensor that has it. -/
def hottest : Nat → Nat × Int → List Int → Nat × Int
  | _, best, [] => best
  | i, best, t :: ts => hottest (i + 1) (if best.2 < t then (i, t) else best) ts

/-- The drift and its sensor (R379): the largest difference from the baseline. -/
def driftOf (temps base : List Int) : Nat × Nat :=
  let d := (temps.zipWith (fun t b => (((t - b).natAbs : Nat) : Int)) base)
  let h := hottest 0 (0, -1) d
  (h.1, sat 10 h.2.toNat)

/-- SENSOR_OFS of sensor `i` in the live device trims. -/
def State.sensorOfs (s : State) (i : Nat) : Int := sgn 8 (s.tabLive.byte 8 (16 + i)).toNat

/-- Store drift and sensor. -/
def State.setDrift (s : State) : State :=
  let d := driftOf s.cal.temps s.cal.baseline
  (s.setReg CAL_DRIFT.DRIFT d.2).setReg CAL_DRIFT.SENSOR d.1

/-- What drift starts (R379, R382): every enabled item becomes due when the drift comes to exceed THRESH_C (log entry
103); the overdue timer counts one millisecond a reading. -/
def State.driftActs (s : State) : State :=
  let s := s.setDrift
  let d := s.reg CAL_DRIFT.DRIFT
  let thresh := 4 * s.lv CAL_CTRL.THRESH_C
  let hot := d > thresh && s.lv CAL_CTRL.AUTO == 1
  let s := if hot && !s.cal.drifting then s.allDue else s
  let s := { s with cal := { s.cal with drifting := hot } }
  if s.cal.overdueArmed then
    let ms := s.cal.overdueMs + 1
    { s with cal := { s.cal with overdueMs := ms } }.setReg CAL_DRIFT.OVERDUE_S (sat 16 (ms / 1000))
  else if d > 2 * thresh && s.cal.gap.isNone then { s with cal := { s.cal with overdueArmed := true, overdueMs := 0 } }
  else s

/-- THERM_N[1] goes low (R51): the chip fences itself and enters SAFE. -/
def State.thermTrip (s : State) : State :=
  if s.aon.therm1 then s else { s with aon := { s.aon with therm1 := true } }.enterSafe 3 7 true

/-- The largest reading and the lowest sensor that has it (R51). -/
def State.hottestSensor (s : State) : Nat × Int := hottest 1 (0, s.cal.temps.getD 0 0) (s.cal.temps.drop 1)

/-- THERM_N[0] (R51): driven low at WARN_C, released below WARN_C - 5. -/
def State.thermWarn (s : State) : State :=
  let w : Int := s.reg MGT_TEMP.WARN_C
  let t := s.hottestSensor.2
  let low := if 4 * w ≤ t then true else if t < 4 * (w - 5) then false else s.aon.therm0
  { s with aon := { s.aon with therm0 := low } }

/-- SENSOR_READ: the 16 die sensors, raw, in 1/4 degree (R51, R379). HOTTEST drops the part of a degree, which R51 does not
say to drop (DESIGN CHOICE, log entry 142). -/
def execSensorRead (temps : List Int) (s : State) : Host.Outcome State Fault Refusal :=
  .next (
    if s.g == .off || temps.length ≠ 16 then s
    else
      let readings := (List.range 16).map (fun i => temps.getD i 0 + s.sensorOfs i)
      let s := { s with cal := { s.cal with temps := readings } }
      let h := s.hottestSensor
      let s := (s.setReg MGT_TEMP.HOTTEST (sat 8 (h.2 / 4).toNat)).setReg MGT_TEMP.HOT_SENSOR h.1
      let s := s.thermWarn
      if 460 ≤ h.2 then s.thermTrip
      else if s.serviced && s.pwr 13 != .off && !s.underTest 13 then s.driftActs
      else s)

/-- A gap may open on one chip of a joined pair for an item that is due on the other (R383). -/
def State.pairGapMayOpen (s : State) : Bool :=
  s.joined && s.g == .ready && s.stripe.isNone && s.cal.gap.isNone && s.pwr 13 != .off

/-- CAL_GAP_OPEN (R380, R383): in READY with no stripe held or waiting and an item due, on this chip or on the
partner; for the partner's items also when a stripe has just reached IDLE, before the one that waits goes on; on the
mirror of a joined pair the lead's gap. -/
def execCalGapOpen (s : State) : Host.Outcome State Fault Refusal :=
  .next (
    if s.isMirror && s.joined then (if s.pairGapMayOpen then s.openGap else s)
    else if (s.waiting.isNone && s.gapMayOpen) || ((s.waiting.isNone || s.cal.turn) && s.pairGapMayOpen) then s.openGap
    else s)

/-- Items that are due and whose precondition was not met until the gap ended end with NOT_RUN and stay due (R380). -/
def State.unmetEnd (s : State) : State :=
  (List.range 6).foldl (fun s k => if s.itemDue k && !s.itemReady k then s.itemEnds k 0x0A else s) s

/-- CAL_GAP_END (R380 to R382): with no item due the baselines are retaken from the gap's start, event 0x68 is posted
and OVERDUE clears. -/
def execCalGapEnd (s : State) : Host.Outcome State Fault Refusal :=
  .next (
    match s.cal.gap with
    | none => s
    | some (run, bad, temps, drift, sensor) =>
      let s := s.unmetEnd
      let s := { s with cal := { s.cal with gap := none } }
      if s.reg CAL_STATUS.DUE = 0 then
        let cal := { s.cal with baseline := temps, drifting := false }
        let s := ({ s with cal }.setReg CAL_STATUS.OVERDUE 0).setDrift
        s.postDev 0x68 0x00 0 (run + bad * 2 ^ 6) (drift + sensor * 2 ^ 12)
      else s)

/-- CAL_OVERDUE (R382): the timer has reached 60 s. -/
def execCalOverdue (s : State) : Host.Outcome State Fault Refusal :=
  .next (
    if s.cal.overdueArmed && s.reg CAL_STATUS.OVERDUE = 0 then
      let ms := max s.cal.overdueMs 60000
      let s := { s with cal := { s.cal with overdueMs := ms } }.setReg CAL_DRIFT.OVERDUE_S (sat 16 (ms / 1000))
      (s.setReg CAL_STATUS.OVERDUE 1).postDev 0x69 0x06 0
        (s.reg CAL_DRIFT.DRIFT + s.reg CAL_DRIFT.SENSOR * 2 ^ 12) (s.reg CAL_STATUS.DUE)
    else s)

/-- What READY brings to calibration (R383): items 4 and, in a pair, 5 are due; the baselines are the readings. -/
def State.calReady (s : State) : State :=
  let due := s.reg CAL_STATUS.DUE ||| ((2 ^ 4 + 2 ^ 5) &&& s.itemsEnabled)
  ({ s with cal := { s.cal with baseline := s.cal.temps, drifting := false } }.setReg CAL_STATUS.DUE due).setDrift

/-! ## Placement offsets from the alignment table (R390) -/

/-- EX and EY of slat `d` of louver `x`, where both axes were measured and the slat is good or weak. -/
def Tables.landing (t : Tables) (x d : Nat) : Option (Int × Int) :=
  let i := 64 * x + d
  let ex := sgn 8 (t.byte 9 (2 * i)).toNat
  let ey := sgn 8 (t.byte 9 (2 * i + 1)).toNat
  let st := t.slatState x d
  if (st = 1 || st = 2) && ex ≠ -128 && ey ≠ -128 then some (ex, ey) else none

/-- The offsets of louver `x`: the mean landing error, to the nearest su, halves up. -/
def Tables.derived (t : Tables) (x : Nat) : Int × Int :=
  let l := (List.range 64).filterMap (t.landing x)
  let n : Int := l.length
  if n = 0 then (0, 0) else ((2 * (l.map (·.1)).sum + n) / (2 * n), (2 * (l.map (·.2)).sum + n) / (2 * n))

/-- The staged placement-offset table that R390 computes. A louver whose alignment entries are all unmeasured has
offsets 0, so the louvers with an entry are enough. -/
def Tables.derive (live staged : Tables) : Tables :=
  let louvers := (live.align.map (fun c => c.1 / 128)).eraseDups
  louvers.foldl (fun t x => t.write 5 (2 * x)
    [BitVec.ofInt 8 (live.derived x).1, BitVec.ofInt 8 (live.derived x).2]) (staged.set 5 [])

/-- A write of GO to CAL_DERIVE. -/
def State.deriveGo (s : State) : State :=
  if s.reg CAL_DERIVE.BUSY = 1 then s.setReg CAL_DERIVE.LAST_STATUS 0x11
  else (s.wakeBlock 13).setReg CAL_DERIVE.BUSY 1

/-- DERIVE_DONE (R390). -/
def execDeriveDone (s : State) : Host.Outcome State Fault Refusal :=
  .next (
    if s.reg CAL_DERIVE.BUSY = 1 then
      let t := s.tabLive.derive s.tabStaged
      (({ s with tabStaged := t }.setReg CAL_DERIVE.BUSY 0).setReg CAL_DERIVE.LAST_STATUS 0x00).setReg
        CAL_DERIVE_CRC.CRC (t.crc 5)
    else s)

/-! ## The trim store (R387) -/

/-- The set a COMMIT carries for table `id`: its own, or what is live. -/
def PendingCommit.table (c : PendingCommit) (live : Tables) (id : Nat) : Memory :=
  ((c.tables.find? (fun t => t.1 == id)).map (·.2)).getD (live.get id)

/-- The bytes of a trim slot before VALID: TABLE, SEQ, CHECK (R385). -/
def slotBytes (table : List Byte) (seq : Nat) : List Byte :=
  let b := table ++ le 4 seq
  b ++ le 4 (crc32c 0 b)

/-- A validated set waits for its boundary (R35, R93); in READY, and on a mirror in START, it takes effect at once. The
lead of a pair forwards it to the mirror (R348, R355); one that stores device trims is validated once they are stored
(R387). -/
def State.commitWaits (s : State) (c : PendingCommit) : State :=
  let s := s.sendSet c.id c.mask c.fields
  let s := { s with commits := { s.commits with waiting := s.commits.waiting ++ [c] } }
  if s.g == .ready then s.boundary else if s.g == .start then s.applyCommits else s

/-- A set that the lead has validated comes to its place on the mirror (R29, R35): behind a trim store under way, to
its own trim store, or to wait for its boundary; with another store pending R387 does not let it be stored. -/
def State.mirrorWaits (s : State) (c : PendingCommit) : State :=
  if s.commits.storing.isSome then { s with commits := { s.commits with behind := s.commits.behind ++ [c] } }
  else if c.storesTrims then
    (if s.cal.store.isNone then { s with commits := { s.commits with storing := some c } } else s.mirrorApart)
  else s.commitWaits c

/-- The sets that came behind a trim store on the mirror follow it, in order (R35). -/
def State.behindFollow (s : State) : State :=
  s.commits.behind.foldl State.mirrorWaits { s with commits := { s.commits with behind := [] } }

/-- The store has failed (R387): the set is refused with reason 0x06. -/
def State.storeFails (s : State) (c : PendingCommit) : State := (s.setReg CAL_STATUS.STORE_PENDING 0).setFails c

/-- TRIM_STORE (R387): the inactive slot is erased, programmed and read back for the COMMIT that stores device trims; a
failure refuses the set with reason 0x06. In READY the COMMIT is applied at once. A chip that has left service changes
nothing of it (R425). -/
def execTrimStore (eraseOk programOk validOk : Bool) (s : State) : Host.Outcome State Fault Refusal :=
  .next (
    match (if s.serviced then s.commits.storing else none) with
    | none => s
    | some c =>
      let valid := s.reg CAL_STATUS.TRIMS_VALID == 1
      let slot := if valid then 1 - s.reg CAL_STATUS.ACTIVE_SLOT else 0
      let seq := if valid then (s.reg CAL_TRIM_SEQ.SEQ + 1) % 2 ^ 32 else 1
      let s := { s with commits := { s.commits with storing := none } }
      let s := if eraseOk then s.flashErase slot else s
      if eraseOk && programOk then
        let table := Sparse.getList (tableCold 8) (c.table s.tabLive 8) 0 4096
        let s := s.flashWrite (trimSlot slot) (slotBytes table seq)
        let s := { s with cal := { s.cal with store := some ⟨slot, seq, validOk⟩ } }.setReg CAL_STATUS.STORE_PENDING 1
        (s.commitWaits c).behindFollow
      else (s.storeFails c).behindFollow)

end Sys2Proof.Machine
end

