-- ==== Sys2Proof/Machine/Hmc.lean ====
section
/-! DEFINITION. The HBM3 controller in service: refresh credit, temperature, row-hammer defence, power-down,
self-refresh entry and error reports (R273 to R285). -/

namespace Sys2Proof.Machine

/-- Pseudo-channel `pc` of the stack. -/
def State.pseudo (s : State) (pc : Nat) : PseudoChan := s.hmc.pcs.getD pc ⟨0, false, []⟩

/-- Change pseudo-channel `pc`. -/
def State.modPseudo (s : State) (pc : Nat) (f : PseudoChan → PseudoChan) : State :=
  { s with hmc := { s.hmc with pcs := modAt s.hmc.pcs pc f } }

/-- The stack is trained and not in self-refresh, and the controller has its clock (R21): credits accrue and commands are
issued. -/
def State.stackLive (s : State) : Bool :=
  s.reg HMC_STATUS.TRAINED == 1 && s.reg HMC_STATUS.SELF_REFRESH == 0 && s.g != .off && s.aon.rootLock

/-- A refresh of every bank of a pseudo-channel (R278): RAA falls by RAAIMT, the counts of ACTs per port restart. -/
def PseudoChan.refreshed (c : PseudoChan) (raaimt : Nat) : PseudoChan :=
  { c with banks := c.banks.filterMap (fun b => if b.2.1 ≤ raaimt then none else some (b.1, b.2.1 - raaimt, [])) }

/-- The largest P since the stripe armed (HMC_REF.PEAK); P below 0 counts as 0. -/
def State.notePeak (s : State) (pc : Nat) : State :=
  s.setReg (HMC_REF.PEAK pc) (max (s.reg (HMC_REF.PEAK pc)) (s.pseudo pc).p.toNat)

/-- `n` forced REFab on pseudo-channel `pc` (R275, R276): each refreshes every bank and counts. -/
def State.forced (s : State) (pc n : Nat) : State :=
  let r := s.reg HMC_RH.RAAIMT
  ((s.modPseudo pc (fun c => { iter (fun c => PseudoChan.refreshed c r) n c with down := false })).addReg
    (HMC_REF.FORCED pc) n).count 8 0x13 n

/-- REFRESH_CREDIT (R275): a credit accrues; with P at 8 a forced REFab pays it at once. -/
def execRefreshCredit (pc : Nat) (s : State) : Host.Outcome State Fault Refusal :=
  .next (
    if !s.stackLive then s
    else if (s.pseudo pc).p ≥ 8 then s.forced pc 1
    else (s.modPseudo pc (fun c => { c with p := c.p + 1 })).notePeak pc)

/-- REFRESH_PAY (R275): one credit is paid while P is above -8, by REFab, or by REFpb to each bank in turn: either way
every bank of the pseudo-channel is refreshed once. -/
def execRefreshPay (pc : Nat) (s : State) : Host.Outcome State Fault Refusal :=
  .next (
    if s.stackLive && (s.pseudo pc).p > -8 then
      s.modPseudo pc (fun c => { PseudoChan.refreshed c (s.reg HMC_RH.RAAIMT) with p := c.p - 1, down := false })
    else s)

/-- Entry to hot (R276): P doubles; beyond 8 the excess is paid at once by forced REFab. -/
def State.pcHot (s : State) (pc : Nat) : State × Nat :=
  let p := 2 * (s.pseudo pc).p
  let excess := (p - 8).toNat
  let s := (s.modPseudo pc (fun c => { c with p := max (min p 8) (-8) })).notePeak pc
  (if excess = 0 then s else s.forced pc excess, excess)

/-- The end of hot (R276): P halves, toward positive infinity. -/
def State.pcCool (s : State) (pc : Nat) : State := s.modPseudo pc (fun c => { c with p := -(-c.p / 2) })

/-- Every pseudo-channel becomes hot; the credits paid at once. -/
def State.becomeHot (s : State) : State × Nat :=
  (List.range 32).foldl (fun (a : State × Nat) pc => ((a.1.pcHot pc).1, a.2 + (a.1.pcHot pc).2)) (s, 0)

/-- The hot state after a temperature reading (R276), with event 0x4B at each change. -/
def State.stackHeat (s : State) (tempC : Nat) : State :=
  if s.reg HMC_STATUS.HOT = 0 && 85 ≤ tempC then
    let r := (s.setReg HMC_STATUS.HOT 1).becomeHot
    r.1.postDev 0x4B 0x00 0 (tempC + 2 ^ 8) r.2
  else if s.reg HMC_STATUS.HOT = 1 && tempC ≤ 81 then
    ((List.range 32).foldl State.pcCool (s.setReg HMC_STATUS.HOT 0)).postDev 0x4B 0x00 0 tempC 0
  else s

/-- STACK_TEMP_READ (R51, R276): read by the controller, and so not without the root clock (R21). -/
def execStackTempRead (tempC : Nat) (s : State) : Host.Outcome State Fault Refusal :=
  .next (
    if s.g == .off || !s.aon.rootLock then s
    else
      let s := (s.setReg MGT_TEMP.STACK tempC).setReg HMC_STATUS.STACK_C tempC
      let s := (s.stackHeat tempC).thermWarn
      if 105 ≤ tempC then s.thermTrip else s)

/-! ## Row-hammer defence (R278, R279) -/

/-- The port that issued the most ACTs, the lowest on ties. -/
def offender (acts : List Nat) : Nat :=
  (List.range 9).foldl (fun best p => if acts.getD p 0 > acts.getD best 0 then p else best) 0

/-- Throttle port `p` (R279): weight 1 in every arbiter, event 0x4A; the sill reader, port 0, is never throttled. -/
def State.throttle (s : State) (p pc bank raa : Nat) : State :=
  if p = 0 then s
  else
  let s := ((s.setReg (HMC_PORT.THROTTLED p) 1).setReg (HMC_PORT.WEIGHT p) 1).addReg (HMC_PORT.THROTTLES p) 1
  s.postDev 0x4A 0x00 0 (p + pc * 2 ^ 4 + bank * 2 ^ 9) raa

/-- RFM_ISSUE (R278, R279): the bank's ACTs of each port since the last such report are counted; a bank that reaches
RAAMMT throttles the offender; at RAAIMT an RFM takes RAAIMT off. -/
def execRfmIssue (pc bank : Nat) (acts : List Nat) (s : State) : Host.Outcome State Fault Refusal :=
  .next (
    if !s.stackLive then s
    else
      let c := s.pseudo pc
      let b := (c.banks.find? (fun b => b.1 == bank)).getD (bank, 0, [])
      let per := (List.range 9).map (fun p => b.2.2.getD p 0 + acts.getD p 0)
      let limit := s.reg HMC_RH.RAAMMT
      let raa := min limit (b.2.1 + acts.sum)
      let imt := s.reg HMC_RH.RAAIMT
      let left := if raa ≥ imt then raa - imt else raa
      let others := c.banks.filter (fun b => b.1 != bank)
      let s := s.modPseudo pc (fun c => { c with down := false, banks := (bank, left, per) :: others })
      if raa ≥ limit && b.2.1 < limit then s.throttle (offender per) pc bank raa else s)

/-- THROTTLE_EXPIRE (R279): the port regains its weight, not without the root clock (R21). -/
def execThrottleExpire (port : Nat) (s : State) : Host.Outcome State Fault Refusal :=
  .next (if s.aon.rootLock && s.reg (HMC_PORT.THROTTLED port) = 1 then
      (s.setReg (HMC_PORT.THROTTLED port) 0).setReg (HMC_PORT.WEIGHT port) (portLeaves port)
    else s)

/-- What a new stripe clears in the HMC: PEAK, FORCED and THROTTLES count since the stripe armed. -/
def State.hmcArmed (s : State) : State :=
  let pc := fun (s : State) k => (s.setReg (HMC_REF.PEAK k) (s.pseudo k).p.toNat).setReg (HMC_REF.FORCED k) 0
  (List.range 9).foldl (fun s p => s.setReg (HMC_PORT.THROTTLES p) 0) ((List.range 32).foldl pc s)

/-! ## Power-down and self-refresh (R280 to R282) -/

/-- POWER_DOWN_ENTRY (R280). -/
def execPowerDownEntry (pc : Nat) (s : State) : Host.Outcome State Fault Refusal :=
  .next (if s.stackLive && s.lv HMC_CTRL.PD_EN = 1 then s.modPseudo pc (fun c => { c with down := true }) else s)

/-- Every credit owed is paid, each by a refresh of every bank, until P is 0; a P below 0 owes none. -/
def PseudoChan.paid (c : PseudoChan) (raaimt : Nat) : PseudoChan :=
  { iter (fun c => PseudoChan.refreshed c raaimt) c.p.toNat c with p := min c.p 0, down := false }

/-- Self-refresh entry begins (R281): every credit is paid, then the banks are precharged. -/
def State.srEnter (s : State) : State :=
  let s := (s.setReg HMC_STATUS.SR_ENTRY 1).setReg BST_PARK.PHASE 3
  let pay := fun (c : PseudoChan) => c.paid (s.reg HMC_RH.RAAIMT)
  { s with hmc := { s.hmc with srCancelled := false, pcs := s.hmc.pcs.map pay } }

/-- The commit point of self-refresh entry has passed (R281): the stack is in self-refresh and park BIST begins. -/
def State.srCommit (s : State) : State :=
  if s.g == .park && s.reg HMC_STATUS.SR_ENTRY = 1 then
    ((s.setReg HMC_STATUS.SR_ENTRY 0).setReg HMC_STATUS.SELF_REFRESH 1).setReg BST_PARK.PHASE 4
  else s

/-- SELF_REFRESH_REQUEST (R282): before the commit point the request cancels entry; at or after it the request is held
through entry and exit. Either way the gatekeeper starts entry again later. -/
def execSelfRefreshRequest (s : State) : Host.Outcome State Fault Refusal :=
  .next (
    if s.reg HMC_STATUS.SR_ENTRY = 1 then
      { s with hmc := { s.hmc with srCancelled := true, srHeld := false } }.setReg HMC_STATUS.SR_ENTRY 0
    else if s.g == .park && s.reg HMC_STATUS.SELF_REFRESH = 1 && s.reg BST_PARK.PHASE = 4 then
      ({ s with hmc := { s.hmc with srCancelled := true, srHeld := true } }.setReg HMC_STATUS.SELF_REFRESH 0).setReg
        BST_PARK.PHASE 3
    else s)

/-- SELF_REFRESH_REENTRY (R282): after 64 cc without a request the gatekeeper starts entry again, after a
request held past the commit point as after a cancelled entry (DESIGN CHOICE, log entry 163). -/
def execSelfRefreshReentry (s : State) : Host.Outcome State Fault Refusal :=
  .next (if s.hmc.srCancelled && s.g == .park then { s with hmc := { s.hmc with srHeld := false } }.srEnter else s)

/-! ## Errors (R283, R284) -/

/-- An uncorrectable read that is an internal error: recorded, and the chip fences itself with cause 0x01 (R284). -/
def State.eccFence (s : State) (port : Nat) (w : EccWord) : State := (s.uncorrectable port w 0x0C).fenceChip 0x01

/-- A read by a port whose uncorrectable errors are internal errors (R284), of `units` granules (R411) somewhere in the
`n` bytes from address `lo`, and what follows from the data when it has none: no data of an uncorrectable read goes
further. -/
def State.readBy (s : State) (units port lo n : Nat) (ecc : EccReads) (k : State → State) : State :=
  let r := (s.count 8 0x10 units).eccRead port lo n ecc
  match r.2 with
  | none => k r.1
  | some w => r.1.eccFence port w

/-- A read of the `n` bytes from address `lo`. -/
def State.portRead (s : State) (port lo n : Nat) (ecc : EccReads) (k : State → State) : State :=
  s.readBy (granules lo n) port lo n ecc k

/-- A read somewhere in the `n` bytes from address `lo`; how many granules of them it takes the manual does not fix
(a free value; DESIGN CHOICE, log entry 38). -/
def State.regionRead (s : State) (port lo n : Nat) (ecc : EccReads) (k : State → State) : State :=
  let a := s.fresh 32
  a.2.readBy a.1 port lo n ecc k

/-- ECC_CE_REPORT (R283). -/
def execEccCeReport (s : State) : Host.Outcome State Fault Refusal :=
  .next (
    let n := s.reg HMC_ECC_CE.COUNT
    if s.hmc.ceReported < n then
      { s with hmc := { s.hmc with ceReported := n } }.postDev 0x48 0x00 0 n s.hmc.ceAddr
    else s)

end Sys2Proof.Machine
end

