-- ==== Sys2Proof/Machine/Bist.lean ====
section
/-! DEFINITION. Self-test: signatures and results (R402, R406), requests on demand (R403, R404, R407), the full
self-test of a cold start (R59, R407). -/

namespace Sys2Proof.Machine

/-- The signature of a test (R402). -/
def bistSignature (misr count block code : Nat) : Nat :=
  crc64 0 (le 8 misr ++ le 4 count ++ le 1 block ++ le 1 code ++ [0#8, 0#8])

/-- A block passes (R402): CODE 0xA5, the full pattern count and the expected signature of the firmware image. -/
def State.bistPasses (s : State) (kind : Nat) (r : BistRun) : Bool :=
  r.code == 0xA5 &&
  s.bst.expect.any (fun e => e.block == r.block && e.kind == kind && r.count == e.count &&
    bistSignature r.misr r.count r.block r.code == e.sig)

/-- The result of a test that ended with its four values (R402, R406). -/
def State.bistJudge (s : State) (kind : Nat) (r : BistRun) : State :=
  s.bistResult r.block (if s.bistPasses kind r then 0x00 else 0x07) r.code kind
    (bistSignature r.misr r.count r.block r.code) r.count

/-- The blocks that park BIST tests (R399). -/
def parkBlocks : List Nat := [2, 3, 4, 5, 6, 7, 8, 9, 10, 11, 12, 13, 15]

/-- The blocks of a full test: those of park BIST; at a cold start those that the firmware image expects a test for. -/
def State.bistBlocks (s : State) (kind : Nat) : List Nat :=
  if kind = 2 then parkBlocks else (s.bst.expect.filter (fun e => e.kind == kind)).map (·.block)

/-- Every block of a full test passes: each that ran, and each that belongs to it ran. -/
def State.bistAllPass (s : State) (kind : Nat) (runs : List BistRun) : Bool :=
  runs.all (s.bistPasses kind) && (s.bistBlocks kind).all (fun k => runs.any (fun r => r.block == k))

/-- FULL_SELF_TEST (R59, R407): `ran` tells whether its preconditions held throughout. NOT_RUN, which the results show
(R406), is retried once; a second
NOT_RUN, or a failure, holds the engine in SAFE. The RCAL phase comes before it (R57, R383). -/
def execFullSelfTest (ran : Bool) (runs : List BistRun) (s : State) : Host.Outcome State Fault Refusal :=
  .next (
    if s.g == .start && s.phase == .trimsRead && !s.quick && s.startCalDone then
      let s := s.startCalEnds
      if ran then
        let t := runs.foldl (fun t r => t.bistJudge 1 r) s
        if s.bistAllPass 1 runs then { t with phase := .tested } else t.holdSafe 1
      else
        let t := (s.bistBlocks 1).foldl (fun t k => t.bistNotRun 1 k) s
        if s.bst.retried then t.holdSafe 1 else { t with bst := { t.bst with retried := true } }
    else s)

/-! ## On demand (R403 to R405, R407) -/

/-- HBM3 address and size of the SRAM image in the park save area (R398). -/
def sramArea : Nat × Nat := (0x2CC000000, 0x4000000)

/-- Bytes that the manual does not give are saved to an area of HBM3. -/
def State.saveArea (s : State) (area : Nat × Nat) : State :=
  let bs := (List.range area.2).map (fun i => BitVec.ofNat 8 (Config.freeValue (s.free + i)).toNat)
  { s with free := s.free + area.2 }.hbmWrite area.1 bs

/-! ## Calibration items (R377, R393, R404) -/

/-- An item runs: a yielding test of a block that it uses is aborted (R404), and those blocks wake for it (R393). -/
def State.itemStarts (s : State) (item : Nat) : State := (s.bistYield (itemUses item)).wakeBlocks (itemUses item)

/-- CAL_ITEM_DONE (R375 to R378): the item that runs. -/
def execCalItemDone (item : Nat) (m : CalMeas) (s : State) : Host.Outcome State Fault Refusal :=
  .next (
    if !s.itemRuns item then s
    else
      match item, m with
      | 0, .ohms x10 => (s.itemStarts 0).rcalDone x10
      | 0, _ => s
      | _, _ => (s.itemStarts item).itemDone item m)

end Sys2Proof.Machine
end

