-- ==== Sys2Proof/Machine/Commit.lean ====
section
/-! DEFINITION. Commit sets: taking and validating a COMMIT, block by block (R92, R93, R103, R117, R186, R202, R220, R238,
R263, R286, R316, R346, R373, R387, R391, R404, R410, R422). -/

namespace Sys2Proof.Machine

/-! ## The set that a COMMIT takes (R92) -/

/-- What an engine copies when it takes a COMMIT (R92): the staged value of every commit field, and the staged copy of
every table, of the blocks named. -/
def State.copySet (s : State) (q idx mask id : Nat) : PendingCommit :=
  let blocks := (List.range 16).filter (fun k => bit mask k)
  { q, idx, mask, id
    fields := blocks.flatMap (fun k => (commitFields k).map (fun f => (f.key, s.reg f)))
    tables := blocks.flatMap (fun k => (blockTables k).map (fun t => (t, s.tabStaged.get t)))
    storesTrims := false, after := 0 }

/-- The live tables as the COMMITs that wait will leave them (R35); on a mirror those behind a trim store follow. -/
def State.tablesAfter (s : State) : Tables :=
  (s.commits.waiting ++ s.commits.storing.toList ++ s.commits.behind).foldl (fun t c => c.tables.foldl (fun t kv => t.set kv.1 kv.2) t) s.tabLive

/-- A copied set that names CAL stores device trims when its table differs from what the sets before it leave (R35,
R387). -/
def State.withStore (s : State) (c : PendingCommit) : PendingCommit :=
  { c with storesTrims := bit c.mask 13 && c.tables.any (fun t => t.1 == 8 && t.2 != s.tablesAfter.trims) }

/-- The set that a COMMIT taken now brings to validation. -/
def State.takeSet (s : State) (q idx mask id : Nat) : PendingCommit := s.withStore (s.copySet q idx mask id)

/-! ## Validation, block by block (R93) -/

/-- The value that a set gives a field; its reset value where the set does not name the field. -/
def PendingCommit.val (c : PendingCommit) (f : Field) : Nat :=
  ((c.fields.find? (fun kv => kv.1 == f.key)).map (·.2)).getD f.reset

/-- The set's copy of a table, as one of nine. -/
def PendingCommit.tabs (c : PendingCommit) : Tables := c.tables.foldl (fun t kv => t.set kv.1 kv.2) .cold

/-- The first reason whose condition holds. -/
def firstReason (l : List (Nat × Bool)) : Option Nat := (l.find? (fun r => r.2)).map (·.1)

/-- DMA (R103). -/
def PendingCommit.dmaRefuses (c : PendingCommit) : Option Nat :=
  let chs := List.range 32
  firstReason [
    (0x01, chs.any (fun ch => dmaPaced ch && c.val (DMA_CH_CFG.LOW ch) ≥ c.val (DMA_CH_CFG.HIGH ch))),
    (0x02, chs.any (fun ch => c.val (DMA_CH_CFG.HIGH ch) > 64)),
    (0x03, chs.any (fun ch => dmaClass ch == 1 &&
      (c.val (DMA_CH_CFG.QLOG2 ch) < 20 || c.val (DMA_CH_CFG.QLOG2 ch) > 28)))]

/-- PRS (R202). -/
def PendingCommit.prsRefuses (c : PendingCommit) : Option Nat :=
  firstReason [(0x01, c.val PRS_CTRL.LAQ_LOG2 < 28 || c.val PRS_CTRL.LAQ_LOG2 > 32),
    (0x02, c.val PRS_CTRL.AHEAD_MAX < 24)]

/-- PEC (R238). -/
def PendingCommit.pecRefuses (c : PendingCommit) : Option Nat :=
  firstReason [(0x01, c.val PEC_CTRL.ETA > 2048),
    (0x02, c.val PEC_BETA.BETA_NM < 2000 || c.val PEC_BETA.BETA_NM > 20000),
    (0x03, c.val PEC_SCALE.SCALE = 0 || c.val PEC_SCALE.SCALE > 896),
    (0x04, c.tabs.corr.any (fun e => 514 ≤ e.1 && e.2 != 0#8))]

/-- Dead or stuck-on entries differ between two beam-state tables (R263): an entry that is dead or stuck-on in either
and not the same in both. -/
def deadDiffer (a b : Memory) : Bool :=
  (tableIndices a b).any (fun i =>
    let x := (Sparse.get (tableCold 3) a i).toNat
    let y := (Sparse.get (tableCold 3) b i).toNat
    (List.range 4).any (fun j =>
      let p := bits x (2 * j) 2
      let r := bits y (2 * j) 2
      p != r && (p == 0 || p == 3 || r == 0 || r == 3)))

/-- Rows of the staged feed table as (FX, FY, FRAC, reserved). -/
def PendingCommit.feedRow (c : PendingCommit) (k : Nat) : Int × Int × Nat × Nat :=
  let t := c.tabs
  (t.feedFx k, t.feedFy k, t.feedFrac k, t.u16 4 (8 * k + 6))

/-- A feed outside -1,024 to 1,023 (R254). -/
def feedBad (v : Int) : Bool := v < -1024 || v > 1023

/-- The authorisation covers the set (R96): it is held, not reserved, and confirms the staged beam-state table. -/
def State.beamCovers (s : State) (c : PendingCommit) : Bool :=
  s.prot.beamAuth.any (fun b => b.reserved.isNone && b.crc == c.tabs.crc 3)

/-- The set changes dead or stuck-on entries (R96). -/
def State.beamChanges (s : State) (c : PendingCommit) : Bool := deadDiffer c.tabs.bstate s.tablesAfter.bstate

/-- SCH (R263). -/
def State.schRefuses (s : State) (c : PendingCommit) : Option Nat :=
  let rows := List.range 8
  let frac := fun k => (c.feedRow k).2.2.1
  firstReason [(0x01, c.val SCH_CTRL.MODE = 3),
    (0x02, c.val SCH_DWELL.DWELL_NS < 512 || c.val SCH_DWELL.DWELL_NS > 3744),
    (0x03, rows.any (fun k => feedBad (c.feedRow k).1 || feedBad (c.feedRow k).2.1)),
    (0x04, (List.range 6).any (fun k => frac k < 1 || frac k > 256) || frac 0 + frac 1 != 256 ||
      frac 2 + frac 3 + frac 4 + frac 5 != 256),
    (0x05, rows.any (fun k => (c.feedRow k).2.2.2 != 0) || (List.range 16).any (fun i => c.tabs.byte 4 (48 + i) != 0#8)),
    (0x06, c.tabs.dwell.any (fun e => e.2.toNat ≥ 128)),
    (0x07, s.beamChanges c && !s.beamCovers c)]

/-- HMC (R286). -/
def PendingCommit.hmcRefuses (c : PendingCommit) : Option Nat :=
  let pf := c.val HMC_CTRL.PANIC_FRAMES
  let pe := c.val HMC_CTRL.PANIC_EXIT
  firstReason [(0x01, pf < 4 || pf > 24 || pe ≤ pf || pe > 32), (0x02, c.val HMC_PD.PD_IDLE < 32),
    (0x03, c.val HMC_THROTTLE.THROTTLE_US = 0 || c.val HMC_THROTTLE.THROTTLE_US > 1000)]

/-- EMS (R316). -/
def PendingCommit.emsRefuses (c : PendingCommit) : Option Nat :=
  firstReason [(0x01, c.val EMS_FLASH_CFG.TMIN_SLOTS < 100 || c.val EMS_FLASH_CFG.TMIN_SLOTS > 1000),
    (0x02, c.val EMS_FLASH_CFG.OVS_LIMIT = 0 || c.val EMS_FLASH_CFG.OVS_LIMIT > 32),
    (0x03, c.val EMS_POS_CFG.JTOL_PU > 64 || c.val EMS_POS_CFG.FWD_MAX_PU < 2 || c.val EMS_POS_CFG.FWD_MAX_PU > 64),
    (0x04, c.val EMS_XTOL.XTOL_PU = 0 || c.val EMS_XTOL.XTOL_PU > 131071),
    (0x05, c.val EMS_TIMEOUT.FB_HOLD_MS = 0 || c.val EMS_TIMEOUT.FB_HOLD_MS > 1000)]

/-- SHL (R346). -/
def PendingCommit.shlRefuses (c : PendingCommit) : Option Nat :=
  let es := ((c.tabs.eq.map (fun e => e.1 / 4)).eraseDups).map c.tabs.eqEntry
  firstReason [
    (0x01, es.any (fun e => e.1 % 64 + e.2.1 % 64 + e.2.2.1 % 64 > 63 || e.2.1 % 64 < e.1 % 64 + e.2.2.1 % 64)),
    (0x02, es.any (fun e => e.1 ≥ 64 || e.2.1 ≥ 64 || e.2.2.1 ≥ 64 || e.2.2.2 != 0))]

/-- NLK (R373). -/
def State.nlkRefuses (s : State) (c : PendingCommit) : Option Nat :=
  firstReason [(0x01, c.val NLK_CTRL.LOSS_LIMIT = 0), (0x02, c.val NLK_CTRL.SOLO = 1 && s.isMirror)]

/-- A staged device-trim table breaks R384. -/
def trimsBreak (m : Memory) : Bool :=
  let bs := Sparse.getList (tableCold 8) m 0 16
  !trimHeadOk bs || (num bs 6 2 != 1 && num bs 6 2 != 2) || m.any (fun e => 44 ≤ e.1 && e.2 != 0#8)

/-- CAL (R387, R391). A flash that fails is refused later, with 0x06. -/
def State.calRefuses (s : State) (c : PendingCommit) : Option Nat :=
  let t := c.val CAL_CTRL.THRESH_C
  let g := c.val CAL_CTRL.GAP_MS
  firstReason [(0x01, t < 1 || t > 20), (0x02, g < 3 || g > 20),
    (0x03, (List.range 6).any (fun k => c.val (CAL_ITEM_CFG.METHOD k) > 1) || c.val (CAL_ITEM_CFG.METHOD 4) = 1 ||
      c.val (CAL_ITEM_CFG.METHOD 5) = 1),
    (0x04, trimsBreak c.tabs.trims),
    (0x05, c.storesTrims && !s.prot.flashWe),
    (0x07, c.storesTrims && (s.commits.storing.isSome || s.cal.store.isSome))]

/-- The reason with which block `k` refuses its part of a set. MGT, HIF, CDC, CSM, CHK, BST and PMU refuse none. -/
def State.refusal (s : State) (c : PendingCommit) (k : Nat) : Option Nat :=
  match k with
  | 2 => c.dmaRefuses
  | 4 => c.prsRefuses
  | 6 => c.pecRefuses
  | 7 => s.schRefuses c
  | 8 => c.hmcRefuses
  | 9 => c.emsRefuses
  | 10 => c.shlRefuses
  | 11 => s.nlkRefuses c
  | 13 => s.calRefuses c
  | _ => none

/-- The first block, in ascending index, that refuses a set, and its reason (R93). -/
def State.refusing (s : State) (c : PendingCommit) : Option (Nat × Nat) :=
  (List.range 16).findSome? (fun k => if bit c.mask k then (s.refusal c k).map (fun r => (k, r)) else none)

/-- A validated set that names SCH reserves an authorisation that covers it (R96): the first such COMMIT, whatever it
changes. -/
def State.reserveAuth (s : State) (c : PendingCommit) : State :=
  let reserve := fun (b : BeamAuth) => { b with reserved := some (c.q, c.idx) }
  if bit c.mask 7 && s.beamCovers c then { s with prot := { s.prot with beamAuth := s.prot.beamAuth.map reserve } }
  else s

/-- A validated set: it reserves the authorisation that covers it, is forwarded to the mirror, and waits; at a
boundary it takes effect at once. One that stores device trims first goes to serial flash (R387). -/
def State.commitValid (s : State) (c : PendingCommit) : State :=
  let s := (s.reserveAuth c).startEntry c.q c.idx
  if c.storesTrims then { s with commits := { s.commits with storing := some c } } else s.commitWaits c

/-- A well-formed COMMIT is taken (R34, R92, R93): with no block named it is EMPTY; else R117 first, then the set is copied
and validated as a whole, block by block. -/
def State.takeCommit (s : State) (e : Entry) : State :=
  let mask := num e.raw 8 4
  let id := num e.raw 12 4
  if mask = 0 then s.commitEnds e.q e.idx id 0x01 0 0
  else
    match s.gate e.raw with
    | .refuse status k => s.commitEnds e.q e.idx id status k 0
    | _ =>
      let s := s.bistYield (s.entryUses e.raw)
      let c := s.takeSet e.q e.idx mask id
      match s.refusing c with
      | some (k, r) => s.commitEnds e.q e.idx id 0x09 k r
      | none => s.commitValid c

end Sys2Proof.Machine
end

