-- ==== Sys2Proof/Machine/Rings.lean ====
section
/-! DEFINITION. The rings: enabling and disabling them, the doorbell page and polling, taking entries, the discard of a
stream's remaining buffers, the release of what a host reset kept, interrupt moderation, COMMIT and BARRIER as entries of
the CONTROL ring (R61, R69 to R77, R86, R88 to R90, R100, R109, R158). -/

namespace Sys2Proof.Machine

/-- TYPE of submission ring `q`: 1 STRIPE, 2 STREAM, 3 TABLE, 4 CODEC, 5 SCAN, 6 WITNESS, 7 CONTROL. -/
def State.sqType (s : State) (q : Nat) : Nat := s.reg (HIF_SQ_CFG.TYPE q)

/-- Some enabled ring has this TYPE. -/
def State.typeOn (s : State) (ty : Nat) : Bool := (List.range 64).any (fun q => s.sqOn q && s.sqType q == ty)

/-! ## Enabling (R73, R88, R100) -/

/-- The lowest-numbered free STREAM channel (R100). One with work left of a ring disabled since is not free (DESIGN
CHOICE, log entry 135). -/
def State.freeStreamChan (s : State) : Option Nat :=
  streamChans.find? (fun ch => s.reg (DMA_CH_STATUS.BOUND ch) == 0 && (s.chan ch).req.isNone &&
    !(s.chan ch).ring.any (fun q => s.owes q ch || s.liveStripe.any (fun st => st.req.streamSq == q)))

/-- STREAM channel `ch` is bound to ring `q` (R100). -/
def State.bindChan (s : State) (ch q : Nat) : State :=
  ((s.modChan ch (fun c => { c with ring := some q })).setReg (DMA_CH_STATUS.BOUND ch) 1).setReg (DMA_CH_STATUS.RING ch) q

/-- The enable of ring `q` is legal (R73, R100; HIF_SQ_CFG.TYPE and LOG2SIZE). -/
def State.sqMayEnable (s : State) (q : Nat) : Bool :=
  let ty := s.sqType q
  let k := s.reg (HIF_SQ_CFG.LOG2SIZE q)
  1 ≤ ty && ty ≤ 7 && 6 ≤ k && k ≤ 16 && !((ty == 1 || ty == 7) && s.typeOn ty) &&
  (ty != 2 || s.freeStreamChan.isSome)

/-- ENABLE of ring `q` goes from 0 to 1 (R73), or the enable is refused. -/
def State.sqEnable (s : State) (q : Nat) : State :=
  if s.sqMayEnable q then
    let s := match (if s.sqType q = 2 then s.freeStreamChan else none) with
      | some ch => s.bindChan ch q
      | none => s
    let ring := fun (r : SubRing) => { r with
      base := s.reg (HIF_SQ_BASE.ADDR q), size := 2 ^ s.reg (HIF_SQ_CFG.LOG2SIZE q), eq := s.reg (HIF_SQ_CFG.EQ q),
      cons := 0, written := 2 ^ 32,
      prodSeen := 0, discard := [], epoch := r.epoch + 1 }
    ((s.modRing q ring).setReg (HIF_SQ_CFG.ENABLE q) 1).setReg (HIF_SQ_CFG.HALTED q) 0
  else s.setReg (HIF_SQ_CFG.REFUSED q) 1

/-- ENABLE of ring `q` goes from 1 to 0: no entry is taken any more, a STREAM ring gives its channel up. -/
def State.sqDisable (s : State) (q : Nat) : State :=
  let s := s.setReg (HIF_SQ_CFG.ENABLE q) 0
  let free := fun (s : State) ch =>
    if s.boundTo q ch then s.setReg (DMA_CH_STATUS.BOUND ch) 0 else s
  if s.sqType q = 2 then streamChans.foldl free s else s

/-- A write of `w` to HIF_SQ_CFG(q) (R73): TYPE, LOG2SIZE and EQ are discarded while ENABLE is 1. -/
def State.sqCfgWrite (s : State) (q w : Nat) : State :=
  let s := if bit w 2 then s.setReg (HIF_SQ_CFG.REFUSED q) 0 else s
  if s.sqOn q then (if bit w 0 then s else s.sqDisable q)
  else
    let s := (s.setReg (HIF_SQ_CFG.TYPE q) (bits w 8 4)).setReg (HIF_SQ_CFG.LOG2SIZE q) (bits w 12 5)
    let s := s.setReg (HIF_SQ_CFG.EQ q) (bits w 17 3)
    if bit w 0 then s.sqEnable q else s

/-- After a host reset, once the ring that DEV_EQ names is enabled (R61): the outcomes kept, then the device events, on
that ring, ahead of what was held since. -/
def State.releaseKept (s : State) : State :=
  if s.hif.awaitDevEq && s.eqOn s.devEq then
    let held := (s.hif.keptOutcomes ++ s.hif.keptEvents).map (fun ev => (⟨s.devEq, ev⟩ : HeldEvent))
    { s with hif := { s.hif with awaitDevEq := false, keptOutcomes := [], keptEvents := [],
                                 hold := held ++ s.hif.hold } }.drainHeld
  else s

/-- A write of `w` to HIF_EQ_CFG(e) (R88): while ENABLE is 1 the size is discarded; an enable starts a first pass. -/
def State.eqCfgWrite (s : State) (e w : Nat) : State :=
  let s := s.setReg (HIF_EQ_CFG.VECTOR e) (bits w 13 6)
  if s.eqOn e then (if bit w 0 then s else s.setReg (HIF_EQ_CFG.ENABLE e) 0)
  else
    let k := bits w 8 5
    let s := s.setReg (HIF_EQ_CFG.LOG2SIZE e) k
    if bit w 0 && 6 ≤ k && k ≤ 16 then
      let ring : EvRing := { base := s.reg (HIF_EQ_BASE.ADDR e), size := 2 ^ k, prod := 0, written := 2 ^ 32,
                             consSeen := 0, uncovered := 0 }
      ((s.modEvRing e (fun _ => ring)).setReg (HIF_EQ_CFG.ENABLE e) 1).releaseKept.drainHeld
    else s

/-- A write of `w` to HIF_CTRL (R70, R109): DB_EN going to 1 starts polling, with event 0x21 when the page lies outside
every live window. -/
def State.hifCtrlWrite (s : State) (w : Nat) : State :=
  let was := s.reg HIF_CTRL.DB_EN
  let s := (s.setReg HIF_CTRL.DB_EN (bits w 0 1)).setReg HIF_CTRL.POLL_US (min 1000 (max 1 (bits w 8 10)))
  let s := { s.setReg HIF_CTRL.DEV_EQ (bits w 18 3) with hif := { s.hif with polling := bit w 0 } }
  (if was = 0 && bit w 0 then s.pageCheck else s).releaseKept

/-! ## The doorbell page (R69 to R72) -/

/-- A u32 of host memory. -/
def State.hostWord (s : State) (a : Nat) : Nat := unle (Memory.bytes s.host a 4)

/-- Write a u32 to host memory. -/
def State.hostWriteWord (s : State) (a v : Nat) : State := { s with host := Memory.write s.host a (le 4 v) }

/-- The consumer indices of the event rings, as the poll reads them. -/
def State.readCons (s : State) : State :=
  (List.range 8).foldl (fun s e =>
    if s.eqOn e then s.modEvRing e (fun r => { r with consSeen := s.hostWord (s.page + 0x100 + 4 * e) }) else s) s

/-- The producer index of ring `q`, as the poll reads it; one too far ahead halts the ring (R72). -/
def State.readProd (s : State) (q : Nat) : State :=
  if s.sqOn q && s.reg (HIF_SQ_CFG.HALTED q) = 0 then
    let p := s.hostWord (s.page + 4 * q)
    let r := s.ring q
    if idxDiff p r.cons > r.size then
      (s.setReg (HIF_SQ_CFG.HALTED q) 1).postDev 0x18 0x08 0 q (p + r.cons * 2 ^ 32)
    else s.modRing q (fun r => { r with prodSeen := p })
  else s

/-- SQ_CONS and EQ_PROD are written back where they changed (R70). -/
def State.writeBack (s : State) : State :=
  let sq := fun (s : State) q =>
    let r := s.ring q
    if s.sqOn q && r.written ≠ r.cons then
      ((s.hostWriteWord (s.page + 0x200 + 4 * q) r.cons).modRing q (fun r => { r with written := r.cons })).count 2 0x11 4
    else s
  let eq := fun (s : State) e =>
    let r := s.evRing e
    if s.eqOn e && r.written ≠ r.prod then
      ((s.hostWriteWord (s.page + 0x300 + 4 * e) r.prod).modEvRing e (fun r => { r with written := r.prod })).count 2 0x11 4
    else s
  (List.range 8).foldl eq ((List.range 64).foldl sq s)

/-! ## Taking entries (R74 to R77, R89, R396) -/

/-- The 64 bytes of the entry that ring `q` has next. -/
def State.nextRaw (s : State) (q : Nat) : List Byte :=
  let r := s.ring q
  Memory.bytes s.host (r.base + r.cons % r.size * 64) 64

/-- Park has been requested, by the strap or by a PARK entry taken: no entry is taken (R396). -/
def State.parkWaiting (s : State) : Bool :=
  s.bst.strapReq || s.bst.ringReq.isSome || s.hif.entries.any (fun e => rawOpc e.raw == 0x62)

/-- An entry may be taken from ring `q`: enabled, not halted, one is there within a live window, the holding queue has
more than its reserve free (R89), and no park is requested. -/
def State.mayTake (s : State) (q : Nat) : Bool :=
  let r := s.ring q
  s.sqOn q && s.reg (HIF_SQ_CFG.HALTED q) == 0 && idxDiff r.prodSeen r.cons != 0 &&
  s.inWindow (r.base + r.cons % r.size * 64) 64 && s.hif.hold.length ≤ holdSize - holdKeep && !s.parkWaiting

/-- A BARRIER or a PARK of ring `q` is taken and has not completed: nothing behind it is taken (R77). -/
def State.barred (s : State) (q : Nat) : Bool :=
  (s.entriesOf q).any (fun e => rawOpc e.raw == 0x61 || rawOpc e.raw == 0x62)

/-- Whether R77 lets the next entry of a STRIPE or CONTROL ring be taken: one ARM_STRIPE waiting; nothing after a
BARRIER or PARK, nor behind a store (R387); no ninth COMMIT (R93). A COMMIT that names a block under a test that does not
yield waits untaken (R404; DESIGN CHOICE, log entry 167). -/
def State.orderLets (s : State) (q : Nat) : Bool :=
  let raw := s.nextRaw q
  match s.sqType q with
  | 1 => rawOpc raw != 1 || (s.waiting.isNone && !(s.entriesOf q).any (fun e => rawOpc e.raw == 1 && !e.started))
  | 7 => !s.barred q && s.commits.storing.isNone &&
      (rawOpc raw != 0x60 || (s.commits.waiting.length < 8 && (malformed 7 raw || s.gate raw != .wait)))
  | _ => true

/-- The next entry of ring `q` is a COMMIT that the polls have seen, with no BARRIER or PARK before it. -/
def State.commitNext (s : State) (q : Nat) : Bool :=
  s.sqType q == 7 && s.mayTake q && !s.barred q && rawOpc (s.nextRaw q) == 0x60

/-- An ARM_STRIPE breaks the list of R79 on this chip. The mirror has no rings of its own: the lead has checked
STREAM_SQ. -/
def State.armBreaks (s : State) (r : ArmReq) : Bool :=
  r.rows = 0 || r.rows > 2 ^ 27 || r.lead < 512 || r.lead > 16384 ||
  !(r.passes == 1 || r.passes == 2 || r.passes == 4) || r.pass ≥ r.passes ||
  !(s.isMirror || (r.streamSq < 64 && s.sqOn r.streamSq && s.sqType r.streamSq == 2)) || r.resultLen < 64 ||
  r.originY ≥ 2 ^ 40 || r.originX ≥ 2 ^ 40 ||
  (List.range 16).any (fun k => s.onDataPath k && s.pwrReq k == 2)

/-- This chip's answer to an ARM_STRIPE that it takes (R15, R79): 0 when it passes. In a pair each chip answers for its
own trims: where the mirror alone is UNCALIBRATED the lead arms and the mirror drops its copy of the entry without a
message (DESIGN CHOICE, log entry 136). -/
def State.armAnswer (s : State) (r : ArmReq) : Nat :=
  if s.armBreaks r then 0x09 else if s.reg MGT_STATE.UNCAL = 1 then 0x12 else 0x00

/-- The entry as it is held once taken: an ARM_STRIPE is validated at that moment (R79). -/
def State.heldEntry (s : State) (q idx : Nat) (raw : List Byte) : Entry :=
  ⟨q, idx, raw, false, if rawOpc raw = 0x01 then s.armAnswer (armOf q idx raw) else 0⟩

/-- A malformed entry completes with MALFORMED (R76), a COMMIT with its COMMIT_ID (R87). -/
def State.malformedEnds (s : State) (e : Entry) : State :=
  if s.sqType e.q = 7 ∧ rawOpc e.raw = 0x60 then s.commitEnds e.q e.idx (num e.raw 12 4) 0x08 0 0
  else s.complete e.q e.idx 0x08 0 0 0

/-- Take the next entry of ring `q` (R75, R76): SQ_CONS advances, a malformed one completes with MALFORMED, a COMMIT is
validated at once (R34), the others are held; the lead of a pair forwards every one it takes (R348). -/
def State.takeEntry (s : State) (q : Nat) : State :=
  let raw := s.nextRaw q
  let r := s.ring q
  let e := s.heldEntry q (r.cons + 2 ^ 32 * r.epoch) raw
  let s := s.modRing q (fun r => { r with cons := (r.cons + 1) % 2 ^ 32 })
  let s := { s with hif := { s.hif with entries := s.hif.entries ++ [e] } }.count 1 0x11 1 |>.count 2 0x10 64
  let s := if s.joined then s.naluSend (.entry q r.cons raw) else s
  if malformed (s.sqType q) raw then s.malformedEnds e
  else if rawOpc raw = 0x60 then s.takeCommit e
  else s.bistYield (s.entryUses raw)

/-- Take up to `n` entries of ring `q`. -/
def State.takeEntries (q : Nat) : Nat → State → State
  | 0, s => s
  | n + 1, s => if s.mayTake q && s.orderLets q then State.takeEntries q n (s.takeEntry q) else s

/-- Discard the buffers of aborted stripes that ring `q` still names (R158), in up to `n` steps: each completes with ABORTED,
up to the one marked LAST or a foreign one. -/
def State.discardBufs (q : Nat) : Nat → State → State
  | 0, s => s
  | n + 1, s =>
    match s.discardsDue q with
    | [] => s
    | d :: _ =>
      if s.mayTake q then
        let raw := s.nextRaw q
        let b := streamOf raw
        let bad := malformed 2 raw
        if b.id ≠ d.1 || b.pass ≠ d.2.1 then State.discardBufs q n (s.discardOver q)
        else
          let idx := (s.ring q).cons + 2 ^ 32 * (s.ring q).epoch
          let s := s.takeEntry q
          let s := if bad then s else s.complete q idx 0x04 0 0 0
          State.discardBufs q n (if b.last && !bad then s.discardOver q else s)
      else s

/-- What a poll does with ring `q` once its producer index is read. STREAM rings are taken as their channel fetches
them (R77, R101). -/
def State.pollRing (s : State) (q : Nat) : State :=
  let r := s.ring q
  let n := idxDiff r.prodSeen r.cons
  if s.sqType q = 2 then State.discardBufs q (n + r.discard.length) s else State.takeEntries q n s

/-- One poll (R70, R74): a chip that services rings and is not the mirror reads the doorbell page if it lies within a
live window (R109), writes held events, takes entries from the CONTROL ring and then from the others in ascending
index, and writes indices back. -/
def State.poll (s : State) : State :=
  if s.serviced && s.hif.polling && !s.isMirror && s.inWindow s.page 4096 then
    let s := ((((s.wakeBlock 1).wakeBlock 2).count 1 0x10 1).count 2 0x10 0x120).readCons
    let s := ((List.range 64).foldl State.readProd s).drainHeld
    let control := (List.range 64).filter (fun q => s.sqType q == 7)
    let others := (List.range 64).filter (fun q => s.sqType q != 7)
    (others.foldl State.pollRing (control.foldl State.pollRing s)).writeBack
  else s

/-- DOORBELL_POLL (R70): a poll, and the one further poll that a nudge during the last one asked for. -/
def execDoorbellPoll (hw : Cells) (s : State) : Host.Outcome State Fault Refusal :=
  .next (
    let s := (s.hostWrites hw).poll
    if s.hif.pollAgain then { s with hif := { s.hif with pollAgain := false } }.poll else s)

/-- NUDGE (R70): a poll, or, with one under way, exactly one more after it. -/
def execNudge (underWay : Bool) (hw : Cells) (s : State) : Host.Outcome State Fault Refusal :=
  .next (
    let s := s.hostWrites hw
    if underWay then { s with hif := { s.hif with pollAgain := true } } else s.poll)

/-- EVENT_QUEUE_DRAIN (R89): held events are written as far as the rings have room. -/
def execEventQueueDrain (hw : Cells) (s : State) : Host.Outcome State Fault Refusal :=
  .next (
    let s := s.hostWrites hw
    if s.serviced then
      (if s.hif.polling && s.inWindow s.page 4096 then s.readCons else s).drainHeld
    else s)

/-- EQ_MOD_TIMER (R90). -/
def execEqModTimer (e : Nat) (s : State) : Host.Outcome State Fault Refusal :=
  .next (if s.eqOn e && s.reg (HIF_EQ_MOD.TIME_US e) ≠ 0 && (s.evRing e).uncovered ≠ 0 then s.raiseEq e else s)

/-! ## The CONTROL ring (R77, R86) -/

/-- The first entry of CONTROL ring `q` whose action has not begun, if it has this OPC and no earlier entry is a BARRIER
or PARK that runs (R77). -/
def State.nextControl (s : State) (q opc : Nat) : Option Entry :=
  let es := s.entriesOf q
  if es.any (fun e => e.started && rawOpc e.raw != 0x60) then none
  else ((es.filter (fun e => !e.started)).head?).filter (fun e => rawOpc e.raw == opc && s.orderOk e)

/-- COMMIT (R34, R77, R92, R93): the COMMIT that CONTROL ring `q` has next, and that R77 lets the engine take, is taken and
validated. A poll takes it as well. -/
def execCommit (q : Nat) (s : State) : Host.Outcome State Fault Refusal :=
  .next (if s.serviced && !s.isMirror && s.commitNext q && s.orderLets q then s.takeEntry q else s)

/-- BARRIER: it holds back the CONTROL ring until every entry taken before it has completed. -/
def execBarrier (q : Nat) (s : State) : Host.Outcome State Fault Refusal :=
  .next (
    match (if s.serviced then s.nextControl q 0x61 else none) with
    | none => s
    | some e => s.startEntry q e.idx)

/-- BARRIER_DONE: every entry taken before it, on any ring, has completed. -/
def execBarrierDone (s : State) : Host.Outcome State Fault Refusal :=
  .next (
    match (if s.serviced then s.hif.entries.head? else none) with
    | none => s
    | some e => if e.started && rawOpc e.raw == 0x61 then s.complete e.q e.idx 0x00 0 0 0 else s)

end Sys2Proof.Machine
end

