-- ==== Sys2Proof/Machine/Start.lean ====
section
/-! DEFINITION. Reset and start-up: RESET_N, the rails and clocks, CHIP_RESET, the phases from OFF to READY, park and
its restore (R41 to R60, R268 to R270, R392, R396 to R401). -/

namespace Sys2Proof.Machine

/-! ## What a cold start finds (R57, R97, R395) -/

/-- The chip with every block at its reset values and every table at its cold-start contents. What stands outside the
chip stays (host memory, serial flash, the balls), and so do MGT_RESET_CAUSE and the always-on domain (R392) with the
events it holds for the next READY (R400), HBM3, the HIF's link with its configuration space, and the count of values
drawn. -/
def State.cold (s : State) : State :=
  { State.reset with
    pending := s.pending, g := s.g, phase := s.phase, aon := s.aon, answer := s.answer, free := s.free, host := s.host,
    hbm := s.hbm, flash := s.flash, regs := keepFields (fun k => k / 64 == 0x24) s.regs,
    cfg := s.cfg, bst := { Bst.reset with heldEvents := s.bst.heldEvents }, prot := { Prot.reset with draws := s.prot.draws }, shl := { Shl.reset with draws := s.shl.draws } }

/-- OFF with RESET_N low (R54): the root is stopped, THERM_N released, the PCIe transmitters are in electrical idle. -/
def State.toOff (s : State) : State :=
  let aon := { s.aon with resetHigh := false, seenLow := true, rootLock := false, therm0 := false, therm1 := false }
  { s with g := .off, cfg := .reset, aon }

/-- The HIF at its reset values, its rings disabled, no STREAM channel bound. -/
def State.hifCold (s : State) : State :=
  let s := (List.range 9).foldl (fun s ch => s.setReg (DMA_CH_STATUS.BOUND ch) 0) s
  { s.resetWindow 1 with hif := .reset }

/-- No protection sequence has run since this reset (R98): what the last one left is gone, a pending one with it; the
registers that tell of it are cleared with it (DESIGN CHOICE, log entry 105). -/
def State.protForget (s : State) : State :=
  let prot := { s.prot with pending := none, lastItem := 0, lastLen := 0, lastCrc := 0, lastNonce := 0, smbReply := [],
                            smbAlert := false }
  [MGT_PROT_STATUS.STATE, MGT_PROT_STATUS.RESULT, MGT_PROT_STATUS.ITEM, MGT_PROT_CRC.VALUE, MGT_PROT_NONCE.VALUE].foldl
    (fun s f => s.setReg f 0) { s with prot }

/-- RESET_N_FALL (R54, R97, R401): OFF. In PARK with the tag written the saved image, the stack and the protected items
stay; in PARK without it the stack stays and the park is discarded; otherwise HBM3 contents are lost. -/
def execResetNFall (s : State) : Host.Outcome State Fault Refusal :=
  .next (
    if !s.aon.rails then { s with aon := { s.aon with resetHigh := false, seenLow := true } }
    else
      let t := if s.g == .park && s.bst.tag.isSome then s.hifCold.protForget
        else if s.g == .park || (s.g == .off && s.bst.tag.isNone) then s.cold
        else if s.g == .off then s
        else { s.cold with hbm := [] }
      t.toOff.setReg MGT_RESET_CAUSE.RESET_PIN 1)

/-- Blocks 2 to 12, which park switched off (R392, R397), are supplied again, and blocks 13 to 15 have their clocks; one
that was OFF stays OFF, one whose OFF request was pending is to be drained as before (R62, R395). -/
def State.domainsOn (s : State) : State :=
  let on := fun k => 2 ≤ k && (s.pwrReq k != 2 || s.bst.offPending.contains k)
  { s with power := s.power.mapIdx (fun k p => if on k then .run else p), bst := { s.bst with offPending := [] } }

/-- Domains 4 to 13 are switched off (R392, R397): blocks 2 to 12. Domain 14, blocks 13 to 15, stays on with its clocks
stopped, unless it was OFF. -/
def State.domainsOff (s : State) : State :=
  let off := fun k => 2 ≤ k && k ≤ 12
  { s with power := s.power.mapIdx (fun k p => if off k then .off else if 13 ≤ k && p != .off then .idle else p)
           bst := { s.bst with offPending := (List.range 16).filter (fun k => off k && s.pwrPending k) } }

/-- START begins at its first phase (R57): the quick path when the always-on domain holds a park tag, on which BST_PARK
shows the wake (R410). Calibration counts its runs and gaps anew (R383). -/
def State.startUp (s : State) (quick : Bool) : State :=
  let s := { s.domainsOn with g := .start, phase := .boot, quick, cal := { s.cal with ran := 0, applied := 0 }
                              bst := { s.bst with wakeAsked := false } }
  let s := if quick then s.setReg BST_PARK.PHASE 6 else s
  (List.range 6).foldl (fun s k => s.setReg (CAL_ITEM_STATUS.RUNS k) 0) (s.setReg CAL_STATUS.GAPS 0)

/-- What a programmer wrote into the serial flash in circuit while RESET_N was low (R46). -/
def State.programmed (s : State) (prog : Cells) : State :=
  { s with flash := prog.foldl (fun m c => Sparse.set flashByte m c.1 c.2) s.flash }

/-- RESET_N_RISE (R43, R46, R53): after at least 10 us low with the rails in range and REFCLK stable the start runs
from this edge, TWIN_ID sampled; the PCIe link trains to a speed and a width. -/
def execResetNRise (lowUs : Nat) (twinId : Bool) (speed width : Nat) (prog : Cells) (s : State) :
    Host.Outcome State Fault Refusal :=
  .next (
    if s.aon.resetHigh then s
    else
      let t := if s.aon.rails then s.programmed prog else s
      let t := { t with aon := { s.aon with resetHigh := true, twinPin := twinId } }
      if s.g == .off && s.aon.rails && s.aon.seenLow && 10 ≤ lowUs then
        { t with aon := { t.aon with mirror := twinId, refclk := true }
                 cfg := { Cfg.reset with speed, width } }.startUp s.bst.tag.isSome
      else t)

/-- POWER_LOSS (R54, R57, R97, R388): the park tag, HBM3, the protected items and every register are lost. -/
def execPowerLoss (s : State) : Host.Outcome State Fault Refusal :=
  .next (
    let t := { s.cold.toOff with hbm := [], regs := [], bst := .reset }.setReg MGT_RESET_CAUSE.POWER_ON 0
    { t with aon := { t.aon with rails := false, resetHigh := s.aon.resetHigh, seenLow := false } })

/-- RAILS_UP (R41, R53): POWER_ON is set; with RESET_N already high the engine stays in OFF until a low of 10 us. -/
def execRailsUp (resetHigh : Bool) (s : State) : Host.Outcome State Fault Refusal :=
  .next (
    if s.aon.rails then s
    else
      { s with aon := { s.aon with rails := true, resetHigh, seenLow := !resetHigh, refclk := true } }.setReg
        MGT_RESET_CAUSE.POWER_ON 1)

/-- An authorisation that no COMMIT reserves. -/
def BeamAuth.release (b : BeamAuth) : BeamAuth := { b with reserved := none }

/-- CHIP_RESET asked for with the right KEY (R59, R97): refused while a stripe is ARMED or RUN; else every block but the
HIF's link is reset, the protected items stay, and the cold path starts. -/
def State.chipReset (s : State) : State :=
  if s.stripeActive then s.setReg MGT_RESET.REFUSED 1
  else if s.g == .off then s
  else
    let prot : Prot :=
      { Prot.reset with
        windows := s.prot.windows, flashWe := s.prot.flashWe, pmuUser := s.prot.pmuUser, headKey := s.prot.headKey,
        draws := s.prot.draws, beamAuth := s.prot.beamAuth.map BeamAuth.release }
    let t := s.cold
    let t : State := { t with prot, aon := { t.aon with therm0 := false, therm1 := false } }
    (t.startUp false).setReg MGT_RESET_CAUSE.CHIP 1

/-- A write of `w` to MGT_RESET: without KEY 0x3C3C it is ignored as a whole. -/
def State.mgtResetWrite (s : State) (w : Nat) : State :=
  if bits w 16 16 ≠ 0x3C3C then s
  else
    let s := if bit w 1 then s.setReg MGT_RESET.REFUSED 0 else s
    if bit w 0 then s.chipReset else s

/-! ## The phases of START (R57, R58, R268 to R270) -/

/-- ROOT_PLL_LOCK (R47, R57): the root locks to REFCLK; the derived clocks and HEAD_REFCLK start. The Nalu lanes train
from here on (R370; log entry 86). -/
def execRootPllLock (s : State) : Host.Outcome State Fault Refusal :=
  .next (
    if s.g == .start && s.phase == .boot then
      { s with phase := .locked, aon := { s.aon with rootLock := true, refclk := true } }.naluTrain
    else s)

/-- The image the boot ROM chooses (R58): the higher version of the slots whose CRC is good; of two good slots with one
version R58 names neither, and the model takes slot 0 (DESIGN CHOICE, log entry 143). -/
def chooseImage : Option FwImage → Option FwImage → Option FwImage
  | some a, some b => some (if a.version < b.version then b else a)
  | some a, none => some a
  | none, b => b

/-- FIRMWARE_IMAGE_CHECK (R58), on the cold path: the slots whose CRC-32C is good. -/
def execFirmwareImageCheck (slot0 slot1 : Option FwImage) (s : State) : Host.Outcome State Fault Refusal :=
  .next (
    if s.g == .start && s.phase == .locked && !s.quick then
      match chooseImage slot0 slot1 with
      | some im => { s with phase := .imaged, bst := { s.bst with expect := im.expect } }.setReg MGT_REV.FW_VERSION
          im.version
      | none => s.holdSafe 2
    else s)

/-- The repairs found so far, and the failure that ends training: pseudo-channel and kind (HMC_TRAIN). -/
structure Training where
  lanes : List (Nat × Nat × Nat)
  cas : List Nat
  fail : Option (Nat × Nat)
  deriving DecidableEq, Repr

/-- A lane fails (R269): a loopback error, or a centred eye narrower than 0.30 UI or lower than 60 mV. -/
def laneFails (t : LaneTest) : Bool := t.loopErr || t.width < 30 || t.height < 60

/-- A finding of training that is a failure (R269). -/
def findingFails : TrainFinding → Bool
  | .lane _ _ _ t | .redundant _ _ t | .ca _ _ t | .caRedundant _ t => laneFails t
  | .strobe _ window => !window

/-- One finding of training (R269): one repair per byte group and per channel's command/address lanes; a redundant lane
matters once it is used. -/
def Training.find (t : Training) (f : TrainFinding) : Training :=
  if t.fail.isSome || !findingFails f then t
  else
    match f with
    | .lane pc group lane _ =>
      if t.lanes.any (fun l => l.1 == pc && l.2.1 == group) then { t with fail := some (pc, 2) }
      else { t with lanes := t.lanes ++ [(pc, group, lane)] }
    | .redundant pc group _ =>
      if t.lanes.any (fun l => l.1 == pc && l.2.1 == group) then { t with fail := some (pc, 3) } else t
    | .ca channel _ _ =>
      if t.cas.contains channel then { t with fail := some (2 * channel, 1) } else { t with cas := t.cas ++ [channel] }
    | .caRedundant channel _ => if t.cas.contains channel then { t with fail := some (2 * channel, 3) } else t
    | .strobe pc _ => { t with fail := some (pc, 4) }

/-- Record one lane repair: lane replaced in [2:0], valid in [7]. -/
def State.repair (s : State) (l : Nat × Nat × Nat) : State :=
  let v := l.2.2 % 8 + 128
  match l.2.1 with
  | 0 => s.setReg (HMC_REPAIR.BYTE0 l.1) v
  | 1 => s.setReg (HMC_REPAIR.BYTE1 l.1) v
  | 2 => s.setReg (HMC_REPAIR.BYTE2 l.1) v
  | 3 => s.setReg (HMC_REPAIR.BYTE3 l.1) v
  | _ => s.setReg (HMC_REPAIR_ECC.BYTE0 l.1) v

/-- The engine leaves the quick path for the cold path from its HBM3 phase (R270, R284, R398): every block at its reset
values, the firmware image still in use: the version from before park, with no slot checked (DESIGN CHOICE, log entry
141). The Nalu lanes, reset with the others, train (R353). -/
def State.coldFromHbm (s : State) : State :=
  let fw := s.reg MGT_REV.FW_VERSION
  let expect := s.bst.expect
  let t := s.cold
  { t with g := .start, phase := .imaged, quick := false, bst := { t.bst with expect } }.naluTrain.setReg MGT_REV.FW_VERSION fw

/-- The stack is up (R268): RAAIMT and RAAMMT as read from it. RAA and the ports' ACT counts start at 0, on the quick path
too (DESIGN CHOICE, log entry 164). -/
def State.stackTrained (s : State) (raaimt raammt : Nat) : State :=
  let s := (s.setReg HMC_RH.RAAIMT raaimt).setReg HMC_RH.RAAMMT raammt
  let s := (s.setReg HMC_STATUS.TRAINED 1).setReg HMC_STATUS.SELF_REFRESH 0
  { s with phase := .stackUp, hmc := { s.hmc with pcs := Hmc.reset.pcs, srCancelled := false, srHeld := false } }

/-- HBM_TRAINING (R268 to R270): full training with lane repair on the cold path; on the quick path the stack leaves
self-refresh with the saved repair map, and any failing lane or window sends the engine to the cold path. -/
def execHbmTraining (found : List TrainFinding) (raaimt raammt : Nat) (s : State) : Host.Outcome State Fault Refusal :=
  .next (
    if s.g != .start then s
    else if s.quick && s.phase == .locked then
      (if found.any findingFails then s.coldFromHbm else s.stackTrained raaimt raammt)
    else if !s.quick && s.phase == .imaged then
      let t := found.foldl Training.find ⟨[], [], none⟩
      let s := t.lanes.foldl State.repair s
      let s := s.setReg HMC_TRAIN.REPAIRS (t.lanes.length + t.cas.length)
      match t.fail with
      | none => (s.setReg HMC_TRAIN.RESULT 0x00).stackTrained raaimt raammt
      | some (pc, kind) =>
        let s := ((s.setReg HMC_TRAIN.RESULT 0x04).setReg HMC_TRAIN.FAIL_PC pc).setReg HMC_TRAIN.FAIL_KIND kind
        let c := s.fresh 8
        c.2.enterSafe 6 c.1 true
    else s)

/-! ## The park record (R398) -/

/-- HBM3 address of the park record. -/
def parkRecordAddr : Nat := 0x2C8000000

/-- HBM3 address and size of the saved firmware image. -/
def firmwareArea : Nat × Nat := (0x2C8400000, 0x400000)

/-- HBM3 address and size of the saved gatekeeper data. -/
def gatekeeperArea : Nat × Nat := (0x2C8800000, 0x800000)

/-- The areas of R397 step 3 hold bytes that the manual does not give (log entry 8). -/
def State.saveAreas (s : State) : State := ((s.saveArea firmwareArea).saveArea gatekeeperArea).saveArea sramArea

/-- The bytes of a part of the park save area. -/
def State.savedBytes (s : State) (area : Nat × Nat) : List Byte := Memory.bytes s.hbm area.1 area.2

/-- IMAGE_CRC of what the park save area holds. -/
def State.imageCrc (s : State) : Nat := crc32c 0 (s.savedBytes sramArea)

/-- FW_CRC of what the park save area holds. -/
def State.fwCrc (s : State) : Nat := crc32c 0 (s.savedBytes firmwareArea ++ s.savedBytes gatekeeperArea)

/-- The live protected items as MGT_PROT_LIVE gives them. -/
def State.protLive (s : State) : Nat :=
  b2n s.prot.flashWe + b2n s.prot.pmuUser * 2 + b2n s.prot.headKey.isSome * 4 + b2n s.prot.beamAuth.isSome * 8 +
  s.prot.windows.length * 2 ^ 8

/-- Bytes 0 to 507 of the park record. -/
def State.parkBody (s : State) (count bistPass : Nat) : List Byte :=
  le 4 0x4B524150 ++ le 2 1 ++ le 1 (s.reg MGT_REV.STEPPING) ++ le 1 0 ++ le 2 (s.reg MGT_REV.FW_VERSION) ++ le 2 0 ++
  le 4 count ++ le 8 Config.dieId ++ le 4 s.imageCrc ++ le 4 s.fwCrc ++
  le 2 bistPass ++ le 2 0 ++ le 4 s.protLive ++
  (List.range 32).flatMap (fun pc => [s.reg (HMC_REPAIR.BYTE0 pc), s.reg (HMC_REPAIR.BYTE1 pc),
    s.reg (HMC_REPAIR.BYTE2 pc), s.reg (HMC_REPAIR.BYTE3 pc), s.reg (HMC_REPAIR_ECC.BYTE0 pc), 0, 0, 0].map
      (BitVec.ofNat 8)) ++
  List.replicate 212 0#8

/-- The 512-byte park record. -/
def State.parkRecord (s : State) (count bistPass : Nat) : List Byte :=
  let b := s.parkBody count bistPass
  b ++ le 4 (crc32c 0 b)

/-- Write the park record into HBM3. -/
def State.writeParkRecord (s : State) (count bistPass : Nat) : State :=
  s.hbmWrite parkRecordAddr (s.parkRecord count bistPass)

/-- The record in HBM3 passes CHECK, matches the tag and the areas beside it, and names the running stepping and the
version of the valid image in serial flash, `image` (R57, R398). -/
def State.recordOk (s : State) (image : Option Nat) : Bool :=
  let r := Memory.bytes s.hbm parkRecordAddr 512
  num r 508 4 == crc32c 0 (r.take 508) && s.bst.tag == some (num r 12 4, num r 508 4) &&
  num r 6 1 == s.reg MGT_REV.STEPPING && image == some (num r 8 2) && num r 24 4 == s.imageCrc && num r 28 4 == s.fwCrc

/-- PARK_RESTORE (R284, R398), on the quick path: the record is checked and the park save area read back by the GATE
channels; a mismatch or an uncorrectable read sends the engine to the cold path from its HBM3 phase. -/
def execParkRestore (image : Option Nat) (ecc : EccReads) (s : State) :
    Host.Outcome State Fault Refusal :=
  .next (
    if s.g == .start && s.quick && s.phase == .stackUp then
      let r := s.eccRead 4 parkRecordAddr 0x8000000 ecc
      match r.2 with
      | some w => r.1.coldFromHbm.uncorrectable 4 w 0x04
      | none => if s.recordOk image then { r.1 with phase := .restored } else r.1.coldFromHbm
    else s)

/-! ## Park (R396, R397, R399, R400) -/

/-- The wait of R396 is over: no stripe ARMED or RUN or waiting to arm, every entry taken has completed but the PARK
itself, no calibration gap, no test. -/
def State.parkReady (s : State) : Bool :=
  s.g == .ready && s.stripe.isNone && s.waiting.isNone && s.cal.gap.isNone && s.bst.test.isNone &&
  s.commits.storing.isNone && s.hif.entries.all (fun e => s.bst.ringReq == some (e.q, e.idx))

/-- The engine enters PARK (R397 steps 1 and 2): the PARK entry completes and indices are written back, polling stops,
the links go idle; saving begins. -/
def State.enterPark (s : State) : State :=
  let s := match s.bst.ringReq with
    | some (q, idx) => s.complete q idx 0x00 0 0 0
    | none => s
  let s := if s.hif.polling && !s.isMirror && s.inWindow s.page 4096 then s.writeBack else s
  let s := (s.linkStop .down).naluDown
  { s with
    g := .park
    port := .reset
    hif := { s.hif with polling := false, pollAgain := false }
    bst := { s.bst with strapReq := false, ringReq := none } }.setReg BST_PARK.PHASE 2

/-- PARK_ENTER (R397). -/
def execParkEnter (s : State) : Host.Outcome State Fault Refusal :=
  .next (if s.parkWaiting && s.parkReady then s.enterPark else s)

/-- PARK_SAVE_DONE (R281, R397, R398): the areas are saved, the record is written, self-refresh entry begins. -/
def execParkSaveDone (s : State) : Host.Outcome State Fault Refusal :=
  .next (
    if s.g == .park && s.reg BST_PARK.PHASE = 2 then
      let n := (s.bst.parkCount + 1) % 2 ^ 32
      let s := { s with bst := { s.bst with parkCount := n } }.setReg BST_PARK.PARKS n
      (s.saveAreas.writeParkRecord n 0).srEnter
    else s)

/-- A quick start begins without a reset (R401): MGT_RESET_CAUSE.WAKE. -/
def State.quickStart (s : State) : State :=
  ((s.setReg MGT_RESET_CAUSE.WAKE 1).setReg BST_PARK.WAKE_HELD 0).startUp true

/-- A wake from PARK without a tag: the cold path, on which no protected item stays (R97, R399, R401). -/
def State.coldStart (s : State) : State := s.cold.startUp false

/-- The lead of a pair forwards its wake to the mirror (R396): counted, since the manual gives no message for it. -/
def State.wakeSent (s : State) (n : Nat) : State := { s with nlk := { s.nlk with wakesSent := n } }

/-- What a wake trigger starts in PARK (R401), or that it is held until the steps of R397 have ended. -/
def State.wakeNow (s : State) : State :=
  if s.reg BST_PARK.PHASE = 5 then s.quickStart
  else if s.reg BST_PARK.PHASE = 0 then s.coldStart
  else s.setReg BST_PARK.WAKE_HELD 1

/-- A wake trigger (R401): it acts in PARK alone; the lead of a pair forwards it (R396). -/
def State.wake (s : State) : State :=
  if s.g != .park then s
  else if s.nlk.paired && !s.isMirror then s.wakeNow.wakeSent (s.nlk.wakesSent + 1)
  else s.wakeNow

/-- A write of 1 to BST_PARK_CTRL.WAKE: the bit reads 1 while the wake is held (R10, R401). -/
def State.wakeWrite (s : State) : State :=
  let held := s.g == .park && s.reg BST_PARK.PHASE ≠ 5 && s.reg BST_PARK.PHASE ≠ 0
  { s with bst := { s.bst with wakeAsked := s.bst.wakeAsked || held } }.wake

/-- The bits of BIST_PASS: the blocks that passed park BIST. -/
def State.parkPass (s : State) (runs : List BistRun) : Nat :=
  ((List.range 16).map (fun k => b2n (runs.any (fun r => r.block == k && s.bistPasses 2 r)) * 2 ^ k)).sum

/-- Park BIST ends NOT_RUN (R399, R407): its blocks' results show it, and no tag is written. -/
def State.parkNotRun (s : State) : State :=
  (((s.bistBlocks 2).foldl (fun s k => s.bistNotRun 2 k) s).setReg BST_PARK.BIST_STATUS 0x0A).setReg BST_PARK.PHASE 0

/-- PARK_BIST_DONE (R397 step 6, R399): `ran` tells whether the preconditions of R407 held. A pass writes the tag and
switches domains 4 to 13 off; NOT_RUN leaves PARK untagged; a failure holds the engine in SAFE. A held wake follows. -/
def execParkBistDone (ran : Bool) (runs : List BistRun) (entryMs bistMs : Nat) (s : State) :
    Host.Outcome State Fault Refusal :=
  .next (
    let s := s.srCommit
    if s.g == .park && s.reg BST_PARK.PHASE = 4 then
      let s := s.setReg BST_PARK_MS.BIST_MS (sat 16 bistMs)
      let held := s.reg BST_PARK.WAKE_HELD == 1
      if !ran then
        if held then s.parkNotRun.coldStart else s.parkNotRun
      else
        let runs := runs.filter (fun r => parkBlocks.contains r.block)
        let t := runs.foldl (fun t r => t.bistJudge 2 r) s
        if s.bistAllPass 2 runs then
          let n := t.bst.parkCount
          let t := t.writeParkRecord n (s.parkPass runs)
          let check := num (Memory.bytes t.hbm parkRecordAddr 512) 508 4
          let t := { t.domainsOff with bst := { t.bst with tag := some (n, check) } }
          let t := (t.setReg BST_PARK.PHASE 5).setReg BST_PARK_MS.ENTRY_MS (sat 16 entryMs)
          let t := t.setReg BST_PARK.BIST_STATUS 0x00
          if held then t.quickStart else t
        else ((t.setReg BST_PARK.BIST_STATUS 0x07).setReg BST_PARK.PHASE 0).holdSafe 1
    else s)

/-- PARK_WAKE (R401): a write of 1 to BST_PARK_CTRL.WAKE. -/
def execParkWake (s : State) : Host.Outcome State Fault Refusal :=
  .next s.wakeWrite

/-- A strap request of park (R44, R396). -/
def State.strapPark (s : State) : State :=
  { s with bst := { s.bst with strapReq := true } }.setReg BST_PARK.PHASE 1

/-- PARK_REQ_FALL (R44, R396): park is requested at the next stripe boundary. -/
def execParkReqFall (s : State) : Host.Outcome State Fault Refusal :=
  .next (
    let t := { s with aon := { s.aon with parkHigh := false } }
    if s.serviced then t.strapPark else t)

/-- PARK_REQ_RISE (R44, R396, R401): a quick start from PARK, or the withdrawal of a strap request. -/
def execParkReqRise (s : State) : Host.Outcome State Fault Refusal :=
  .next (
    let t := { s with aon := { s.aon with parkHigh := true } }
    if s.g == .park then (if s.aon.parkHigh then t else t.wake)
    else if s.bst.strapReq then
      let t := { t with bst := { t.bst with strapReq := false } }
      if s.bst.ringReq.isNone then t.setReg BST_PARK.PHASE 0 else t
    else t)

/-- PARK (R86, R396): park is requested from the CONTROL ring; the entry completes when PARK is entered. -/
def execPark (q : Nat) (s : State) : Host.Outcome State Fault Refusal :=
  .next (
    s.onEntry q 0x62 (fun s e =>
      if (s.entriesOf q).any (fun x => !x.started && x.idx < e.idx) then s
      else { s.startEntry q e.idx with bst := { s.bst with ringReq := some (q, e.idx) } }.setReg BST_PARK.PHASE 1))

/-! ## READY (R57, R383, R400, R401) -/

/-- Post a device event that was held in PARK. -/
def State.postHeld (s : State) (ev : Event) : State :=
  if !s.isMirror then s.putEvent s.devEq ev
  else if s.nlk.linkUp then s.naluSend (.event ev)
  else s.holdEvent s.devEq ev

/-- READY_REACHED (R57): start-up ends; the device events held in PARK are posted, polling resumes where it stopped, the
shutter link knocks if LINK_EN is 1, and with PARK_REQ_N low the engine parks at once (R44). -/
def execReadyReached (ms : Nat) (s : State) : Host.Outcome State Fault Refusal :=
  .next (
    if s.g == .start && (if s.quick then s.phase == .trimsRead && s.startCalDone else s.phase == .tested) then
      let s := s.startCalEnds
      let held := s.bst.heldEvents
      let bst : Bst := { s.bst with heldEvents := [], tag := none }
      let hif : Hif := { s.hif with polling := s.reg HIF_CTRL.DB_EN == 1 }
      let s : State := { s with g := .ready, cc := 0, bst, hif }
      let s := ((s.setReg MGT_STATE.START_MS (sat 16 ms)).setReg MGT_STATE.QUICK (b2n s.quick)).setReg BST_PARK.PHASE 0
      let s := s.setReg MGT_STATE.UNCAL (1 - s.reg CAL_STATUS.TRIMS_VALID)
      let s := (s.setReg PMU_SNAP_SEQ.SEQ 0).calReady
      let s := held.foldl State.postHeld s
      let s := if s.reg SHL_CTRL.LINK_EN = 1 then s.startKnock else s
      if s.aon.parkHigh then s
      else
        let s := s.strapPark
        if s.parkReady then s.enterPark else s
    else s)

end Sys2Proof.Machine
end

