-- ==== Sys2Proof/Machine/Power.lean ====
section
/-! DEFINITION. Power states of the blocks (R62, R116 to R118, R392 to R395). -/

namespace Sys2Proof.Machine

/-! ## Draining (R62, R394) -/

/-- Block `k` serves a request: one it issued is in flight (for SHL a knock or a CHALLENGE that is not answered), or one to
it was started and is unfinished: a ring entry, or an item of the calibration run in progress. -/
def State.busyBlock (s : State) (k : Nat) : Bool :=
  s.hif.entries.any (fun e => e.started && opcType (rawOpc e.raw) != 1 && (targets e.raw).contains k) ||
  (match k with
   | 2 => s.chans.any (fun c => c.req.isSome) || s.pmu.writing.isSome
   | 3 => s.cdc.engines.any (fun j => j.isSome)
   | 10 => s.shl.challenge.isSome || s.shl.st == .knock
   | 11 => !s.nlk.unacked.isEmpty
   | 12 => s.scans.any (fun j => j.isSome)
   | 13 => s.cal.gap.isSome || s.reg CAL_DERIVE.BUSY == 1 || s.commits.storing.isSome || s.cal.store.isSome
   | 14 => s.bst.test.isSome
   | 15 => s.pmu.writing.isSome
   | _ => false) ||
  (List.range 6).any (fun j => s.itemDue j && itemUses j k)

/-- Block `k` works on the stripe ARMED, WAIT_SOS, RUN or TAIL: DMA, CDC and PRS until its stream has been read to the
end, CSM and PEC until its last band is retired, NLK and CHK in a joined pair, the others throughout. What counts as work
of a block the manual does not say (DESIGN CHOICE, log entry 168). -/
def State.stripeWork (s : State) (k : Nat) : Bool :=
  match s.liveStripe with
  | none => false
  | some st =>
    match k with
    | 2 | 3 | 4 => !s.prs.finished
    | 5 | 6 => s.prs.retired < bandsOf st.req.rows
    | 7 | 8 | 9 | 10 => true
    | 11 | 12 => s.joined
    | _ => false

/-- Block `k` has work that the model sees. A stripe that waits to arm is an accepted request to every data-path
block. -/
def State.hasWork (s : State) (k : Nat) : Bool :=
  (s.onDataPath k && s.waiting.isSome) || s.stripeWork k || s.busyBlock k

/-- R118: the DMA block stays while DB_EN is 1 or any ring is enabled. -/
def State.dmaKept (s : State) : Bool :=
  s.reg HIF_CTRL.DB_EN == 1 || (List.range 64).any s.sqOn || (List.range 8).any s.eqOn

/-- Block `k` is drained (R394), a data-path block not before the next stripe boundary (R62). -/
def State.drained (s : State) (k : Nat) : Bool :=
  !s.hasWork k && !(s.onDataPath k && s.stripeActive) && !(k == 2 && s.dmaKept) && !s.underTest k

/-! ## Going OFF and coming back (R395) -/

/-- What block `k` holds is lost (R395): its registers, staged and live fields and tables return to reset values and
cold-start contents. HMC keeps the stack refreshed and loses nothing (R280); SHOTS last proved are kept until a cold start
(R336). -/
def State.loseBlock (s : State) (k : Nat) : State :=
  let s := { s with tabLive := s.tabLive.coldBlock k, tabStaged := s.tabStaged.coldBlock k }.resetWindow k
  match k with
  | 2 => { s with chans := State.reset.chans }
  | 3 => { s with cdc := .reset }
  | 4 => { s with prs := .reset }
  | 5 => { s with csm := .reset }
  | 6 => { s with pec := .reset }
  | 9 => { s with port := .reset, lastOutcome := [] }
  | 10 => { s with shl := { Shl.reset with draws := s.shl.draws, provedShots := s.shl.provedShots } }
  | 11 =>
    let lost := s.nlk.partnerFenced || s.nlk.paired
    { s with nlk := { Nlk.reset with paired := s.nlk.paired, partnerFenced := lost, partnerHard := s.nlk.partnerHard } }
  | 12 => { s with scans := State.reset.scans, scanWait := [] }
  | 13 => { s with cal := { Cal.reset with temps := s.cal.temps, baseline := s.cal.temps } }.readTrims
  | 15 => { s with pmu := .reset }
  | _ => s

/-- A pseudo-channel in power-down. -/
def PseudoChan.powerDown (c : PseudoChan) : PseudoChan := { c with down := true }

/-- The Nalu link has ended with NLK (R366): event 0x60; a lead continues alone, its mirror is one that rejoins, and a
mirror fences itself. -/
def State.linkOff (s : State) : State :=
  let s := (s.naluState 0x06).freeBufs
  if s.isMirror then s.fenceChip 0x09 else s

/-- Block `k` goes OFF. HMC places every pseudo-channel in power-down (R280); with NLK the link of a pair is lost. -/
def State.goOff (s : State) (k : Nat) : State :=
  if k = 8 then { s with hmc := { s.hmc with pcs := s.hmc.pcs.map PseudoChan.powerDown } }.setPwr 8 .off
  else
    let t := (s.loseBlock k).setPwr k .off
    if k = 11 && s.nlk.linkUp then t.linkOff else t

/-- Field `k` of MGT_PWR_REQ becomes `v` (R62, R395). -/
def State.pwrFieldWrite (s : State) (k v : Nat) : State :=
  let old := s.pwrReq k
  let r := s.reg MGT_PWR_REQ.REQ
  let s := s.setReg MGT_PWR_REQ.REQ (r - old * 4 ^ k + v * 4 ^ k)
  if v = 2 then
    if old = 2 then s
    else if s.drained k then s.goOff k
    else s.postDev 0x10 0x11 0 k s.pwrPend
  else if old = 2 && s.pwr k == .off && s.g != .park then s.setPwr k .run
  else s

/-- A write of `w` to MGT_PWR_REQ: MGT and HIF are always AUTO, a field written 0b11 stays. -/
def State.pwrReqWrite (s : State) (w : Nat) : State :=
  (List.range 14).foldl (fun s i =>
    let v := bits w (2 * (i + 2)) 2
    if v = 3 || v = s.pwrReq (i + 2) then s else s.pwrFieldWrite (i + 2) v) s

/-- BLOCK_DRAINED_OFF (R62, R394). -/
def execBlockDrainedOff (k : Nat) (s : State) : Host.Outcome State Fault Refusal :=
  .next (if s.pwrPending k && s.drained k && s.g != .off then s.goOff k else s)

/-! ## IDLE and NAP (R393) -/

/-- BLOCK_IDLE_TIMER (R393): 64 cc without work. -/
def execBlockIdleTimer (k : Nat) (s : State) : Host.Outcome State Fault Refusal :=
  .next (if s.pwr k == .run && s.pwrReq k != 2 && !s.hasWork k then s.setPwr k .idle else s)

/-- Block `k` may enter NAP (R118, R393); in PARK the domains are as R392 has them. -/
def State.mayNap (s : State) (k : Nat) : Bool :=
  s.g != .park && s.pwrReq k == 0 && k != 0 && k != 1 && k != 8 && !(k == 11 && s.joined) && !(k == 2 && s.dmaKept) &&
  !(s.onDataPath k && s.stripeActive) && !s.hasWork k

/-- BLOCK_NAP_TIMER (R393): 1 ms in IDLE without work. -/
def execBlockNapTimer (k : Nat) (s : State) : Host.Outcome State Fault Refusal :=
  .next (if s.pwr k == .idle && s.mayNap k then s.setPwr k .nap else s)

/-- A block that the request of channel `ch` uses is in NAP (R116). -/
def State.wakeWait (s : State) (ch : Nat) : Bool :=
  (s.chan ch).req.any (fun r => (s.entry? r.q r.idx).any (fun e => (targets e.raw).any (fun k => s.pwr k == .nap)))

/-- BLOCK_WAKE (R116): block `k` is in RUN and the channel that held its burst for it goes on, unless another block that
it uses is still in NAP. -/
def execBlockWake (k ch : Nat) (s : State) : Host.Outcome State Fault Refusal :=
  .next (
    let s := s.wakeBlock k
    s.setReg (DMA_CH_STATUS.WAKE_WAIT ch) (b2n (s.wakeWait ch)))

end Sys2Proof.Machine
end

