-- ==== Sys2Proof/Machine/Protect.lean ====
section
/-! DEFINITION. The two-party protection store: staging over PCIe, confirmation over SMBus (R94 to R98, R350). -/

namespace Sys2Proof.Machine

/-- The bytes of the staging area from its start. -/
def State.stageBytes (s : State) (n : Nat) : List Byte :=
  ((List.range 64).flatMap (fun i => le 4 (s.reg (MGT_PROT_STAGE.DATA i)))).take n

/-- A staged window: base and length multiples of 4 KiB, the end not beyond 2^64 (R94, R95). -/
def windowOk (w : Nat × Nat) : Bool := w.1 % 4096 == 0 && w.2 % 4096 == 0 && w.1 + w.2 ≤ 2 ^ 64

/-- LEN fits the item and the staged value keeps its column of R94 (R95). -/
def itemOk (item len : Nat) (bs : List Byte) : Bool :=
  match item with
  | 1 => len % 16 == 0 && len ≤ 256 && (windowsOf bs).all windowOk
  | 2 | 5 => len == 1 && num bs 0 1 ≤ 1
  | 3 => len == 32
  | 4 => len == 4
  | _ => false

/-- A protection sequence is PENDING. -/
def State.protPending (s : State) : Bool := s.prot.pending.isSome

/-- The staging area is cleared of a head key, which is never readable (R337, log entry 106). -/
def State.keyForget (s : State) : State :=
  if s.prot.lastItem = 3 then (List.range 64).foldl (fun s i => s.setReg (MGT_PROT_STAGE.DATA i) 0) s else s

/-- A protection sequence ends with a status (R95): event 0x11, RESULT, STATE back to IDLE, SMB_ALERT_N released. The
staged value is discarded, but the MGT_PROT_STAGE words of items 1, 2, 4 and 5 read on as written (DESIGN CHOICE, log
entry 154). -/
def State.protEnd (s : State) (status : Nat) : State :=
  let s := { s.keyForget with prot := { s.prot with pending := none, smbAlert := false } }
  let s := ((s.setReg MGT_PROT_STATUS.STATE 0).setReg MGT_PROT_STATUS.RESULT status).count 0 0x11 1
  s.postDev 0x11 status 0 (s.prot.lastItem + s.prot.lastLen * 2 ^ 16) (s.prot.lastCrc + s.prot.lastNonce * 2 ^ 32)

/-- An item is accepted (R96): an authorisation is held at once; another item is live at once when no stripe is ARMED or
RUN, else at the next stripe boundary. An authorisation replaces one that is still held or reserved (DESIGN CHOICE, log
entry 107). -/
def State.protAccept (s : State) (item : Nat) (bs : List Byte) : State :=
  if item = 4 then { s with prot := { s.prot with beamAuth := some ⟨num bs 0 4, none⟩ } }
  else if s.stripeActive then { s with prot := { s.prot with waiting := s.prot.waiting ++ [(item, bs)] } }
  else s.itemLive item bs

/-- CMD = STAGE (R95). The mirror takes no beam-state authorisation (R350). -/
def State.protStage (s : State) : State :=
  let item := s.reg MGT_PROT_CTRL.ITEM
  let len := s.reg MGT_PROT_CTRL.LEN
  let bs := s.stageBytes len
  if s.protPending then s.setReg MGT_PROT_STATUS.RESULT 0x11
  else if !itemOk item len bs || (item == 4 && s.isMirror) then
    (s.setReg MGT_PROT_STATUS.RESULT 0x09).setReg MGT_PROT_STATUS.ITEM item
  else
    let crc := crc32c 0 bs
    let nonce := (Config.protNonce s.prot.draws).toNat
    let s := ((s.setReg MGT_PROT_CRC.VALUE crc).setReg MGT_PROT_NONCE.VALUE nonce).setReg MGT_PROT_STATUS.STATE 1
    { s.setReg MGT_PROT_STATUS.ITEM item with
      prot := { s.prot with pending := some (item, bs), lastItem := item, lastLen := len, lastCrc := crc,
                            lastNonce := nonce, draws := s.prot.draws + 1, smbAlert := true } }

/-- A write of `w` to MGT_PROT_CTRL: ITEM and LEN are stored, CMD acts. -/
def State.protCtrlWrite (s : State) (w : Nat) : State :=
  let s := (s.setReg MGT_PROT_CTRL.ITEM (bits w 8 3)).setReg MGT_PROT_CTRL.LEN (bits w 16 9)
  match bits w 0 2 with
  | 1 => s.protStage
  | 2 => if s.protPending then s.protEnd 0x04 else s
  | _ => s

/-! ## SMBus (R45, R98) -/

/-- The SMBus target address (R45). -/
def State.smbTarget (s : State) : Nat := if s.isMirror then 0x5B else 0x5A

/-- The engine answers a command to SMBus address `target`: its rails are in range, RESET_N is high (R46), and the
address is its own. -/
def State.smbLive (s : State) (target : Nat) : Bool := s.g != .off && target == s.smbTarget

/-- What a block read returns. -/
def State.smbAnswer (s : State) (bs : List Byte) : State := { s with prot := { s.prot with smbReply := bs } }

/-- PROT_STATUS (R98). -/
def execProtStatus (target : Nat) (pecOk : Bool) (s : State) : Host.Outcome State Fault Refusal :=
  .next (
    if s.smbLive target && pecOk then
      s.smbAnswer (le 1 (b2n s.protPending) ++ le 1 s.prot.lastItem ++ le 2 s.prot.lastLen ++ le 4 s.prot.lastCrc ++
        le 4 s.prot.lastNonce)
    else s)

/-- PROT_READ (R98): 32 staged bytes; 0 past LEN, and 0 while STATE is IDLE. -/
def execProtRead (target count offset32 : Nat) (pecOk : Bool) (s : State) : Host.Outcome State Fault Refusal :=
  .next (
    if s.smbLive target && pecOk && count = 1 then
      let staged := (s.prot.pending.map (·.2)).getD []
      let bs := (staged.drop (32 * offset32)).take 32
      s.smbAnswer (bs ++ List.replicate (32 - bs.length) 0#8)
    else s)

/-- PROT_CONFIRM (R95, R98). -/
def execProtConfirm (target count crc nonce : Nat) (pecOk : Bool) (s : State) : Host.Outcome State Fault Refusal :=
  .next (
    match s.prot.pending with
    | none => s
    | some (item, bs) =>
      if s.smbLive target && pecOk && count = 8 then
        if crc = s.prot.lastCrc && nonce = s.prot.lastNonce then (s.protAccept item bs).protEnd 0x00
        else s.protEnd 0x07
      else s)

/-- PROT_REFUSE (R95, R98). -/
def execProtRefuse (target count : Nat) (pecOk : Bool) (s : State) : Host.Outcome State Fault Refusal :=
  .next (if s.smbLive target && pecOk && count = 0 && s.protPending then s.protEnd 0x07 else s)

/-- PROT_TIMEOUT (R95): no confirmation within 1 s. -/
def execProtTimeout (s : State) : Host.Outcome State Fault Refusal :=
  .next (if s.protPending then s.protEnd 0x06 else s)

end Sys2Proof.Machine
end

