-- ==== Sys2Proof/Machine/Finding.lean ====
section
/-! DEFINITION. What ends a stripe from inside (R159, R201, R301, R362): at once on a chip whose stripe no partner
carries, and in a pair once the partner has met the same cause at the same point. -/

namespace Sys2Proof.Machine

/-- A device event of this chip's block, as R91 forms it. -/
def devEvent (code status info d0 d1 : Nat) : Event := ⟨status, 2, 0, 0xFF, code, info, d0 % 2 ^ 64, d1 % 2 ^ 64⟩

/-- Post the events of a confirmed finding, once, on the lead (R362). A mirror that carries the stripe alone while its
lead is fenced posts none: R352 has the lead post what both chips find, and the lead has found nothing (DESIGN CHOICE,
log entry 109). -/
def State.postEvents (s : State) (evs : List Event) : State :=
  evs.foldl (fun s ev => s.postOnce ev.code ev.status ev.info ev.data0 ev.data1) s

/-- The stripe ends for a cause that is confirmed or that needs no confirmation. -/
def State.endFor (s : State) (f : Finding) : State :=
  let s := { s with nlk := { s.nlk with myFindings := [], theirFindings := [] } }
  (s.postEvents f.posts).abortStripe f.cause

/-- Two findings agree (R362): the same cause at the same point; two chips late at the same step agree whatever the late
stage (R201). -/
def Finding.same (a b : Finding) : Bool := a.kind == b.kind && a.point == b.point && (a.kind == 1 || a.code == b.code)

/-- The entry step at which a chip that forwards no further band is late (R201): 256 b - L of the first band b whose
band b + 19 it has not released, or the last step. -/
def State.heldStep (s : State) (st : Stripe) : Int :=
  min (256 * ((s.prs.released : Int) - 19)) (st.final : Int) - st.req.lead

/-- The partner has passed the point of a finding without it (R362): it has decided the flash, or completed the step. A
stream finding is bounded by R201: the partner has completed the step at which this chip, holding, is late, or has met a
stream fault farther on (DEDUCED, log entry 108). -/
def State.passedBy (s : State) (f : Finding) : Bool :=
  let stepped := fun (m : Int) => s.nlk.votes.any (fun v => m ≤ v.step && v.theirs.isSome)
  match f.kind with
  | 0 => s.liveStripe.any (fun st => stepped (s.heldStep st)) ||
      s.nlk.theirFindings.any (fun g => g.kind == 0 && f.point < g.point)
  | 1 => stepped f.point
  | _ => s.nlk.theirDecisions.any (fun d => f.point ≤ d.1)

/-- This chip meets a stripe-ending cause (R362): with no partner to carry the stripe it ends at once; in a pair the
chip sends FINDING and holds, or the stripe ends if the partner has already met it, or the chip fences itself if the
partner has passed the point. -/
def State.finding (s : State) (f : Finding) : State :=
  if !s.stripeActive then s
  else if !s.covered then s.endFor f
  else if s.fence.isSome then s
  else
    let s := s.naluSend (.finding f.kind f.point f.code)
    if s.nlk.theirFindings.any f.same then s.endFor f
    else if s.passedBy f then s.fenceChip 0x04
    else { s with nlk := { s.nlk with myFindings := s.nlk.myFindings ++ [f] } }

/-- The chip holds at a finding of its own (R362): it decides no flash, forwards no band, takes no step. -/
def State.holding (s : State) : Bool := !s.nlk.myFindings.isEmpty

/-- A stream fault at a byte offset (R157, R159, R173): its event, and cause 0x02. -/
def State.streamFault (s : State) (offset reason : Nat) (evs : List Event) : State :=
  s.finding { kind := 0, point := offset, code := reason, posts := evs, cause := 0x02 }

/-- A STREAM or FEED channel stops while its stripe is ARMED or RUN (R114): a chip that carries the stripe alone aborts
it; in a pair the chip fences itself. -/
def State.channelLost (s : State) : State :=
  if s.liveStripe.isNone then s
  else if s.covered then s.fenceChip 0x03
  else s.abortStripe 0x04

/-- Stop the request of a channel (R112) and, on the STREAM channel of the stripe, what R114 says. -/
def State.stopRequest (s : State) (ch status cause : Nat) : State :=
  let live := s.liveStripe.any (fun st => s.streamChan st.req.streamSq == some ch)
  let s := s.stopChan ch status cause
  if live then s.channelLost else s

end Sys2Proof.Machine
end

