-- ==== Sys2Proof/Machine/Entries.lean ====
section
/-! DEFINITION. The STRIPE ring (R78 to R80). -/

namespace Sys2Proof.Machine

/-- What an ARM_STRIPE does once this chip has validated it (R15, R79): in a joined pair it is refused as well where the
partner has a data-path block at OFF (R63, R349). -/
def State.armEntry (partnerOff : Bool) (s : State) (e : Entry) : State :=
  if s.waiting.isSome then s
  else if e.answer = 0x09 || (s.joined && partnerOff) then s.complete e.q e.idx 0x09 0 0 0
  else if e.answer = 0x12 then s.complete e.q e.idx 0x12 0 0 0
  else { s.startEntry e.q e.idx with waiting := some (armOf e.q e.idx e.raw), cal := { s.cal with turn := false } }

/-- ARM_STRIPE (R79): refused, or held waiting to arm. -/
def execArmStripe (q : Nat) (partnerOff : Bool) (s : State) : Host.Outcome State Fault Refusal :=
  .next (s.onEntry q 0x01 (State.armEntry partnerOff))

/-- The ARM_STRIPEs among the given entries that are taken and not answered are answered now: R79 validates an ARM_STRIPE
when it is taken, so what comes after it finds it refused or waiting. -/
def State.armTaken (s : State) (partnerOff : Bool) (es : List Entry) : State :=
  (es.filter (fun e => rawOpc e.raw == 0x01 && !e.started)).foldl (State.armEntry partnerOff) s

/-- A stripe whose ARM_STRIPE stands behind the entry `e` on its ring: `e` does not act on it (R77). -/
def Entry.before (e : Entry) (r : ArmReq) : Bool := r.q == e.q && e.idx < r.idx

/-- What an ABORT_STRIPE does (R80): the stripe of that identity aborts, or is dropped while it waits; its outcome event
comes before the completion. -/
def State.abortEntry (partnerOff : Bool) (s : State) (e : Entry) : State :=
  let id := num e.raw 8 4
  let s := s.armTaken partnerOff (s.entriesBefore e.q e.idx)
  if s.liveStripe.any (fun st => st.req.id == id && !e.before st.req) then
    (s.abortStripe 0x01).complete e.q e.idx 0x00 0 0 0
  else
    match s.waiting.filter (fun r => r.id == id && !e.before r) with
    | some r => (s.endUnarmed true r 0x01).complete e.q e.idx 0x00 0 0 0
    | none => s.complete e.q e.idx 0x09 0 0 0

/-- ABORT_STRIPE (R80); `partnerOff` answers for the partner an ARM_STRIPE that is still to be answered. -/
def execAbortStripe (q : Nat) (partnerOff : Bool) (s : State) : Host.Outcome State Fault Refusal :=
  .next (s.onEntry q 0x02 (State.abortEntry partnerOff))

end Sys2Proof.Machine
end

