-- ==== Sys2Proof/Machine/Dma.lean ====
section
/-! DEFINITION. The DMA channels: the stream of a stripe, link descriptors, pacing, tables, stops and halts (R81, R82,
R99 to R118). -/

namespace Sys2Proof.Machine

/-! ## Pacing (R102) -/

/-- Q of channel `ch`: of a CODEC channel the 64 KiB input of the codec, of a FEED channel the 256 KiB input of its
decompressor, of a STREAM channel its staging queue. -/
def State.queueSize (s : State) (ch : Nat) : Nat :=
  if dmaClass ch = 3 then 0x10000 else if dmaClass ch = 6 then 0x40000 else 2 ^ s.lv (DMA_CH_CFG.QLOG2 ch)

/-- A pacing mark of channel `ch` in bytes: its 64ths of Q. -/
def State.mark (s : State) (ch m : Nat) : Nat := m * s.queueSize ch / 64

/-- What channel `ch` may still read into its queue, which holds `fill` bytes: in FILLING up to HIGH, in HELD nothing
until the queue has drained to LOW. -/
def State.paceRoom (s : State) (ch fill : Nat) : Nat :=
  if s.reg (DMA_CH_STATUS.HELD ch) = 1 && fill > s.mark ch (s.lv (DMA_CH_CFG.LOW ch)) then 0
  else s.mark ch (s.lv (DMA_CH_CFG.HIGH ch)) - fill

/-- The bytes of the piece in work that a STREAM or CODEC channel may read now. -/
def State.mayMove (s : State) (ch : Nat) (p : Piece) : Nat := min (p.len - p.moved) (s.paceRoom ch (s.stagedCount ch))

/-- Move what STREAM channel `ch` may read into its staging queue; HELD while some of the piece has to wait. -/
def State.move (s : State) (ch : Nat) (r : Request) : State :=
  let n := s.mayMove ch r.piece
  let got := (List.range n).map (fun i => pieceByte s.host r.piece (r.piece.moved + i))
  let req := { r with piece := { r.piece with moved := r.piece.moved + n }, delivered := r.delivered + n }
  let s := (s.modChan ch (fun c => { c with req := some req })).stagePut ch got
  let s := { s with cdc := { s.cdc with feed := { s.cdc.feed with fetched := s.cdc.feed.fetched + n } } }
  (s.setReg (DMA_CH_STATUS.HELD ch) (b2n (r.piece.moved + n < r.piece.len))).count 2 0x10 n

/-- The last byte of a STREAM_BUF has been fetched (R81): the channel is free; the buffer completes, on the lead of a
pair only once the mirror has fetched it too; the mirror reports it. -/
def State.bufDone (s : State) (ch : Nat) (r : Request) : State :=
  let s := s.chanRecord ch 0x00 0 r.delivered 0
  let s := (s.modChan ch (fun c => { c with req := none })).setReg (DMA_CH_STATUS.HELD ch) 0
  let mine := (r.q, r.idx % 2 ^ 32)
  if s.isMirror then (s.naluSend (.fetched mine.1 mine.2)).dropEntry r.q r.idx
  else if s.covered && !s.nlk.fetchedByMirror.contains mine then s
  else
    { s with nlk := { s.nlk with fetchedByMirror := s.nlk.fetchedByMirror.filter (fun x => x != mine) } }.complete
      r.q r.idx 0x00 0 0 0

/-- TRANSFER_COMPLETE on a STREAM channel: bytes move; with the piece whole and no further descriptor the buffer is
fetched; after the 4,096th descriptor the request stops with LOOP (R107). -/
def State.streamTransfer (s : State) (ch : Nat) : State :=
  match (s.chan ch).req with
  | none => s
  | some r =>
    if s.reg (DMA_CH_STATUS.WAKE_WAIT ch) = 1 then s
    else
      let s := s.move ch r
      match (s.chan ch).req with
      | none => s
      | some r =>
        if r.piece.moved < r.piece.len then s
        else if r.next = 0 then s.bufDone ch r
        else if r.hops = 4096 then s.stopRequest ch 0x05 5
        else s

/-! ## STREAM_BUF (R81, R101, R158, R170) -/

/-- The whole Azrad blocks of a coded stream whose bytes from a block's header on are `bs` (R173): `fuel` bounds the
blocks looked at. -/
def wholeBlocks : Nat → List Byte → Nat
  | 0, _ => 0
  | n + 1, bs =>
    let len := 8 + num bs 4 4
    if bs.length < 8 || bs.length < len then 0 else 1 + wholeBlocks n (bs.drop len)

/-- The blocks that the stream of a feed held before the byte now to be fetched (R173, reason 0x0C): 0 in RAW mode. -/
def State.blocksHeld (s : State) (ch : Nat) : Nat :=
  let f := s.cdc.feed
  let bs := f.buf ++ s.stagedBytes ch (s.stagedCount ch)
  let bs := if f.dec.phase = 0 then bs.drop 4 else bs
  if f.raw == some true then 0 else f.block + wholeBlocks bs.length bs

/-- Event 0x28, AZRAD_FAULT (R173), of the stripe in work. -/
def azradEvent (st : Stripe) (reason offset block : Nat) : Event :=
  devEvent 0x28 (if reason = 0x0B then 0x07 else 0x08) reason (offset % 2 ^ 48) (st.req.id + block % 2 ^ 32 * 2 ^ 32)

/-- The coded stream being fed ends before its END block with a status of no rule of R169: the decompressor of the
block in work records it (R186; log entry 115). -/
def State.feedEnds (s : State) (status : Nat) : State :=
  if s.cdc.feed.decoding then s.engineEnds (s.cdc.feed.block % s.feedWidth) status 0 else s

/-- A buffer that does not belong to the stripe being parsed completes with MALFORMED, and the stripe ends (R81). -/
def State.bufForeign (s : State) (e : Entry) : State :=
  ((s.feedEnds 0x08).complete e.q e.idx 0x08 0 0 0).streamFault s.cdc.feed.fetched 0 []

/-- A buffer whose RAW flag differs from the first one's completes with MALFORMED, and the stripe ends with event 0x28,
reason 0x0C (R170, R173), which the decompressor of the block in work records. -/
def State.bufMixed (s : State) (ch : Nat) (st : Stripe) (e : Entry) : State :=
  let ev := azradEvent st 0x0C s.cdc.feed.fetched (s.blocksHeld ch)
  let s := s.engineEnds (s.cdc.feed.block % s.feedWidth) 0x08 0x0C
  (s.complete e.q e.idx 0x08 0 0 0).streamFault s.cdc.feed.fetched 0x0C [ev]

/-- The decompressors begin a coded stream (R170, R186): the counts of those in the feed start at 0. -/
def State.feedBegins (s : State) (raw : Bool) : State :=
  if raw || s.cdc.feed.raw.isSome then s
  else (List.range s.feedWidth).foldl (fun s k => (s.setReg (CDC_ENG_IN.IN k) 0).setReg (CDC_ENG_OUT.OUT k) 0) s

/-- The channel takes up one buffer of the stripe in work. -/
def State.bufStart (s : State) (ch : Nat) (st : Stripe) (e : Entry) : State :=
  let b := streamOf e.raw
  if b.id ≠ st.req.id || b.pass ≠ st.req.pass then s.bufForeign e
  else if s.cdc.feed.raw.any (fun m => m != b.raw) then s.bufMixed ch st e
  else
    let feed := { s.cdc.feed with raw := some b.raw, lastTaken := b.last }
    let s := { s.feedBegins b.raw with cdc := { s.cdc with feed } }
    if b.len = 0 && b.link = 0 then
      let s := if s.isMirror then s.dropEntry e.q e.idx else s
      s.complete e.q e.idx 0x01 0 0 0
    else
      let s := s.startReq ch e b.addr b.len b.link
      if (s.chan ch).req.isNone then s.channelLost else s

/-- A STREAM_BUF of ring `q` that is taken and not started. -/
def State.bufTaken (s : State) (q : Nat) : Option Entry :=
  s.hif.entries.find? (fun e => e.q == q && !e.started && opcType (rawOpc e.raw) == 2)

/-- The next STREAM_BUF of ring `q`: the lead takes it from the ring, the mirror has it from the lead. One with ORDER
set waits until every earlier one has completed (R76). -/
def State.nextBuf (s : State) (q : Nat) : State × Option Entry :=
  let s := if !s.isMirror && (s.bufTaken q).isNone && s.mayTake q then s.takeEntry q else s
  (s, (s.bufTaken q).filter s.orderOk)

/-- STREAM_BUF (R81, R101, R158): buffers of ended stripes are discarded; else the channel of the ring takes the next one
when its stripe is ARMED or RUN, the LAST buffer has not been taken, and the channel is free and not halted. -/
def execStreamBuf (q : Nat) (hw : Cells) (s : State) : Host.Outcome State Fault Refusal :=
  .next (
    let s := s.hostWrites hw
    if !s.serviced || !(s.isMirror || s.sqType q == 2) then s
    else
      let r := s.ring q
      let s := if s.isMirror then s.mirrorDrops q
        else State.discardBufs q (idxDiff r.prodSeen r.cons + r.discard.length) s
      match s.liveStripe, s.streamChan q with
      | some st, some ch =>
        if st.req.streamSq = q && !s.cdc.feed.lastTaken && (s.chan ch).req.isNone &&
            s.reg (DMA_CH_STATUS.HALTED ch) = 0 && (s.discardsDue q).isEmpty then
          match s.nextBuf q with
          | (s, some e) => s.bufStart ch st e
          | (s, none) => s
        else s
      | _, _ => s)

/-! ## Link descriptors (R104 to R108) -/

/-- The host memory range that a descriptor's data may touch: plainly its bytes, with WRAP the whole region. -/
def Descriptor.range (d : Descriptor) : Nat × Nat :=
  if d.wrap then (d.addr / 2 ^ d.wrapLog2 * 2 ^ d.wrapLog2, 2 ^ d.wrapLog2) else (d.addr, d.len)

/-- A fetched descriptor: checked, counted as a hop, and made the piece in work. Its 32 bytes are read where LINK or
NEXT points, a multiple of 32 or not (DESIGN CHOICE, log entry 110). -/
def State.descriptor (s : State) (ch : Nat) (r : Request) : State :=
  if !s.inWindow r.next 32 then s.stopRequest ch 0x09 3
  else
    let d := descOf (Memory.bytes s.host r.next 32)
    let piece : Piece := { addr := d.addr, len := d.len, swap := d.swap, moved := 0,
                           wrap := if d.wrap then d.wrapLog2 else 0 }
    let r' := { r with hops := r.hops + 1, named := r.named + d.len }
    let keep := fun (q : Request) (s : State) => s.modChan ch (fun c => { c with req := some q })
    let s := (s.count 2 0x13 1).count 2 0x10 32
    if d.bad then (keep r' s).stopRequest ch 0x08 4
    else if d.len ≠ 0 && !s.inWindow d.range.1 d.range.2 then (keep r' s).stopRequest ch 0x09 3
    else keep { r' with piece, next := d.next } s

/-- DESCRIPTOR_FETCH (R107, R108): once the piece before it has moved, the next descriptor of a STREAM channel's request
is read and checked; an empty one at the end of its chain ends the buffer at once. -/
def execDescriptorFetch (ch : Nat) (hw : Cells) (s : State) : Host.Outcome State Fault Refusal :=
  .next (
    let s := s.hostWrites hw
    let s := if s.serviced then s.streamTransfer ch else s
    match (if s.serviced then (s.chan ch).req else none) with
    | none => s
    | some r =>
      if dmaClass ch ≠ 1 || r.next = 0 || r.hops = 4096 || r.piece.moved < r.piece.len ||
          s.reg (DMA_CH_STATUS.WAKE_WAIT ch) = 1 then s
      else s.descriptor ch r)

/-! ## Tables (R82, R351) -/

/-- The table that an entry names, as this chip holds it: 0x0107 and 0x0108 name the mirror's 7 and 8 (R351). -/
def TableOp.table (t : TableOp) : Nat := if t.id = 0x107 || t.id = 0x108 then t.id - 0x100 else t.id

/-- The entry names a table of the mirror alone. -/
def TableOp.ofMirror (t : TableOp) : Bool := t.id == 0x107 || t.id == 0x108

/-- A table entry that R82 or R351 refuses: an unknown table, a range past its end, a table of the mirror without one.
-/
def State.tableBad (s : State) (t : TableOp) : Bool :=
  (9 < t.id && !t.ofMirror) || t.offset + t.len > tableSize t.table || (t.ofMirror && !s.covered)

/-- A LOAD_TABLE or SAVE_TABLE starts on the lowest-numbered free TABLE channel (R101), or waits for one. -/
def State.tableEntry (s : State) (e : Entry) : State :=
  let t := tableOf e.raw
  if t.len = 0 then s.complete e.q e.idx 0x01 0 0 0
  else if s.tableBad t then s.complete e.q e.idx 0x09 0 0 0
  else
    match s.freeChan 3 with
    | none => s
    | some ch => s.startReq ch e t.addr t.len 0

/-- Chunks of table `id` are on their way to the partner. -/
def State.sending (s : State) (id : Nat) : Bool :=
  s.nlk.unacked.any (fun m => match m.msg with | .tableChunk i _ _ => i == id | _ => false)

/-- What has come of the mirror's table for the SAVE_TABLE with this entry (R351). -/
def State.savedFor (s : State) (q idx : Nat) : List Byte :=
  ((s.nlk.saves.find? (fun x => x.1 == q && x.2.1 == idx)).map (·.2.2)).getD []

/-- Nothing is kept any more for the SAVE_TABLE with this entry. -/
def State.saveOver (s : State) (q idx : Nat) : State :=
  { s with nlk := { s.nlk with saves := s.nlk.saves.filter (fun x => !(x.1 == q && x.2.1 == idx)) } }

/-- A job on a table of the mirror, which is fenced or absent now, ends with REJECTED (R351). -/
def State.mirrorGone (s : State) (ch : Nat) : State :=
  match (s.chan ch).req with
  | none => s
  | some r => (s.endReq ch 0x09 0 0 0).saveOver r.q r.idx

/-- The bytes of a load have arrived (R82): the check, the staged copy, the mirror's copy; the entry completes once both
chips hold the data, a fenced mirror included; without a mirror its own tables are REJECTED (R351). -/
def State.loadArrives (s : State) (ch : Nat) (r : Request) (t : TableOp) : State :=
  let done := fun (s : State) => s.modChan ch (fun c => { c with
    req := some { r with piece := { r.piece with moved := t.len }, delivered := t.len } })
  if t.ofMirror && !s.covered then s.mirrorGone ch
  else if r.piece.moved = t.len then
    (if s.sending t.id then s else s.endReq ch 0x00 0 t.check 0)
  else
    let bs := Memory.bytes s.host t.addr t.len
    let crc := crc32c 0 bs
    let s := (done s).count 2 0x10 t.len
    if crc ≠ t.check then s.endReq ch 0x07 0 crc 0
    else
      let s := if t.ofMirror then s else { s with tabStaged := s.tabStaged.write t.table t.offset bs }
      let alone := !s.joined || (!t.ofMirror && (t.id = 7 || t.id = 8))
      if alone then s.endReq ch 0x00 0 crc 0 else s.sendTable t.id t.offset bs

/-- The bytes of a save: the live copy, or those the mirror has sent; without a mirror it is REJECTED (R351). -/
def State.saveRuns (s : State) (ch : Nat) (r : Request) (t : TableOp) : State :=
  let bs := if t.ofMirror then s.savedFor r.q r.idx else s.tabLive.bytes t.table t.offset t.len
  if t.ofMirror && !s.covered then s.mirrorGone ch
  else if bs.length < t.len then s
  else
    let s := { s with host := Memory.write s.host t.addr bs }.count 2 0x11 t.len
    let s := (s.saveOver r.q r.idx).modChan ch (fun c => { c with req := some { r with
      piece := { r.piece with moved := t.len }, delivered := t.len } })
    s.endReq ch 0x00 0 (crc32c 0 bs) 0

/-- TRANSFER_COMPLETE on a TABLE channel. -/
def State.tableTransfer (s : State) (ch : Nat) : State :=
  match (s.chan ch).req with
  | none => s
  | some r =>
    match (if s.reg (DMA_CH_STATUS.WAKE_WAIT ch) = 1 then none else s.entry? r.q r.idx) with
    | none => s
    | some e =>
      let s := if rawOpc e.raw = 0x20 then s.loadArrives ch r (tableOf e.raw) else s.saveRuns ch r (tableOf e.raw)
      s.pump 3 State.tableEntry

/-- LOAD_TABLE (R82). -/
def execLoadTable (q : Nat) (hw : Cells) (s : State) : Host.Outcome State Fault Refusal :=
  .next ((s.hostWrites hw).onEntry q 0x20 State.tableEntry)

/-- SAVE_TABLE (R82). -/
def execSaveTable (q : Nat) (s : State) : Host.Outcome State Fault Refusal :=
  .next (s.onEntry q 0x21 State.tableEntry)

/-! ## Completion, stops and halts (R110 to R114) -/

/-- The flushing read after a record's body returns (R418): its header is written. -/
def State.snapshotDone (s : State) : State :=
  match s.pmu.writing with
  | none => s
  | some (a, head, seq) =>
    let s := { s with host := Memory.write s.host a head, pmu := { s.pmu with writing := none } }
    (((s.setReg PMU_SNAP_SEQ.SEQ seq).setReg PMU_SNAP_STATUS.LAST_STATUS 0x00).count 15 0x10 1).count 2 0x11 64

end Sys2Proof.Machine
end

