-- ==== Sys2Proof/Machine/Codec.lean ====
section
/-! DEFINITION. The codec: the feed of a stripe's stream to the parser, and host jobs (R102, R170 to R186). -/

namespace Sys2Proof.Machine

/-! ## The parser's stalls (R199, R234) -/

/-- Bands whose density is complete. -/
def State.densed (s : State) : Nat := (s.reg PEC_BAND_DENS.BAND + 1) % 2 ^ 32

/-- Bands whose B and F are complete. -/
def State.blurred (s : State) : Nat := (s.reg PEC_BAND_B.BAND + 1) % 2 ^ 32

/-- The pre-scan waits for a grid slot (R234): band k is written only once B of band k - 55 is complete. -/
def State.waitGrid (s : State) : Bool := s.densed < s.prs.released && s.densed ≥ s.blurred + 55

/-- The parser is stalled by AHEAD_MAX or by the pre-scan (R199, R234). -/
def State.stallAhead (s : State) : Bool := s.reg PRS_STATUS.STALL_AHEAD == 1 || s.waitGrid

/-- The parser reads no decoded input and its input queue is full (R199); the manual does not give the queue's size
(DESIGN CHOICE, log entry 16). -/
def State.inputFull (s : State) : Bool :=
  (s.reg PRS_STATUS.STALL_LAQ == 1 || s.stallAhead) && 65536 ≤ s.prs.input.length

/-! ## The feed (R99, R102, R170 to R173) -/

/-- Change the stream feed. -/
def State.setFeed (s : State) (f : Feed) : State := { s with cdc := { s.cdc with feed := f } }

/-- Everything of the stream has been fetched: the LAST buffer is taken and its channel is done. -/
def State.fetchedAll (s : State) (st : Stripe) : Bool :=
  s.cdc.feed.lastTaken && ((s.streamChan st.req.streamSq).all (fun ch => (s.chan ch).req.isNone))

/-- `n` bytes of the staging queue of STREAM channel `ch` have been read: at LOW the channel is FILLING again (R102). -/
def State.stagingRead (s : State) (ch n : Nat) : State :=
  let s := s.stageTake ch n
  if s.stagedCount ch ≤ s.mark ch (s.lv (DMA_CH_CFG.LOW ch)) then s.setReg (DMA_CH_STATUS.HELD ch) 0 else s

/-- The FEED channels read the first `n` bytes of the staging queue of STREAM channel `ch` through port 4 (R284): what
follows from the bytes when none of them is beyond correction. -/
def State.feedRead (s : State) (ch n : Nat) (ecc : EccReads) (next : State → List Byte → State) : State :=
  let o := (s.chan ch).rd % s.stagingSize ch
  let k := min n (s.stagingSize ch - o)
  let bs := s.stagedBytes ch n
  let rest := fun (s : State) => if n = k then next (s.stagingRead ch n) bs
    else s.portRead 4 (stagingBase ch) (n - k) ecc (fun s => next (s.stagingRead ch n) bs)
  if n = 0 then next s [] else s.portRead 4 (stagingBase ch + o) k ecc rest

/-- The FEED channel of the decompressor whose turn it is. -/
def State.feedChan (s : State) : Nat := 23 + s.cdc.feed.block % s.feedWidth

/-- Coded bytes from block `j` on, cut where blocks end (R163): the index and the length of each; `head` bytes of the
stream header go with the first, and the last is what there is of it. `fuel` bounds the blocks. -/
def blockSpans : Nat → Nat → Nat → List Byte → List (Nat × Nat)
  | 0, _, _, _ => []
  | n + 1, j, head, bs =>
    let len := head + 8 + num bs (head + 4) 4
    if bs = [] then []
    else if bs.length < head + 8 || bs.length ≤ len then [(j, bs.length)]
    else (j, len) :: blockSpans n (j + 1) 0 (bs.drop len)

/-- The blocks that the coded bytes fetched and not decoded belong to: first those in the decompressors' inputs, then
those staged by STREAM channel `ch`. -/
def State.feedSpans (s : State) (ch : Nat) : List (Nat × Nat) :=
  let f := s.cdc.feed
  let bs := f.buf ++ s.stagedBytes ch (s.stagedCount ch)
  blockSpans bs.length f.block (if f.dec.phase = 0 then 4 else 0) bs

/-- Of the first `n` bytes of these blocks, those in the input of decompressor `k` of `F` (R171). -/
def inputFill (F k : Nat) : Nat → List (Nat × Nat) → Nat
  | _, [] => 0
  | n, (j, len) :: rest => (if j % F = k then min n len else 0) + inputFill F k (n - len) rest

/-- How many bytes after the first `n` of these blocks the FEED channels read, each into its decompressor's input as far
as it has `room`: in the order of the stream, which is that of the staging queue, so that a channel waits for the one
before it (DESIGN CHOICE, log entry 16). -/
def feedMoves (F : Nat) : Nat → List Nat → List (Nat × Nat) → Nat
  | _, _, [] => 0
  | n, room, (j, len) :: rest =>
    let r := room.getD (j % F) 0
    if len - n ≤ r then len - n + feedMoves F (n - len) (setAt room (j % F) (r - (len - n))) rest else r

/-- What FEED channel 23 + `k` may read now (R102); nothing while it is halted (R113). -/
def State.feedRoom (s : State) (spans : List (Nat × Nat)) (k : Nat) : Nat :=
  if s.reg (DMA_CH_STATUS.HALTED (23 + k)) = 1 then 0
  else s.paceRoom (23 + k) (inputFill s.feedWidth k s.cdc.feed.buf.length spans)

/-- The FEED channels in use show whether they are HELD (R102): from the moment that HIGH leaves no room until their
decompressor's input has drained to LOW. -/
def State.feedMarks (s : State) (ch : Nat) : State :=
  let spans := s.feedSpans ch
  (List.range s.feedWidth).foldl (fun t k =>
    t.setReg (DMA_CH_STATUS.HELD (23 + k)) (b2n (t.paceRoom (23 + k)
      (inputFill s.feedWidth k s.cdc.feed.buf.length spans) == 0))) s

/-- The FEED channels fill the decompressors' inputs from STREAM channel `ch` (R102). -/
def State.feedFill (s : State) (ch : Nat) (ecc : EccReads) (next : State → State) : State :=
  let spans := s.feedSpans ch
  let rooms := (List.range s.feedWidth).map (s.feedRoom spans)
  s.feedRead ch (feedMoves s.feedWidth s.cdc.feed.buf.length rooms spans) ecc (fun s bs =>
    next ((s.setFeed { s.cdc.feed with buf := s.cdc.feed.buf ++ bs }).feedMarks ch))

/-- Sovis bytes pass to the parser. -/
def State.toParser (s : State) (bs : List Byte) : State :=
  ({ s with prs := { s.prs with input := s.prs.input ++ bs } }.setReg CDC_FEED_OUT.OUT
    (s.reg CDC_FEED_OUT.OUT + bs.length)).count 3 0x11 bs.length

/-- Where the first STRIPE_END record starts in whole Sovis records and the beginning of one more; their length when
there is none. `fuel` bounds the records. -/
def stripeEndAt : Nat → List Byte → Nat
  | 0, bs => bs.length
  | n + 1, bs =>
    let len := 8 * num bs 2 2
    if bs = [] || num bs 0 1 = 0x02 then 0
    else if len = 0 || bs.length ≤ len then bs.length
    else len + stripeEndAt n (bs.drop len)

/-- Decoded bytes go on to the parser: those from the STRIPE_END record on wait until the END block has passed (R172).
-/
def State.passOn (s : State) (bs : List Byte) : State :=
  let f := s.cdc.feed
  let bs := f.tail ++ bs
  if f.dec.phase = 3 then (s.setFeed { f with tail := [] }).toParser bs
  else
    let inp := s.prs.input ++ bs
    let k := if f.tail.isEmpty then stripeEndAt inp.length inp - s.prs.input.length else 0
    (s.setFeed { f with tail := bs.drop k }).toParser (bs.take k)

/-- A decoding fault in the feed (R173): event 0x28, and the stripe ends as a stream fault. The decompressor of the
failing block alone records it in its LAST_STATUS and LAST_REASON, as that of the END block alone records a stream
that ends in order (DESIGN CHOICE, log entry 115). -/
def State.azradFault (s : State) (st : Stripe) (reason offset block : Nat) : State :=
  let s := s.engineEnds (block % s.feedWidth) (if reason = 0x0B then 0x07 else 0x08) reason
  s.streamFault offset reason [azradEvent st reason offset block]

/-- A block of `n` coded bytes has passed every check (R171): the coded bytes that STREAM channel `ch` had still staged
are read, and the output goes on to the parser in stream order. -/
def State.azradPassed (s : State) (ch : Nat) (ecc : EccReads) (r : DecRun) : State :=
  let n := r.bits / 8
  s.feedRead ch (n - s.cdc.feed.buf.length) ecc (fun s _ =>
    let f := s.cdc.feed
    let k := f.block % s.feedWidth
    let s := s.setFeed { f with buf := f.buf.drop n, used := f.used + n, block := f.block + 1, dec := r.dec }
    let s := (s.setReg CDC_FEED_IN.IN (f.used + n)).setReg (CDC_ENG_IN.IN k) (s.reg (CDC_ENG_IN.IN k) + n)
    let s := s.setReg (CDC_ENG_OUT.OUT k) (s.reg (CDC_ENG_OUT.OUT k) + r.out.length)
    let s := ((((s.count 3 0x10 r.toks).slots 0 0 r.toks).passOn r.out).wakeBlock 4).feedMarks ch
    if r.dec.phase = 3 then s.engineEnds k 0x00 0 else s)

/-- A block breaks a rule of R169, or its input ends within it: what STREAM channel `ch` had staged of it is read (R284),
its tokens are wasted (R415), and `next` is the fault. -/
def State.blockFails (s : State) (ch : Nat) (ecc : EccReads) (r : DecRun) (next : State → State) : State :=
  let len := (((s.feedSpans ch).head?).map (·.2)).getD 0
  s.feedRead ch (len - s.cdc.feed.buf.length) ecc (fun s bs =>
    next ((s.setFeed { s.cdc.feed with buf := s.cdc.feed.buf ++ bs }).slots 0 1 r.toks))

/-- One block of the stream of stripe `st`, from the coded bytes that have been fetched: those in the decompressor's
input, and those that its FEED channel brings in as it drains. -/
def State.azradBlock (s : State) (st : Stripe) (ch : Nat) (ecc : EccReads) : State :=
  let f := s.cdc.feed
  let coded := f.buf ++ s.stagedBytes ch (s.stagedCount ch)
  if f.dec.phase = 3 then (if coded = [] then s else s.azradFault st 0x09 f.used f.block)
  else
    let inp := bitsOf coded
    let r := Dec.block (inp.length + 1) f.dec inp
    match r.stop with
    | .fault n =>
      s.blockFails ch ecc r (fun s => s.azradFault st n (if n = 1 then 0 else f.used + (if f.dec.phase = 0 then 4 else 0)) f.block)
    | .ended => s.azradPassed ch ecc r
    | _ => if s.fetchedAll st then s.blockFails ch ecc r (fun s => s.azradFault st 0x09 f.fetched f.block) else s

/-- AZRAD_BLOCK (R102, R169 to R173, R199): the FEED channels fill their decompressors' inputs, and the one in turn
decodes the next block of the held stripe's coded stream while the parser's input has room; not while its channel is
halted, or the chip is fenced or holds at a finding. -/
def execAzradBlock (ecc : EccReads) (s : State) : Host.Outcome State Fault Refusal :=
  .next (
    match s.liveStripe with
    | none => s
    | some st =>
      match s.streamChan st.req.streamSq with
      | none => s
      | some ch =>
        let halted := s.reg (DMA_CH_STATUS.HALTED s.feedChan) = 1
        if s.cdc.feed.raw != some false || halted || s.fence.isSome || s.holding || !s.serviced then s
        else (s.wakeBlock 3).feedFill ch ecc (fun s => if s.inputFull then s else s.azradBlock st ch ecc))

/-! ## Witness captures (R184, R235) -/

/-- WITNESS_COMPLETE (R184, R235): the copy is read through port 7; at an uncorrectable word the chip fences itself, and
the witness stays on its compressor (R284). -/
def execWitnessComplete (compressor : Nat) (ecc : EccReads) (s : State) : Host.Outcome State Fault Refusal :=
  .next (
    match (s.cdc.engines.getD compressor none).filter (fun j => j.kind == 3) with
    | none => s
    | some j =>
      match (if !s.serviced || s.reg (DMA_CH_STATUS.WAKE_WAIT j.ch) = 1 then none else s.entry? j.q j.idx) with
      | none => s
      | some e =>
        s.portRead 7 (witnessCopy j.copy) captureBytes ecc (fun s => s.witnessEnds compressor j (witnessOf e.raw)))

/-! ## Transfers (R102, R110, R186) -/

/-- The host job on engine `k` has written more of its output, how much the manual does not fix (a free value, within
what the job comes to): the engine's registers show it, and the SRC bytes `used` so far (R186). -/
def State.jobShows (s : State) (k : Nat) (j : CodecJob) (e : Entry) (used : Nat) : State :=
  let most := (s.jobResult j (codecOf e.raw)).out.length
  let a := s.fresh 32
  let out := j.out + a.1 % (most - j.out + 1)
  ((a.2.setJob k (some { j with out })).setReg (CDC_ENG_IN.IN k) used).setReg (CDC_ENG_OUT.OUT k) out

/-- TRANSFER_COMPLETE on a CODEC channel (R102, R186): the codec has used some of its input, which the manual does not
time (free; nothing while its job is preempted), and the channel reads on; HELD while some of SRC has to wait (log entry
150). -/
def State.codecMove (s : State) (ch : Nat) : State :=
  match (if s.reg (DMA_CH_STATUS.WAKE_WAIT ch) = 1 then none else (s.chan ch).req) with
  | none => s
  | some r =>
    let job := (s.engineOf ch).filter (fun x => !x.2.preempted)
    let a := s.fresh 32
    let used := if job.isSome then a.1 % (s.stagedCount ch + 1) else 0
    let s := a.2.modChan ch (fun c => { c with rd := c.rd + used })
    let s := match job, s.entry? r.q r.idx with
      | some (k, j), some e => s.jobShows k j e (s.chan ch).rd
      | _, _ => s
    let n := s.mayMove ch r.piece
    let req := { r with piece := { r.piece with moved := r.piece.moved + n }, delivered := r.delivered + n }
    let s := s.modChan ch (fun c => { c with req := some req, wr := c.wr + n })
    (s.setReg (DMA_CH_STATUS.HELD ch) (b2n (r.piece.moved + n < r.piece.len))).count 2 0x10 n

/-- TRANSFER_COMPLETE (R110). Codec jobs, scans and witnesses end with rows of their own; FEED and GATE channels carry
no request of a ring entry. -/
def execTransferComplete (ch : Nat) (s : State) : Host.Outcome State Fault Refusal :=
  .next (
    if !s.serviced then s
    else
      match dmaClass ch with
      | 0 => s.snapshotDone
      | 1 => s.streamTransfer ch
      | 2 => s.tableTransfer ch
      | 3 => s.codecMove ch
      | _ => s)

end Sys2Proof.Machine
end

