-- ==== Sys2Proof/Machine/Sovis.lean ====
section
/-! DEFINITION. The Sovis format (R128 to R161): what one record says, and the lowest reason code of R160 that it
breaks. -/

namespace Sys2Proof.Machine

/-! ## Fields of a record -/

/-- TYPE (R129). -/
def recType (r : List Byte) : Nat := num r 0 1

/-- LEN in words (R129). -/
def recLen (r : List Byte) : Nat := num r 2 2

/-- An s32 at byte `o`. -/
def s32 (r : List Byte) (o : Nat) : Int := sgn 32 (num r o 4)

/-- A point at byte `o`: x then y. -/
def pointAt (r : List Byte) (o : Nat) : Int × Int := (s32 r o, s32 r (o + 4))

/-- The types of R131. -/
def recDefined (t : Nat) : Bool :=
  [0x01, 0x02, 0x04, 0x10, 0x11, 0x12, 0x13, 0x20, 0x21, 0x22, 0x23, 0x30, 0x31, 0x40, 0x41, 0x7F].contains t

/-- An item's type (R131). -/
def recItem (t : Nat) : Bool := [0x10, 0x11, 0x12, 0x13, 0x22, 0x23].contains t

/-- LEN that the contents require (R131); the header and the next 8 bytes tell it. PAD takes any LEN from 1. -/
def neededLen (r : List Byte) : Nat :=
  match recType r with
  | 0x01 => 4
  | 0x02 => 3
  | 0x04 => 2
  | 0x10 => 5
  | 0x11 => 4
  | 0x12 => 2 + num r 10 2
  | 0x13 => 2 + (num r 10 2 + 31) / 32 + num r 12 4
  | 0x20 => 4
  | 0x21 => 2
  | 0x22 => 3
  | 0x23 => 5
  | 0x30 => 2
  | 0x31 => 11
  | 0x40 => 2 + 4 * num r 10 2
  | 0x41 => 2 + (5 * num r 12 2 + 3) / 4
  | 0x7F => max 1 (recLen r)
  | _ => 0

/-- A type whose LEN the header alone does not tell. -/
def varLen (t : Nat) : Bool := t == 0x12 || t == 0x13 || t == 0x40 || t == 0x41

/-- Every byte from `o`, `k` of them, is 0. -/
def zeroAt (r : List Byte) (o k : Nat) : Bool := ((r.drop o).take k).all (fun b => b == 0#8)

/-- Code `i` of a CONTOUR (R144). -/
def contourCode (r : List Byte) (i : Nat) : Nat := num r (16 + i / 4) 1 / 4 ^ (i % 4) % 4

/-- Reserved fields, padding and FLAGS bits are 0 (R130). -/
def reservedOk (r : List Byte) : Bool :=
  let t := recType r
  (if t = 0x01 then num r 1 1 < 2 else num r 1 1 = 0) &&
  match t with
  | 0x01 => zeroAt r 28 4
  | 0x02 => zeroAt r 20 4
  | 0x10 => zeroAt r 9 3 && zeroAt r 36 4
  | 0x11 => zeroAt r 9 3 && zeroAt r 28 4
  | 0x12 => zeroAt r 9 1 && zeroAt r 12 4
  | 0x13 =>
    let n := num r 10 2
    zeroAt r 9 1 && (List.range (32 * ((n + 31) / 32) - n)).all (fun i => contourCode r (n + i) == 0)
  | 0x20 => zeroAt r 12 4
  | 0x22 => num r 12 1 < 8 && zeroAt r 14 2
  | 0x23 => num r 12 1 < 8 && zeroAt r 14 2 && zeroAt r 20 4
  | 0x30 => zeroAt r 9 1 && num r 10 2 < 4096 && zeroAt r 12 4
  | 0x40 => zeroAt r 9 1 && zeroAt r 12 4
  | 0x41 => zeroAt r 14 2 && zeroAt r (16 + 10 * num r 12 2) r.length
  | 0x7F => zeroAt r 8 r.length
  | _ => true

/-! ## Items (R141 to R152) -/

/-- The points of a shape. -/
def Shape.points : Shape → List (Int × Int)
  | .polygon v => v
  | .contour _ p => p

/-- Points a contour code takes (R144). -/
def codeTakes (c : Nat) : Nat := match c with | 2 => 3 | 1 => 2 | _ => 1

/-- The codes of a contour, with the points, keep R144: `start` and `cur` are the loop's start and the current point,
`segs` its segments so far; `none` before the first code. -/
def contourOk : List Nat → List (Int × Int) → Option ((Int × Int) × (Int × Int) × Nat) → Bool
  | [], pts, some (start, cur, segs) => pts.isEmpty && segs ≠ 0 && start == cur
  | [], _, none => false
  | c :: cs, pts, loop =>
    let n := codeTakes c
    let p := pts.getD (n - 1) (0, 0)
    if pts.length < n then false
    else
      match loop with
      | none => c == 3 && contourOk cs (pts.drop n) (some (p, p, 0))
      | some (start, cur, segs) =>
        if c = 3 then segs ≠ 0 && start == cur && contourOk cs (pts.drop n) (some (p, p, 0))
        else contourOk cs (pts.drop n) (some (start, p, segs + 1))

/-- The item that a record gives (R141 to R149); RECT and TRAPEZOID as 4-vertex polygons (R188). -/
def itemOf (r : List Byte) : Item :=
  let cls := num r 8 1
  match recType r with
  | 0x10 => .shape cls (.polygon [(s32 r 20, s32 r 12), (s32 r 24, s32 r 12), (s32 r 32, s32 r 16), (s32 r 28, s32 r 16)])
  | 0x11 => .shape cls (.polygon [(s32 r 12, s32 r 16), (s32 r 20, s32 r 16), (s32 r 20, s32 r 24), (s32 r 12, s32 r 24)])
  | 0x12 => .shape cls (.polygon ((List.range (num r 10 2)).map (fun i => pointAt r (16 + 8 * i))))
  | 0x13 =>
    let n := num r 10 2
    let base := 16 + 8 * ((n + 31) / 32)
    .shape cls (.contour ((List.range n).map (contourCode r))
      ((List.range (num r 12 4)).map (fun i => pointAt r (base + 8 * i))))
  | 0x22 => .place (num r 8 4) (num r 12 1) (num r 13 1) 1 1 (s32 r 16) (s32 r 20) 0 0
  | _ => .place (num r 8 4) (num r 12 1) (num r 13 1) (num r 16 2) (num r 18 2) (s32 r 24) (s32 r 28) (s32 r 32)
      (s32 r 36)

/-- The geometry of a shape record keeps R141 to R144. -/
def shapeOk (r : List Byte) : Bool :=
  match recType r, itemOf r with
  | 0x10, _ => s32 r 12 < s32 r 16 && s32 r 20 ≤ s32 r 24 && s32 r 28 ≤ s32 r 32
  | 0x11, _ => s32 r 12 < s32 r 20 && s32 r 16 < s32 r 24
  | 0x12, _ => 3 ≤ num r 10 2 && num r 10 2 ≤ 4096
  | 0x13, .shape _ (.contour cs ps) => 2 ≤ cs.length && cs.length ≤ 16384 && contourOk cs ps none
  | _, _ => true

/-- A box: xmin, ymin, xmax, ymax. -/
structure Box where
  x0 : Int
  y0 : Int
  x1 : Int
  y1 : Int
  deriving DecidableEq, Repr

/-- The smallest box that holds the points (R138); none without points. -/
def boxOf : List (Int × Int) → Option Box
  | [] => none
  | p :: ps => some (ps.foldl (fun b q => ⟨min b.x0 q.1, min b.y0 q.2, max b.x1 q.1, max b.y1 q.2⟩) ⟨p.1, p.2, p.1, p.2⟩)

/-- orient(o, (u, v)) (R147). -/
def orient (o : Nat) (p : Int × Int) : Int × Int :=
  match o with
  | 0 => (p.1, p.2)
  | 1 => (-p.2, p.1)
  | 2 => (-p.1, -p.2)
  | 3 => (p.2, -p.1)
  | 4 => (p.1, -p.2)
  | 5 => (p.2, p.1)
  | 6 => (-p.1, p.2)
  | _ => (-p.2, -p.1)

/-- Four corners of a box. -/
def Box.corners (b : Box) : List (Int × Int) := [(b.x0, b.y0), (b.x1, b.y0), (b.x1, b.y1), (b.x0, b.y1)]

/-- The placed box of a placement of a template (R152). -/
def placedBox (t : Template) (o nx ny : Nat) (dx dy px py : Int) : Box :=
  let b := (boxOf ((Box.corners ⟨t.bx0, t.by0, t.bx1, t.by1⟩).map (orient o))).getD ⟨0, 0, 0, 0⟩
  let ex := ((nx : Int) - 1) * px
  let ey := ((ny : Int) - 1) * py
  ⟨b.x0 + dx + min 0 ex, b.y0 + dy + min 0 ey, b.x1 + dx + max 0 ex, b.y1 + dy + max 0 ey⟩

/-- An ARRAY with NX or NY 0 places nothing (R149). -/
def Item.empty : Item → Bool
  | .place _ _ _ nx ny _ _ _ _ => nx == 0 || ny == 0
  | _ => false

/-- A template by identity. -/
def findTemplate (ts : List Template) (id : Nat) : Option Template := ts.find? (fun t => t.id == id)

/-- The bounding box of an item (R138), if it has one: no undefined template, no empty ARRAY. -/
def Item.box (ts : List Template) : Item → Option Box
  | .shape _ s => boxOf s.points
  | .place id o _ nx ny dx dy px py =>
    if nx = 0 || ny = 0 then none else (findTemplate ts id).map (fun t => placedBox t o nx ny dx dy px py)

/-! ## The warp's bound (R191) -/

/-- Powers of x and y of the warp's terms (R190). -/
def warpPowers : List (Nat × Nat) := [(0, 0), (1, 0), (0, 1), (2, 0), (1, 1), (0, 2), (3, 0), (2, 1), (1, 2), (0, 3)]

/-- One sum of R190: coefficients at a point, in units of 2^-92 su. -/
def warpSum (a : List Int) (p q : Int) : Int :=
  ((a.zip warpPowers).map (fun t =>
    t.1 * p ^ t.2.1 * q ^ t.2.2 * (2 : Int) ^ (84 - 18 * t.2.1 - 28 * t.2.2))).sum

/-- The largest y of a stripe's points (R137). -/
def yMax (rows : Nat) : Int := min (16 * rows + 131071) 2147483647

/-- M of R191. -/
def warpBound (a : List Int) (rows : Nat) : Nat :=
  (warpSum (a.map (fun c => (c.natAbs : Int))) 393215 (yMax rows)).toNat

/-- The ten coefficients from byte `o`. -/
def warpCoeffs (r : List Byte) (o : Nat) : List Int := (List.range 10).map (fun i => s32 r (o + 4 * i))

/-! ## Rules of a record (R130 to R156, R160) -/

/-- NROW of a stripe (R155). -/
def fogRowsOf (rows : Nat) : Nat := (rows + 4095) / 4096 + 1

/-- Templates that an item may name: those whose TEMPLATE_END has been read (R146). -/
def Prs.usable (p : Prs) : List Template := p.templates ++ p.sect.templates

/-- The class is defined (R140). -/
def Prs.classOk (p : Prs) (c : Nat) : Bool := c < 16 && p.classes.any (fun d => d.1 == c)

/-- R131: where a type may stand. A DENSITY_EDGE after an item of its section and a second WARP stand in a section that
takes their type: they report their own reasons 0x11 and 0x12, not the lower 0x05 (DESIGN CHOICE, log entry 117). -/
def Prs.allowed (p : Prs) (t : Nat) : Bool :=
  if !p.opened then t == 0x01
  else if p.curDef.isSome then recItem t || t == 0x21 || t == 0x7F
  else if p.bandsBegun = 0 then [0x04, 0x20, 0x30, 0x31, 0x41, 0x7F].contains t
  else recItem t || [0x02, 0x04, 0x20, 0x40, 0x41, 0x7F].contains t

/-- Definition bytes with this record pass 1 GiB (R146). -/
def Prs.defsFull (p : Prs) (r : List Byte) : Bool :=
  (p.curDef.isSome || recType r == 0x20) && p.defBytes + r.length > 2 ^ 30

/-- Template-local range (R137). -/
def localOk (v : Int) : Bool := -268435456 ≤ v && v ≤ 268435455

/-- The anchor band of a box (R138). -/
def anchorBand (rows : Nat) (b : Box) : Nat := min (b.y0 / 4096).toNat (bandsOf rows - 1)

/-- An item's box stands in the wrong band section or out of x order (R138, R139). -/
def Prs.misplaced (p : Prs) (rows : Nat) (b : Box) : Bool :=
  p.curDef.isNone && (anchorBand rows b + 1 ≠ p.bandsBegun || p.lastX.any (fun x => b.x0 < x))

/-- An item's box is out of range, or a top-level item too tall (R137, R138, R152). -/
def Prs.outOfRange (p : Prs) (rows : Nat) (b : Box) : Bool :=
  if p.curDef.isSome then !(localOk b.x0 && localOk b.y0 && localOk b.x1 && localOk b.y1)
  else b.x0 < -131072 || b.x1 > 393215 || b.y0 < -131072 || b.y1 > yMax rows || b.y1 - b.y0 > 65536

/-- The offsets of the first and the last instance of an ARRAY along one axis lie in the template-local range (R137,
R149); so then do those between them. -/
def offsetsOk (d pitch : Int) (n : Nat) : Bool := localOk d && localOk (d + ((n : Int) - 1) * pitch)

/-- The rules of an item, with their reasons ascending. -/
def Prs.itemRules (p : Prs) (rows : Nat) (r : List Byte) : List (Nat × Bool) :=
  let it := itemOf r
  let box := it.box p.usable
  let offsetBad := match it with
    | .place _ _ _ nx ny dx dy px py =>
      p.curDef.isSome && !it.empty && !(offsetsOk dx px nx && offsetsOk dy py ny)
    | _ => false
  let classBad := match it with
    | .shape c _ => !p.classOk c
    | .place _ _ c _ _ _ _ _ _ => c ≠ 0xFF && !p.classOk c
  let noTemplate := match it with
    | .place id _ _ _ _ _ _ _ _ => (findTemplate p.usable id).isNone
    | _ => false
  [(0x08, box.any (p.misplaced rows)), (0x09, offsetBad || box.any (p.outOfRange rows)), (0x0A, !shapeOk r),
   (0x0B, classBad), (0x0C, noTemplate)]

/-- Fog rows that must have arrived by a BAND_BEGIN of band `b` (R155). -/
def Prs.fogMissing (p : Prs) (rows b : Nat) : Bool := p.fog && p.fogNext < min (b / 16 + 2) (fogRowsOf rows)

/-- The rules of one record beyond its header, with their reasons ascending. A FOG_MAP with a COUNT above the 4,096 of
R155 has reason 0x10, as one with COUNT 0: R160 names no reason for it (DESIGN CHOICE, log entry 145). -/
def Prs.typeRules (p : Prs) (arm : ArmReq) (r : List Byte) : List (Nat × Bool) :=
  let rows := arm.rows
  match recType r with
  | 0x01 => [(0x06, num r 8 4 ≠ arm.id || num r 12 1 ≠ arm.pass || num r 13 1 ≠ arm.passes || num r 14 2 ≠ 1 ||
      num r 16 4 ≠ rows || num r 20 4 ≠ bandsOf rows)]
  | 0x02 => [(0x07, p.bandsBegun ≠ bandsOf rows), (0x10, p.fog && p.fogNext ≠ fogRowsOf rows),
      (0x13, num r 16 4 ≠ p.defIds.length), (0x15, num r 8 4 ≠ p.crcSection), (0x16, num r 12 4 ≠ p.crcStripe)]
  | 0x04 => [(0x07, num r 8 4 ≠ p.bandsBegun || bandsOf rows ≤ p.bandsBegun), (0x10, p.fogMissing rows p.bandsBegun),
      (0x15, num r 12 4 ≠ p.crcSection)]
  | 0x20 => [(0x0C, num r 8 4 = 0 || num r 8 4 > 1048575 || p.defIds.contains (num r 8 4)),
      (0x0E, s32 r 16 > s32 r 24 || s32 r 20 > s32 r 28)]
  | 0x21 => match p.curDef with
    | some d => [(0x0D, d.t.depth > 7), (0x0E, num r 8 4 ≠ d.t.id || num r 12 4 ≠ d.count || d.outside)]
    | none => []
  | 0x30 => [(0x0B, num r 8 1 > 15 || p.classes.any (fun d => d.1 == num r 8 1))]
  | 0x31 => [(0x09, warpBound (warpCoeffs r 8) rows > 2048 * 2 ^ 92 || warpBound (warpCoeffs r 48) rows > 2048 * 2 ^ 92),
      (0x12, p.warp.isSome)]
  | 0x40 => [(0x11, num r 8 1 > 1 || num r 10 2 = 0 || num r 10 2 > 300 || p.sides.contains (num r 8 1) || p.itemSeen)]
  | 0x41 => [(0x10, !p.fog || num r 12 2 = 0 || num r 12 2 > 4096 || num r 8 4 ≠ p.fogNext ||
      num r 8 4 + num r 12 2 > fogRowsOf rows)]
  | 0x7F => []
  | _ => p.itemRules rows r

/-- The header rules that follow the type and the length: SEQ, reserved, place (R130, R131). -/
def Prs.headRules (p : Prs) (r : List Byte) : List (Nat × Bool) :=
  [(0x03, num r 4 4 ≠ p.seq), (0x04, !reservedOk r), (0x05, !p.allowed (recType r))]

/-- The lowest reason whose rule is broken. -/
def lowest (l : List (Nat × Bool)) : Option Nat := (l.find? (fun r => r.2)).map (·.1)

/-- The lowest reason of R160 that a whole record breaks. -/
def Prs.breaks (p : Prs) (arm : ArmReq) (r : List Byte) : Option Nat :=
  match lowest (p.headRules r) with
  | some n => some n
  | none => lowest (p.typeRules arm r ++ [(0x0F, p.defsFull r)])

/-- What stands at the front of the input: nothing whole yet, a fault, or a whole record. `ended` tells that no more
input will come. -/
inductive RecRead where
  | wait
  | fault (reason : Nat)
  | whole (r : List Byte)
  deriving DecidableEq, Repr

/-- Read the next record. At the end of the data an unfinished record has reason 0x14, or a lower one that its header
already shows. -/
def Prs.read (p : Prs) (arm : ArmReq) (ended : Bool) : RecRead :=
  let h := p.input.take 16
  let t := recType h
  let sure := !varLen t || h.length = 16 || recLen h = 1
  if p.input.length < 8 then (if ended then .fault 0x14 else .wait)
  else if !recDefined t then .fault 0x01
  else if recLen h = 0 || (sure && recLen h ≠ neededLen h) then .fault 0x02
  else if p.input.length < 8 * recLen h then
    (if !ended then .wait
     else .fault ((lowest [(0x03, num h 4 4 ≠ p.seq),
        (0x04, num h 1 1 ≥ (if t = 0x01 then 2 else 1)), (0x05, !p.allowed t)]).getD 0x14))
  else
    let r := p.input.take (8 * recLen h)
    match p.breaks arm r with
    | some n => .fault n
    | none => .whole r

end Sys2Proof.Machine
end

