-- ==== Sys2Proof/Machine/Parser.lean ====
section
/-! DEFINITION. The parser: one record at a time, confirmation of band sections, template expansion through the on-chip
store, warp, feed, bins, and release of output bands (R131 to R160, R187 to R203). -/

namespace Sys2Proof.Machine

/-- Change the parser. -/
def State.setPrs (s : State) (p : Prs) : State := { s with prs := p }

/-! ## From item to placed primitive (R187 to R194) -/

/-- An affine map of R147: images of (1, 0) and (0, 1), and the offset. -/
structure Affine where
  ux : Int
  uy : Int
  vx : Int
  vy : Int
  dx : Int
  dy : Int
  deriving DecidableEq, Repr

/-- The identity. -/
def Affine.one : Affine := ⟨1, 0, 0, 1, 0, 0⟩

/-- A point through a map. -/
def Affine.at (t : Affine) (p : Int × Int) : Int × Int :=
  (t.ux * p.1 + t.vx * p.2 + t.dx, t.uy * p.1 + t.vy * p.2 + t.dy)

/-- The map of a placement inside an outer map, composed exactly (R147, R187). -/
def Affine.place (t : Affine) (o : Nat) (d : Int × Int) : Affine :=
  let u := orient o (1, 0)
  let v := orient o (0, 1)
  let e := t.at d
  ⟨t.ux * u.1 + t.vx * u.2, t.uy * u.1 + t.vy * u.2, t.ux * v.1 + t.vx * v.2, t.uy * v.1 + t.vy * v.2, e.1, e.2⟩

/-- A shape with every point moved. -/
def Shape.map (f : Int × Int → Int × Int) : Shape → Shape
  | .polygon v => .polygon (v.map f)
  | .contour c p => .contour c (p.map f)

/-- One step of an expansion (R189, R196): the directory entry and the template line that are read while `locks` are
held by the levels outside it, and the shape, in stream coordinates, that the step ends with. -/
structure XStep where
  dir : Option Nat
  line : Option Nat
  locks : List Nat
  prim : Option Prim
  deriving DecidableEq, Repr

/-- The 4 KiB lines of the spill region that `len` bytes from `off` touch. -/
def linesOf (off len : Nat) : List Nat :=
  (List.range ((off + len + 4095) / 4096 - off / 4096)).map (fun i => off / 4096 + i)

/-- The offsets of a placement's instances, `j` in the outer loop (R149, R189). -/
def instances (nx ny : Nat) (dx dy px py : Int) : List (Int × Int) :=
  (List.range ny).flatMap (fun (j : Nat) => (List.range nx).map (fun (i : Nat) => (dx + i * px, dy + j * py)))

/-- The steps of one item (R187 to R189, R150): `n` bounds the levels of placement; `ovr` is the outermost override.
Of a placement record that spans lines its last line is the one locked at its level (DESIGN CHOICE, log entry 159). -/
def expandItem (ts : List Template) : Nat → Affine → Option Nat → List Nat → Item → List XStep
  | _, t, ovr, locks, .shape c s => [⟨none, none, locks, some ⟨ovr.getD c, s.map t.at⟩⟩]
  | 0, _, _, _, .place .. => []
  | n + 1, t, ovr, locks, .place id o c nx ny dx dy px py =>
    match findTemplate ts id with
    | none => []
    | some tp =>
      let ovr := if ovr.isNone && c ≠ 0xFF then some c else ovr
      (instances nx ny dx dy px py).flatMap (fun d =>
        tp.items.flatMap (fun it =>
          let ls := linesOf it.2.1 it.2.2
          ls.map (fun l => (⟨some id, some l, locks, none⟩ : XStep)) ++
            expandItem ts n (t.place o d) ovr (locks ++ ls.drop (ls.length - 1)) it.1))

/-- The steps of a band's items, in stream order. -/
def expandBand (ts : List Template) (items : List Item) : List XStep :=
  items.flatMap (expandItem ts 9 Affine.one none [])

/-- The displacement of R190: rounded to nearest, halves upward. -/
def warpShift (a : List Int) (p q : Int) : Int := (warpSum a p q + 2 ^ 91) / 2 ^ 92

/-- Warp and feed of a point (R187, R190 to R193). -/
def Prs.move (p : Prs) (feed : Int × Int) (pt : Int × Int) : Int × Int :=
  match p.warp with
  | none => (pt.1 - feed.1, pt.2 - feed.2)
  | some (ax, ay) => (pt.1 + warpShift ax pt.1 pt.2 - feed.1, pt.2 + warpShift ay pt.1 pt.2 - feed.2)

/-- The lowest and highest of `n` ranges of `size` su, each widened by 128 su, that [a, b] meets; none when it meets
none (R194). -/
def meets (size : Int) (n : Nat) (a b : Int) : Option (Nat × Nat) :=
  let lo := max 0 (-((size - 1 + 128 - a) / size))
  let hi := min ((n : Int) - 1) ((b + 128) / size)
  if lo ≤ hi then some (lo.toNat, hi.toNat) else none

/-- The bins of a placed primitive (R194); none when it is dropped. -/
def binOf (bands : Nat) (p : Prim) : Option Placed :=
  match boxOf p.shape.points with
  | none => none
  | some b =>
    match meets 4096 bands b.y0 b.y1, meets 16384 16 b.x0 b.x1 with
    | some k, some q => some ⟨p, k.1, k.2, q.1, q.2⟩
    | _, _ => none

/-- Bytes of a primitive in the lookahead queue (R198). -/
def Placed.bytes (p : Placed) : Nat :=
  match p.prim.shape with
  | .polygon v => (16 + 8 * v.length + 31) / 32 * 32
  | .contour c q => (16 + 8 * ((c.length + 31) / 32) + 8 * q.length + 31) / 32 * 32

/-- The references to a primitive: one in each bin that it enters (R194). -/
def Placed.refs (p : Placed) : Nat := (p.k1 + 1 - p.k0) * (p.p1 + 1 - p.p0)

/-- Bytes of a primitive and of its references in the bins from output band `from'` on. -/
def Placed.cost (from' : Nat) (p : Placed) : Nat :=
  if p.k1 < from' then 0 else p.bytes + 8 * (p.k1 + 1 - max from' p.k0) * (p.p1 + 1 - p.p0)

/-- The first entry step that is not complete, or in a pair not yet decided (R360). -/
def State.undecided (s : State) : Int :=
  match s.stripe with
  | none => 0
  | some st =>
    let open' := if s.covered then s.nlk.votes.map (·.step) else []
    open'.foldl min (st.stepsDone)

/-- The output bands that every entry step which reads them has read, in a pair decided (R231, R360): step m reads rows
m + L - 240 to m + L. -/
def State.readBands (s : State) : Nat :=
  match s.stripe with
  | some st => ((s.undecided + st.req.lead - 240) / 256).toNat
  | none => 0

/-- The output bands whose space in the lookahead queue is free again: those retired, and in a pair read by decided
steps alone (R198, R360). -/
def State.freed (s : State) : Nat := if s.covered then min s.prs.retired s.readBands else s.prs.retired

/-- The lookahead queue's fill (R198): every primitive whose first band is released, with its references in the bins of
all its bands, released or not. The manual does not say when a reference begins to occupy the queue (DESIGN CHOICE, log
entry 147). -/
def State.laqFill (s : State) : Nat :=
  ((s.prs.placed.filter (fun x => x.k0 < s.prs.released)).map (Placed.cost s.freed)).sum

/-! ## The template store (R196) -/

/-- Lines of the on-chip template store, and directory entries that it caches. -/
def storeLines : Nat := 4096

/-- The directory entry of a template is used: the most recently used ones stay on chip. -/
def Prs.touchDir (p : Prs) (id : Option Nat) : Prs :=
  match id with
  | none => p
  | some k => { p with dirs := (k :: p.dirs.filter (fun x => x != k)).take storeLines }

/-- A line is used: it becomes the most recently used. -/
def Prs.touch (p : Prs) (l : Nat) : Prs := { p with lines := l :: p.lines.filter (fun x => x != l) }

/-- A line arrives: when it takes a place and none is free, the least recently used one that is not locked leaves. -/
def Prs.fillLine (p : Prs) (l : Nat) (locks : List Nat) : Prs :=
  let victim := if p.lines.contains l || p.lines.length < storeLines then none else p.lines.reverse.find? (fun x => !locks.contains x)
  { p with lines := l :: p.lines.filter (fun x => some x != victim && x != l), needLine := none }

/-! ## Expansion (R187, R199) -/

/-- The lookahead queue could not take primitive `x` (R199): beside it stand all that are placed, those of bands not
released among them (DESIGN CHOICE, log entry 147). -/
def State.laqFull (s : State) (x : Placed) : Bool :=
  (s.prs.placed.map (Placed.cost s.freed)).sum + x.cost s.freed > 2 ^ s.lv PRS_CTRL.LAQ_LOG2

/-- A shape comes out of expansion: placed and binned, or dropped; `none` while the queue cannot take it. -/
def State.emit (s : State) (st : Stripe) (x : Prim) : Option State :=
  let f := s.tabLive.passFeed st.req.passes st.req.pass
  let moved : Prim := { x with shape := x.shape.map (s.prs.move (f.1, f.2.1)) }
  let n := moved.shape.points.length
  match binOf (bandsOf st.req.rows) moved with
  | none => some ((s.count 4 0x10 n).slots 1 1 n)
  | some b =>
    if s.laqFull b then none
    else some ((((s.setPrs { s.prs with placed := s.prs.placed ++ [b] }).laqWrite b.bytes).count 4 0x10 n).slots 1 0 n)

/-- PRS_TSTORE.LOCKED (R196, R203): the lines that the levels of the expansion stack hold, each once. -/
def State.showLocks (s : State) (ls : List Nat) : State := s.setReg PRS_TSTORE.LOCKED ls.eraseDups.length

/-- Expand the steps of the oldest band that is left, until a line or a directory entry is missing, the queue is full, or
all are done. -/
def State.expandSteps (s : State) (st : Stripe) : List XStep → State
  | [] => s.setPrs { s.prs with todo := s.prs.todo.drop 1, expanded := s.prs.expanded + 1, expandPos := 0 }
  | x :: xs =>
    let next := fun (s : State) => s.setPrs { s.prs with expandPos := s.prs.expandPos + 1 }
    match x.line with
    | some l =>
      if s.prs.lines.contains l && x.dir.all s.prs.dirs.contains then
        State.expandSteps (next ((s.setPrs ((s.prs.touch l).touchDir x.dir)).showLocks (l :: x.locks))) st xs
      else
        let t := (s.setPrs { s.prs with needLine := some l }).showLocks x.locks
        if s.prs.lines.contains l then t else t.count 4 0x12 1
    | none =>
      match x.prim with
      | none => State.expandSteps (next s) st xs
      | some p =>
        match s.emit st p with
        | none => (s.setReg PRS_STATUS.STALL_LAQ 1).showLocks x.locks
        | some s => State.expandSteps (next (s.showLocks x.locks)) st xs

/-- The steps still to do of the oldest band. -/
def Prs.steps (p : Prs) : List XStep := (expandBand p.templates (p.todo.headD [])).drop p.expandPos

/-- Go on with expansion: `n` bounds the bands. -/
def State.expand (st : Stripe) : Nat → State → State
  | 0, s => s
  | n + 1, s =>
    if s.prs.todo.isEmpty || s.prs.needLine.isSome || s.reg PRS_STATUS.STALL_LAQ = 1 then s
    else State.expand st n (s.expandSteps st s.prs.steps)

/-- Go on with every band that is left. -/
def State.expandAll (s : State) (st : Stripe) : State := State.expand st (s.prs.todo.length + 1) s

/-- The parser stops at AHEAD_MAX bands beyond the oldest band not retired (R199). -/
def State.tooFarAhead (s : State) : Bool :=
  s.prs.released ≠ 0 && s.prs.released - 1 ≥ s.prs.retired + s.lv PRS_CTRL.AHEAD_MAX

/-- The registers of the template store. -/
def State.prsRegs (s : State) : State :=
  let s := s.setReg PRS_TSTORE.LINES s.prs.lines.length
  if s.prs.todo.isEmpty then s.setReg PRS_TSTORE.LOCKED 0 else s

/-! ## Records (R131 to R156) -/

/-- The HBM3 regions of R267 that the parser writes. -/
def spillBase : Nat := 0x280000000

/-- The template directory of R267. -/
def dirBase : Nat := 0x2C0000000

/-- The 32 bytes of a directory entry (R196): declared box, ITEMS as TEMPLATE_END gives it, depth, offset of the
definition. The manual does not give their order (DESIGN CHOICE, log entry 118). -/
def Template.entry (t : Template) : List Byte :=
  let box := [t.bx0, t.by0, t.bx1, t.by1].flatMap (fun v => le 4 (v % 2 ^ 32).toNat)
  box ++ le 4 (num t.raw (t.raw.length - 4) 4) ++ le 4 t.depth ++ le 8 t.off

/-- A confirmed definition is written to the spill region, its directory entry to the directory (R196). That write counts as
a use of the entry, which is then on chip (DESIGN CHOICE, log entry 158). -/
def State.spill (s : State) (t : Template) : State :=
  let s := (s.hbmWrite (spillBase + t.off) t.raw).hbmWrite (dirBase + 32 * t.id) t.entry
  s.setPrs (s.prs.touchDir (some t.id))

/-- The section just read is confirmed (R136): its templates, fog rows and edges are used, its items expanded. `band` is
the stream band, or none for set-up. -/
def State.confirm (s : State) (band : Option Nat) : State :=
  let sec := s.prs.sect
  let fog := sec.fogRows.foldl (fun m r => Sparse.setList (fun _ => 0) m (5 * r.1) r.2) s.pec.fog
  let edges := match band with
    | some b => s.pec.edges ++ sec.edges.map (fun e => (b, e.1, e.2))
    | none => s.pec.edges
  let s := sec.templates.foldl State.spill { s with pec := { s.pec with fog := fog, edges := edges } }
  let p := { s.prs with sect := .empty, templates := s.prs.templates ++ sec.templates }
  match band with
  | none => s.setPrs p
  | some b => (s.setPrs { p with todo := p.todo ++ [sec.items] }).setReg PRS_BAND_CONF.BAND b

/-- The bytes of the record being read belong to a definition; a definition counts its records. -/
def Prs.inDef (p : Prs) (r : List Byte) : Prs :=
  match p.curDef with
  | none => p
  | some d =>
    { p with defBytes := p.defBytes + r.length
             curDef := some { d with count := d.count + 1, t := { d.t with raw := d.t.raw ++ r } } }

/-- An item inside a definition: its place in the spill region, the depth it brings, whether it leaves the declared box
(R145, R151). -/
def Prs.defItem (p : Prs) (d : OpenDef) (it : Item) (r : List Byte) : Prs :=
  let out := (it.box p.usable).any (fun b => b.x0 < d.t.bx0 || b.y0 < d.t.by0 || b.x1 > d.t.bx1 || b.y1 > d.t.by1)
  let depth := match it with
    | .place id _ _ nx ny _ _ _ _ =>
      if nx = 0 || ny = 0 then d.t.depth
      else max d.t.depth (((findTemplate p.usable id).map (·.depth)).getD 0 + 1)
    | _ => d.t.depth
  let place := (it, d.t.off + d.t.raw.length - r.length, r.length)
  { p with curDef := some { d with outside := d.outside || out,
                                   t := { d.t with items := d.t.items ++ [place], depth := depth } } }

/-- What an item record does. -/
def Prs.addItem (p : Prs) (r : List Byte) : Prs :=
  let it := itemOf r
  match p.curDef with
  | some d => p.defItem d it r
  | none =>
    let x := (it.box p.usable).map (·.x0)
    { p with sect := { p.sect with items := p.sect.items ++ [it] }, itemSeen := true
             lastX := if x.isSome then x else p.lastX }

/-- A TEMPLATE_DEFINE opens a definition (R145). -/
def Prs.define (p : Prs) (r : List Byte) : Prs :=
  let t : Template := { id := num r 8 4, bx0 := s32 r 16, by0 := s32 r 20, bx1 := s32 r 24, by1 := s32 r 28, items := [],
                        depth := 0, off := p.defBytes, raw := r }
  { p with curDef := some { t := t, count := 0, outside := false }, defIds := p.defIds ++ [num r 8 4]
           defBytes := p.defBytes + r.length }

/-- A TEMPLATE_END makes the template usable (R146). -/
def Prs.endDef (p : Prs) : Prs :=
  match p.curDef with
  | none => p
  | some d => { p with curDef := none, sect := { p.sect with templates := p.sect.templates ++ [d.t] } }

/-- A BAND_BEGIN opens a band section. -/
def Prs.openBand (p : Prs) : Prs :=
  { p with bandsBegun := p.bandsBegun + 1, lastX := none, itemSeen := false, sides := [], crcSection := 0 }

/-- The values of a DENSITY_EDGE, column by column (R154). -/
def edgeColumns (r : List Byte) : List (List Nat) :=
  (List.range (num r 10 2)).map (fun k => (List.range 16).map (fun i => num r (16 + 32 * k + 2 * i) 2))

/-- The rows of a FOG_MAP (R155). -/
def fogNodes (r : List Byte) : List (Nat × List Nat) :=
  (List.range (num r 12 2)).map (fun i => (num r 8 4 + i, (List.range 5).map (fun c => num r (16 + 10 * i + 2 * c) 2)))

/-- What a record that keeps every rule does to the parser (confirmation apart). -/
def Prs.effect (p : Prs) (r : List Byte) : Prs :=
  let p := p.inDef r
  match recType r with
  | 0x01 => { p with opened := true, fog := bit (num r 1 1) 0 }
  | 0x02 => { p with endSeen := true }
  | 0x04 => p.openBand
  | 0x20 => p.define r
  | 0x21 => p.endDef
  | 0x30 => { p with classes := p.classes ++ [(num r 8 1, num r 10 2)] }
  | 0x31 => { p with warp := some (warpCoeffs r 8, warpCoeffs r 48) }
  | 0x40 => { p with sides := num r 8 1 :: p.sides
                     sect := { p.sect with edges := p.sect.edges ++ [(num r 8 1, edgeColumns r)] } }
  | 0x41 => { p with fogNext := p.fogNext + num r 12 2, sect := { p.sect with fogRows := p.sect.fogRows ++ fogNodes r } }
  | 0x7F => p
  | _ => p.addItem r

/-- A record has been read: past it in the stream, counted in every CRC (R130, R134, R135). -/
def Prs.past (p : Prs) (r : List Byte) : Prs :=
  { p with input := p.input.drop r.length, offset := p.offset + r.length, seq := (p.seq + 1) % 2 ^ 32
           crcStripe := crc32c p.crcStripe r, crcSection := crc32c p.crcSection r }

/-- The registers that a WARP sets (R191, PRS_WARP_BOUND, PRS_STATUS.WARP_ON). -/
def State.warpRegs (s : State) (rows : Nat) (r : List Byte) : State :=
  let ceil := fun m : Nat => (m + 2 ^ 92 - 1) / 2 ^ 92
  let s := (s.setReg PRS_WARP_BOUND.BX (ceil (warpBound (warpCoeffs r 8) rows))).setReg PRS_WARP_BOUND.BY
    (ceil (warpBound (warpCoeffs r 48) rows))
  s.setReg PRS_STATUS.WARP_ON (b2n ((warpCoeffs r 8 ++ warpCoeffs r 48).any (fun c => c != 0)))

/-- A whole record that keeps every rule. A BAND_BEGIN confirms the section before it; one whose PREV_CRC is right but that
breaks another rule confirms nothing (DESIGN CHOICE, log entry 155). -/
def State.takeRecord (s : State) (st : Stripe) (r : List Byte) : State :=
  let p := s.prs
  let s := if recType r = 0x04 then s.confirm (if p.bandsBegun = 0 then none else some (p.bandsBegun - 1)) else s
  let s := s.setPrs ((s.prs.effect r).past r)
  let s := (if recType r = 0x31 then s.warpRegs st.req.rows r else s).setReg PRS_TDEF.BYTES s.prs.defBytes
  ((s.setReg PRS_STATUS.ACTIVE 1).expandAll st).prsRegs

/-- A record breaks a rule (R157, R160): nothing of its section goes on, the templates are discarded, event 0x30, and
the stripe ends. INFO[15:8] holds TYPE of the record; where the data ends with no byte of a further one it is 0, a
point that the manual leaves open (DESIGN CHOICE, log entry 116). -/
def State.sovisFault (s : State) (st : Stripe) (reason : Nat) : State :=
  let p := s.prs
  let status := if reason = 0x15 || reason = 0x16 then 0x07 else 0x08
  let ev := devEvent 0x30 status (reason + num p.input 0 1 * 2 ^ 8) (p.offset % 2 ^ 48) (st.req.id + p.seq * 2 ^ 32)
  let s := s.setPrs { p with failed := true, sect := .empty, curDef := none, input := [], templates := [], todo := [],
                             needLine := none }
  let s := ((s.setReg PRS_STATUS.ACTIVE 0).setReg PRS_STATUS.LAST_STATUS status).setReg PRS_STATUS.LAST_REASON reason
  let s := s.setReg PRS_STATUS.STARVED 0
  (s.feedEnds status).streamFault p.offset reason [ev]

/-- The stream ends in order (R132, R136): the last band section is confirmed. -/
def State.sovisEnd (s : State) (st : Stripe) : State :=
  let s := s.confirm (some (s.prs.bandsBegun - 1))
  let s := s.setPrs { s.prs with finished := true }
  let s := ((s.setReg PRS_STATUS.ACTIVE 0).setReg PRS_STATUS.LAST_STATUS 0).setReg PRS_STATUS.LAST_REASON 0
  ((s.setReg PRS_STATUS.STARVED 0).expandAll st).prsRegs

/-- In RAW mode the FEED channels of the stream deliver the staged bytes directly (R170), read through port 4 (R284), all
HELD while the parser's input is full (R199), and none while one of them is halted (R113; DESIGN CHOICE, log entry 16);
and what follows. -/
def State.rawFeed (s : State) (st : Stripe) (ecc : EccReads) (next : State → State) : State :=
  let feeds := (List.range s.feedWidth).map (· + 23)
  let halted := feeds.any (fun k => s.reg (DMA_CH_STATUS.HALTED k) == 1)
  match (if s.cdc.feed.raw == some true && !halted then s.streamChan st.req.streamSq else none) with
  | none => next s
  | some ch =>
    s.feedRead ch (if s.inputFull then 0 else s.stagedCount ch) ecc (fun s bs =>
      let f := s.cdc.feed
      let n := f.used + bs.length
      let s := (s.setFeed { f with used := n }).setReg CDC_FEED_IN.IN n
      next ((feeds.foldl (fun s k => s.setReg (DMA_CH_STATUS.HELD k) (b2n (s.stagedCount ch != 0))) s).toParser bs))

/-- No more decoded input will come: everything is fetched and, in coded mode, the END block has passed as its last
bytes (R170, R172). -/
def State.inputEnded (s : State) (st : Stripe) : Bool :=
  let f := s.cdc.feed
  s.fetchedAll st && ((s.streamChan st.req.streamSq).all (fun ch => s.stagedCount ch == 0)) &&
  (f.raw != some false || (f.dec.phase == 3 && f.buf.isEmpty))

/-- The parser reads on: not after a fault or the end, not while stalled or expanding. -/
def State.parsing (s : State) : Bool :=
  !s.prs.failed && !s.prs.finished && s.prs.todo.isEmpty && s.reg PRS_STATUS.STALL_LAQ == 0 && !s.stallAhead

/-- The parser reads one record of the held stripe's stream. -/
def State.parseRecord (s : State) (st : Stripe) : State :=
  let ended := s.inputEnded st
  if s.prs.endSeen then
    if !s.prs.input.isEmpty then s.sovisFault st 0x14 else if ended then s.sovisEnd st else s
  else
    match s.prs.read st.req ended with
    | .wait => s.setReg PRS_STATUS.STARVED 1
    | .fault n => s.sovisFault st n
    | .whole r => (s.setReg PRS_STATUS.STARVED 0).takeRecord st r

/-- SOVIS_RECORD (R131 to R160): not while the chip holds at a finding or is fenced. -/
def execSovisRecord (ecc : EccReads) (s : State) : Host.Outcome State Fault Refusal :=
  .next (
    match s.liveStripe with
    | none => s
    | some st =>
      if s.cdc.feed.raw.isNone || s.holding || s.fence.isSome || !s.serviced then s
      else (s.wakeBlock 4).rawFeed st ecc (fun s => if s.parsing then s.parseRecord st else s))

/-- The directory entry of a template is read through port 5 where it is not cached (R196, R284), and what follows. -/
def State.dirRead (s : State) (id : Option Nat) (ecc : EccReads) (next : State → State) : State :=
  match id.filter (fun k => !s.prs.dirs.contains k) with
  | none => next s
  | some k => s.portRead 5 (dirBase + 32 * k) 32 ecc (fun s => next (s.setPrs (s.prs.touchDir (some k))))

/-- TEMPLATE_LINE_FILL (R196, R284): the missing line arrives through port 5, behind the directory entry that names its
place where that is missing too, and expansion continues. An entry that alone is missing comes with its line, which is
read again (DESIGN CHOICE, log entry 152). -/
def execTemplateLineFill (line : Nat) (ecc : EccReads) (s : State) : Host.Outcome State Fault Refusal :=
  .next (
    match s.liveStripe with
    | none => s
    | some st =>
      if s.prs.needLine = some line && s.serviced then
        let s := s.wakeBlock 4
        let locks := ((s.prs.steps.head?).map (·.locks)).getD []
        s.dirRead (s.prs.steps.head?.bind (·.dir)) ecc (fun s =>
          s.portRead 5 (spillBase + 4096 * line) 4096 ecc (fun s =>
            ((s.setPrs (s.prs.fillLine line locks)).expandAll st).prsRegs))
      else s)

/-! ## Release and retirement (R195, R198, R199) -/

/-- Output band `k` may be released (R195): stream band k + 1 is confirmed and wholly expanded, or the stripe's last. -/
def State.mayRelease (s : State) (st : Stripe) : Bool :=
  let k := s.prs.released
  k < bandsOf st.req.rows && !s.waitGrid && (k + 2 ≤ s.prs.expanded || (s.prs.finished && s.prs.todo.isEmpty))

/-- BAND_RELEASE (R195): output band k passes to the pre-scan and to the lookahead queue; at AHEAD_MAX the parser
stalls (R199). -/
def execBandRelease (s : State) : Host.Outcome State Fault Refusal :=
  .next (
    match s.liveStripe with
    | none => s
    | some st =>
      if s.mayRelease st && !s.holding && s.fence.isNone && s.serviced then
        let k := s.prs.released
        let new := s.prs.placed.filter (fun x => x.k0 = k)
        let n := new.length
        let s := new.foldl (fun s x => s.laqWrite (8 * x.refs)) s
        let s := (s.setPrs { s.prs with released := k + 1 }).setReg PRS_BAND_REL.BAND k
        let s := (s.setReg PRS_PRIMS.COUNT (s.reg PRS_PRIMS.COUNT + n)).count 4 0x11 n
        ((if s.tooFarAhead then s.setReg PRS_STATUS.STALL_AHEAD 1 else s).prsRegs).wakeBlock 6
      else s)

/-- PARSER_RESUME (R199): the queue has room, and the parser is below AHEAD_MAX. -/
def execParserResume (s : State) : Host.Outcome State Fault Refusal :=
  .next (
    match s.liveStripe with
    | none => s
    | some st =>
      let s := if s.tooFarAhead then s else s.setReg PRS_STATUS.STALL_AHEAD 0
      ((s.setReg PRS_STATUS.STALL_LAQ 0).expandAll st).prsRegs)

end Sys2Proof.Machine
end

