-- ==== Sys2Proof/Machine/Raster.lean ====
section
/-! DEFINITION. The casement rasteriser (R204 to R219): samples, edges, curves on the grid of 2^32 steps, coverage, the
slices of a band in work order, class planes and pane buffers, recompute of a band, and retirement of bands (R198). -/

namespace Sys2Proof.Machine

/-! ## Samples and edges (R204 to R211) -/

/-- Half-su position of sample `i` of pixel `p` along one axis, with that axis's offset `o` (R204). -/
def samplePos (p i : Nat) (o : Int) : Int := 2 * (16 * (p : Int) + i + o) + 1

/-- A sample lies inside the stripe's own area (R205), in half-su. -/
def insideStripe (rows : Nat) (x y : Int) : Bool := 0 < x && x < 524288 && 0 < y && y < 32 * (rows : Int)

/-- Contribution of the straight edge from `p` to `q` to the winding of sample (x, y) (R206, R208). -/
def lineCross (p q : Int × Int) (x y : Int) : Int :=
  let dx := 2 * (q.1 - p.1)
  let dy := 2 * (q.2 - p.2)
  let sx := x - 2 * p.1
  let sy := y - 2 * p.2
  let d : Int := if dy > 0 then 1 else -1
  if dy ≠ 0 && min 0 dy ≤ sy && sy < max 0 dy && (sx * dy - dx * sy) * d ≥ 0 then d else 0

/-- Bisection on the grid (R210): with `n` halvings left, keeps the sign of `f` at `lo` and answers `lo`. -/
def bisect (f : Nat → Int) (sg : Int) : Nat → Nat → Nat → Nat
  | 0, lo, _ => lo
  | n + 1, lo, hi =>
    if hi - lo > 1 then
      let mid := (lo + hi) / 2
      if (f mid).sign = sg then bisect f sg n mid hi else bisect f sg n lo mid
    else lo

/-- One past the last grid point's number of halvings. -/
def gridBits : Nat := 33

/-- The grid: parameter values are k / 2^32 (R209). -/
def gridEnd : Nat := 2 ^ 32

/-- A curved segment in power basis, one axis: A3, A2, A1 (R209). -/
structure Axis where
  a3 : Int
  a2 : Int
  a1 : Int
  deriving DecidableEq, Repr

/-- Scaled position at grid point `k`. -/
def Axis.pos (a : Axis) (k : Nat) : Int := a.a3 * k ^ 3 + a.a2 * k ^ 2 * 2 ^ 32 + a.a1 * k * 2 ^ 64

/-- Scaled derivative at grid point `k`. -/
def Axis.deriv (a : Axis) (k : Nat) : Int := 3 * a.a3 * k ^ 2 + 2 * a.a2 * k * 2 ^ 32 + a.a1 * 2 ^ 64

/-- Scaled second derivative at grid point `k`. -/
def Axis.deriv2 (a : Axis) (k : Nat) : Int := 6 * a.a3 * k + 2 * a.a2 * 2 ^ 32

/-- The axis of a QUAD with control points relative to its start, in half-su. -/
def Axis.quad (q1 q2 : Int) : Axis := ⟨0, q2 - 2 * q1, 2 * q1⟩

/-- The axis of a CUBIC. -/
def Axis.cubic (q1 q2 q3 : Int) : Axis := ⟨3 * q1 - 3 * q2 + q3, 3 * q2 - 6 * q1, 3 * q1⟩

/-- The grid point in (lo, hi) that splits where `f` changes sign; none when it does not. -/
def splitAt (f : Nat → Int) (lo hi : Nat) : List Nat :=
  if (f lo).sign * (f hi).sign = -1 then [bisect f (f lo).sign gridBits lo hi] else []

/-- Consecutive pairs of a list. -/
def pairsOf : List Nat → List (Nat × Nat)
  | a :: b :: l => (a, b) :: pairsOf (b :: l)
  | _ => []

/-- The y-monotone pieces of a curved segment (R210). -/
def Axis.pieces (y : Axis) (cubic : Bool) : List (Nat × Nat) :=
  let bounds := [0] ++ (if cubic then splitAt y.deriv2 0 gridEnd else []) ++ [gridEnd]
  let splits := (pairsOf bounds).flatMap (fun b => splitAt y.deriv b.1 b.2)
  pairsOf ([0] ++ splits ++ [gridEnd])

/-- The last grid point of a piece at or before the sample's row (R210). -/
def pieceRow (y : Axis) (d ty : Int) : Nat → Nat → Nat → Nat
  | 0, lo, _ => lo
  | n + 1, lo, hi =>
    if hi - lo > 1 then
      let mid := (lo + hi) / 2
      if d * (y.pos mid - ty) ≤ 0 then pieceRow y d ty n mid hi else pieceRow y d ty n lo mid
    else lo

/-- Contribution of the piece [ka, kb] to a sample at (sx, sy) relative to the segment's start (R210). -/
def pieceCross (x y : Axis) (ka kb : Nat) (sx sy : Int) : Int :=
  let ya := y.pos ka
  let yb := y.pos kb
  let d : Int := if yb > ya then 1 else -1
  let ty := sy * 2 ^ 96
  if ya = yb then 0
  else if !(min ya yb ≤ ty && ty < max ya yb) then 0
  else if x.pos (pieceRow y d ty gridBits ka kb) ≤ sx * 2 ^ 96 then d else 0

/-- A segment of an outline (R144). -/
inductive Seg where
  | line (p q : Int × Int)
  | quad (p c q : Int × Int)
  | cubic (p c d q : Int × Int)
  deriving DecidableEq, Repr

/-- Two coordinates relative to a start, in half-su. -/
def rel (p q : Int × Int) : Int × Int := (2 * (q.1 - p.1), 2 * (q.2 - p.2))

/-- The axes of a curved segment, and whether it is a CUBIC; none for a LINE. -/
def Seg.axes : Seg → Option (Axis × Axis × Bool)
  | .line _ _ => none
  | .quad p c q => some (.quad (rel p c).1 (rel p q).1, .quad (rel p c).2 (rel p q).2, false)
  | .cubic p c d q => some (.cubic (rel p c).1 (rel p d).1 (rel p q).1, .cubic (rel p c).2 (rel p d).2 (rel p q).2, true)

/-- Where a segment starts. -/
def Seg.start : Seg → Int × Int
  | .line p _ => p
  | .quad p _ _ => p
  | .cubic p _ _ _ => p

/-- The points of a segment. -/
def Seg.points : Seg → List (Int × Int)
  | .line p q => [p, q]
  | .quad p c q => [p, c, q]
  | .cubic p c d q => [p, c, d, q]

/-- Contribution of a segment to the winding of a sample. -/
def Seg.cross (g : Seg) (x y : Int) : Int :=
  match g with
  | .line p q => lineCross p q x y
  | _ =>
    let p := g.start
    match g.axes with
    | none => 0
    | some (ax, ay, isCubic) =>
      ((ay.pieces isCubic).map (fun k => pieceCross ax ay k.1 k.2 (x - 2 * p.1) (y - 2 * p.2))).sum

/-- Edges and pieces that a segment sets up (R219). -/
def Seg.count (g : Seg) : Nat :=
  match g.axes with
  | none => 1
  | some (_, ay, isCubic) => (ay.pieces isCubic).length

/-- The segments of a contour's loops, from its codes and points (R144): 0 LINE, 1 QUAD, 2 CUBIC, 3 START. -/
def contourSegs : List Nat → List (Int × Int) → Int × Int → List Seg
  | [], _, _ => []
  | c :: cs, pts, cur =>
    let n := codeTakes c
    let p := fun k => pts.getD k (0, 0)
    let rest := contourSegs cs (pts.drop n) (p (n - 1))
    match c with
    | 0 => .line cur (p 0) :: rest
    | 1 => .quad cur (p 0) (p 1) :: rest
    | 2 => .cubic cur (p 0) (p 1) (p 2) :: rest
    | _ => rest

/-- The sides of a polygon, the last one closing it. -/
def polygonSegs (v : List (Int × Int)) : List Seg :=
  (v.zip (v.drop 1 ++ v.take 1)).map (fun e => .line e.1 e.2)

/-- The outline of a shape (R206). -/
def Shape.segs : Shape → List Seg
  | .polygon v => polygonSegs v
  | .contour c p => contourSegs c p (0, 0)

/-- The winding number of a sample (R206). -/
def winding (segs : List Seg) (x y : Int) : Int := (segs.map (fun g => g.cross x y)).sum

/-- A sample at half-su (x, y) is covered by the union of some outlines (R205 to R207). -/
def sampleCovered (rows : Nat) (outlines : List (List Seg)) (x y : Int) : Bool :=
  insideStripe rows x y && outlines.any (fun o => winding o x y ≠ 0)

/-- Coverage of pixel (x, y) by the union of some outlines, with the louver's offset (R204, R205, R207). -/
def coverage (rows : Nat) (outlines : List (List Seg)) (off : Int × Int) (x y : Nat) : Nat :=
  if rows ≤ y then 0
  else ((List.range 256).filter (fun k =>
    sampleCovered rows outlines (samplePos x (k % 16) off.1) (samplePos y (k / 16) off.2))).length

/-! ## Bins and slices (R194, R198, R215, R216) -/

/-- The primitives in the bin of output band `b` and pane `p`, in the order they entered it. -/
def State.bin (s : State) (b p : Nat) : List Prim :=
  (s.prs.placed.filter (fun x => x.k0 ≤ b && b ≤ x.k1 && x.p0 ≤ p && p ≤ x.p1)).map (·.prim)

/-- The classes that a list of primitives uses, ascending (R216). -/
def classesOf (ps : List Prim) : List Nat := (List.range 256).filter (fun c => ps.any (fun p => p.cls == c))

/-- The outlines of one class. -/
def outlinesOf (ps : List Prim) (c : Nat) : List (List Seg) :=
  (ps.filter (fun p => p.cls == c)).map (fun p => p.shape.segs)

/-- The placement offset that louver `x` uses (R212). -/
def State.louverOffset (s : State) (x : Nat) : Int × Int :=
  if s.lv CSM_CTRL.OFFSET_EN = 1 then s.tabLive.offset x else (0, 0)

/-- The class planes of slice `k` of pane `p` of band `b` (R216). -/
def State.slicePlanes (s : State) (rows b p k : Nat) : List Plane :=
  let ps := s.bin b p
  (classesOf ps).map (fun c =>
    let os := outlinesOf ps c
    { band := b, pane := p, slice := k, cls := c
      cov := (List.range 16384).map (fun i =>
        let x := 1024 * p + i % 1024
        coverage rows os (s.louverOffset x) x (256 * b + 16 * k + i / 1024)) })

/-- A segment is set up by leaf `l` of pane `p` in pixel row `y` (R219). -/
def Seg.inLeaf (g : Seg) (p l y : Nat) : Bool :=
  match boxOf g.points with
  | none => false
  | some b =>
    let x0 : Int := 16384 * p + 256 * l
    let y0 : Int := 16 * y
    b.y0 - 128 ≤ y0 + 15 && y0 ≤ b.y1 + 128 &&
    ((b.x0 - 128 ≤ x0 + 255 && x0 ≤ b.x1 + 128) || (l == 0 && b.x1 + 128 < x0))

/-- The set-ups of a slice, summed over leaves and pixel rows (R219; DEDUCED, log entry 24). -/
def State.sliceSetups (s : State) (b p k : Nat) : Nat :=
  let segs := (s.bin b p).flatMap (fun q => q.shape.segs)
  (segs.map (fun g => g.count * ((List.range 1024).filter (fun i =>
    g.inLeaf p (i % 64) (256 * b + 16 * k + i / 64))).length)).sum

/-! ## Work order (R215, R218) -/

/-- The chip works on the data path: it is in service, holds at no finding and is not fenced. -/
def State.working (s : State) : Bool := s.serviced && !s.holding && s.fence.isNone

/-- Skip panes whose bin is empty, and bands with no pane left, up to the bands that are released: `n` bounds the
steps. A unit is a slice, 16 p + k. -/
def State.skipEmpty (s : State) : Nat → Nat × Nat → Nat × Nat
  | 0, w => w
  | n + 1, (b, u) =>
    if b < s.prs.released then
      if u ≥ 256 then State.skipEmpty s n (b + 1, 0)
      else if u % 16 = 0 && (s.bin b (u / 16)).isEmpty then State.skipEmpty s n (b, u + 16)
      else (b, u)
    else (b, u)

/-- The regular work passes over what is empty. -/
def State.csmSkip (s : State) : State :=
  let w := s.skipEmpty (17 * (s.prs.released - s.csm.band) + 1) (s.csm.band, s.csm.unit)
  { s with csm := { s.csm with band := w.1, unit := w.2 } }

/-- The recompute passes over empty panes of its band; past the last pane its unit is 256. -/
def State.recomputeSkip (s : State) : State :=
  match s.csm.recompute with
  | none => s
  | some (b, u) =>
    let rest := (List.range (256 - u)).map (· + u) |>.filter (fun v => !(s.bin b (v / 16)).isEmpty)
    { s with csm := { s.csm with recompute := some (b, rest.headD 256) } }

/-- Class planes that the pane buffers hold at most (R217). -/
def planeRoom : Nat := 448

/-- The slice at hand is rasterised (R216, R217): its planes enter the pane buffers one by one; when the next would
not fit the rasteriser waits with the slice begun. `again` marks a slice of a recompute. -/
def State.slice (s : State) (again : Bool) (rows b u : Nat) (next : State → State) : State :=
  let done := (s.csm.part.map (·.2)).getD 0
  let ps := (s.slicePlanes rows b (u / 16) (u % 16)).drop done
  let fit := ps.take (planeRoom - s.csm.planes.length)
  let planes := s.csm.planes ++ fit
  let s := { s with csm := { s.csm with planes := planes, part := some (again, done + fit.length) } }
  let s := (s.setReg CSM_PBUF.PEAK (max (s.reg CSM_PBUF.PEAK) planes.length)).count 5 0x11 fit.length
  if fit.length < ps.length then s.setReg CSM_STATUS.WAIT_BUF 1
  else
    let n := s.sliceSetups b (u / 16) (u % 16)
    let s := { s with csm := { s.csm with part := none } }.setReg CSM_STATUS.WAIT_BUF 0
    let s := s.setReg CSM_PIECES.COUNT (s.reg CSM_PIECES.COUNT + n)
    next (((s.count 5 0x10 n).count 5 0x13 (b2n again)).slots 2 (b2n again) n)

/-- The recompute whose slice is at hand: one with slices left, unless a regular slice is begun (R218). -/
def State.recomputing (s : State) : Option (Nat × Nat) :=
  if s.csm.part.any (fun w => !w.1) then none else s.csm.recompute.filter (fun w => w.2 < 256)

/-- PANE_SLICE_DONE (R215, R216, R218): the next slice, of a recompute before regular work. -/
def State.sliceDone (s : State) (rows : Nat) : State :=
  let s := s.csmSkip.recomputeSkip
  match s.recomputing with
  | some (b, u) =>
    s.slice true rows b u (fun s => State.recomputeSkip { s with csm := { s.csm with recompute := some (b, u + 1) } })
  | none =>
    if s.csm.band < s.prs.released then
      s.slice false rows s.csm.band s.csm.unit (fun s =>
        State.csmSkip { s with csm := { s.csm with unit := s.csm.unit + 1 } })
    else s

/-- PANE_SLICE_DONE (R204 to R219, R284): the slice's bin is read from the lookahead queue through port 3. -/
def execPaneSliceDone (ecc : EccReads) (s : State) : Host.Outcome State Fault Refusal :=
  .next (
    match s.liveStripe with
    | none => s
    | some st =>
      if s.working then
        (s.wakeBlock 5).regionRead 3 0x100000000 (2 ^ s.lv PRS_CTRL.LAQ_LOG2) ecc (fun s => s.sliceDone st.req.rows)
      else s)

/-! ## Pane buffers drain into correction (R217, R229) -/

/-- Bands whose corrected dose is complete. -/
def State.dosed (s : State) : Nat := (s.reg PEC_BAND_DOSE.BAND + 1) % 2 ^ 32

/-- MULT of a dose class (R140); an undefined class adds nothing (R222). -/
def Prs.mult (p : Prs) (c : Nat) : Nat := ((p.classes.find? (fun e => e.1 == c)).map (·.2)).getD 0

/-- A plane's share in the sums v of R229: key 16384 row + x. -/
def foldPlane (m : Nat) (v : Sparse Nat) (p : Plane) : Sparse Nat :=
  (p.cov.zip (List.range p.cov.length)).foldl (fun v e =>
    if e.1 = 0 then v
    else
      let k := 16384 * (16 * p.slice + e.2 / 1024) + 1024 * p.pane + e.2 % 1024
      Sparse.set (fun _ => 0) v k (Sparse.get (fun _ => 0) v k + m * e.1)) v

/-- A plane of a band that has been corrected belongs to a recompute. -/
def State.isAgain (s : State) (p : Plane) : Bool := p.band < s.dosed

/-- The plane that the correction stage takes next: the oldest of a recompute, else the oldest of the band in
correction. -/
def State.nextPlane (s : State) : Option Plane :=
  match s.csm.planes.find? (fun p => s.isAgain p) with
  | some p => some p
  | none => s.csm.planes.find? (fun p => p.band == s.dosed)

/-- The correction stage takes one plane. -/
def State.takePlane (s : State) (p : Plane) : State :=
  let m := s.prs.mult p.cls
  let pec := if s.isAgain p then { s.pec with vRecompute := foldPlane m s.pec.vRecompute p }
    else { s.pec with v := foldPlane m s.pec.v p, entered := (16 * p.band + p.pane) :: s.pec.entered.filter (fun e =>
      e != 16 * p.band + p.pane) }
  { s.wakeBlock 6 with pec := pec, csm := { s.csm with planes := s.csm.planes.erase p } }.setReg CSM_STATUS.WAIT_BUF 0

/-- PANE_BUFFER_FREE (R217). -/
def execPaneBufferFree (s : State) : Host.Outcome State Fault Refusal :=
  .next (
    match s.liveStripe, s.nextPlane with
    | some _, some p => if s.working then s.takePlane p else s
    | _, _ => s)

/-! ## Retirement (R198) and recompute (R218) -/

/-- Primitives leave once no later bin refers to them, and the pre-scan has received their last band. -/
def State.dropPlaced (s : State) : State :=
  let seen := min s.freed s.densed
  s.setPrs { s.prs with placed := s.prs.placed.filter (fun x => seen ≤ x.k1) }

/-- BAND_RETIRE (R198, R199, R360): the rasteriser has finished the band's last pane; its space is free, in a pair once
every step that reads the band is decided. -/
def execBandRetire (s : State) : Host.Outcome State Fault Refusal :=
  .next (
    match s.liveStripe with
    | none => s
    | some _ =>
      let s := s.csmSkip
      if s.prs.retired < s.csm.band then
        (((s.setPrs { s.prs with retired := s.prs.retired + 1 }).setReg PRS_BAND_FINE.BAND (s.prs.retired + 1)).dropPlaced).prsRegs
      else s)

/-- The bands that a dose recompute of step `m` asks for (R357): those that hold a row from m + L - 240 to m + L. -/
def Stripe.bandsOfStep (st : Stripe) (m : Int) : List Nat :=
  let lo := (m + st.req.lead - 240).toNat
  let hi := min (m + st.req.lead) ((st.req.rows : Int) - 1)
  if hi < lo then [] else (List.range (hi.toNat / 256 - lo / 256 + 1)).map (· + lo / 256)

/-- The vote whose dose recompute of this round has bands left, oldest first (R357). -/
def State.doseVote (s : State) (st : Stripe) : Option Vote :=
  s.nlk.votes.find? (fun v => s.covered && v.round ≠ 0 && v.kind == 0 && v.myResults.length < v.round &&
    (st.bandsOfStep v.step).any (fun b => !v.redone.contains b))

/-- RECOMPUTE_BAND (R218, R357): the next band of the dose recompute in progress is taken up at a slice boundary. Bands
are taken in ascending order, each once the one before it has been corrected again. -/
def execRecomputeBand (s : State) : Host.Outcome State Fault Refusal :=
  .next (
    match s.liveStripe with
    | none => s
    | some st =>
      match (if s.csm.recompute.isSome then none else s.doseVote st) with
      | none => s
      | some v =>
        match (st.bandsOfStep v.step).find? (fun b => !v.redone.contains b) with
        | some b => State.recomputeSkip { s with csm := { s.csm with recompute := some (b, 0) },
                                                 pec := { s.pec with vRecompute := [] } }
        | none => s)

end Sys2Proof.Machine
end

