-- ==== Sys2Proof/Machine/Pec.lean ====
section
/-! DEFINITION. Density, proximity and fog correction (R221 to R236): sash density, blur, fog, the factor, the dose of a
pixel, error diffusion, dose rows, and witness captures. -/

namespace Sys2Proof.Machine

/-! ## Sash density (R221 to R223) -/

/-- The centre sample of pixel (x, y) is covered by some outlines (R221): no louver offset applies. -/
def centreCovered (rows : Nat) (outlines : List (List Seg)) (x y : Nat) : Bool :=
  sampleCovered rows outlines (samplePos x 8 0) (samplePos y 8 0)

/-- n_c(X, Y): the pixels of a sash cell whose centre sample is covered by some outlines (R221). -/
def cellCount (rows : Nat) (outlines : List (List Seg)) (cx cy : Nat) : Nat :=
  ((List.range 256).filter (fun k => centreCovered rows outlines (16 * cx + k % 16) (16 * cy + k / 16))).length

/-- Sash density of a cell inside the stripe (R222), from each class's multiplier and outlines. -/
def cellDensity (rows : Nat) (classes : List (Nat × List (List Seg))) (cx cy : Nat) : Nat :=
  ((classes.map (fun c => c.1 * cellCount rows c.2 cx cy)).sum + 128) / 256

/-- The multipliers and outlines that output band `k` brings to the pre-scan (R198). -/
def State.bandClasses (s : State) (k : Nat) : List (Nat × List (List Seg)) :=
  let ps := (s.prs.placed.filter (fun x => x.k0 ≤ k && k ≤ x.k1)).map (·.prim)
  (classesOf ps).map (fun c => (s.prs.mult c, outlinesOf ps c))

/-- Neighbour density (R154, R223): column `c` outward on a side, sash row `y`. -/
def Pec.edge (p : Pec) (side c y : Nat) : Nat :=
  match p.edges.find? (fun e => e.1 == y / 16 && e.2.1 == side) with
  | some e => (e.2.2.getD c []).getD (y % 16) 0
  | none => 0

/-- rho(X, Y) over the whole extended grid (R222, R223). -/
def Pec.density (p : Pec) (rows : Nat) (x y : Int) : Nat :=
  if y < 0 || y > ((rows : Int) - 1) / 16 then 0
  else if x < -300 || x > 1323 then 0
  else if x < 0 then p.edge 0 (-1 - x).toNat y.toNat
  else if x ≥ 1024 then p.edge 1 (x - 1024).toNat y.toNat
  else Sparse.get (fun _ => 0) p.rho (y.toNat * 1024 + x.toNat)

/-- Bands of the density grid (R234). -/
def gridBands : Nat := 72

/-- Cells of one band of the grid, and of B. -/
def bandCells : Nat := 16384

/-- Forget the cells of bands below `b`. -/
def forgetBands (m : Sparse Nat) (b : Nat) : Sparse Nat := m.filter (fun e => b * bandCells ≤ e.1)

/-- The density of band `k` is written to its slot of the grid. -/
def State.densityBand (s : State) (rows k : Nat) : State :=
  let cs := s.bandClasses k
  let row := fun (m : Sparse Nat) y =>
    Sparse.setList (fun _ => 0) m (y * 1024) ((List.range 1024).map (fun x => cellDensity rows cs x y))
  let rho := ((List.range 16).map (· + 16 * k)).foldl row (forgetBands s.pec.rho (k + 1 - gridBands))
  { s with pec := { s.pec with rho := rho } }.setReg PEC_BAND_DENS.BAND k

/-- DENSITY_BAND_DONE (R221 to R223, R234): the next released band, once its grid slot is free. -/
def execDensityBandDone (s : State) : Host.Outcome State Fault Refusal :=
  .next (
    match s.liveStripe with
    | none => s
    | some st =>
      if s.working && s.densed < s.prs.released && !s.waitGrid then
        ((s.wakeBlock 6).densityBand st.req.rows s.densed).dropPlaced
      else s)

/-! ## Blur and fog (R224 to R226) -/

/-- The box half-width (R224): the largest r with 51,200 r (r + 1) at most BETA_NM squared. -/
def boxHalf (beta : Nat) : Nat := ((List.range 88).filter (fun r => 51200 * r * (r + 1) ≤ beta * beta)).length - 1

/-- Running sums of a list, from a zero. -/
def runningSums {α : Type} (add : α → α → α) : α → List α → List α
  | z, [] => [z]
  | z, a :: l => z :: runningSums add (add z a) l

/-- One box pass of width `w`: each sum of `w` neighbours. -/
def boxPass {α : Type} (zero : α) (add sub : α → α → α) (w : Nat) (l : List α) : List α :=
  let p := runningSums add zero l
  (p.drop w).zipWith sub p

/-- Three cascaded box passes. -/
def boxPasses {α : Type} (zero : α) (add sub : α → α → α) (w : Nat) (l : List α) : List α :=
  let pass := boxPass zero add sub w
  pass (pass (pass l))

/-- Three passes along x over sash row `y`: 1,024 sums. -/
def Pec.blurRow (p : Pec) (rows r : Nat) (y : Int) : List Nat :=
  boxPasses 0 (· + ·) (· - ·) (2 * r + 1)
    ((List.range (1024 + 6 * r)).map (fun (i : Nat) => p.density rows ((i : Int) - 3 * r) y))

/-- The 16 rows of B of band `b` (R225): exact sums, one rounding. -/
def Pec.blurBand (p : Pec) (rows r b : Nat) : List (List Nat) :=
  let w6 := (2 * r + 1) ^ 6
  let zero := List.replicate 1024 0
  let xs := (List.range (16 + 6 * r)).map (fun (j : Nat) => p.blurRow rows r (16 * b + (j : Int) - 3 * r))
  (boxPasses zero (List.zipWith (· + ·)) (List.zipWith (· - ·)) (2 * r + 1) xs).map (fun l =>
    l.map (fun t => (t + w6 / 2) / w6))

/-- The half-width of the live set. -/
def State.boxHalf (s : State) : Nat := Sys2Proof.Machine.boxHalf (s.lv PEC_BETA.BETA_NM)

/-- F(X, Y) (R226): bilinear between the four nodes around the cell's centre; 0 without FOG. -/
def Pec.fogAt (p : Pec) (on : Bool) (x y : Nat) : Nat :=
  let node := fun r c => Sparse.get (fun _ => 0) p.fog (5 * r + c)
  let cn := x / 256
  let ux := 2 * (x % 256) + 1
  let rn := y / 256
  let uy := 2 * (y % 256) + 1
  if on then
    ((512 - ux) * (512 - uy) * node rn cn + ux * (512 - uy) * node rn (cn + 1) + (512 - ux) * uy * node (rn + 1) cn +
      ux * uy * node (rn + 1) (cn + 1) + 131072) / 262144
  else 0

/-- Bands whose B and F are kept (R232). -/
def blurBands : Nat := 8

/-- B of band `b` may be computed: its densities are complete as far as the cascade reaches, and the band whose place it
takes is corrected and, in a pair, decided (R232, R233, R360). -/
def State.mayBlur (s : State) (st : Stripe) (b : Nat) : Bool :=
  b < bandsOf st.req.rows && min (b + 17) (bandsOf st.req.rows - 1) < s.densed &&
  (b < blurBands || (b < s.dosed + blurBands && (!s.joined || b < s.readBands + blurBands)))

/-- BLUR_BAND_DONE (R224 to R226). -/
def execBlurBandDone (s : State) : Host.Outcome State Fault Refusal :=
  .next (
    match s.liveStripe with
    | none => s
    | some st =>
      let b := s.blurred
      if s.working && s.mayBlur st b then
        let rows := s.pec.blurBand st.req.rows s.boxHalf b
        let blur := Sparse.setList (fun _ => 0) (forgetBands s.pec.blur (b + 1 - blurBands)) (b * bandCells) rows.flatten
        { s.wakeBlock 6 with pec := { s.pec with blur := blur } }.setReg PEC_BAND_B.BAND b
      else s)

/-! ## Factor, dose and quantisation (R227 to R230) -/

/-- T of a cell (R227). -/
def denomT (eta b f : Nat) : Nat := min ((2 * eta * b + 512) / 1024 + f) 8191

/-- The factor of a cell (R228). -/
def Tables.cellFactor (t : Tables) (d : Nat) : Nat :=
  (t.factor (d / 32) * (32 - d % 32) + t.factor (d / 32 + 1) * (d % 32) + 16) / 32

/-- The dose of a pixel before the clamp (R229). -/
def rawDose (v k scale : Nat) : Nat := (v * k * scale + 2 ^ 21) / 2 ^ 22

/-- The largest dose (R229): 896 steps. -/
def doseMax : Nat := 229376

/-- Quantise a row from the pixel at hand on, with the carry so far (R230). -/
def quantise : List Nat → Int → List Nat
  | [], _ => []
  | u :: us, e =>
    if u = 0 then 0 :: quantise us 0
    else
      let q := ((u : Int) + e + 128) / 256
      q.toNat :: quantise us (u + e - 256 * q)

/-- The factor of each cell of sash row `y`, X = 0 to 1,023. -/
def State.rowFactors (s : State) (y : Nat) : List Nat :=
  (List.range 1024).map (fun x =>
    let b := Sparse.get (fun _ => 0) s.pec.blur (y * 1024 + x)
    s.tabLive.cellFactor (denomT (s.lv PEC_CTRL.ETA) b (s.pec.fogAt s.prs.fog x y)))

/-- U of each pixel of a row before the clamp, from its sums v and the factors of its cells. -/
def rowDoses (scale : Nat) (ks vs : List Nat) : List Nat :=
  (vs.zip (List.range vs.length)).map (fun e => if e.1 = 0 then 0 else rawDose e.1 (ks.getD (e.2 / 16) 0) scale)

/-- U of the 256 rows of band `b` before the clamp, from the sums v of the band; rows at or beyond ROWS hold 0. -/
def State.bandDoses (s : State) (rows b : Nat) (v : Sparse Nat) : List (List Nat) :=
  (List.range 16).flatMap (fun c =>
    let ks := s.rowFactors (16 * b + c)
    (List.range 16).map (fun j =>
      let r := 16 * c + j
      if 256 * b + r < rows then
        rowDoses (s.lv PEC_SCALE.SCALE) ks (Sparse.getList (fun _ => 0) v (16384 * r) 16384)
      else List.replicate 16384 0))

/-- The corrected doses of a row (R229, R230). -/
def doseRow (us : List Nat) : List Nat := quantise (us.map (fun u => min u doseMax)) 0

/-- The pixels that R229 clamps. -/
def clamps (us : List Nat) : Nat := (us.filter (fun u => doseMax < u)).length

/-! ## Dose rows in HBM3 (R231, R267) -/

/-- Doses packed 10 bits each, four in five bytes (R231). -/
def pack10 : List Nat → List Byte
  | a :: b :: c :: d :: l => le 5 (a + b * 2 ^ 10 + c * 2 ^ 20 + d * 2 ^ 30) ++ pack10 l
  | _ => []

/-- Dose `x` of a packed row that starts at address `a`. -/
def doseAt (m : Memory) (a x : Nat) : Nat :=
  bits (unle (Memory.bytes m (a + 10 * x / 8) 2)) (10 * x % 8) 10

/-- Bytes of a dose row. -/
def rowBytes : Nat := 20480

/-- Address of row `r` of band `b` in the dose buffer: 8 slots of 256 rows (R231, R267). -/
def doseAddr (b r : Nat) : Nat := 0x2C3000000 + b % 8 * 0x500000 + r * rowBytes

/-- The rows of a band are written to the dose buffer. -/
def State.writeDoses (s : State) (b : Nat) (rows : List (List Nat)) : State :=
  s.hbmWrite (doseAddr b 0) (rows.flatMap pack10)

/-! ## Witness captures (R235, R236) -/

/-- The 327,712 bytes of a capture. -/
def State.capture (s : State) (st : Stripe) (w : WitnessReq) (rows : List (List Nat)) : List Byte :=
  let doses := rows.flatMap (fun r => pack10 ((r.drop (1024 * w.paneX)).take 1024))
  le 4 w.stripe ++ le 1 w.pass ++ le 1 w.paneX ++ le 2 0 ++ le 4 w.band ++
    le 4 (min 256 (st.req.rows - 256 * w.band)) ++ le 4 (crc32c 0 doses) ++ le 4 (s.tabLive.crc 6) ++
    le 2 (s.lv PEC_CTRL.ETA) ++ le 2 (s.lv PEC_BETA.BETA_NM) ++ le 2 (s.lv PEC_SCALE.SCALE) ++ le 2 0 ++ doses

/-- Witness copy `h` holds a capture that has not been compressed. -/
def State.copyTaken (s : State) (h : Nat) : Bool :=
  s.pec.witnesses.any (fun w => w.capture == some h) ||
  s.cdc.engines.any (fun j => j.any (fun j => j.kind == 3 && j.copy == h))

/-- A witness takes its capture, which is copied to the first of the 16 places in HBM3 that is free (R184, R267). -/
def State.captureOne (rows : List (List Nat)) (st : Stripe) (s : State) (w : WitnessReq) : State :=
  match (List.range 16).find? (fun h => !s.copyTaken h) with
  | none => s
  | some h =>
    let one := fun (x : WitnessReq) => if x.q = w.q && x.idx = w.idx then { x with capture := some h } else x
    { s.hbmWrite (witnessCopy h) (s.capture st w rows) with
      pec := { s.pec with witnesses := s.pec.witnesses.map one } }

/-- The witnesses of band `b` of the stripe take their captures, and go to the compressors (R184). -/
def State.captureBand (s : State) (st : Stripe) (b : Nat) (rows : List (List Nat)) : State :=
  let due := s.pec.witnesses.filter (fun w =>
    w.stripe == st.req.id && w.pass == st.req.pass && w.band == b && w.capture.isNone)
  (due.foldl (State.captureOne rows st) s).witnessStart

/-- Witness entries held: those waiting for their pane or for a compressor, and those on one (R235). -/
def State.witnessHeld (s : State) : Nat :=
  s.pec.witnesses.length + (s.cdc.engines.filter (fun j => j.any (fun j => j.kind == 3))).length

/-- The stripe of an identity and pass that is ARMED or RUN, in the global sense of R295 that covers DONE and ABORTED,
or waiting to arm. -/
def State.namedStripe (s : State) (id pass : Nat) : Option ArmReq :=
  ((s.stripe.map (·.req)).toList ++ s.waiting.toList).find? (fun r => r.id == id && r.pass == pass)

/-- The first slice of a pane has entered correction (R235): panes are taken in order, and an empty one has passed
when a later one has entered. -/
def State.paneEntered (s : State) (band pane : Nat) : Bool :=
  band < s.dosed || s.pec.entered.any (fun e => e / 16 == band && pane ≤ e % 16)

/-- What a WITNESS does when taken (R235). A stripe that has ended without the pane gives ABORTED at once.
Of BUSY and NOT_RUN together it is BUSY (DESIGN CHOICE, log entry 161). -/
def State.witnessEntry (s : State) (e : Entry) : State :=
  let w := witnessOf e.raw
  let fin' := fun status => s.complete e.q e.idx status 0 0 0
  match s.namedStripe w.id w.pass with
  | none => fin' 0x09
  | some r =>
    if bandsOf r.rows ≤ w.band || 15 < w.paneX || w.dstLen < 327784 then fin' 0x09
    else if 16 ≤ s.witnessHeld then fin' 0x11
    else if s.stripe.any (fun st => st.req == r) && s.paneEntered w.band w.paneX then fin' 0x0A
    else if s.stripe.any (fun st => st.req == r) && s.liveStripe.isNone then fin' 0x04
    else
      let req : WitnessReq := { q := e.q, idx := e.idx, stripe := w.id, pass := w.pass, paneX := w.paneX, band := w.band,
                                capture := none }
      { s.startEntry e.q e.idx with pec := { s.pec with witnesses := s.pec.witnesses ++ [req] } }

/-- WITNESS (R85, R235). -/
def execWitness (q : Nat) (s : State) : Host.Outcome State Fault Refusal :=
  .next (s.onEntry q 0x50 State.witnessEntry)

/-! ## A band is corrected (R231, R232) -/

/-- The class planes of a band are all in its sums: the rasteriser is past it, and the pane buffers hold none of it. -/
def State.coverageIn (s : State) (b : Nat) : Bool := b < s.csm.band && !s.csm.planes.any (fun p => p.band == b)

/-- The dose buffer has a slot for band `b` (R231): the scheduler has read band b - 8. -/
def State.slotFree (s : State) (b : Nat) : Bool := b < 8 || b < s.readBands + 8

/-- The next band is corrected and written to its slot. -/
def State.correctBand (s : State) (st : Stripe) : State :=
  let b := s.dosed
  let us := s.bandDoses st.req.rows b s.pec.v
  let rows := us.map doseRow
  let n := (us.map clamps).sum
  let s := (s.writeDoses b rows).captureBand st b rows
  let s := { s with pec := { s.pec with v := [], entered := s.pec.entered.filter (fun e => e / 16 != b) } }
  let s := (s.setReg PEC_BAND_DOSE.BAND b).setReg PEC_CLAMPS.COUNT (s.reg PEC_CLAMPS.COUNT + n)
  ((s.count 6 0x10 4194304).count 6 0x11 n).slots 3 0 65536

/-- The doses that step `m` takes from band `b`: louver x takes row m + L - 16 (x mod 16) (R249). -/
def Stripe.stepDoses (st : Stripe) (m : Int) (b : Nat) (rows : List (List Nat)) : Sparse Nat :=
  (List.range 16384).foldl (fun d x =>
    let y := m + st.req.lead - 16 * (x % 16 : Nat)
    if 0 ≤ y && y.toNat / 256 = b then
      Sparse.set (fun _ => 0) d x ((rows.getD (y.toNat % 256) []).getD x 0)
    else d) []

/-- A band has been corrected again (R232): its doses go to the vote that asked for them (R357). -/
def State.correctAgain (s : State) (st : Stripe) (b : Nat) : State :=
  let rows := (s.bandDoses st.req.rows b s.pec.vRecompute).map doseRow
  let put := fun (v : Vote) => { v with
    redone := v.redone ++ [b]
    redose := (st.stepDoses v.step b rows).foldl (fun (d : Sparse Nat) e => Sparse.set (fun _ => 0) d e.1 e.2) v.redose }
  let step := (s.doseVote st).map (·.step)
  let one := fun (v : Vote) => if some v.step = step then put v else v
  { s with pec := { s.pec with vRecompute := [] }, csm := { s.csm with recompute := none }
           nlk := { s.nlk with votes := s.nlk.votes.map one } }.slots 3 1 65536

/-- BAND_CORRECTED (R227 to R232, R360): a recomputed band first, else the next band whose coverage, B and F are
complete and whose slot is free. -/
def execBandCorrected (s : State) : Host.Outcome State Fault Refusal :=
  .next (
    match s.liveStripe with
    | none => s
    | some st =>
      let s := s.csmSkip
      if !s.working then s
      else
        let s := s.wakeBlock 6
        match s.csm.recompute.filter (fun w => w.2 = 256 && !s.csm.planes.any (fun p => p.band == w.1)) with
        | some w => s.correctAgain st w.1
        | none =>
          let b := s.dosed
          if b < bandsOf st.req.rows && s.coverageIn b && b < s.blurred && s.slotFree b then s.correctBand st else s)

end Sys2Proof.Machine
end

