-- ==== Sys2Proof/Machine/Alloc.lean ====
section
/-! DEFINITION. The shutter scheduler's functions: what a slat contributes, the mask of a pixel, the frame ring and the
dose journal in HBM3, the blocks of an entry step, and the debt ledger (R240 to R261). -/

namespace Sys2Proof.Machine

/-! ## Allocation (R243 to R248) -/

/-- A slat as the scheduler sees it: state (0 dead, 1 good, 2 weak, 3 stuck-on), CUR, contribution e. -/
structure Slat where
  state : Nat
  cur : Nat
  e : Nat
  deriving DecidableEq, Repr

/-- The contribution of a good or weak slat (R243). -/
def contribution (mode dwell cur : Nat) (trim : Int) : Nat :=
  match mode with
  | 1 => cur
  | 2 => (((cur : Int) * (dwell + 4 * trim) + (dwell / 2 : Nat)) / dwell).toNat
  | _ => 16384

/-- The 64 slats of louver `x` under the live tables and settings. -/
def State.slats (s : State) (x : Nat) : List Slat :=
  (List.range 64).map (fun d =>
    let cur := s.tabLive.slatCur x d
    ⟨s.tabLive.slatState x d, cur,
      contribution (s.lv SCH_CTRL.MODE) (s.lv SCH_DWELL.DWELL_NS) cur (s.tabLive.slatTrim x d)⟩)

/-- BAYER of R245, rows by y mod 4. -/
def bayer (y x : Nat) : Nat :=
  (([[0, 8, 2, 10], [12, 4, 14, 6], [3, 11, 1, 9], [15, 7, 13, 5]] : List (List Nat)).getD (y % 4) []).getD (x % 4) 0

/-- The dither level of pixel (x, y) in pass `p` (R245). -/
def dither (x y p : Nat) : Nat := (bayer y x + 4 * p) % 16

/-- The depths of the stuck-on slats. -/
def stuckDepths (sl : List Slat) : List Nat := (List.range 64).filter (fun d => (sl.getD d ⟨0, 0, 0⟩).state == 3)

/-- The loop of R246 over slats with their depths: the total and the depths taken, from those so far. -/
def offerAll (t : Int) : List (Nat × Slat) → Int × List Nat → Int × List Nat
  | [], a => a
  | (d, sl) :: rest, a =>
    if 2 * a.1 + sl.e ≤ 2 * t then offerAll t rest (a.1 + sl.e, a.2 ++ [d]) else offerAll t rest a

/-- The eligible slats of one kind at depths 0 to 55, ascending. -/
def eligible (sl : List Slat) (kind : Nat) : List (Nat × Slat) :=
  (((List.range 56).map (fun d => (d, sl.getD d ⟨0, 0, 0⟩))).filter (fun e => e.2.state == kind && e.2.cur != 0))

/-- What a pixel is given (R246, R248): the depths whose bits are 1, and whether it is short or over. -/
structure Mask where
  depths : List Nat
  short : Bool
  excess : Bool
  deriving DecidableEq, Repr

/-- The mask of a pixel with corrected dose `q`, dose fraction and dither level (R246, R248). `q` is 0 outside the
stripe's rows. -/
def allocate (sl : List Slat) (q frac b : Nat) : Mask :=
  let stuck := stuckDepths sl
  let tp := 4 * q * frac
  let f := (stuck.map (fun d => (sl.getD d ⟨0, 0, 0⟩).cur)).sum
  if q = 0 then ⟨stuck, false, false⟩
  else if f ≥ tp then ⟨stuck, false, f > tp⟩
  else
    let t : Int := ((tp - f : Nat) : Int) + 1024 * b + 512 - 8192
    let a := offerAll t (eligible sl 1 ++ eligible sl 2) (0, [])
    ⟨stuck ++ a.2, 2 * a.1 + 32768 ≤ 2 * t, false⟩

/-! ## The frame ring and the journal (R249 to R253, R267) -/

/-- RING_BASE (R251, R267). -/
def ringBase : Nat := 0

/-- JRNL_BASE (R253, R267). -/
def journalBase : Nat := 0x2C2000000

/-- HBM3 address of depth block `d` of frame `n` (R251). -/
def blockAddr (n d : Nat) : Nat := ringBase + n % 32768 * 131072 + d * 2048

/-- HBM3 address of the journal row of step `m` (R253). -/
def journalAddr (m : Int) : Nat := journalBase + (m % 512).toNat * rowBytes

/-- The last entry step of a stripe (R249). -/
def Stripe.lastStep (st : Stripe) : Int := (st.final : Int) - st.req.lead

/-- The frame of depth block `d` that step `m` writes (R249). -/
def Stripe.frameOf (st : Stripe) (m : Int) (d : Nat) : Nat := (m + st.req.lead).toNat + 256 * d

/-- Whether step `m` writes its depth block `d` (R249). -/
def Stripe.writesBlock (st : Stripe) (m : Int) (d : Nat) : Bool := st.frameOf m d ≤ st.final

/-- The row of the pixel that louver `x` takes at step `m` (R249). -/
def Stripe.pixelRow (st : Stripe) (m : Int) (x : Nat) : Int := m + st.req.lead - 16 * (x % 16 : Nat)

/-- A depth block's bytes from its 16,384 bits (R8). -/
def packBits : List Bool → List Byte
  | a :: b :: c :: d :: e :: f :: g :: h :: l =>
    BitVec.ofNat 8 (b2n a + 2 * b2n b + 4 * b2n c + 8 * b2n d + 16 * b2n e + 32 * b2n f + 64 * b2n g + 128 * b2n h) ::
      packBits l
  | _ => []

/-- Bit `x` of depth block `d` of frame `n`, as HBM3 holds it. -/
def frameBit (m : Memory) (n d x : Nat) : Bool := bit (Memory.byte m (blockAddr n d + x / 8)).toNat (x % 8)

/-- Set bit `x` of depth block `d` of frame `n` (R257). -/
def State.setFrameBit (s : State) (n d x : Nat) : State :=
  let a := blockAddr n d + x / 8
  s.hbmWrite a [Memory.byte s.hbm a ||| BitVec.ofNat 8 (2 ^ (x % 8))]

/-- Slat `d` of louver `x` is stuck-on. -/
def State.stuck (s : State) (x d : Nat) : Bool := s.tabLive.slatState x d == 3

/-- The stuck-on mask of depth `d` (R250). -/
def State.stuckBlock (s : State) (d : Nat) : List Byte := packBits ((List.range 16384).map (fun x => s.stuck x d))

/-- Bit `x` of depth block `d` of frame `n` as the sill takes it (R250). -/
def State.sillBit (s : State) (n d x : Nat) : Bool := if n < 256 * d then s.stuck x d else frameBit s.hbm n d x

/-- The corrected dose of louver `x`'s pixel at step `m`, from the dose buffer (R231); 0 outside the stripe's rows. -/
def State.pixelDose (s : State) (st : Stripe) (m : Int) (x : Nat) : Nat :=
  let y := st.pixelRow m x
  if 0 ≤ y && y < st.req.rows then doseAt s.hbm (doseAddr (y.toNat / 256) (y.toNat % 256)) x else 0

/-- The doses of step `m`, louver by louver. -/
def State.stepRow (s : State) (st : Stripe) (m : Int) : List Nat := (List.range 16384).map (s.pixelDose st m)

/-- The doses of step `m` as the journal holds them (R253). -/
def State.journalRow (s : State) (m : Int) : List Nat := (List.range 16384).map (doseAt s.hbm (journalAddr m))

/-- The masks of step `m` from its doses (R246, R253): nothing but the doses, the live tables and the pass enter. -/
def State.stepMasks (s : State) (st : Stripe) (m : Int) (qs : List Nat) : List Mask :=
  let frac := (s.tabLive.passFeed st.req.passes st.req.pass).2.2
  (qs.zip (List.range qs.length)).map (fun e =>
    allocate (s.slats e.2) e.1 frac (dither e.2 (st.pixelRow m e.2).toNat st.req.pass))

/-- Depth block `d` of a step's masks. -/
def maskBlock (ms : List Mask) (d : Nat) : List Byte := packBits (ms.map (fun m => m.depths.contains d))

/-- The blocks of step `m` that are written, with their depths. -/
def Stripe.stepBlocks (st : Stripe) (m : Int) (ms : List Mask) : List (Nat × List Byte) :=
  ((List.range 64).filter (st.writesBlock m)).map (fun d => (d, maskBlock ms d))

/-- The signatures of a step (R125, R356): dose row and written blocks; 0 for a block that is not written. -/
def stepSig (row : List Nat) (blocks : List (Nat × List Byte)) : Sig :=
  { dose := crc32c 0 (pack10 row)
    blocks := (List.range 64).map (fun d =>
      ((blocks.find? (fun b => b.1 == d)).map (fun b => crc32c 0 b.2)).getD 0) }

/-! ## The debt ledger (R256 to R261) -/

/-- A slat that may repay (R241, R257): good, with a CUR. -/
def State.goodSlat (s : State) (x d : Nat) : Bool := s.tabLive.slatState x d == 1 && s.tabLive.slatCur x d != 0

/-- Change the ledger of the held stripe. -/
def State.modLedger (s : State) (f : Ledger → Ledger) : State :=
  s.modStripe (fun st => { st with ledger := f st.ledger })

/-- The ledger of the held stripe. -/
def State.ledger (s : State) : Ledger :=
  ((s.stripe.map (·.ledger)).getD { booked := [], writes := [], holes := [], fullPosted := false, repaid := [] })

/-- The order of hole records (R261): flash, depth, louver. -/
def Hole.key (h : Hole) : Nat := h.flash * 2 ^ 20 + h.depth * 2 ^ 14 + h.louver

/-- Insert a hole record in order. -/
def insertHole (h : Hole) : List Hole → List Hole
  | [] => [h]
  | a :: l => if h.key < a.key then h :: a :: l else a :: insertHole h l

/-- A lost exposure becomes a hole (R256, R257, R359). -/
def State.hole (s : State) (cause reason n d x : Nat) : State :=
  let h : Hole := { row := n - 256 * d - 16 * (x % 16), louver := x, depth := d, cause, flash := n, reason }
  (s.modLedger (fun l => { l with holes := insertHole h l.holes })).setReg SCH_HOLES.COUNT (s.reg SCH_HOLES.COUNT + 1)

/-- The depth that repays a lost exposure at depth `d` of louver `x` in frame `n` (R257): the first of max(56, d + 1)
to 63 whose slat is good and whose bit is 0, pending repayments counted. -/
def State.repayDepth (s : State) (n d x : Nat) : Option Nat :=
  ((List.range 8).map (· + 56)).find? (fun d' =>
    let n' := n + 256 * (d' - d)
    d < d' && s.goodSlat x d' && !frameBit s.hbm n' d' x && !s.ledger.writes.contains ⟨n', d', x⟩)

/-- A lost exposure is booked (R257): a repayment to write, or a hole with REASON 1. -/
def State.lose (s : State) (cause n d x : Nat) : State :=
  let s := (s.setReg SCH_DEBTS.COUNT (s.reg SCH_DEBTS.COUNT + 1)).count 7 0x11 1
  let s := s.modStripe (fun st => { st with debts := st.debts + 1 })
  match s.repayDepth n d x with
  | some d' => s.modLedger (fun l => { l with writes := l.writes ++ [⟨n + 256 * (d' - d), d', x⟩] })
  | none => s.hole cause 1 n d x

/-- The lost exposures of frame `n` (R256): the bits that are 1 for slats that are not stuck-on, by depth and louver. -/
def State.lostBits (s : State) (n : Nat) : List (Nat × Nat) :=
  (List.range 64).flatMap (fun d =>
    ((List.range 16384).filter (fun x => s.sillBit n d x && !s.stuck x d)).map (fun x => (d, x)))

/-- Flashes booked among the `k` before flash `n`. -/
def State.bookedIn (s : State) (n k : Nat) : Nat :=
  (s.ledger.booked.filter (fun b => n ≤ b + k && b < n)).length

/-- The ledger books a missed flash, or the window is full (R256). -/
def State.bookMiss (s : State) (n : Nat) : State :=
  let bits := s.lostBits n
  if s.bookedIn n 255 < 32 then
    let s := s.modLedger (fun l => { l with booked := l.booked.filter (fun b => n ≤ b + 256) ++ [n] })
    bits.foldl (fun s b => s.lose 1 n b.1 b.2) s
  else
    let s := if s.ledger.fullPosted then s
      else
        match s.stripe with
        | none => s
        | some st => s.postOnce 0x42 0x0D 0 n (st.req.id + st.req.pass * 2 ^ 32)
    let s := s.modLedger (fun l => { l with fullPosted := true })
    bits.foldl (fun s b => s.hole 1 2 n b.1 b.2) s

/-- A repayment lands (R257): the bit is set and the debt counts as repaid. -/
def State.repay (s : State) (r : Repay) : State :=
  let s := s.setFrameBit r.frame r.depth r.louver
  let s := s.modLedger (fun l => { l with writes := l.writes.erase r, repaid := l.repaid ++ [r] })
  let s := s.modStripe (fun st => { st with repaid := st.repaid + 1 })
  (s.setReg SCH_REPAID.COUNT (s.reg SCH_REPAID.COUNT + 1)).count 7 0x12 1

/-- REPAYMENT_WRITE (R257 to R260, R284): the oldest repayment is written, its block read and written back through
port 2. -/
def execRepaymentWrite (ecc : EccReads) (s : State) : Host.Outcome State Fault Refusal :=
  .next (
    match (if s.liveStripe.isSome && s.serviced then s.ledger.writes else []) with
    | [] => s
    | r :: _ => (s.wakeBlock 7).portRead 2 (blockAddr r.frame r.depth) 2048 ecc (fun s => s.repay r))

end Sys2Proof.Machine
end

