-- ==== Sys2Proof/Machine/Vote.lean ====
section
/-! DEFINITION. The cross-check of a pair (R356 to R360): signatures, recompute rounds, verdicts, rewriting and
withholding of blocks. -/

namespace Sys2Proof.Machine

/-- The chip checks its work against a partner: a joined pair with neither chip fenced. -/
def State.checked (s : State) : Bool := s.covered && s.fence.isNone

/-- The open vote on a step. -/
def State.voteOf (s : State) (m : Int) : Option Vote := s.nlk.votes.find? (fun v => v.step == m)

/-- Change the open vote on a step. -/
def State.modVote (s : State) (m : Int) (f : Vote → Vote) : State :=
  let one := fun (v : Vote) => if v.step = m then f v else v
  { s with nlk := { s.nlk with votes := s.nlk.votes.map one } }

/-- The vote on a step is closed. -/
def State.dropVote (s : State) (m : Int) : State :=
  { s with nlk := { s.nlk with votes := s.nlk.votes.filter (fun v => v.step != m) } }

/-- A vote that has just been opened. -/
def Vote.opened (m : Int) : Vote :=
  { step := m, mine := none, theirs := none, kind := 0, round := 0, mask := 0, redone := [], redose := [], earlier := [],
    myResults := [], theirResults := [], theirBlocks := [], blocksSent := false }

/-- Open the vote on a step if there is none. -/
def State.openVote (s : State) (m : Int) : State :=
  if (s.voteOf m).isSome then s else { s with nlk := { s.nlk with votes := s.nlk.votes ++ [Vote.opened m] } }

/-! ## Verdicts (R357): 0 agreed, 1 the lead's original stands, 2 the mirror's, 3 undecided -/

/-- The verdict on one item from the originals and the results of each round, lead first; none while a round is
missing. -/
def itemVerdict (l m : Nat) : Nat → List (Nat × Nat) → Option Nat
  | round, [] => if l = m then some 0 else if 2 ≤ round then some 3 else none
  | round, (rl, rm) :: rest =>
    if l = m then some 0
    else if rl = rm then some (if rl = l then 1 else if rl = m then 2 else 3)
    else itemVerdict l m (round + 1) rest

/-- A pair of values, the lead's first. -/
def leadFirst {α : Type} (mirror : Bool) (mine theirs : α) : α × α := if mirror then (theirs, mine) else (mine, theirs)

/-- The signatures and the results of both chips, the lead's first; none while a signature is missing. -/
def Vote.sides (v : Vote) (mirror : Bool) : Option ((Sig × Sig) × List (Sig × Sig)) :=
  match v.mine, v.theirs with
  | some a, some b =>
    some (leadFirst mirror a b, (v.myResults.zip v.theirResults).map (fun r => leadFirst mirror r.1 r.2))
  | _, _ => none

/-- The verdict on the dose row. -/
def Vote.doseVerdict (v : Vote) (mirror : Bool) : Option Nat :=
  match v.sides mirror with
  | none => none
  | some (o, rs) => itemVerdict o.1.dose o.2.dose 0 (rs.map (fun r => (r.1.dose, r.2.dose)))

/-- The rounds before the one in which the dose row was decided: what they gave of the blocks came from doses that did
not stand (R357). -/
def Vote.doseRounds (v : Vote) : Nat :=
  if v.mine.map (·.dose) = v.theirs.map (·.dose) then 0
  else ((v.myResults.zip v.theirResults).takeWhile (fun r => r.1.dose != r.2.dose)).length

/-- The verdict on block `d`, if the step writes it: decided after the dose row, from the round that decided that on, and
undecided with it (R357, R359). -/
def Vote.blockVerdict (v : Vote) (mirror written : Bool) (d : Nat) : Option Nat :=
  match v.sides mirror, v.doseVerdict mirror with
  | some (o, rs), some dose =>
    if !written then some 0
    else if dose = 3 then some 3
    else itemVerdict (o.1.blocks.getD d 0) (o.2.blocks.getD d 0) v.doseRounds
      ((rs.drop v.doseRounds).map (fun r => (r.1.blocks.getD d 0, r.2.blocks.getD d 0)))
  | _, _ => none

/-- Every verdict of a vote: dose row, then the 64 blocks. -/
def Vote.verdicts (v : Vote) (mirror : Bool) (st : Stripe) : List (Option Nat) :=
  v.doseVerdict mirror :: (List.range 64).map (fun d => v.blockVerdict mirror (st.writesBlock v.step d) d)

/-- The verdicts as a closing vote gives them: what is missing is undecided; an undecided dose row withholds every
written block. -/
def Vote.closing (v : Vote) (mirror : Bool) (st : Stripe) : Nat × List Nat :=
  let dose := (v.doseVerdict mirror).getD 3
  (dose, (List.range 64).map (fun d =>
    if !st.writesBlock v.step d then 0
    else if dose = 3 then 3
    else (v.blockVerdict mirror true d).getD 3))

/-- The flash 2 before the deadline of R28 at which the vote on step `m` closes (R359). -/
def Stripe.closingFlash (st : Stripe) (m : Int) : Int := min (m + 512) (m + st.req.lead - 32) - 2

/-! ## Rounds (R357) -/

/-- The written blocks of step `m` in which two signatures differ, as a mask (R356). -/
def Stripe.sigMask (st : Stripe) (m : Int) (a b : Sig) : Nat :=
  ((List.range 64).map (fun d => b2n (st.writesBlock m d && a.blocks.getD d 0 != b.blocks.getD d 0) * 2 ^ d)).sum

/-- Round `k` of the recompute of step `m` starts, and the partner is told; the doses of the round before are kept. -/
def State.startRound (s : State) (m : Int) (k kind mask : Nat) : State :=
  (s.modVote m (fun v => { v with round := k, kind, mask, redone := [], redose := []
                                  earlier := if v.round = 0 then [] else v.earlier ++ [v.redose] })).naluSend
    (.recompute m k kind mask)

/-! ## What a verdict does (R358, R359) -/

/-- The doses of a vote's step as round `k` (0 the first) of this chip's recompute gives them. -/
def State.redoneRow (s : State) (v : Vote) (k : Nat) : List Nat :=
  if v.kind = 0 then Sparse.getList (fun _ => 0) ((v.earlier ++ [v.redose]).getD k []) 0 16384 else s.journalRow v.step

/-- The round (0 the first) whose results decide block `d`. -/
def Vote.decidedIn (v : Vote) (d : Nat) : Nat :=
  v.doseRounds + (((v.myResults.zip v.theirResults).drop v.doseRounds).takeWhile
    (fun r => r.1.blocks.getD d 0 != r.2.blocks.getD d 0)).length

/-- The louvers whose bit in a block is a repayment of the ledger, landed or still to land. -/
def State.repaidIn (s : State) (n d : Nat) : List Nat :=
  ((s.ledger.repaid ++ s.ledger.writes).filter (fun r => r.frame == n && r.depth == d)).map (·.louver)

/-- The entry bits of a block as this chip holds them: its bits without repayments. -/
def State.entryBits (s : State) (n d : Nat) : List Bool :=
  let rs := s.repaidIn n d
  (List.range 16384).map (fun x => frameBit s.hbm n d x && !rs.contains x)

/-- A losing block is rewritten: the recompute's bits and every repayment already set (R358). -/
def State.rewrite (s : State) (st : Stripe) (m : Int) (ms : List Mask) (d : Nat) : State :=
  let n := st.frameOf m d
  let rs := (s.ledger.repaid.filter (fun r => r.frame == n && r.depth == d)).map (·.louver)
  let bits := (ms.zip (List.range 16384)).map (fun e => e.1.depths.contains d || rs.contains e.2)
  s.hbmWrite (blockAddr n d) (packBits bits)

/-- One louver's bit of a withheld block (R359): this chip's and the partner's entry bits, and whether a repayment stood
there (R259). -/
def State.withholdBit (s : State) (n d x : Nat) (mine theirs repaid : Bool) : State :=
  if s.stuck x d then s
  else if repaid || (mine && theirs) then s.lose 2 n d x
  else if mine || theirs then s.hole 2 3 n d x
  else s

/-- The partner's entry bits of a block; without its BLOCK message they are not known: free values. -/
def State.partnerBits (s : State) (v : Vote) (d : Nat) : List Byte × State :=
  match v.theirBlocks.find? (fun b => b.1 == d) with
  | some b => (b.2, s)
  | none => s.freshBytes 2048

/-- An undecided block is withheld on this chip (R359). -/
def State.withhold (s : State) (st : Stripe) (v : Vote) (d : Nat) : State :=
  let n := st.frameOf v.step d
  let rs := s.repaidIn n d
  let mine := s.entryBits n d
  let p := s.partnerBits v d
  let keep := fun (r : Repay) => !(r.frame == n && r.depth == d)
  let s := p.2.hbmWrite (blockAddr n d) (p.2.stuckBlock d)
  let s := s.modLedger (fun l => { l with writes := l.writes.filter keep, repaid := l.repaid.filter keep })
  let s := s.modStripe (fun st => { st with withheld := st.withheld + 1, blanked := (64 * n + d) :: st.blanked })
  let s := (s.setReg NLK_WITHHELD.COUNT (s.reg NLK_WITHHELD.COUNT + 1)).count 11 0x13 1
  (List.range 16384).foldl (fun s x =>
    s.withholdBit n d x (mine.getD x false) (bit (p.1.getD (x / 8) 0#8).toNat (x % 8)) (rs.contains x)) s

/-- The mask of the blocks with a verdict. -/
def verdictMask (bv : List Nat) (w : Nat) : Nat :=
  ((List.range 64).map (fun d => b2n (bv.getD d 0 == w) * 2 ^ d)).sum

/-- Events 0x61 and 0x62 of a closed vote (R372), once, on the lead. -/
def State.voteEvents (s : State) (v : Vote) (dose : Nat) (bv : List Nat) : State :=
  let one := fun (s : State) w =>
    if dose = w || bv.contains w then
      s.postOnce 0x61 0x00 0 (unsgn 32 v.step + v.kind * 2 ^ 32 + (w - 1) * 2 ^ 33) (verdictMask bv w)
    else s
  let s := one (one s 1) 2
  if bv.contains 3 then s.postOnce 0x62 0x0E 0 (unsgn 32 v.step) (verdictMask bv 3) else s

/-- This chip's original has lost a decided vote (R358): counted, and LOSS_LIMIT losses within 65,536 flashes fence
it. -/
def State.lostVote (s : State) : State :=
  let n := s.nlk.flashClock
  let ls := s.nlk.lossFlashes.filter (fun f => n < f + 65536) ++ [n]
  let s := { s with nlk := { s.nlk with lossFlashes := ls } }.addReg NLK_LOSSES.LOST 1
  if s.lv NLK_CTRL.LOSS_LIMIT ≤ ls.length then s.fenceChip 0x0B else s

/-- The time that R359 counts in flashes: the next flash, and before SOS the next entry step in its place. -/
def State.voteClock (s : State) (st : Stripe) : Int := if s.g == .run then s.nextFlash else st.stepNext

/-- The losing blocks `ds` are rewritten from the recompute of the round that decided each (R358). -/
def State.rewriteAll (s : State) (st : Stripe) (v : Vote) (ds : List Nat) : State :=
  (List.range 2).foldl (fun s k =>
    let ms := s.stepMasks st v.step (s.redoneRow v k)
    (ds.filter (fun d => v.decidedIn d == k)).foldl (fun s d => s.rewrite st v.step ms d) s) s

/-- A closed vote takes effect on this chip (R358, R359): losing blocks are rewritten, undecided ones withheld. -/
def State.applyVerdict (s : State) (st : Stripe) (v : Vote) (dose : Nat) (bv : List Nat) : State :=
  let win := if s.isMirror then 1 else 2
  let lost := (List.range 64).filter (fun d => bv.getD d 0 == win)
  let gone := (List.range 64).filter (fun d => bv.getD d 0 == 3)
  let margin := (st.closingFlash v.step - s.voteClock st).toNat
  let s := s.setReg NLK_MARGIN.TF (min (s.reg NLK_MARGIN.TF) margin)
  let decided := dose = 1 || dose = 2 || bv.any (fun b => b == 1 || b == 2)
  let s := s.setReg NLK_RESOLVED.COUNT (s.reg NLK_RESOLVED.COUNT + b2n decided)
  let s := gone.foldl (fun s d => s.withhold st v d) (s.rewriteAll st v lost)
  let s := (s.voteEvents v dose bv).dropVote v.step
  if dose = win || bv.contains win then s.lostVote else s

/-- The lead closes a vote: it applies the verdict and sends it. -/
def State.closeVote (s : State) (st : Stripe) (v : Vote) : State :=
  let c := v.closing false st
  (s.naluSend (.verdict v.step c.1 c.2)).applyVerdict st v c.1 c.2

/-- Both signatures of a step are there: the vote ends in agreement, which the lead's VERDICT says, or the first round
starts (R356, R357). -/
def State.compareSigs (s : State) (m : Int) : State :=
  match s.stripe, s.voteOf m with
  | some st, some v =>
    match v.mine, v.theirs with
    | some a, some b =>
      let mask := st.sigMask m a b
      if v.round ≠ 0 then s
      else if a.dose = b.dose && mask = 0 then (if s.isMirror then s else s.closeVote st v)
      else
        let s := (s.setReg NLK_MISMATCH.COUNT (s.reg NLK_MISMATCH.COUNT + 1)).count 11 0x12 1
        s.startRound m 1 (b2n (a.dose = b.dose)) mask
    | _, _ => s
  | _, _ => s

/-- A step is signed (R356): the signatures go to the partner and into the vote. -/
def State.signStep (s : State) (m : Int) (sig : Sig) (n : Nat) : State :=
  let s := (s.openVote m).naluSend (.sig m sig.dose sig.blocks)
  ((s.modVote m (fun v => { v with mine := some sig })).count 12 0x11 (n + 1)).compareSigs m

/-- The blocks that a vote leaves undecided. -/
def Vote.undecided (v : Vote) (mirror : Bool) (st : Stripe) : List Nat :=
  (List.range 64).filter (fun d => (v.closing mirror st).2.getD d 0 == 3)

/-- The depth blocks `ds` of step `m` are read from the frame ring (R284), and what follows. Of the ports of R271 only
the debt writer's reads blocks outside the sill: port 2 (DESIGN CHOICE, log entry 153). -/
def State.readBlocks (st : Stripe) (m : Int) (ecc : EccReads) (next : State → State) : List Nat → State → State
  | [], s => next s
  | d :: ds, s => s.portRead 2 (blockAddr (st.frameOf m d) d) 2048 ecc (State.readBlocks st m ecc next ds)

/-- The entry bits of every undecided block go to the partner, once (R359). -/
def State.sendBlocks (s : State) (st : Stripe) (v : Vote) (ecc : EccReads) (next : State → State) : State :=
  if v.blocksSent then next s
  else
    let ds := v.undecided s.isMirror st
    let send := fun (s : State) d => s.naluSend (.block v.step d (packBits (s.entryBits (st.frameOf v.step d) d)))
    State.readBlocks st v.step ecc
      (fun s => next ((ds.foldl send s).modVote v.step (fun v => { v with blocksSent := true }))) ds s

/-- The partner's entry bits of every undecided block are in. -/
def Vote.blocksIn (v : Vote) (mirror : Bool) (st : Stripe) : Bool :=
  (v.undecided mirror st).all (fun d => v.theirBlocks.any (fun b => b.1 == d))

/-- The results of a round are in (R357): a second round, or the lead closes the vote when everything is decided, or the
undecided blocks are exchanged. -/
def State.judge (s : State) (st : Stripe) (m : Int) (ecc : EccReads) : State :=
  match s.voteOf m with
  | none => s
  | some v =>
    if v.round = 0 || v.myResults.length < v.round || v.theirResults.length < v.round then s
    else
      let vs := v.verdicts s.isMirror st
      let left := ((List.range 64).map (fun d => b2n ((vs.getD (d + 1) none).isNone) * 2 ^ d)).sum
      if vs.contains none then (if v.round = 1 then s.startRound m 2 v.kind left else s)
      else if vs.contains (some 3) then s.sendBlocks st v ecc id
      else if s.isMirror then s
      else s.closeVote st v

/-- The vote whose recompute on this chip has its inputs (R357): the journal row, or every band corrected again. -/
def State.recomputed (s : State) (st : Stripe) : Option Vote :=
  s.nlk.votes.find? (fun v => v.round ≠ 0 && v.myResults.length < v.round &&
    (v.kind == 1 || (st.bandsOfStep v.step).all (fun b => v.redone.contains b)))

/-- A recompute ends (R357): signed as the original was, and sent. -/
def State.recomputeEnds (s : State) (st : Stripe) (v : Vote) (ecc : EccReads) : State :=
  let row := s.redoneRow v (v.round - 1)
  let bs := st.stepBlocks v.step (s.stepMasks st v.step row)
  let sig := stepSig row bs
  let s := s.modVote v.step (fun v => { v with myResults := v.myResults ++ [sig] })
  let s := (s.naluSend (.result v.step v.round sig.dose sig.blocks)).count 12 0x11 (bs.length + 1)
  ((s.count 7 0x13 (if v.kind = 1 then bs.length else 0)).slots 4 1 16384).judge st v.step ecc

/-- RECOMPUTE_DONE (R284, R357). From the journal, the step's row is read through port 6. -/
def execRecomputeDone (ecc : EccReads) (s : State) : Host.Outcome State Fault Refusal :=
  .next (
    match s.liveStripe with
    | none => s
    | some st =>
      match (if s.checked && s.serviced then s.recomputed st else none) with
      | none => s
      | some v =>
        if v.kind = 0 then (s.wakeBlock 7).recomputeEnds st v ecc
        else (s.wakeBlock 7).portRead 6 (journalAddr v.step) rowBytes ecc (fun s => s.recomputeEnds st v ecc))

/-- The lead closes a vote whose closing flash has come, once the partner's entry bits of every undecided block are
in. -/
def State.closeDue (s : State) (st : Stripe) (v : Vote) : State :=
  if !s.isMirror && v.blocksSent && st.closingFlash v.step ≤ s.voteClock st && v.blocksIn false st then s.closeVote st v
  else s

/-- VOTE_CLOSE (R359): the closing flash of the vote on a step has come, whatever is still missing. Both chips send
the entry bits of the undecided blocks; the lead closes the vote when it has the partner's, or at a second VOTE_CLOSE
without them. -/
def execVoteClose (step : Int) (ecc : EccReads) (s : State) : Host.Outcome State Fault Refusal :=
  .next (
    match s.liveStripe, s.voteOf step with
    | some st, some v =>
      if !s.checked || !s.serviced || s.voteClock st < st.closingFlash step then s
      else if v.blocksSent then (if s.isMirror then s else s.closeVote st v)
      else s.sendBlocks st v ecc (fun s => s.closeDue st { v with blocksSent := true })
    | _, _ => s)

end Sys2Proof.Machine
end

