-- ==== Sys2Proof/Machine/Sched.lean ====
section
/-! DEFINITION. Entry steps (R25, R200, R201, R249 to R253). -/

namespace Sys2Proof.Machine

/-- The stage that is late for band `b` (R200, R201, R233): 1 parser, 2 pre-scan, 3 fine path; 0 with the band
complete. Of several that are short at once it is the earliest of the path (DESIGN CHOICE, log entry 160). -/
def State.lateStage (s : State) (st : Stripe) (b : Nat) : Nat :=
  let ahead := min (b + 19) (bandsOf st.req.rows - 1)
  if s.prs.released ≤ ahead then 1
  else if s.densed ≤ ahead || s.blurred ≤ b then 2
  else if s.dosed ≤ b then 3
  else 0

/-- The band that step `m` enters first (R200, R201): 256 b - L = m, with b a band of the stripe. -/
def Stripe.bandAt (st : Stripe) (m : Int) : Option Nat :=
  let y := m + st.req.lead
  if 0 ≤ y && y % 256 = 0 && y < st.req.rows then some (y / 256).toNat else none

/-- A band is incomplete at its entry step in RUN (R201): event 0x31, and cause 0x03; PRS_STATUS keeps status and stage
(R203). -/
def State.inputLate (s : State) (st : Stripe) (m : Int) (b stage : Nat) : State :=
  let s := ((s.setReg PRS_STATUS.ACTIVE 0).setReg PRS_STATUS.LAST_STATUS 0x04).setReg PRS_STATUS.LAST_REASON stage
  let ev := devEvent 0x31 0x04 stage b (st.req.id + unsgn 32 m * 2 ^ 32)
  s.finding { kind := 1, point := m.toNat, code := stage, posts := [ev], cause := 0x03 }

/-- Step `m` may begin as far as the flashes go (R25): in ARMED before flash 0, else once flash `m` has triggered. -/
def Stripe.stepDue (st : Stripe) (m : Int) : Bool :=
  m ≤ st.lastStep && (if m < 0 then st.st == .armed else st.st == .run && m < st.nextFlash)

/-- ENTRY_STEP_BEGIN (R25, R200, R201): a negative step waits for its band; in RUN an incomplete band ends the stripe.
-/
def execEntryStepBegin (s : State) : Host.Outcome State Fault Refusal :=
  .next (
    match s.liveStripe with
    | none => s
    | some st =>
      let m := st.stepNext
      if !s.working || st.stepBusy.isSome || !st.stepDue m then s
      else
        let late := (st.bandAt m).map (fun b => (b, s.lateStage st b))
        match late.filter (fun l => l.2 ≠ 0) with
        | some l => if m < 0 then s else s.inputLate st m l.1 l.2
        | none => s.modStripe (fun st => { st with stepBusy := some m, stepNext := m + 1 }))

/-- An entry step ends (R246, R248, R249, R253): its blocks and its journal row are written, short and over pixels
counted; in a pair it is signed (R356); the last one takes RUN to TAIL (R296). -/
def State.stepEnds (s : State) (st : Stripe) (m : Int) : State :=
  let row := s.stepRow st m
  let ms := s.stepMasks st m row
  let bs := st.stepBlocks m ms
  let s := bs.foldl (fun s b => s.hbmWrite (blockAddr (st.frameOf m b.1) b.1) b.2) s
  let s := s.hbmWrite (journalAddr m) (pack10 row)
  let s := s.modStripe (fun st => { st with
    stepBusy := none, stepsDone := m + 1, st := if m = st.lastStep && st.st == .run then .tail else st.st })
  let s := (s.setReg SCH_STEP.STEP (unsgn 32 m)).setReg SCH_SHORT.COUNT
    (s.reg SCH_SHORT.COUNT + (ms.filter (·.short)).length)
  let s := s.setReg SCH_OVER.COUNT (s.reg SCH_OVER.COUNT + (ms.filter (·.excess)).length)
  let s := (s.count 7 0x10 16384).slots 4 0 16384
  if s.checked then s.signStep m (stepSig row bs) bs.length else s

/-- ENTRY_STEP_COMPLETE (R249, R253, R284, R356): the doses are read from the dose buffer through port 8. -/
def execEntryStepComplete (ecc : EccReads) (s : State) : Host.Outcome State Fault Refusal :=
  .next (
    match s.liveStripe with
    | none => s
    | some st =>
      match st.stepBusy with
      | none => s
      | some m =>
        if s.working then (s.wakeBlock 7).regionRead 8 (doseAddr 0 0) 0x2800000 ecc (fun s => s.stepEnds st m) else s)

end Sys2Proof.Machine
end

