-- ==== Sys2Proof/Machine/Shl.lean ====
section
/-! DEFINITION. The shutter link (R318 to R347): knock, latch, open, the proof of the head, trims, sparing and fencing,
frame status. -/

namespace Sys2Proof.Machine

/-! ## Generations, lanes and rates (R318, R319, R322) -/

/-- Logical lanes of a generation. -/
def genLanes (gen : Nat) : Nat := if gen = 1 then 16 else 32

/-- The physical lanes that a generation uses: its own and the spares. -/
def genUsed (gen : Nat) : List Nat := List.range (genLanes gen) ++ [32, 33]

/-- The highest rate index of a generation. -/
def genTop (gen : Nat) : Nat := gen

/-- TMIN of a generation (R304, R322). -/
def genTmin (gen : Nat) : Nat := match gen with | 1 => 417 | 2 => 200 | _ => 100

/-- Duration of a symbol at a rate index, in ps (R319). -/
def symbolPs (rate : Nat) : Nat := 6400 / 2 ^ rate

/-- SEG_SLOTS (R304, R326): the ceiling of (20.48 ns + segment) / 40 ns, plus 1; with spread the segment is divided by
0.997. -/
def segSlots (rate : Nat) (spread : Bool) : Nat :=
  let d := 4118 * symbolPs rate
  let k := if spread then 997 else 1000
  (20480 * k + d * 1000 + 40000 * k - 1) / (40000 * k) + 1

/-- The generation in force. -/
def State.gen (s : State) : Nat := s.reg SHL_STATE.GEN

/-- The rate index in force. -/
def State.rate (s : State) : Nat := s.reg SHL_STATE.RATE

/-- Put several things on the lanes, in the order of the list. -/
def State.sendList (s : State) (xs : List Sent) : State := xs.foldl State.send s

/-- LOCK_l of a LANE_STATUS. -/
def lockedLane (lock l : Nat) : Bool := bit lock l

/-! ## Records from the head (R330, R341) -/

/-- Good records arrive on the back-channel lanes of `bc` (R341): one that had failed delivers again, with event 0x5E.
-/
def State.backGood (s : State) (bc : Nat) : State :=
  let one := fun (s : State) b =>
    let good := s.reg SHL_BC.GOOD
    if s.shl.watching && bit bc b && !bit good b then
      (s.setReg SHL_BC.GOOD (good + 2 ^ b)).postDev 0x5E 0x00 0 (good + 2 ^ b) 0
    else s
  one (one s 0) 1

/-- A record from the head (R330), of TYPE `type`: one that is bad on every lane, of another TYPE or LEN, or that
breaks its format is discarded and counted; else `act` is what its payload does. The receivers run while the chip is in
service. -/
def State.record (s : State) (h : BackCopies) (type : Nat) (ok : List Byte → Bool) (act : List Byte → State → State) :
    State :=
  let bad := (s.addReg SHL_BC.BAD 1).count 10 0x13 1
  if !s.serviced then s
  else
    match heardCopy h with
    | none => bad
    | some (ty, p) =>
      if ty = type && backLen type == some p.length && ok p then act p ((s.backGood (goodCopies h)).count 10 0x12 1) else bad

/-- Forward records are not sent in WAIT_SOS, RUN and TAIL (R330). -/
def State.mute (s : State) : Bool :=
  s.stripe.any (fun st => st.st == .waitSos || st.st == .run || st.st == .tail)

/-- The physical lanes of a forward record (R330): those of logical lanes 0 and 1, and 0 to 3 during knock; while
LATCH has no lane map, 0 to 3 too (DESIGN CHOICE, log entry 121). -/
def State.recordLanes (s : State) : List Nat :=
  if s.shl.st == .knock || s.shl.map.isEmpty then [0, 1, 2, 3]
  else (s.shl.map.filter (fun e => e.1 < 2)).map (·.2)

/-- Send a forward record. -/
def State.forward (s : State) (r : FwdRecord) : State := if s.mute then s else s.send (.record s.recordLanes r)

/-! ## Knock (R331, R332) -/

/-- LINK_EN is written (R331): ignored while a stripe is ARMED or RUN; 0 takes the link DOWN, lifts its fence and, on a
solo engine, the chip's (R340, R363). -/
def State.linkEnWrite (s : State) (on : Bool) : State :=
  if s.stripeActive then s else s.linkEnable on

/-- RELATCH is written (R334): the link relatches at the next stripe boundary, at once while no stripe is ARMED or
RUN. -/
def State.relatchWrite (s : State) : State :=
  let s := { s with shl := { s.shl with relatchDue := true } }
  if s.g == .ready then s.linkBoundary else s

/-- KNOCK_SEND (R332). -/
def execKnockSend (s : State) : Host.Outcome State Fault Refusal :=
  .next (
    if s.shl.st == .knock && s.gen = 0 then
      s.forward (.knock (s.lv SHL_CTRL.MAX_RATE) (b2n s.isMirror) s.aon.dieId)
    else s)

/-- KNOCK_TIMEOUT (R332). -/
def execKnockTimeout (s : State) : Host.Outcome State Fault Refusal :=
  .next (
    if s.shl.st == .knock && s.gen = 0 && !s.shl.knockPosted then
      { s with shl := { s.shl with knockPosted := true } }.linkEvent 0x06
    else s)

/-- LATCH_GO three times at rate `r` (R332). -/
def State.latchGo (s : State) (r : Nat) : State :=
  let s := s.setReg SHL_STATE.RATE r
  let go := fun (s : State) => s.forward (.latchGo r s.gen)
  go (go (go s))

/-- What a KNOCK_REPLY does in KNOCK (R332, R341): it fixes generation and rate, and the back-channel is watched. -/
def State.knockReply (s : State) (gen maxRate headId : Nat) : State :=
  if s.shl.st == .knock && s.gen = 0 then
    let s := ((s.setReg SHL_STATE.GEN gen).setReg SHL_HEAD_ID.VALUE headId).setReg SHL_BC.GOOD 3
    let s := { s with shl := { s.shl with watching := true } }
    s.latchGo (min (s.lv SHL_CTRL.MAX_RATE) (min maxRate (genTop gen)))
  else s

/-- VERSION, GEN and the reserved byte of a KNOCK_REPLY are as R330 has them. -/
def replyOk (p : List Byte) : Bool := num p 0 1 == 1 && 1 ≤ num p 1 1 && num p 1 1 ≤ 3 && num p 3 1 == 0

/-- KNOCK_REPLY (R330, R332): GEN, MAX_RATE and HEAD_ID of its payload. SHOTS of the reply is not used. -/
def execKnockReply (h : BackCopies) (s : State) : Host.Outcome State Fault Refusal :=
  .next (s.record h 0x01 replyOk (fun p s => s.knockReply (num p 1 1) (num p 2 1) (num p 4 8)))

/-! ## Latch and open (R332, R333) -/

/-- The used lanes send latch sets at the rate in force, each scrambler started anew and with its equalisation entry for
that rate (R328, R332, R335); the others stay in electrical idle (R322). -/
def State.latchLanes (s : State) : State :=
  s.setLanes (fun n l => if (genUsed s.gen).contains n then s.laneStart .latchSets s.rate n l else .reset)

/-- LATCH_START (R332): the latch sets start. -/
def execLatchStart (s : State) : Host.Outcome State Fault Refusal :=
  .next (
    let ready := (s.shl.st == .knock && s.gen ≠ 0) || (s.shl.st == .latch && !s.shl.latching && !s.shl.openSent)
    if ready then
      let s := if s.shl.st == .knock then s.startLatch else s
      { s with shl := { s.shl with latching := true } }.latchLanes
    else s)

/-- The link fails at this rate (R333): one index lower, or FAILED. -/
def State.lowerRate (s : State) : State :=
  if s.rate = 0 then (s.linkStop .failed).linkEvent 0x06
  else (s.startLatch).latchGo (s.rate - 1)

/-- The places of logical lanes (R333): each on its own physical lane when that is locked, else on the lowest-numbered
locked spare that is left; none when some lane has no place. -/
def placeLanes (lock : Nat) : List Nat → List (Nat × Nat) → Option (List (Nat × Nat))
  | [], m => some m
  | k :: ks, m =>
    if lockedLane lock k then placeLanes lock ks (m ++ [(k, k)])
    else
      match [32, 33].find? (fun p => lockedLane lock p && !m.any (fun e => e.2 == p)) with
      | some p => placeLanes lock ks (m ++ [(k, p)])
      | none => none

/-- The lanes of a list as a mask. -/
def laneMask (ls : List Nat) : Nat := (ls.map (fun l => 2 ^ l)).sum

/-- MAP of an OPEN record: the logical lane on each physical lane, 0xFF for none (R330). -/
def openMap (m : List (Nat × Nat)) : List Nat :=
  (List.range 34).map (fun p => ((m.find? (fun e => e.2 == p)).map (·.1)).getD 0xFF)

/-- The lanes that sent latch sets, as many as time went by, send idle sets, the spares among them (R318, R328). -/
def State.idleLanes (s : State) : State :=
  let a := s.fresh 32
  a.2.setLanes (fun n l => if l.mode == .latchSets then { l.waits n (16 * a.1) with mode := .idleSets } else l)

/-- LATCH ends with a LOCK (R333): the lanes are placed and OPEN is sent, unlocked used lanes counting as losses; or the
rate is lowered. -/
def State.latchEnds (s : State) (lock : Nat) : State :=
  match placeLanes lock (List.range (genLanes s.gen)) [] with
  | none => s.lowerRate
  | some m =>
    let gone := (genUsed s.gen).filter (fun l => !lockedLane lock l)
    let s := (s.setReg SHL_LOST.LANES (laneMask gone)).setReg SHL_STATE.LOSSES gone.length
    { s with shl := { s.shl with map := m, latching := false, openSent := true } }.idleLanes.forward (.openMap (openMap m))

/-- A proof ends (R336, R337): event 0x5A; a head that is not proved has no identity. -/
def State.authEnds (s : State) (status headId shots : Nat) : State :=
  let ok := status = 0
  let shl := { s.shl with
    challenge := none, freshEnded := s.shl.freshEnded || s.shl.freshAsked
    proved := if ok then some headId else none
    provedShots := if ok then (headId, shots) :: s.shl.provedShots.filter (fun e => e.1 != headId)
      else s.shl.provedShots }
  let s := { s with shl := shl }
  let s := if ok then s.setReg SHL_SHOTS.VALUE shots else s
  s.postDev 0x5A status 0 headId shots

/-- A rejoin ends (R363, R370): proved, the fence lifts, in a pair with event 0x60; not proved, the chip stays fenced.
-/
def State.rejoinEnds (s : State) (ok : Bool) : State :=
  if s.nlk.rejoining && s.fence.isSome then
    let s := { s with nlk := { s.nlk with rejoining := false } }
    let s := if ok then s.liftFence else s
    if s.nlk.paired then
      s.postDev 0x60 (if ok then 0x00 else 0x09) 0 ((if ok then 2 else 4) + s.reg NLK_STATE.LANES_UP * 8)
        (s.reg NLK_PARTNER.DIE_ID)
    else s
  else s

/-- A proof ends without an answer (R336): HEAD_ID is that of the knock reply; SHOTS has no value. -/
def State.authTimesOut (s : State) : State :=
  let n := s.fresh 64
  (n.2.authEnds 0x06 (s.reg SHL_HEAD_ID.VALUE) n.1).rejoinEnds false

/-- A proof starts (R336): without a head key it ends at once. A fresh proof that the arming of a stripe asks for takes
the place of one still outstanding, whose answer, if it comes, then ends it with BAD_CHECK: R337 does not say whether it
waits for that one (DESIGN CHOICE, log entry 149). -/
def State.startProof (s : State) : State :=
  match s.prot.headKey with
  | none => s.authTimesOut
  | some _ =>
    let n := s.shl.draws
    { s with shl := { s.shl with challenge := some n, draws := n + 1 } }.forward
      (.challenge (Config.authNonce n).toNat)

/-- The link is OPEN (R334): event 0x58, and the head is to be proved (R337). -/
def State.linkOpens (s : State) : State :=
  (({ s with shl := { s.shl with st := .opened, openSent := false } }.linkEvent 0x00)).startProof

/-! ## Losses and fencing (R339, R340) -/

/-- The link is FENCED and the chip fences itself (R340). -/
def State.linkFence (s : State) : State := ((s.linkStop .fenced).linkEvent 0x0C).fenceChip 0x08

/-- The first frame of which no segment has started yet. -/
def State.firstFrame (s : State) : Nat :=
  match s.liveStripe with
  | none => 0
  | some st => match st.seg with | .sent _ => st.nextFlash + 1 | _ => st.nextFlash

/-- Physical lane `p` is lost (R339, R340). -/
def State.loseLane (s : State) (p : Nat) : State :=
  let lock := s.reg SHL_LOCK.LANES
  let lost := s.reg SHL_LOST.LANES + 2 ^ p
  let n := min 3 (s.reg SHL_STATE.LOSSES + 1)
  let logical := (s.shl.map.find? (fun e => e.2 == p)).map (·.1)
  let spare := [32, 33].find? (fun q => lockedLane lock q && !bit lost q && !s.shl.map.any (fun e => e.2 == q))
  let moved := if logical.isSome then spare else none
  let map := match logical, moved with
    | some k, some q => s.shl.map.map (fun e => if e.1 = k then (k, q) else e)
    | some k, none => s.shl.map.filter (fun e => e.1 != k)
    | none, _ => s.shl.map
  let first := if moved.isSome then s.firstFrame else 0
  let s := ({ s with shl := { s.shl with map } }.setReg SHL_LOST.LANES lost).setReg SHL_STATE.LOSSES n
  let s := s.postDev 0x59 (if n = 3 then 0x0C else 0x00) 0 (p + logical.getD 63 * 2 ^ 6 + n * 2 ^ 12) (first % 2 ^ 48)
  if n = 3 || (logical.isSome && moved.isNone) then s.linkFence else s

/-- Lose the lanes of a list, while the link is OPEN. -/
def State.loseLanes (s : State) : List Nat → State
  | [] => s
  | p :: ps => if s.shl.st == .opened then State.loseLanes (s.loseLane p) ps else s

/-- LOCK of a LANE_STATUS or a FRAME_STATUS (R339): an OPEN link loses the lanes that it reports unlocked. -/
def State.lockReport (s : State) (lock : Nat) : State :=
  let lock := lock % 2 ^ 34
  let s := s.setReg SHL_LOCK.LANES lock
  if s.shl.st == .opened then
    s.loseLanes ((genUsed s.gen).filter (fun l => !lockedLane lock l && !bit (s.reg SHL_LOST.LANES) l))
  else s

/-- LOCK of a LANE_STATUS, which alone ends LATCH and opens the link (R333, R334). -/
def State.laneReport (s : State) (lock : Nat) : State :=
  let t := { s with shl := { s.shl with latchLock := lock % 2 ^ 34 } }.setReg SHL_LOCK.LANES (lock % 2 ^ 34)
  if s.shl.st == .latch && s.shl.latching then
    (if (genUsed s.gen).all (lockedLane lock) then t.latchEnds (lock % 2 ^ 34) else t)
  else if s.shl.st == .latch && s.shl.openSent then
    (if s.shl.map.all (fun e => lockedLane lock e.2) then t.linkOpens else t)
  else t.lockReport lock

/-- LANE_STATUS (R333, R334, R339): LOCK is its payload. -/
def execLaneStatus (h : BackCopies) (s : State) : Host.Outcome State Fault Refusal :=
  .next (s.record h 0x02 (fun _ => true) (fun p s => s.laneReport (num p 0 8)))

/-- LATCH_TIMEOUT (R333): 10 ms after the latch sets started, with the LOCK last reported in this LATCH. -/
def execLatchTimeout (s : State) : Host.Outcome State Fault Refusal :=
  .next (if s.shl.st == .latch && s.shl.latching then s.latchEnds s.shl.latchLock else s)

/-- OPEN_TIMEOUT (R333). -/
def execOpenTimeout (s : State) : Host.Outcome State Fault Refusal :=
  .next (if s.shl.st == .latch && s.shl.openSent then s.lowerRate else s)

/-! ## The proof (R336, R337) -/

/-- The 45 bytes that the MAC covers (R336). -/
def authMessage (nonce headId shots gen die : Nat) : List Byte :=
  [0x46#8, 0x4C#8, 0x4D#8, 0x48#8] ++ le 16 nonce ++ le 8 headId ++ le 8 shots ++ le 1 gen ++ le 8 die

/-- Every check of a proof holds (R336). -/
def State.authGood (s : State) (n headId shots : Nat) (mac : List Byte) : Bool :=
  match s.prot.headKey with
  | none => false
  | some key =>
    mac == hmacSha256 key (authMessage (Config.authNonce n).toNat headId shots s.gen s.aon.dieId) &&
    headId == s.reg SHL_HEAD_ID.VALUE &&
    !s.shl.provedShots.any (fun e => e.1 == headId && shots < e.2)

/-- A response with HEAD_ID, SHOTS and MAC answers the CHALLENGE outstanding (R336, R337). -/
def State.authResponse (s : State) (headId shots : Nat) (mac : List Byte) : State :=
  match s.shl.challenge with
  | none => s
  | some n =>
    let ok := s.authGood n headId shots mac
    (s.authEnds (if ok then 0x00 else 0x07) headId shots).rejoinEnds ok

/-- AUTH_RESPONSE (R336, R337): HEAD_ID, SHOTS and MAC of its payload. -/
def execAuthResponse (h : BackCopies) (s : State) : Host.Outcome State Fault Refusal :=
  .next (s.record h 0x04 (fun _ => true) (fun p s => s.authResponse (num p 0 8) (num p 8 8) ((p.drop 16).take 32)))

/-- AUTH_TIMEOUT (R336). -/
def execAuthTimeout (s : State) : Host.Outcome State Fault Refusal :=
  .next (if s.shl.challenge.isSome then s.authTimesOut else s)

/-! ## Trims (R338) -/

/-- The trim of a slat as the head applies it (R338, R243): an s8, 0 for a stuck-on slat and in SELECT mode. -/
def State.trimByte (s : State) (x d : Nat) : Byte :=
  if s.lv SCH_CTRL.MODE = 1 || s.stuck x d then 0#8 else BitVec.ofInt 8 (s.tabLive.slatTrim x d)

/-- TRIM_CRC (R338): the trims in ascending d and then x. -/
def State.trimCrc (s : State) : Nat :=
  crc32c 0 ((List.range (2 * genLanes s.gen)).flatMap (fun d => (List.range 16384).map (fun x => s.trimByte x d)))

/-- The trims of chunk `c` of logical lane `k` that are not 0 (R338): byte j is slat 2 k + c div 4 of louver
4,096 (c mod 4) + j. A slat whose byte of the dwell table is 0 has trim 0. -/
def State.trimChunk (s : State) (k c : Nat) : Memory :=
  let d := 2 * k + c / 4
  let one := fun (e : Nat × Byte) =>
    let x := e.1 / 64
    if e.1 % 64 = d && x / 4096 = c % 4 && s.trimByte x d != 0#8 then some (x % 4096, s.trimByte x d) else none
  s.tabLive.dwell.filterMap one

/-- The trim segments of a stripe (R325, R338): 8 on each logical lane, in the order of their chunks. A trim segment
has no block that could be disputed, so VOUCH is 1 (DEDUCED, log entry 122). -/
def State.trimSegments (s : State) (r : ArmReq) : List Sent :=
  (List.range 8).flatMap (fun c => s.shl.map.map (fun e => Sent.segment
    { phys := e.2, frame := c, stripe := r.id, pass := r.pass, lane := e.1, flags := b2n s.isMirror + 2 + 8,
      payload := s.trimChunk e.1 c }))

/-- ARM and the trim segments are sent (R338). -/
def State.sendArm (s : State) (r : ArmReq) : State :=
  if s.shl.st == .opened then
    let segments := s.trimSegments r
    ((s.forward (.arm r.id r.pass (s.lv SCH_DWELL.DWELL_NS) (s.reg SHL_TRIM_CRC.CRC))).sendList segments).count 10 0x10
      segments.length
  else s

/-- The head has answered ARM with a stripe and a TRIM_CRC (R338). -/
def State.trimAck (s : State) (stripe crc : Nat) : State :=
  s.modStripe (fun st =>
    if st.st != .armed then st
    else if st.req.id = stripe && s.reg SHL_TRIM_CRC.CRC = crc then { st with trimAcked := true }
    else { st with trimWrong := some crc })

/-- TRIM_ACK (R338): STRIPE_ID and TRIM_CRC of its payload. -/
def execTrimAck (h : BackCopies) (s : State) : Host.Outcome State Fault Refusal :=
  .next (s.record h 0x05 (fun _ => true) (fun p s => s.trimAck (num p 0 4) (num p 4 4)))

/-- TRIM_RETRY (R338): event 0x5D once per stripe, ARM and trims again. -/
def execTrimRetry (s : State) : Host.Outcome State Fault Refusal :=
  .next (
    match s.stripe.filter (fun st => st.st == .armed && !st.trimAcked) with
    | none => s
    | some st =>
      let s := if st.trimRetryPosted then s
        else s.postDev 0x5D (if st.trimWrong.isNone then 0x06 else 0x07) 0 (s.reg SHL_TRIM_CRC.CRC) (st.trimWrong.getD 0)
      (s.modStripe (fun st => { st with trimRetryPosted := true })).sendArm st.req)

/-! ## Frame status (R342, R343) -/

/-- A lane of the frame was fired blank (R343): the count, and event 0x5B. R424 lets no device event about a stripe follow
its outcome event, so a report that comes after it is counted alone (DESIGN CHOICE, log entry 169). -/
def State.blankedLanes (s : State) (frame mask : Nat) : State :=
  if mask = 0 then s
  else
    let s := s.setReg SHL_BLANKED.COUNT (s.reg SHL_BLANKED.COUNT + onesOf 32 mask)
    if s.stripe.any (fun st => !st.outcomeDone) then s.postOnce 0x5B 0x0D 0 (frame % 2 ^ 48) mask else s

/-- A frame taken in part from the mirror counts as a switch (R342). -/
def State.switched (s : State) (srcMask : Nat) : State :=
  if srcMask = 0 then s
  else (s.addReg SHL_SWITCHES.COUNT 1).modStripe (fun st => { st with switches := st.switches + 1 })

/-- A missed flash waits for nothing more (R361). -/
def State.missGone (s : State) (n : Nat) : State :=
  { s with nlk := { s.nlk with pendingMiss := s.nlk.pendingMiss.filter (fun m => m != n)
                               missTimed := s.nlk.missTimed.filter (fun m => m != n) } }

/-- Missed flashes whose FRAME_STATUS time has passed are booked on a mirror that carries the stripe (R361). -/
def State.bookTimed (s : State) : State :=
  s.nlk.missTimed.foldl (fun s n => (s.missGone n).bookMiss n) s

/-- The head has fired a frame: it awaits no FRAME_STATUS any more, and a flash that this chip missed is no miss of the
pair (R361). The emit slot of a fired flash is booked here (R415). -/
def State.frameSeen (s : State) (frame blankMask : Nat) : State :=
  let fired := s.stripe.any (fun st => st.awaiting.contains frame)
  let s := s.modStripe (fun st => { st with
    awaiting := st.awaiting.filter (fun n => n != frame), counted := st.counted.filter (fun n => n != frame)
    overdue := st.overdue && st.lastFired != some frame })
  let s := s.missGone frame
  if fired then s.slots 5 (if blankMask = 0 then 0 else 2) 1 else s

/-- A mirror whose link is lost (R366): it carries the stripe on if the head took the whole frame from it, for its
lead has then gone silent; otherwise it fences itself, and the stripe and its outcome are the lead's. -/
def State.silentLead (s : State) (srcMask : Nat) : State :=
  if s.nlk.silentCheck then
    let silent := srcMask % 2 ^ 32 == 0xFFFFFFFF
    let s := { s with nlk := { s.nlk with silentCheck := false, leadSilent := silent } }
    if silent then s.bookTimed else s.fenceChip 0x09
  else s

/-- The head reports a frame (R339, R342, R343, R361, R366). -/
def State.frameStatus (s : State) (frame srcMask blankMask lock : Nat) : State :=
  ((((s.frameSeen frame blankMask).switched srcMask).blankedLanes frame blankMask).silentLead srcMask).lockReport lock

/-- FRAME_STATUS: FRAME, SRC_MASK, BLANK_MASK and LOCK of its payload. -/
def execFrameStatus (h : BackCopies) (s : State) : Host.Outcome State Fault Refusal :=
  .next (s.record h 0x06 (fun _ => true) (fun p s =>
    s.frameStatus (num p 0 6) (num p 6 4) (num p 10 4) (num p 14 8)))

/-- FRAME_STATUS time of a missed flash of the pair has passed (R361): the lead books it and sends it in MISS_LIST; the
mirror waits for the lead's list, and books it itself while the lead is fenced or silent. -/
def State.bookPair (s : State) (n : Nat) : State :=
  let s := s.missGone n
  if !s.isMirror then (s.naluSend (.missList n)).bookMiss n
  else if s.checked || s.nlk.silentCheck then { s with nlk := { s.nlk with missTimed := s.nlk.missTimed ++ [n] } }
  else s.bookMiss n

/-- FRAME_STATUS_MISSING (R342, R361): 4 µs after the fire mark of a fired frame, or after a missed flash in a pair. The
frame fired last is counted once another flash fires or the stripe aborts: if it is the last of a stripe that reaches
DONE, it is left to the wait of R342 (DESIGN CHOICE, log entry 170). -/
def execFrameStatusMissing (frame : Nat) (s : State) : Host.Outcome State Fault Refusal :=
  .next (
    let s := if s.fence.isNone && s.liveStripe.isSome && s.nlk.pendingMiss.contains frame then s.bookPair frame else s
    match s.stripe with
    | none => s
    | some st =>
      if !st.awaiting.contains frame then s
      else if st.lastFired != some frame || st.st == .aborted then s.statusMissing frame
      else if st.st == .done then s
      else s.modStripe (fun st => { st with overdue := true }))

/-- DONE_STATUS_WAIT_EXPIRE (R342). -/
def execDoneStatusWaitExpire (s : State) : Host.Outcome State Fault Refusal :=
  .next (
    match s.stripe.filter (fun st => st.st == .done) with
    | none => s
    | some st =>
      match st.lastFired.filter st.awaiting.contains with
      | some n => s.statusMissing n
      | none => s)

/-! ## The back-channel (R341) -/

/-- BACKCHANNEL_TIMEOUT (R341): event 0x5E; with both lanes silent the link is FENCED, or outside a stripe knocks
anew. -/
def execBackchannelTimeout (lane : Nat) (s : State) : Host.Outcome State Fault Refusal :=
  .next (
    let good := s.reg SHL_BC.GOOD
    if s.shl.watching && bit good lane then
      let s := (s.setReg SHL_BC.GOOD (good - 2 ^ lane)).postDev 0x5E 0x06 0 (good - 2 ^ lane) 0
      if s.reg SHL_BC.GOOD ≠ 0 then s
      else if s.stripeActive then s.linkFence
      else s.startKnock
    else s)

end Sys2Proof.Machine
end

