-- ==== Sys2Proof/Machine/Ems.lean ====
section
/-! DEFINITION. Emission and stage synchronisation (R288 to R315): the position port, the filter, flash decisions, the
sill, and the states of a stripe from arming to IDLE. -/

namespace Sys2Proof.Machine

/-! ## Targets and segments (R302, R304, R309, R367) -/

/-- T(n) in pu (R302). -/
def State.target (s : State) (r : ArmReq) (n : Nat) : Int :=
  (r.originY : Int) + 4 * (s.tabLive.passFeed r.passes r.pass).2.1 + 64 * (n : Int)

/-- EMS_NEXT and EMS_TARGET follow the next flash. -/
def State.noteNext (s : State) : State :=
  match s.stripe with
  | none => s
  | some st => (s.setReg EMS_NEXT.N st.nextFlash).setReg EMS_TARGET.VALUE (unsgn 40 (s.target st.req st.nextFlash))

/-- Set several registers. -/
def State.setRegs (s : State) (l : List (Field × Nat)) : State := l.foldl (fun s e => s.setReg e.1 e.2) s

/-- Block `d` of frame `n` still waits for a vote, or comes from a step that no partner checked. -/
def State.inVote (s : State) (st : Stripe) (n d : Nat) : Bool :=
  let m : Int := n - 256 * d - st.req.lead
  256 * d ≤ n && (s.nlk.votes.any (fun v => v.step == m) || s.nlk.aloneFrom.any (fun a => a ≤ m))

/-- The logical lanes of which one of the two blocks of frame `n` satisfies `p`, as a mask. -/
def blockLanes (lanes : Nat) (p : Nat → Bool) : Nat :=
  laneMask ((List.range lanes).filter (fun k => p (2 * k) || p (2 * k + 1)))

/-- BLANK of each logical lane of frame `n` (R367). -/
def State.blankMask (s : State) (st : Stripe) (n : Nat) : Nat :=
  blockLanes (genLanes s.gen) (fun d => st.blanked.contains (64 * n + d))

/-- VOUCH of each logical lane of frame `n` (R325, R367): 1 unless a block of it is withheld, not decided, or from a
step that no partner checked; always 1 on a solo chip. That R367 holds of a chip whose partner has fenced as it stands
is DEDUCED (log entry 123). -/
def State.vouchMask (s : State) (st : Stripe) (n : Nat) : Nat :=
  2 ^ genLanes s.gen - 1 -
    blockLanes (genLanes s.gen) (fun d => st.blanked.contains (64 * n + d) || s.inVote st n d)

/-- The louvers whose slat at depth `d` is stuck-on. -/
def State.stuckLouvers (s : State) (d : Nat) : List Nat :=
  s.tabLive.bstate.filterMap (fun c => if c.1 % 16 = d / 4 && s.stuck (c.1 / 16) d then some (c.1 / 16) else none)

/-- The bytes of depth block `d` of frame `n` that are not 0, as the sill takes it (R250, R308), from byte `o` of a
payload on. -/
def State.blockCells (s : State) (n d o : Nat) : Memory :=
  if n < 256 * d then
    let add := fun (m : Memory) x =>
      Memory.write m (o + x / 8) [Memory.byte m (o + x / 8) ||| BitVec.ofNat 8 (2 ^ (x % 8))]
    (s.stuckLouvers d).foldl add []
  else
    let a := blockAddr n d
    s.hbm.filterMap (fun c => if a ≤ c.1 && c.1 < a + 2048 then some (c.1 - a + o, c.2) else none)

/-- The segments of frame `n`, one on each logical lane (R318, R324, R325, R367). -/
def State.frameSegments (s : State) (st : Stripe) (n : Nat) : List Sent :=
  let vouch := s.vouchMask st n
  let blank := s.blankMask st n
  let one := fun (e : Nat × Nat) => Sent.segment
    { phys := e.2, frame := n, stripe := st.req.id, pass := st.req.pass, lane := e.1
      flags := b2n s.isMirror + 2 * b2n (bit vouch e.1) + 4 * b2n (bit blank e.1)
      payload := s.blockCells n (2 * e.1) 0 ++ s.blockCells n (2 * e.1 + 1) 2048 }
  s.shl.map.map one

/-- The segment of the next frame starts at slot `k` (R304, R309): sent if the frame is complete in the sill;
otherwise it is never sent, which in a pair fences the chip. -/
def State.startSegment (s : State) (st : Stripe) (k : Nat) : State :=
  let n := st.nextFlash
  if st.sill.contains n then
    let s := s.modStripe (fun st => { st with seg := .sent k, segEnd := k + s.reg EMS_EFF.SEG_SLOTS })
    (s.sendList (s.frameSegments st n)).count 10 0x10 (genLanes s.gen)
  else
    let s := s.modStripe (fun st => { st with seg := .nosill })
    if s.covered then s.fenceChip 0x02 else s

/-- A stripe that sends segments: WAIT_SOS, RUN or TAIL, with a next frame. -/
def Stripe.sending (st : Stripe) : Bool :=
  (st.st == .waitSos || st.st == .run || st.st == .tail) && st.nextFlash ≤ st.final

/-- Slot `k` has come: the segment of the next frame starts if this is its start slot (R304). -/
def State.segmentSlot (s : State) (k : Nat) : State :=
  match s.stripe.filter (fun st => st.sending && s.fence.isNone) with
  | none => s
  | some st =>
    match st.seg with
    | .pending a => if a ≤ k then s.startSegment st k else s
    | _ => s

/-! ## The sill (R273, R308) -/

/-- Frames complete in the sill from the next flash on (R273). -/
def Stripe.fill (st : Stripe) : Nat := (st.sill.filter (fun n => st.nextFlash ≤ n)).length

/-- Panic is raised or released by the fill (R273). -/
def State.panic (s : State) : State :=
  match s.stripe with
  | none => s
  | some st =>
    if st.fill ≤ s.lv HMC_CTRL.PANIC_FRAMES then s.setReg HMC_STATUS.PANIC 1
    else if s.lv HMC_CTRL.PANIC_EXIT ≤ st.fill then s.setReg HMC_STATUS.PANIC 0
    else s

/-- Frame `n` may be fetched: every step that writes it is complete and decided, no repayment to it is left (R26, R258,
R360). -/
def State.mayFetch (s : State) (st : Stripe) (n : Nat) : Bool :=
  (n : Int) - st.req.lead < s.undecided && !st.ledger.writes.any (fun r => r.frame == n)

/-- The bytes of frame `n` that the sill reader fetches (R308): the depth blocks that do not come from the stuck-on
mask. -/
def sillBytes (n : Nat) : Nat := min 64 (n / 256 + 1) * 2048

/-- SILL_FETCH_DONE (R283, R284, R308): the oldest frame asked for arrives over port 0. -/
def execSillFetchDone (ecc : EccReads) (s : State) : Host.Outcome State Fault Refusal :=
  .next (
    match s.liveStripe with
    | none => s
    | some st =>
      match st.sillWanted with
      | [] => s
      | n :: rest =>
        if !s.serviced || !s.mayFetch st n then s
        else s.portRead 0 (blockAddr n 0) (sillBytes n) ecc
          (fun s => (s.modStripe (fun st => { st with sill := st.sill ++ [n], sillWanted := rest })).panic))

/-! ## The stripe-ending causes of this chapter -/

/-- A cause of 0x06 to 0x0D is met (R301, R362): its point is the next flash. -/
def State.stripeCause (s : State) (cause : Nat) : State :=
  if s.working then s.finding { kind := 2, point := s.nextFlash, code := cause, posts := [], cause } else s

/-- The stripe in RUN or TAIL. -/
def State.running (s : State) : Option Stripe := s.stripe.filter (fun st => st.st == .run || st.st == .tail)

/-- STAGE_OK_TIMEOUT (R296): 25 slot reads in a row saw STAGE_OK low. -/
def execStageOkTimeout (s : State) : Host.Outcome State Fault Refusal :=
  .next (if s.running.any (fun st => 25 ≤ st.stageLow) then s.stripeCause 0x0B else s)

/-- STALL_TIMEOUT (R296): no flash has been decided for STALL_MS. -/
def execStallTimeout (s : State) : Host.Outcome State Fault Refusal :=
  .next (if s.running.isSome && s.lv EMS_TIMEOUT.STALL_MS ≠ 0 then s.stripeCause 0x0D else s)

/-! ## Flash decisions (R303 to R306, R311, R361) -/

/-- The decision on the next flash once it is due (R303): 0 fired, or the cause of the miss (R305). -/
def Stripe.outcomeAt (st : Stripe) (k tmin segs : Nat) (blank off : Bool) : Nat :=
  match st.seg with
  | .pending _ => 1
  | .nosill => 4
  | .sent a =>
    if st.lastFire.any (fun w => k < w + tmin) || k < a + segs then 1
    else if blank then 2
    else if off then 3
    else 0

/-- A tracking frame (R311): SYNC, value, flash, MISS, and odd parity over bits 30 to 4. -/
def trackWord (value : Int) (n : Nat) (miss : Bool) : Nat :=
  let w := 0b1010 + unsgn 18 value * 2 ^ 4 + n % 256 * 2 ^ 22 + b2n miss * 2 ^ 30
  let ones := ((List.range 27).filter (fun i => bit w (4 + i))).length
  w + (1 - ones % 2) * 2 ^ 31

/-- The tracking frames of a decided flash (R311). -/
def State.tracking (s : State) (ty tx : Int) (n : Nat) (miss : Bool) : State :=
  if s.lv EMS_CTRL.TRK_EN = 1 then
    let y := trackWord (min ty 131071) n miss
    let x := trackWord (max (-131072) (min tx 131071)) n miss
    (s.send (.track 0 y)).send (.track 1 x)
  else s

/-- What a decision changes in the stripe (R303 to R308): outcome `c` at slot `k`. -/
def Stripe.decided (st : Stripe) (c k : Nat) : Stripe :=
  let n := st.nextFlash
  let wanted := if n + 32 ≤ st.final then st.sillWanted ++ [n + 32] else st.sillWanted
  let recent := (if c = 1 then n :: st.recentOver else st.recentOver).filter (fun f => n < f + 256)
  let st := { st with
    lastFlash := some n, nextFlash := n + 1, seg := .pending (max k st.segEnd), recentOver := recent
    blankRun := if c = 2 then st.blankRun + 1 else 0
    sill := st.sill.filter (fun f => f != n), sillWanted := wanted }
  if c = 0 then
    { st with fired := st.fired + 1, lastFire := some k, awaiting := st.awaiting ++ [n], lastFired := some n
              overdue := false, missRun := none }
  else
    let run := match st.missRun with
      | some (f, j, c') => if c' = c then (f, j + 1, c) else (n, 1, c)
      | none => (n, 1, c)
    { st with missed := st.missed + 1, missCause := modAt st.missCause (c - 1) (fun m => m + 1), missRun := some run }

/-- A run of misses ends at a flash with another outcome (R305). -/
def State.endRun (s : State) (st : Stripe) (c : Nat) : State :=
  match st.missRun with
  | some r => if r.2.2 = c then s else s.missRunEvent st.req.id r
  | none => s

/-- The lifetime flash counter (R314). -/
def State.countFlash (s : State) : State :=
  let n := s.reg EMS_FLASHES.COUNT + 1
  let s := s.setReg EMS_FLASHES.COUNT n
  if n = 2 ^ 48 then s.setReg EMS_FLASHES.OVF 1 else s

/-- A flash fires (R303, R327): fire mark, on every physical lane that carries a logical lane, and counts. -/
def State.fire (s : State) (n : Nat) : State :=
  ((s.countFlash.send (.fire (s.shl.map.map (·.2)) n)).count 9 0x11 1).count 10 0x11 s.shl.map.length

/-- A flash is missed (R305, R415): counts, and its emit slot. -/
def State.miss (s : State) (c : Nat) : State :=
  ((s.addReg (EMS_MISS.COUNT c) 1).count 9 0x12 1).slots 5 (if c = 4 then 3 else 1) 1

/-- Two decisions on a flash: the mirror fences itself where they differ (R361). -/
def State.compareDecision (s : State) (n : Nat) : State :=
  match s.nlk.decisions.find? (fun d => d.1 == n), s.nlk.theirDecisions.find? (fun d => d.1 == n) with
  | some a, some b =>
    let keep := fun (l : List (Nat × Nat)) => l.filter (fun d => n < d.1)
    let s := { s with nlk := { s.nlk with
      decisions := keep s.nlk.decisions, theirDecisions := keep s.nlk.theirDecisions } }
    if s.isMirror && a.2 != b.2 then s.fenceChip 0x05 else s
  | _, _ => s

/-- The decision goes to the partner and is compared with its own (R361). -/
def State.shareDecision (s : State) (n c : Nat) : State :=
  if s.joined then
    let s := s.naluSend (.decision n c)
    if s.checked then
      { s with nlk := { s.nlk with decisions := s.nlk.decisions ++ [(n, c)] } }.compareDecision n
    else s
  else s

/-- A missed flash goes to the ledger (R256, R361): at once on a solo chip; in a pair it waits for FRAME_STATUS time. -/
def State.bookDecision (s : State) (n : Nat) : State :=
  if !s.nlk.paired then s.bookMiss n
  else { s with nlk := { s.nlk with pendingMiss := s.nlk.pendingMiss ++ [n] } }

/-- The limits tested at a decision (R296, R306): the lower cause wins. -/
def State.limits (s : State) : State :=
  match s.running with
  | none => s
  | some st =>
    if s.lv EMS_FLASH_CFG.OVS_LIMIT < st.recentOver.length then s.stripeCause 0x0A
    else if 256 ≤ st.blankRun then s.stripeCause 0x0C
    else s

/-- The next flash is decided at slot `k` with outcome `c` (R303): `ty` and `tx` are what tracking sends. Where it fires,
the frame fired before it that is overdue was not the last one (R342). -/
def State.decideFlash (s : State) (st : Stripe) (k c : Nat) (ty tx : Int) : State :=
  let n := st.nextFlash
  let s := if c = 0 then s.overdueCounts else s
  let s := (s.endRun st c).modStripe (fun st => st.decided c k)
  let s := { s with nlk := { s.nlk with flashClock := s.nlk.flashClock + 1 } }
  let s := if c = 0 then s.fire n else s.miss c
  let s := ((s.tracking ty tx n (c != 0)).noteNext).panic
  let s := if c = 0 then s else s.bookDecision n
  ((s.shareDecision n c).segmentSlot k).limits

/-- An accepted slot in RUN or TAIL decides at most one flash (R302, R303). -/
def State.decideSlot (s : State) (k : Nat) (blank : Bool) : State :=
  match s.running.filter (fun st => s.working && st.stageLow < 25 && st.nextFlash ≤ st.final) with
  | none => s
  | some st =>
    let ty := (s.port.yf : Int) - s.target st.req st.nextFlash
    let tx := (s.port.x : Int) - st.req.originX
    if ty < 0 then s
    else
      let off := (s.lv EMS_XTOL.XTOL_PU : Int) < tx.natAbs
      s.decideFlash st k (st.outcomeAt k (s.reg EMS_EFF.TMIN_EFF) (s.reg EMS_EFF.SEG_SLOTS) blank off) ty tx

/-! ## The position port and the filter (R289, R292 to R294) -/

/-- EMS_POS_ERR as one word. -/
def State.posErr (s : State) : Nat :=
  s.reg EMS_POS_ERR.BAD + s.reg EMS_POS_ERR.GLITCH * 2 ^ 16 + s.reg EMS_POS_ERR.LOSSES * 2 ^ 24

/-- Change the position port. -/
def State.modPort (s : State) (f : Port → Port) : State := { s with port := f s.port }

/-- An accepted pair passes the filter (R293), and may decide a flash. -/
def State.acceptPair (s : State) (k y x : Nat) (blank : Bool) : State :=
  let yf := s.port.yf
  let s := (s.modPort (fun p => { p with lastY := some y, y, x, bad := 0 })).count 9 0x10 1
  if s.running.isNone then s.modPort (fun p => { p with yf := y })
  else if yf ≤ y then (s.modPort (fun p => { p with yf := y })).decideSlot k blank
  else if yf - y ≤ s.lv EMS_POS_CFG.JTOL_PU then (s.count 9 0x13 1).decideSlot k blank
  else s.stripeCause 0x09

/-- The port loses lock at the end of a failing slot (R289, R294). -/
def State.loseLock (s : State) (k : Nat) : State :=
  let s := (s.modPort (fun p => { p with locked := false, good := 0, bad := 0, lastY := none })).addReg
    EMS_POS_ERR.LOSSES 1
  let s := s.postOnce 0x51 0x06 0 ((k - s.port.base) % 2 ^ 48) s.posErr
  if s.running.isSome then s.stripeCause 0x08 else s

/-- A slot that fails while the port is locked (R289). -/
def State.failSlot (s : State) (k : Nat) : State :=
  let s := s.modPort (fun p => { p with bad := p.bad + 1 })
  if 8 ≤ s.port.bad then s.loseLock k else s

/-- A slot before lock (R289): the 64th good one in a row locks the port. -/
def State.seekLock (s : State) (k : Nat) (good : Bool) : State :=
  if !good then s.modPort (fun p => { p with good := 0 })
  else if s.port.good + 1 < 64 then s.modPort (fun p => { p with good := p.good + 1 })
  else
    let s := s.modPort (fun p => { p with good := 0, locked := true, bad := 0, base := k + 1, lastY := none })
    s.postOnce 0x51 0x00 0 0 s.posErr

/-- The pair of a good slot is a glitch (R294). -/
def State.glitch (s : State) (y : Nat) : Bool :=
  s.port.lastY.any (fun l => l + s.lv EMS_POS_CFG.FWD_MAX_PU < y)

/-- The levels on the balls at a slot (R43, R292). -/
def State.levels (s : State) (stageOk blank twinId : Bool) : State :=
  if s.aon.rails then { s with aon := { s.aon with stageOk, blankReq := blank, twinPin := twinId } } else s

/-- The slots in which the stripe in RUN or TAIL reads STAGE_OK low (R296). -/
def State.readStage (s : State) (stageOk : Bool) : State :=
  s.modStripe (fun st =>
    { st with stageLow := if (st.st == .run || st.st == .tail) && !stageOk then st.stageLow + 1 else 0 })

/-- The two words of slot `k` (R289, R293, R294). -/
def State.takePair (s : State) (k : Nat) (fy fx : BitVec 50) (blank : Bool) : State :=
  let good := frameSync fy && frameSync fx && frameCheck fy && frameCheck fx
  let valid := frameValid fy && frameValid fx
  let s := if good && valid then s else s.addReg EMS_POS_ERR.BAD 1
  if !s.port.locked then s.seekLock k good
  else if !good then s.failSlot k
  else if !valid then s.modPort (fun p => { p with bad := 0 })
  else if s.glitch (frameWord fy) then (s.addReg EMS_POS_ERR.GLITCH 1).failSlot k
  else s.acceptPair k (frameWord fy) (frameWord fx) blank

/-- The position port runs (R289, R383): in START once the root is locked, and in service, with EMS not OFF. -/
def State.portRuns (s : State) : Bool := (s.serviced || (s.g == .start && s.aon.rootLock)) && s.pwr 9 != .off

/-- POSITION_SLOT (R43, R288 to R294, R303): one frame slot on both lanes, and the levels on the balls at that time. -/
def execPositionSlot (fy fx : BitVec 50) (stageOk blankReq twinId : Bool) (s : State) :
    Host.Outcome State Fault Refusal :=
  .next (
    let s := s.levels stageOk blankReq twinId
    if !s.portRuns then s
    else
      let k := s.port.slots
      (((s.modPort (fun p => { p with slots := k + 1 })).readStage stageOk).segmentSlot k).takePair k fy fx blankReq)

/-! ## Arming (R242, R296, R297, R323) -/

/-- The first beam outside a generation A head that is not dead (R323). -/
def State.unfitBeam (s : State) : Option Nat :=
  (List.range (16384 * 64)).find? (fun i =>
    (8192 ≤ i / 64 || 32 ≤ i % 64) && !s.tabLive.slatDead (i / 64) (i % 64))

/-- The head that has been proved is not the one that the tables were measured on (R242); identity 0 matches no head. -/
def State.headWrong (s : State) : Bool :=
  s.shl.st != .opened || s.lv SCH_HEAD_ID.ID == 0 || s.shl.proved != some (s.lv SCH_HEAD_ID.ID)

/-- The targets of the stripe leave the range of a position word (R297). -/
def State.outOfRange (s : State) (r : ArmReq) : Bool :=
  s.target r 0 < 0 || 2 ^ 40 - 1 < s.target r (r.rows + 16367)

/-- The registers of a stripe that arms, beside those of the HMC and the codec's engines. -/
def State.armRegs (s : State) (r : ArmReq) : List (Field × Nat) :=
  let feed := s.tabLive.passFeed r.passes r.pass
  [(CDC_FEED_IN.IN, 0), (CDC_FEED_OUT.OUT, 0), (PRS_BAND_CONF.BAND, 0xFFFFFFFF), (PRS_BAND_REL.BAND, 0xFFFFFFFF),
    (PRS_BAND_FINE.BAND, 0), (PRS_FEED.FX, unsgn 16 feed.1), (PRS_FEED.FY, unsgn 16 feed.2.1),
    (PRS_WARP_BOUND.BX, 0), (PRS_WARP_BOUND.BY, 0), (PRS_STATUS.WARP_ON, 0), (PRS_STATUS.STALL_LAQ, 0),
    (PRS_STATUS.STALL_AHEAD, 0), (PRS_STATUS.ACTIVE, 0), (PRS_STATUS.STARVED, 0), (PRS_TDEF.BYTES, 0),
    (PRS_PRIMS.COUNT, 0), (PRS_TSTORE.LINES, 0), (PRS_TSTORE.LOCKED, 0),
    (CSM_STATUS.WAIT_BUF, 0)] ++
  [(CSM_BAND.BAND, 0), (CSM_PBUF.PLANES, 0), (CSM_PBUF.PEAK, 0), (CSM_PIECES.COUNT, 0), (CSM_BUSY.CC, 0),
    (CSM_STALL.CC, 0), (PEC_BAND_DENS.BAND, 0xFFFFFFFF), (PEC_BAND_B.BAND, 0xFFFFFFFF),
    (PEC_BAND_DOSE.BAND, 0xFFFFFFFF), (PEC_CLAMPS.COUNT, 0), (SCH_STEP.STEP, 0), (SCH_DEBTS.COUNT, 0),
    (SCH_REPAID.COUNT, 0), (SCH_HOLES.COUNT, 0), (SCH_SHORT.COUNT, 0), (SCH_OVER.COUNT, 0)] ++
  [(EMS_STRIPE.STRIPE_ID, r.id), (EMS_EFF.TMIN_EFF, max (s.lv EMS_FLASH_CFG.TMIN_SLOTS) (genTmin s.gen)),
    (EMS_EFF.SEG_SLOTS, segSlots s.rate (s.lv MGT_CLK.SPREAD == 1)), (EMS_MISS.COUNT 1, 0), (EMS_MISS.COUNT 2, 0),
    (EMS_MISS.COUNT 3, 0), (EMS_MISS.COUNT 4, 0), (SHL_BLANKED.COUNT, 0), (SHL_SWITCHES.COUNT, 0),
    (NLK_MISMATCH.COUNT, 0), (NLK_RESOLVED.COUNT, 0), (NLK_WITHHELD.COUNT, 0),
    (NLK_MARGIN.TF, 0xFFFF)]

/-- What the blocks hold of the stripe before is gone: parser, feed, rasteriser, dose correction but for witnesses
held. -/
def State.clearPath (s : State) : State :=
  { s with prs := .reset, csm := .reset, pec := { Pec.reset with witnesses := s.pec.witnesses },
           cdc := { s.cdc with feed := .reset } }

/-- The findings exchanged are over: the stripe arms, or ends unarmed. -/
def State.dropFindings (s : State) : State := { s with nlk := { s.nlk with myFindings := [], theirFindings := [] } }

/-- The waiting stripe arms (R296): counters clear, the data path is in RUN (R393), the sill fetches frames 0 to 31
(R308), codec and scan engines are freed (R124, R174), ARM and trims go to the head (R338). A chip of a pair that no
partner checks notes that from its first step on. -/
def State.armStripe (s : State) (r : ArmReq) : State :=
  let st := { Stripe.fresh r with sillWanted := List.range 32 }
  let shl := { s.shl with freshAsked := false, freshEnded := false }
  let s := (((s.setRegs (s.armRegs r)).setReg SHL_TRIM_CRC.CRC s.trimCrc).clearPath.dropFindings).wakeBlocks s.onDataPath
  let aloneFrom := if s.nlk.paired && !s.covered then some (-(r.lead : Int)) else none
  let s := { s with waiting := none, stripe := some st, g := .armed, shl
                    nlk := { s.nlk with aloneFrom, leadArmed := false } }
  (((s.hmcArmed.scanMigrate.codecPreempt).noteNext).panic).sendArm r

/-- A fenced lead whose partner carries the stripe holds it as control plane alone (R364). -/
def State.holdForPartner (s : State) (r : ArmReq) : State :=
  { (s.setRegs (s.armRegs r)).clearPath with waiting := none, stripe := some (Stripe.fresh r), g := .armed }

/-- A fenced mirror leaves the stripe to its lead (R364). -/
def State.leaveToLead (s : State) : State := { s with waiting := none, nlk := { s.nlk with leadArmed := false } }

/-- A stripe ends at arming for a cause that no partner has to confirm, or that it has confirmed (R296). -/
def State.endsAtArming (s : State) (r : ArmReq) (f : Finding) : State :=
  ((s.postEvents f.posts).dropFindings).endUnarmed true r f.cause

/-- The finding of this chip is not confirmed: it fences itself (R362). -/
def State.findingFails (s : State) : State := s.dropFindings.fenceChip 0x04

/-- A stripe fails a check of arming (R242, R297, R323). In a pair a chip that fails alone is at fault, not the stripe
(R30, R301): it sends a FINDING at flash 0 and holds until the partner has met the same cause, or has armed (DEDUCED,
log entry 73). -/
def State.armFails (s : State) (r : ArmReq) (cause : Nat) (posts : List Event) : State :=
  let f : Finding := { kind := 2, point := 0, code := cause, posts, cause }
  if !s.covered then s.endsAtArming r f
  else
    let s := s.naluSend (.finding f.kind f.point f.code)
    if s.nlk.theirFindings.any f.same then s.endsAtArming r f
    else if s.nlk.leadArmed then s.findingFails
    else { s with nlk := { s.nlk with myFindings := [f] } }

/-- The checks of a stripe that would arm (R242, R297, R323); the lowest cause wins (R296). Beams that a generation A
head lacks are reported by event 0x5C, in place of 0x41. -/
def State.armChecked (s : State) (r : ArmReq) : State :=
  match (if s.gen = 1 && s.shl.st == .opened then s.unfitBeam else none) with
  | some i => (s.postDev 0x5C 0x04 0 i r.id).armFails r 0x05 []
  | none =>
    if s.headWrong then
      s.armFails r 0x05 [devEvent 0x41 0x04 0 (s.lv SCH_HEAD_ID.ID) (r.id + r.pass * 2 ^ 32)]
    else if s.outOfRange r then s.armFails r 0x06 []
    else s.armStripe r

/-- A COMMIT that the polls have seen is not taken yet: COMMITs act in order before a stripe arms (R35, R77). -/
def State.commitAhead (s : State) : Bool := (List.range 64).any s.commitNext

/-- A message of the copy of a rejoin, or a set. -/
def NaluMsg.copies : NaluMsg → Bool
  | .commitSet .. | .tableChunk .. => true
  | _ => false

/-- The two chips of a joined pair arm a stripe with the same settings (R29): the lead once its mirror has acknowledged
every set and table sent, the mirror after its lead has armed the stripe, or has found it unfit, with what its lead had
sent before (DESIGN CHOICE, log entry 140). -/
def State.pairArms (s : State) : Bool :=
  !s.joined ||
  (if s.isMirror then s.nlk.leadArmed || s.nlk.theirFindings.any (fun f => f.kind == 2)
   else !s.nlk.unacked.any (·.msg.copies))

/-- An ABORT_STRIPE that stands before the waiting stripe's ARM_STRIPE on its ring has not acted (R77). -/
def State.abortAhead (s : State) : Bool :=
  s.waiting.any (fun r => (s.entriesBefore r.q r.idx).any (fun e => rawOpc e.raw == 0x02))

/-- No set that takes effect before the waiting stripe is left (R35, R93, R387). -/
def State.setsDone (s : State) : Bool :=
  s.commits.waiting.all s.setAwaits && s.commits.storing.all s.setAwaits && !s.commitAhead

/-- The engine is at the point where a waiting stripe may arm: READY, no stripe held, no gap, no rejoin, no COMMIT to
apply, no ABORT_STRIPE ahead of it, no finding that the partner has not answered, no test on the data path that does not
yield (R79, R296, R362, R370, R380, R387, R404). -/
def State.mayArm (s : State) : Bool :=
  s.g == .ready && s.stripe.isNone && s.cal.gap.isNone && s.setsDone && s.pairArms && !s.abortAhead &&
  !s.nlk.rejoining && !s.holding && !s.bistHolds s.onDataPath && !(s.isMirror && !s.nlk.linkUp)

/-- The wait of R242 for the link and the fresh proof of R337. -/
def State.armWaits (s : State) (r : ArmReq) : State :=
  match s.shl.st with
  | .knock | .latch => s
  | .opened =>
    if s.shl.freshEnded then s.armChecked r
    else if s.shl.freshAsked then s
    else ({ s with shl := { s.shl with freshAsked := true } }).startProof
  | _ => s.armChecked r

/-- The waiting stripe takes its turn: a test that yields to it is aborted (R404), and no gap opens ahead of it any more
(R380). -/
def State.armTurn (s : State) : State :=
  let s := s.bistYield s.onDataPath
  { s with cal := { s.cal with turn := false } }

/-- STRIPE_ARM (R242, R296, R297, R323, R371): the waiting stripe arms, ends unarmed, or waits on. -/
def execStripeArm (s : State) : Host.Outcome State Fault Refusal :=
  .next (
    let s := s.setsFollow
    match s.waiting with
    | none => s
    | some r =>
      if !s.mayArm then s
      else
        let s := s.armTurn
        if s.fence.isNone then s.armWaits r
        else if !s.covered then (s.endUnarmed true r 0x0E).dropFindings
        else if s.isMirror then s.leaveToLead
        else s.holdForPartner r)

/-! ## SOS (R296, R298) -/

/-- Event 0x52: an SOS in WAIT_SOS is ignored (R296, R315). -/
def State.sosIgnored (s : State) (st : Stripe) : State :=
  (s.addReg EMS_SOS_IGN.COUNT 1).postOnce 0x52 0x0A 0
    (st.st.code + b2n s.aon.stageOk * 8 + b2n s.port.locked * 16) st.req.id

/-- An SOS in WAIT_SOS, or the latched one on entry (R296, R298). -/
def State.takeSos (s : State) (st : Stripe) : State :=
  if s.target st.req 0 ≤ s.port.yf then s.stripeCause 0x07
  else if !s.aon.stageOk || !s.port.locked then s.sosIgnored st
  else
    let st' : StripeState := if st.lastStep < 0 then .tail else .run
    { s.modStripe (fun st => { st with st := st', lastFire := none, recentOver := [], missRun := none, blankRun := 0 })
      with g := .run, port := { s.port with yf := s.port.y } }

/-- SOS_RISE (R296, R298): latched in ARMED, taken in WAIT_SOS, ignored and counted otherwise. -/
def execSosRise (stageOk : Bool) (s : State) : Host.Outcome State Fault Refusal :=
  .next (
    let s := { s with aon := { s.aon with sos := true, stageOk } }
    if !s.serviced then s
    else
      match s.stripe with
      | none => s.addReg EMS_SOS_IGN.COUNT 1
      | some st =>
        if st.st == .armed then s.modStripe (fun st => { st with sosLatched := true })
        else if st.st == .waitSos then (if s.working then s.takeSos st else s)
        else s.addReg EMS_SOS_IGN.COUNT 1)

/-- Everything that WAIT_SOS needs is there (R25, R296, R338, R360). -/
def State.sosReady (s : State) (st : Stripe) : Bool :=
  st.st == .armed && s.working && (0 ≤ s.undecided || st.lastStep < s.undecided) &&
  (List.range 32).all (fun n => st.sill.contains n) && s.shl.st == .opened && st.trimAcked && s.port.locked

/-- ENTER_WAIT_SOS (R296, R304): the segment of frame 0 starts at the next slot; a latched SOS is taken. -/
def execEnterWaitSos (s : State) : Host.Outcome State Fault Refusal :=
  .next (
    match s.stripe with
    | none => s
    | some st =>
      if s.sosReady st then
        let st' := { st with st := .waitSos, seg := .pending s.port.slots, segEnd := 0, sosLatched := false }
        let s := { s with stripe := some st' }
        if st.sosLatched then s.takeSos st' else s
      else s)

/-! ## The end (R296, R300, R313, R314) -/

/-- STRIPE_DONE (R101, R296): in TAIL with the last flash decided, every missed flash booked and every repayment
written; the stream's staging queue is discarded. -/
def execStripeDone (s : State) : Host.Outcome State Fault Refusal :=
  .next (
    match s.stripe with
    | none => s
    | some st =>
      if st.st == .tail && s.working && st.final < st.nextFlash && st.ledger.writes.isEmpty &&
          s.nlk.pendingMiss.isEmpty && s.nlk.missTimed.isEmpty then
        ((s.modStripe (fun st => { st with st := .done, endState := 4, cause := 0 })).setReg EMS_STATE.CAUSE
          0).closeStream st.req.streamSq
      else s)

/-- The outcome of a stripe in DONE (R313, R424), and IDLE. -/
def State.outcomeNow (s : State) (st : Stripe) : State :=
  let s := (s.dropWitnesses st.req.id st.req.pass).endEvents st
  let s := if s.reg PMU_SNAP_CFG.ON_END = 1 then s.snapshot else s
  (s.writeOutcome true st).toIdle

/-- STRIPE_OUTCOME (R313, R342): once the last fired frame has its FRAME_STATUS or is counted as missing. A fenced lead
waits for the mirror's OUTCOME (R364). -/
def execStripeOutcome (s : State) : Host.Outcome State Fault Refusal :=
  .next (
    match s.stripe.filter (fun st => st.st == .done && st.awaiting.isEmpty) with
    | none => s
    | some st => if s.fence.isSome && s.covered then s else s.outcomeNow st)

/-- FB_HOLD_EXPIRE (R300): the hold ends and the aborted stripe returns to IDLE. -/
def execFbHoldExpire (s : State) : Host.Outcome State Fault Refusal :=
  .next (if s.stripe.any (fun st => st.st == .aborted && st.outcomeDone) then s.toIdle else s)

end Sys2Proof.Machine
end

