-- ==== Sys2Proof/Machine/Stops.lean ====
section
/-! DEFINITION. What stops a DMA channel from outside, what a stopping channel still delivers, and the release of a
halted one (R111 to R114). -/

namespace Sys2Proof.Machine

/-- Channels and engines have become free: what waits for one is tried again, oldest first, captures ahead of host
jobs. -/
def State.pumpAll (s : State) : State :=
  ((s.witnessStart.pump 3 State.tableEntry).pump 4 State.codecEntry).scanNext

/-! ## What a stopping request has delivered (R112) -/

/-- What a stop leaves: the state, the request with its count, DATA0 and DATA1 of its completion, and whether the
request had met an uncorrectable word first and so ended with BAD_CHECK (R284). -/
structure Stopped where
  s : State
  r : Request
  d0 : Nat
  d1 : Nat
  bad : Bool

/-- A SAVE_TABLE stops: the first bytes of the save stand in host memory, and DATA0 is their CRC-32C (R82). A LOAD_TABLE
leaves the staged copy as it was. -/
def State.tableStops (s : State) (ch : Nat) (r : Request) (e : Entry) : Stopped :=
  let t := tableOf e.raw
  let bs := if t.ofMirror then s.savedFor r.q r.idx else s.tabLive.bytes t.table t.offset t.len
  let a := s.settle ch r
  if rawOpc e.raw = 0x20 then ⟨a.2, a.1, 0, 0, false⟩
  else
    let out := bs.take a.1.delivered
    let t := { a.2 with host := Memory.write s.host t.addr out }.saveOver r.q r.idx
    ⟨t, { a.1 with delivered := out.length }, crc32c 0 out, 0, false⟩

/-- Engine `k` gives up its job (R174, R186). -/
def State.engineFree (s : State) (k status nIn nOut : Nat) : State :=
  let s := ((s.setJob k none).setReg (CDC_ENG_STATUS.PREEMPTED k) 0).engineEnds k status 0
  (s.setReg (CDC_ENG_IN.IN k) nIn).setReg (CDC_ENG_OUT.OUT k) nOut

/-- A number up to `n` that the manual does not fix. -/
def State.freshUpTo (s : State) (n : Nat) : Nat × State := ((s.fresh 32).1 % (n + 1), (s.fresh 32).2)

/-- A codec job stops: DATA0 the SRC bytes that it had consumed, DATA1 the first bytes of its output, which stand at DST
(R176). How far it had come is free, but that one whose block has not woken has done nothing; after NO_GAIN the bytes at DST have no meaning (R179). -/
def State.codecStops (s : State) (k status : Nat) (r : Request) (j : CodecJob) (e : Entry) : Stopped :=
  let c := codecOf e.raw
  let job := s.jobResult j c
  let idle := s.reg (DMA_CH_STATUS.WAKE_WAIT j.ch) = 1
  let a := s.settle j.ch r
  let nIn := a.2.freshUpTo (min job.consumed a.1.delivered)
  let nOut := nIn.2.freshUpTo (if idle then 0 else job.out.length)
  let out := if job.status = 0x02 then nOut.2.freshBytes nOut.1 else (job.out.take nOut.1, nOut.2)
  let t := { out.2 with host := Memory.write s.host c.dst out.1 }.count 2 0x11 nOut.1
  let t := if j.kind = 1 then t.compressed c.resume nIn.1 out.1 else t
  ⟨t.engineFree k status nIn.1 nOut.1, a.1, nIn.1, nOut.1, false⟩

/-- A witness has read `nIn` bytes of its copy, without an error, and written the first `nOut` of its stream. -/
def State.witnessLeaves (s : State) (k status : Nat) (r : Request) (w : WitnessOp) (out : List Byte) (nIn : Nat) : Stopped :=
  let t := ({ s with host := Memory.write s.host w.dst out }.count 2 0x11 out.length).compressed false nIn out
  ⟨t.engineFree k status nIn out.length, { r with delivered := out.length }, captureBytes, out.length, false⟩

/-- A witness stops: the first bytes of its compressed capture stand at DST, as far as that lies in a live window. How far
it had come is free, but that one whose block has not woken has done nothing. It read its copy through port 7 (R280, R283);
where a word is uncorrectable nothing of it is written, and the chip fences itself (R284). -/
def State.witnessStops (s : State) (k status : Nat) (r : Request) (j : CodecJob) (e : Entry) : Stopped :=
  let w := witnessOf e.raw
  if s.reg (DMA_CH_STATUS.WAKE_WAIT j.ch) = 1 then s.witnessLeaves k status r w [] 0
  else
    let all := azradStream (Memory.bytes s.hbm (witnessCopy j.copy) captureBytes)
    let nIn := s.freshUpTo captureBytes
    let nOut := nIn.2.freshUpTo (if s.inWindow w.dst w.dstLen then all.length else 0)
    let x := nOut.2.freeEcc (witnessCopy j.copy) nIn.1
    let c := (x.2.count 8 0x10 (granules (witnessCopy j.copy) nIn.1)).eccRead 7 (witnessCopy j.copy) nIn.1 x.1
    match c.2 with
    | none => c.1.witnessLeaves k status r w (all.take nOut.1) nIn.1
    | some u => (c.1.eccFence 7 u).witnessLeaves k status r w [] 0

/-- A scan stops: its running value goes to SEED_ADDR and to DATA0 (R123). -/
def State.scanStops (s : State) (e : Nat) (sc : Scan) : Stopped :=
  let a := s.scanAdvance e
  let sc := (a.1.scans.getD e none).getD sc
  let r := ((a.1.chan (17 + e)).req).getD ⟨sc.q, sc.idx, ⟨0, 0, 0, 0, 0⟩, 0, 0, 0, 0⟩
  ⟨(a.1.scanWriteBack sc sc.value).freeScan e sc.value sc.done, r, sc.value, 0, a.2⟩

/-- What the request `r` of channel `ch` leaves when it stops. -/
def State.stopDelivers (s : State) (ch status : Nat) (r : Request) : Stopped :=
  let plain : Stopped := ⟨(s.settle ch r).2, (s.settle ch r).1, 0, 0, false⟩
  match s.entry? r.q r.idx with
  | none => plain
  | some e =>
    match dmaClass ch, s.engineOf ch with
    | 2, _ => s.tableStops ch r e
    | 3, some (k, j) => s.codecStops k status r j e
    | 4, _ => match s.scans.getD (ch - 17) none with
      | some sc => s.scanStops (ch - 17) sc
      | none => plain
    | 5, some (k, j) => s.witnessStops k status r j e
    | _, _ => plain

/-- The status record of a request that has stopped (R112), and event 0x20; one that had ended with BAD_CHECK before
leaves the record of its end (R110, R284). -/
def State.stopLeaves (s : State) (ch status cause : Nat) (d : Stopped) : State :=
  let left := d.r.named - d.r.delivered
  if d.bad then
    ((s.chanRecord ch 0x07 0 d.r.delivered left).modChan ch (fun c => { c with req := none })).setReg
      (DMA_CH_STATUS.WAKE_WAIT ch) 0
  else (s.stopRecord ch status cause d.r).stopEvent ch status cause left

/-! ## Stops from outside -/

/-- The request of channel `ch` stops for a reason from outside; the STREAM channel of the stripe in work is lost
(R114). -/
def State.stopOutside (s : State) (ch status cause : Nat) : State :=
  match (s.chan ch).req with
  | none => s
  | some r =>
    if dmaClass ch = 1 then s.stopRequest ch status cause
    else
      let d := s.stopDelivers ch status r
      ((d.s.stopLeaves ch status cause d).complete r.q r.idx (if d.bad then 0x07 else status) 0 d.d0 d.d1).pumpAll

/-- A channel stops for a reason from outside: the feed that it carries (R114), a gatekeeper's access, or its request.
Channel 0 abandons the access and goes on (R113). -/
def State.stopAny (s : State) (ch status cause : Nat) : State :=
  if ch = 0 || s.g == .off || s.g == .safe then s
  else if dmaClass ch = 6 then (if s.feedCarries ch then (s.feedRecord ch status cause).channelLost else s)
  else if dmaClass ch = 7 then s.looseRecord ch status cause
  else s.stopOutside ch status cause

/-- DMA_CH_CTRL.ABORT (R99, R112): no effect on an idle or a GATE channel. -/
def State.dmaAbort (s : State) (ch : Nat) : State := if dmaClass ch = 7 then s else s.stopAny ch 0x04 1

/-- DMA_CH_STATUS.HALTED is written as 1 (R113): the channel is released; requests that waited go on. -/
def State.dmaRelease (s : State) (ch : Nat) : State := (s.setReg (DMA_CH_STATUS.HALTED ch) 0).pumpAll

/-- DMA_CPL_TIMEOUT (R111, R113). Time spent waiting for a block to wake does not count. -/
def execDmaCplTimeout (ch : Nat) (s : State) : Host.Outcome State Fault Refusal :=
  .next (if s.reg (DMA_CH_STATUS.WAKE_WAIT ch) = 1 then s else s.stopAny ch 0x06 6)

/-- DMA_CPL_ERROR (R111, R113). -/
def execDmaCplError (ch : Nat) (s : State) : Host.Outcome State Fault Refusal := .next (s.stopAny ch 0x04 7)

end Sys2Proof.Machine
end

