-- ==== Sys2Proof/Machine/Pcie.lean ====
section
/-! DEFINITION. The PCIe function (R60, R64 to R67, R111): host resets, configuration space, late completions. The
offsets and capabilities of configuration space are those of the PCIe Base Specification (PRESUMED, log entry 100);
the values are R64's and R65's. -/

namespace Sys2Proof.Machine

/-! ## Host resets (R61, R67) -/

/-- The channels stop with cause 8, ascending, each with what it had delivered, its record and event 0x20; the entries
they served are gone without completion. -/
def State.stopAll (s : State) : State :=
  (List.range 32).foldl (fun s ch =>
    match (s.chan ch).req with
    | none => s
    | some r =>
      let d := s.stopDelivers ch 0x04 r
      d.s.stopLeaves ch 0x04 8 d) s

/-- Entries taken and not completed are gone, with the work they asked for; validated COMMITs are dropped and release
the authorisation they reserved (R61, R96). -/
def State.dropWork (s : State) : State :=
  let s := { s with
    commits := ⟨none, [], none, []⟩
    prot := { s.prot with beamAuth := s.prot.beamAuth.map BeamAuth.release }
    cdc := { s.cdc with engines := List.replicate 6 none }
    scans := List.replicate 4 none
    scanWait := []
    pec := { s.pec with witnesses := [] }
    cal := { s.cal with store := none }
    bst := { s.bst with ringReq := none } }
  let s := (List.range 6).foldl (fun s k => s.setReg (CDC_ENG_STATUS.PREEMPTED k) 0) s
  let s := s.setReg CAL_STATUS.STORE_PENDING 0
  if s.g != .park && s.g != .safe && !s.bst.strapReq then s.setReg BST_PARK.PHASE 0 else s

/-- The stripes that a host reset ends (R61): the one ARMED or RUN aborts with cause 0x01, the one waiting is dropped;
EMS_OUTCOME keeps the record of the former if there was one. -/
def State.endStripes (s : State) : State :=
  let held := s.stripeActive && s.stripe.any (fun st => st.st != .done && st.st != .aborted)
  let s := if held then s.abortWith false 0x01 else s
  let last := s.lastOutcome
  match s.waiting with
  | none => s
  | some r =>
    let s := s.endUnarmed false r 0x01
    if held then { s with lastOutcome := last } else s

/-- The function starts anew: its link has trained to a speed and a width. The AER registers outlive every reset but
that of PERST_N. -/
def Cfg.restart (c : Cfg) (perst : Bool) (speed width : Nat) : Cfg :=
  if perst then { Cfg.reset with speed, width }
  else { Cfg.reset with speed, width, uncStatus := c.uncStatus, uncMask := c.uncMask, uncSev := c.uncSev,
                        corStatus := c.corStatus, corMask := c.corMask }

/-- The ARM_STRIPEs taken and not answered are answered at a host reset. Whether the partner of a joined pair has a block
at OFF (R349) nothing tells here: a free value (log entry 126). -/
def State.armOpen (s : State) : State :=
  if s.joined && s.hif.entries.any (fun e => rawOpc e.raw == 0x01 && !e.started) then
    (s.fresh 1).2.armTaken ((s.fresh 1).1 == 1) s.hif.entries
  else s.armTaken false s.hif.entries

/-- A host reset (R61), in every state after START: stops, stripe ends, the HIF at its reset values; the outcomes held
and those of the stripes it ended, and the device events it raised, wait for the host to enable the DEV_EQ ring. An
ARM_STRIPE that was taken counts as waiting even where it has not been answered (log entry 126). In SAFE no stripe has an outcome (R425). -/
def State.hostReset (s : State) (perst : Bool) (speed width : Nat) : State :=
  if s.g == .off || s.g == .start then s
  else
    let s := if s.g == .safe then { s with waiting := none } else s.armOpen
    let before := s.hif.keptOutcomes ++ (s.hif.hold.map (·.ev)).filter (fun ev => ev.source == 1)
    let begun := s.hif.entries.filter (·.started)
    let s := { s with hif := { s.hif with hold := [], awaitDevEq := true, entries := begun } }.stopAll
    let s := { s with hif := { s.hif with entries := [] } }.dropWork.endStripes
    let evs := s.hif.hold.map (·.ev)
    let s := s.hifCold
    { s with cfg := s.cfg.restart perst speed width
             hif := { s.hif with awaitDevEq := true, keptOutcomes := before ++ evs.filter (fun ev => ev.source == 1),
                                 keptEvents := evs.filter (fun ev => ev.source != 1) } }

/-- PERST_N_FALL (R61). -/
def execPerstNFall (speed width : Nat) (s : State) : Host.Outcome State Fault Refusal :=
  .next (if s.g == .off then s else (s.hostReset true speed width).setReg MGT_RESET_CAUSE.PERST 1)

/-- FUNCTION_LEVEL_RESET (R67). -/
def execFunctionLevelReset (speed width : Nat) (s : State) : Host.Outcome State Fault Refusal :=
  .next (s.hostReset false speed width)

/-- The function enters D3hot, which is a host reset (R67). -/
def State.enterD3 (s : State) (speed width : Nat) : State :=
  if s.g == .off || s.cfg.d3 then s
  else
    let s := s.hostReset false speed width
    { s with cfg := { s.cfg with d3 := true } }

/-- D3HOT_ENTRY (R67). -/
def execD3hotEntry (speed width : Nat) (s : State) : Host.Outcome State Fault Refusal := .next (s.enterD3 speed width)

/-! ## AER (R64, R111) -/

/-- LATE_COMPLETION (R111): discarded, and reported through AER as an unexpected completion, an advisory non-fatal
error. -/
def execLateCompletion (_ch : Nat) (s : State) : Host.Outcome State Fault Refusal :=
  .next (
    if s.g == .off then s
    else { s with cfg := { s.cfg with uncStatus := s.cfg.uncStatus ||| 2 ^ 16, corStatus := s.cfg.corStatus ||| 2 ^ 13 } })

/-! ## Configuration space (R60, R64, R65; log entry 100) -/

/-- The bus address of offset 0 of configuration space in the model's read and write commands. -/
def cfgBase : Nat := 0x200000

/-- The header (R65, R66): identity, Command, class and revision, BAR0 and BAR2, the subsystem. -/
def State.cfgHeader (s : State) (o : Nat) : Nat :=
  match o with
  | 0x00 => 0x10241F3D
  | 0x04 => 0x100000 + s.cfg.command
  | 0x08 => 0x12000000 + s.reg MGT_REV.STEPPING
  | 0x10 => s.cfg.bar0 % 2 ^ 32 + 4
  | 0x14 => s.cfg.bar0 / 2 ^ 32
  | 0x18 => s.cfg.bar2 % 2 ^ 32 + 4
  | 0x1C => s.cfg.bar2 / 2 ^ 32
  | 0x2C => 0x00011F3D
  | 0x34 => 0x40
  | _ => 0

/-- The capabilities (R64): power management, PCI Express, MSI-X, AER, device serial number. The Completion Timeout
Value of Device Control 2 reads 0 (R111). -/
def State.cfgCaps (s : State) (o : Nat) : Nat :=
  match o with
  | 0x40 => 0x00035001
  | 0x44 => if s.cfg.d3 then 3 else 0
  | 0x50 => 0x00029010
  | 0x54 => 0x10008022
  | 0x58 => s.cfg.devCtl
  | 0x5C => 0x105
  | 0x60 => (s.cfg.speed + s.cfg.width * 16) * 2 ^ 16
  | 0x74 => 0x30000
  | 0x78 => s.cfg.devCtl2
  | 0x90 => 0x003F0011 + b2n s.cfg.msixMask * 2 ^ 30 + b2n s.cfg.msixOn * 2 ^ 31
  | 0x94 => 0x18000
  | 0x98 => 0x19000
  | 0x100 => 0x15020001
  | 0x104 => s.cfg.uncStatus
  | 0x108 => s.cfg.uncMask
  | 0x10C => s.cfg.uncSev
  | 0x110 => s.cfg.corStatus
  | 0x114 => s.cfg.corMask
  | 0x150 => 0x00010003
  | 0x154 => s.aon.dieId % 2 ^ 32
  | 0x158 => s.aon.dieId / 2 ^ 32
  | _ => 0

/-- The word at offset `o` of configuration space. -/
def State.cfgWord (s : State) (o : Nat) : Nat := (if o < 0x40 then s.cfgHeader o else s.cfgCaps o) % 2 ^ 32

/-- Vectors that are pending and may now send their message do (R90). -/
def State.vectorsGo (s : State) : State :=
  (List.range 64).foldl (fun s v =>
    if s.reg (MSIX.PENDING v) = 1 && s.vectorOpen v then (s.setReg (MSIX.PENDING v) 0).raiseVector v else s) s

/-- Device Control with what the function supports (R64): error reporting, relaxed ordering, payload of up to 512 B,
extended tags, no-snoop, read requests of up to 4,096 B. -/
def devCtlOf (w : Nat) : Nat :=
  bits w 0 5 + min 2 (bits w 5 3) * 2 ^ 5 + bits w 8 1 * 2 ^ 8 + bits w 11 1 * 2 ^ 11 + min 5 (bits w 12 3) * 2 ^ 12

/-- A write to a register of the header. -/
def Cfg.header (c : Cfg) (o w : Nat) : Cfg :=
  match o with
  | 0x04 => { c with command := w &&& 0x546 }
  | 0x10 => { c with bar0 := c.bar0 / 2 ^ 32 * 2 ^ 32 + bits w 20 12 * 2 ^ 20 }
  | 0x14 => { c with bar0 := c.bar0 % 2 ^ 32 + w * 2 ^ 32 }
  | 0x18 => { c with bar2 := c.bar2 / 2 ^ 32 * 2 ^ 32 + bits w 12 20 * 2 ^ 12 }
  | 0x1C => { c with bar2 := c.bar2 % 2 ^ 32 + w * 2 ^ 32 }
  | _ => c

/-- A write to a register of a capability that only stores. -/
def Cfg.caps (c : Cfg) (o w : Nat) : Cfg :=
  match o with
  | 0x58 => { c with devCtl := devCtlOf w }
  | 0x78 => { c with devCtl2 := w &&& 0x1000 }
  | 0x90 => { c with msixMask := bit w 30, msixOn := bit w 31 }
  | 0x104 => { c with uncStatus := c.uncStatus ^^^ (c.uncStatus &&& w) }
  | 0x108 => { c with uncMask := w }
  | 0x10C => { c with uncSev := w }
  | 0x110 => { c with corStatus := c.corStatus ^^^ (c.corStatus &&& w) }
  | 0x114 => { c with corMask := w }
  | _ => c

/-- A write of `w` at offset `o` of configuration space: what it stores; a change of power state, a function-level
reset, and vectors that may send again act. -/
def State.cfgWrite (s : State) (o w : Nat) : State :=
  let s := { s with cfg := if o < 0x40 then s.cfg.header o w else s.cfg.caps o w }
  if o = 0x44 then
    (if bits w 0 2 = 3 then s.enterD3 s.cfg.speed s.cfg.width
      else if bits w 0 2 = 0 then { s with cfg := { s.cfg with d3 := false } }
      else s)
  else if o = 0x58 then (if bit w 15 then s.hostReset false s.cfg.speed s.cfg.width else s)
  else if o = 0x90 then s.vectorsGo
  else s

end Sys2Proof.Machine
end

