-- ==== Sys2Proof/Machine/Nalu.lean ====
section
/-! DEFINITION. The Nalu link and the twin pair (R348 to R374): training, acknowledgement, loss; what each message does;
findings, fences, outcomes, rejoin and solo operation. -/

namespace Sys2Proof.Machine

/-! ## The link (R353, R354) -/

/-- Change the pair's state. -/
def State.modNlk (s : State) (f : Nlk → Nlk) : State := { s with nlk := f s.nlk }

/-- The chip's Nalu lanes run (R21, R353): in START from root lock on, and in the states in which rings are serviced. -/
def State.naluRuns (s : State) : Bool := (s.g == .start && s.aon.rootLock) || s.serviced

/-- NLK serves its link now: it runs, and is under no test that does not yield (R404). What the link brings meanwhile is
not taken; the partner sends a message again until it is (DESIGN CHOICE, log entry 171). -/
def State.naluServes (s : State) : Bool := s.naluRuns && !s.bistHolds (fun k => k == 11)

/-- The link has work for NLK: a test that yields ends (R404), and NLK is in RUN (R393). -/
def State.naluWork (s : State) : State := (s.bistYield (fun k => k == 11)).wakeBlock 11

/-- A message of the partner is delivered in SEQ order (R354): the next one acts, any other is dropped. -/
def State.deliver (s : State) (seq : Nat) (act : State → State) : State :=
  if s.naluServes && s.nlk.linkUp && seq = s.nlk.rxSeq then
    act (s.naluWork.modNlk (fun n => { n with rxSeq := (seq + 1) % 2 ^ 16 }))
  else s

/-- A LOAD_TABLE or SAVE_TABLE of a table of the mirror, fenced or absent now, completes with REJECTED (R351), and its
channel takes the next table entry. -/
def State.dropMirrorTables (s : State) : State :=
  let one := fun (s : State) ch =>
    match (s.chan ch).req with
    | none => s
    | some r =>
      match s.entry? r.q r.idx with
      | none => s
      | some e =>
        if (tableOf e.raw).ofMirror then s.mirrorGone ch else s
  ([9, 10].foldl one s).pump 3 State.tableEntry

/-- A finding that the partner has met too, or that no partner is there to meet, ends the stripe held, or the one that
waits to arm (R362). -/
def State.findingEnds (s : State) (f : Finding) : State :=
  if s.liveStripe.isSome then s.endFor f
  else
    match s.waiting with
    | some r => s.endsAtArming r f
    | none => s.dropFindings

/-- No partner covers this chip any more (R362): steps from here on go unchecked, a finding held ends the stripe, and a
mirror that now carries the stripe books its missed flashes itself (R361). -/
def State.alone (s : State) : State :=
  let from' := (s.liveStripe.map (·.stepsDone)).filter (fun _ => s.nlk.aloneFrom.isNone)
  let s := (s.modNlk (fun n => { n with
    aloneFrom := from'.or n.aloneFrom, decisions := [], theirDecisions := [] })).freeBufs
  let s := if s.isMirror && s.fence.isNone && !s.nlk.silentCheck then s.bookTimed else s
  match s.nlk.myFindings with
  | f :: _ => if s.fence.isNone then s.findingEnds f else s
  | [] => s

/-! ## The outcome of a fenced lead (R364, R365) -/

/-- The hole records that a fenced lead will write, of an outcome record (R365). -/
def holesDue (record : List Byte) (st : Stripe) : Nat := min (num record 40 4) ((st.req.resultLen - 64) / 16)

/-- A fenced lead ends its stripe with the mirror's outcome record (R237, R364, R365): the end events of what it knows
itself, the outcome event, IDLE. -/
def State.leadOutcome (s : State) (st : Stripe) (record : List Byte) : State :=
  let cause := num record 6 1
  let s := (s.setReg EMS_STATE.CAUSE cause).modNlk (fun n => { n with outcomeIn := none })
  let s := if cause = 0 then s else (s.stopStream st.req.streamSq).startDiscard st
  let s := ((s.closeStream st.req.streamSq).dropWitnesses st.req.id st.req.pass).endEvents st
  let s := if s.reg PMU_SNAP_CFG.ON_END = 1 then s.snapshot else s
  let ev : Event := ⟨num record 5 1, 1, st.req.tag, st.req.q, 0x01, 0, st.req.id + st.req.pass * 2 ^ 32,
    num record 40 4 + num record 16 4 * 2 ^ 32⟩
  ((s.dropEntry st.req.q st.req.idx).putEvent (s.ring st.req.q).eq ev).toIdle

/-- OUTCOME or HOLES has arrived: with the last of the n records there, the outcome is posted (R365). -/
def State.outcomeArrives (s : State) : State :=
  match s.stripe, s.nlk.outcomeIn with
  | some st, some (record, holes) =>
    if 16 * holesDue record st ≤ holes.length then s.leadOutcome st record else s
  | _, _ => s

/-- A fenced lead whose link is lost (R365): it holds what it has written; with no record begun, its stripe ends as
that of a chip alone. -/
def State.outcomeLost (s : State) : State :=
  match s.stripe, s.nlk.outcomeIn with
  | some st, some (record, _) => s.leadOutcome st record
  | some _, none => s.abortStripe 0x0E
  | none, _ => s

/-- The Nalu link is lost (R354, R366): counted, event 0x60; a lead continues alone, and its mirror is one that
rejoins; a mirror that carries a stripe asks the head's next FRAME_STATUS, any other mirror fences itself. -/
def State.loseLink (s : State) : State :=
  if !s.nlk.linkUp then s
  else
    let s := ((s.naluDown.addReg NLK_RETX.LOSSES 1).naluState 0x06).dropMirrorTables
    let carries := s.isMirror && s.fence.isNone && s.liveStripe.isSome
    if carries then (s.modNlk (fun n => { n with silentCheck := true })).alone
    else if s.isMirror then s.alone.fenceChip 0x09
    else
      let s := (s.modNlk (fun n => { n with partnerFenced := true })).alone
      if s.fence.isSome then s.outcomeLost else s

/-- NALU_LINK_LOST (R354): 16 us without a good message. -/
def execNaluLinkLost (s : State) : Host.Outcome State Fault Refusal := .next s.loseLink

/-- Lane `lane` of the Nalu link sends something else. -/
def State.naluMode (s : State) (lane : Nat) (mode : TxMode) : State :=
  s.modNlk (fun n => { n with lanes := modAt n.lanes lane (fun l => { l with mode }) })

/-- NALU_LANE_DROP (R353): the lane stays dropped until the next training. -/
def execNaluLaneDrop (lane : Nat) (s : State) : Host.Outcome State Fault Refusal :=
  .next (
    let up := s.reg NLK_STATE.LANES_UP
    if bit up lane then
      ((s.naluMode lane .electricalIdle).setReg NLK_STATE.LANES_UP (up - 2 ^ lane)).addReg NLK_RETX.DROPS 1
    else s)

/-- NALU_ACK_TIMER (R354): an ACK with the highest SEQ received in order, at least every 1 us, on the lane whose turn it
is; it counts as a message sent (R411). -/
def execNaluAckTimer (s : State) : Host.Outcome State Fault Refusal :=
  .next (
    if s.naluServes && s.nlk.linkUp then
      let s := s.naluWork.count 11 0x10 1
      let ack := NaluMsg.ack ((s.nlk.rxSeq + 2 ^ 16 - 1) % 2 ^ 16) s.g.code (b2n s.fence.isSome)
      s.modNlk (fun n => { n with turn := s.naluLane, acksSent := (s.naluLane, ack) :: n.acksSent })
    else s)

/-- NALU_RESEND (R354): a message unacknowledged for 4 us is sent again, on the lane whose turn it is; the fourth time
the link is lost. -/
def execNaluResend (seq : Nat) (s : State) : Host.Outcome State Fault Refusal :=
  .next (
    match (if s.naluServes then s.nlk.unacked.find? (fun m => m.seq == seq) else none) with
    | none => s
    | some m =>
      let s := s.naluWork
      let lane := s.naluLane
      let again := fun (x : NaluTx) => if x.seq = seq then { x with resent := x.resent + 1, lane } else x
      let s := s.modNlk (fun n => { n with turn := lane, unacked := n.unacked.map again })
      let s := (s.addReg NLK_RETX.RESENT 1).count 11 0x11 1
      if 4 ≤ m.resent + 1 then s.loseLink else s)

/-- The messages that an ACK of `seq` leaves unacknowledged. -/
def afterAck (seq : Nat) (l : List NaluTx) : List NaluTx :=
  if l.any (fun m => m.seq == seq) then (l.dropWhile (fun m => m.seq != seq)).drop 1 else l

/-- The partner's rejoin has ended: it is in service, holds the copy, and is not fenced any more (R370). -/
def State.partnerRejoined (s : State) : State :=
  if s.nlk.partnerFenced && s.nlk.rejoining && s.fence.isNone && 2 ≤ s.nlk.partnerState && s.nlk.partnerState ≤ 4 &&
      !s.nlk.unacked.any (·.msg.copies) then
    (s.modNlk (fun n => { n with partnerFenced := false, partnerHard := false, rejoining := false })).naluState 0x00
  else s

/-- A fenced mirror gives its stripe up once the lead is READY again: what it has fetched of the stream or still holds of
it goes with it (R101, R158). -/
def State.mirrorReleases (s : State) : State :=
  match s.stripe.filter (fun _ => s.isMirror && s.fence.isSome && s.nlk.partnerState == 2) with
  | none => s
  | some st =>
    let s := match s.streamChan st.req.streamSq with
      | some ch => (s.modChan ch (fun c => { c with req := none })).setReg (DMA_CH_STATUS.WAKE_WAIT ch) 0
      | none => s
    ((s.startDiscard st).closeStream st.req.streamSq).toIdle

/-- An ACK shows that the partner has armed the next stripe: its state turns to ARMED, or from READY to RUN. -/
def armsNow (old new : Nat) : Bool := (new == 3 && old != 3) || (new == 4 && old != 3 && old != 4)

/-- The partner has armed a stripe (R29, R362): a mirror arms it too (log entry 140), and a chip that holds it for having
failed a check of arming is not confirmed (log entry 73). -/
def State.partnerArmed (s : State) (old new : Nat) : State :=
  let arms := armsNow old new
  let leads := s.isMirror && ((arms && s.liveStripe.isNone) || (s.nlk.leadArmed && (new == 3 || new == 4)))
  let s := s.modNlk (fun n => { n with leadArmed := leads })
  if arms && s.holding && s.g == .ready && s.waiting.isSome then s.findingFails else s

/-- NALU_ACK (R354, R355). -/
def execNaluAck (ackSeq state fenced : Nat) (s : State) : Host.Outcome State Fault Refusal :=
  .next (
    if s.naluServes && s.nlk.linkUp then
      let old := s.nlk.partnerState
      let s := s.naluWork.modNlk (fun n => { n with unacked := afterAck ackSeq n.unacked, partnerState := state })
      ((if fenced = 0 then s.partnerRejoined else s).mirrorReleases).partnerArmed old state
    else s)

/-! ## Training, solo operation, rejoin (R370, R371) -/

/-- The lanes of `lanes` have trained (R353): the partner's SEQ goes on after its HELLO, this chip's starts at 0 with
its own HELLO. -/
def State.trained (s : State) (seq die lanes : Nat) : State :=
  let tx := fun l => { LaneTx.reset with mode := if bit lanes l then TxMode.idleSets else .electricalIdle }
  let s := s.modNlk (fun n => { n with
    linkUp := true, lanes := (List.range 8).map tx, turn := 7, txSeq := 0, rxSeq := (seq + 1) % 2 ^ 16, unacked := []
    leadArmed := false })
  let s := (s.setReg NLK_STATE.LANES_UP lanes).setReg NLK_PARTNER.DIE_ID die
  s.naluSend (.hello (b2n s.isMirror) (s.reg MGT_REV.STEPPING) (s.reg MGT_REV.FW_VERSION) s.aon.dieId)

/-- The roles clash, or the versions differ (R370): event 0x60 with REJECTED; both chips, or the mirror, fence with
0x06. -/
def State.clash (s : State) (sameRole : Bool) : State :=
  let s := s.unpair.modNlk (fun n => { n with rejoining := false })
  let s := if sameRole || s.isMirror then s.fenceChip 0x06 else s
  (s.naluState 0x09).naluDown

/-- The pair is formed (R370), or goes on with a rejoin: the lead brings the mirror up to date; a fenced lead
relatches its shutter link, a fenced mirror once the copy has come. -/
def State.formed (s : State) : State :=
  let again := s.nlk.paired
  let s := s.modNlk (fun n => { n with paired := true })
  let s := if s.isMirror then s else s.sendAll
  if s.nlk.rejoining then (if s.fence.isSome && !s.isMirror then s.relatch else s)
  else if again && s.nlk.partnerFenced then s.modNlk (fun n => { n with rejoining := true })
  else (s.modNlk (fun n => { n with partnerFenced := false, partnerHard := false })).naluState 0x00

/-- NALU_HELLO (R353, R370): at START, of a pair that trains again, and on a mirror without a lead. -/
def execNaluHello (seq role stepping fw die lanes : Nat) (s : State) : Host.Outcome State Fault Refusal :=
  .next (
    if !s.naluServes || s.pwr 11 == .off || s.stripeActive || lanes % 256 = 0 ||
        !(s.g == .start || s.nlk.paired || s.isMirror || s.nlk.rejoining) then s
    else
      let s := s.naluWork.trained seq die (lanes % 256)
      if role = b2n s.isMirror then s.clash true
      else if stepping ≠ s.reg MGT_REV.STEPPING || fw ≠ s.reg MGT_REV.FW_VERSION then s.clash false
      else s.formed)

/-- NALU_SOLO_TIMEOUT (R371): 30 ms of training, which begins at root lock, without a partner. -/
def execNaluSoloTimeout (s : State) : Host.Outcome State Fault Refusal :=
  .next (
    if s.g == .start && s.aon.rootLock && !s.nlk.linkUp then
      let s := s.naluDown.unpair
      if s.isMirror then s.fenceChip 0x09 else s
    else s)

/-- The rejoin of this chip or of its partner fails (R370): event 0x60, and the fence stays. -/
def State.rejoinFails (s : State) : State :=
  if s.nlk.rejoining && s.fence.isNone then
    (s.modNlk (fun n => { n with rejoining := false })).naluState 0x09
  else s.rejoinEnds false

/-- REJOIN_TIMEOUT (R370): 50 ms; lanes that still train give up, the chip stays fenced, and the stripe arms without
it. -/
def execRejoinTimeout (s : State) : Host.Outcome State Fault Refusal :=
  .next (if s.nlk.rejoining && s.naluTraining then s.naluDown.rejoinFails else s.rejoinFails)

/-! ## What the lead forwards (R348, R351) -/

/-- The mirror binds a STREAM channel to a ring whose entries it receives (R100): one that is bound to no ring or else
one whose ring has no entry left. -/
def State.bindStream (s : State) (q : Nat) : State :=
  if (s.streamChan q).isSome then s
  else
    let idle := fun ch => (s.chan ch).req.isNone && (s.entriesOf (s.reg (DMA_CH_STATUS.RING ch))).isEmpty
    match s.freeStreamChan.or (streamChans.find? idle) with
    | some ch => s.bindChan ch q
    | none => s

/-- An entry of the lead on the mirror: it acts on the STRIPE and STREAM rings' entries and on PARK, and sends its own
tables for a SAVE_TABLE; for a COMMIT it copies the staged tables as they stand (R92), whose set comes as COMMIT_SET; loads
come as TABLE_CHUNK. One that its own OPC makes MALFORMED has ended on the lead (log entry 96). -/
def State.mirrorEntry (s : State) (q idx : Nat) (raw : List Byte) : State :=
  let add := fun (s : State) => { s with hif := { s.hif with entries := s.hif.entries ++ [s.heldEntry q idx raw] } }
  if malformed (opcType (rawOpc raw)) raw then s
  else
    match rawOpc raw with
    | 0x01 | 0x02 | 0x62 => add s
    | 0x10 => (add (s.bindStream q)).mirrorDrops q
    | 0x60 =>
      if num raw 8 4 = 0 then s
      else { s with commits := { s.commits with taken := some (s.copySet 64 0 (num raw 8 4) (num raw 12 4)) } }
    | 0x21 =>
      let t := tableOf raw
      if t.ofMirror then s.sendTable t.id t.offset (s.tabLive.bytes t.table t.offset t.len) else s
    | _ => s

/-- NALU_ENTRY (R348). -/
def execNaluEntry (seq ring index : Nat) (raw : List Byte) (s : State) : Host.Outcome State Fault Refusal :=
  .next (s.deliver seq (fun s => if s.isMirror then s.mirrorEntry ring index raw else s))

/-- The mirror's copy of the tables of a COMMIT, made when its entry came (R92); its staged tables now where none came. -/
def State.tablesOf (s : State) (id mask : Nat) : PendingCommit :=
  (s.commits.taken.filter (fun c => c.id == id && c.mask == mask)).getD (s.copySet 64 0 mask id)

/-- The set of a COMMIT as the mirror takes it: the lead's fields, and its own tables. The copy of a rejoin brings neither
of the tables that belong to one chip (R370). -/
def State.mirrorSet (s : State) (id mask : Nat) (set : List (Nat × Nat)) (copy : Bool) : PendingCommit :=
  let own := if copy then s.copySet 64 0 mask id else s.tablesOf id mask
  let c := s.withStore { own with fields := set.filter (fun kv => kv.1 != setAfter), after := (set.lookup setAfter).getD 0 }
  if copy then { c with storesTrims := false, tables := c.tables.filter (fun t => t.1 != 7 && t.1 != 8) } else c

/-- The mirror takes a set that the lead has validated, unless R387 refuses it the device trims that are its own. -/
def State.mirrorTakesSet (s : State) (c : PendingCommit) : State :=
  if c.storesTrims && (!s.prot.flashWe || trimsBreak c.tabs.trims) then s.mirrorApart else s.mirrorWaits c

/-- Rejoin step 3 (R370): the mirror holds the lead's table CRCs to its own; a difference fails the rejoin, of a mirror
that is not fenced as well (log entry 138), and a fenced mirror goes on with step 4. -/
def State.rejoinChecks (s : State) (crcs : List Nat) : State :=
  if crcs ≠ s.rejoinCrcs then (if s.fence.isSome then s.rejoinFails else s.mirrorApart)
  else if s.nlk.rejoining && s.fence.isSome then s.relatch
  else s

/-- The copy that the set of a COMMIT has used is gone; a copy of a rejoin, and a set of no COMMIT, use none. -/
def State.setTaken (s : State) (mask : Nat) (copy : Bool) : State :=
  if copy || mask = 0 then s else { s with commits := { s.commits with taken := none } }

/-- NALU_COMMIT_SET (R348, R370): a set that the lead has validated, or the copy of a rejoin with its CRCs, which are
compared once the copy is live. -/
def execNaluCommitSet (seq commitId mask : Nat) (set : List (Nat × Nat)) (crcs : List Nat) (s : State) :
    Host.Outcome State Fault Refusal :=
  .next (s.deliver seq (fun s =>
    if !s.isMirror then s
    else
      let copy := !crcs.isEmpty
      let s := (s.setTaken mask copy).mirrorTakesSet (s.mirrorSet commitId mask set copy)
      if copy && s.commits.waiting.isEmpty then s.rejoinChecks crcs else s))

/-- Bytes of a table of the mirror that have come for the entry with index `idx` of ring `q`. -/
def State.saveMore (s : State) (q idx : Nat) (data : List Byte) : State :=
  let bs := s.savedFor q idx ++ data
  let s := s.saveOver q idx
  let held := s.nlk.saves.filter (fun x => (s.entry? x.1 x.2.1).isSome)
  s.modNlk (fun n => { n with saves := held ++ [(q, idx, bs)] })

/-- Bytes of a table of the mirror go to the first SAVE_TABLE taken that has come to their offset (R351), running or
waiting. -/
def State.saveArrives (s : State) (id offset : Nat) (data : List Byte) : State :=
  let wants := fun (e : Entry) =>
    let t := tableOf e.raw
    rawOpc e.raw == 0x21 && t.id == id && t.offset + (s.savedFor e.q e.idx).length == offset &&
      offset + data.length ≤ t.offset + t.len
  match s.hif.entries.find? wants with
  | some e => s.saveMore e.q e.idx data
  | none => s

/-- NALU_TABLE_CHUNK (R351, R370): into the mirror's staged copy; on the lead, bytes of a table of the mirror. -/
def execNaluTableChunk (seq tableId offset : Nat) (data : List Byte) (s : State) : Host.Outcome State Fault Refusal :=
  .next (s.deliver seq (fun s =>
    if !s.isMirror then s.saveArrives tableId offset data
    else
      let id := if tableId = 0x107 || tableId = 0x108 then tableId - 0x100 else tableId
      { s with tabStaged := s.tabStaged.write id offset data }))

/-- NALU_FETCHED (R81, R348): the mirror has fetched a buffer; it completes if the lead has fetched it too. -/
def execNaluFetched (seq ring index : Nat) (s : State) : Host.Outcome State Fault Refusal :=
  .next (s.deliver seq (fun s =>
    let served := fun (e : Entry) => s.chans.any (fun c => c.req.any (fun r => r.q == e.q && r.idx == e.idx))
    match s.hif.entries.find? (fun e => e.q == ring && e.idx % 2 ^ 32 == index && rawOpc e.raw == 0x10 && e.started &&
        !served e) with
    | some e => s.complete e.q e.idx 0x00 0 0 0
    | none => s.modNlk (fun n => { n with fetchedByMirror := n.fetchedByMirror ++ [(ring, index)] })))

/-! ## The cross-check (R356 to R360) -/

/-- A held finding whose point the partner has passed fences the chip (R362). -/
def State.findingPassed (s : State) : State :=
  if s.liveStripe.isSome && s.nlk.myFindings.any s.passedBy then s.findingFails else s

/-- On a mirror that holds no stripe a SIG shows that its lead has armed one (log entry 140). -/
def State.leadSteps (s : State) : State :=
  if s.isMirror && s.liveStripe.isNone then s.modNlk (fun n => { n with leadArmed := true }) else s

/-- NALU_SIG (R356). A step whose vote has closed is not opened again. -/
def execNaluSig (seq : Nat) (step : Int) (dose : Nat) (blocks : List Nat) (s : State) :
    Host.Outcome State Fault Refusal :=
  .next (s.deliver seq (fun s =>
    let s := s.leadSteps
    let fresh := s.stripe.all (fun st => st.stepsDone ≤ step)
    if s.checked && (fresh || (s.voteOf step).isSome) then
      (((s.openVote step).modVote step (fun v => { v with theirs := some ⟨dose, blocks⟩ })).compareSigs
        step).findingPassed
    else s))

/-- NALU_RECOMPUTE (R357): the partner has started a round. -/
def execNaluRecompute (seq : Nat) (step : Int) (round kind mask : Nat) (s : State) :
    Host.Outcome State Fault Refusal :=
  .next (s.deliver seq (fun s =>
    match s.voteOf step with
    | none => s
    | some v => if s.checked && v.round < round then s.startRound step round kind mask else s))

/-- NALU_RESULT (R357). -/
def execNaluResult (seq : Nat) (step : Int) (round dose : Nat) (blocks : List Nat) (ecc : EccReads) (s : State) :
    Host.Outcome State Fault Refusal :=
  .next (s.deliver seq (fun s =>
    match s.liveStripe, s.voteOf step with
    | some st, some v =>
      if s.checked && v.theirResults.length + 1 = round then
        (s.modVote step (fun v => { v with theirResults := v.theirResults ++ [⟨dose, blocks⟩] })).judge st step ecc
      else s
    | _, _ => s))

/-- NALU_VERDICT (R357 to R359): the mirror applies the lead's verdict, or fences itself where its own differs. -/
def execNaluVerdict (seq : Nat) (step : Int) (doseV : Nat) (blockV : List Nat) (s : State) :
    Host.Outcome State Fault Refusal :=
  .next (s.deliver seq (fun s =>
    match s.liveStripe, s.voteOf step with
    | some st, some v =>
      if !s.isMirror || !s.checked then s
      else if v.closing true st = (doseV, blockV) then s.applyVerdict st v doseV blockV
      else s.fenceChip 0x0A
    | _, _ => s))

/-- NALU_BLOCK (R359): the partner's entry bits of a block to be withheld; with the last of them the lead closes a
vote whose closing flash has come. -/
def execNaluBlock (seq : Nat) (step : Int) (depth : Nat) (data : List Byte) (s : State) :
    Host.Outcome State Fault Refusal :=
  .next (s.deliver seq (fun s =>
    let s := s.modVote step (fun v => { v with theirBlocks := v.theirBlocks ++ [(depth, data)] })
    match s.liveStripe, s.voteOf step with
    | some st, some v => if s.checked then s.closeDue st v else s
    | _, _ => s))

/-! ## Flashes, findings, fences (R361, R362, R364) -/

/-- NALU_DECISION (R361, R362). -/
def execNaluDecision (seq flash outcome : Nat) (s : State) : Host.Outcome State Fault Refusal :=
  .next (s.deliver seq (fun s =>
    if s.checked then
      ((s.modNlk (fun n => { n with theirDecisions := n.theirDecisions ++ [(flash, outcome)] })).findingPassed
        ).compareDecision flash
    else s))

/-- NALU_MISS_LIST (R310, R361): the mirror books the lead's list. -/
def execNaluMissList (seq flash : Nat) (s : State) : Host.Outcome State Fault Refusal :=
  .next (s.deliver seq (fun s =>
    if s.isMirror && s.checked && s.liveStripe.isSome then (s.missGone flash).bookMiss flash else s))

/-- The partner is late with its input at a step (R201): a chip that holds at a stream fault forwards no band either,
and is late at the same step if that is the step it could not begin (DEDUCED, log entry 108). -/
def State.lateToo (s : State) (kind point : Nat) : State :=
  match s.liveStripe with
  | none => s
  | some st =>
    if kind = 1 && s.nlk.myFindings.any (fun f => f.kind == 0) && s.heldStep st == (point : Int) then
      match st.bandAt point with
      | some b => s.inputLate st point b (s.lateStage st b)
      | none => s
    else s

/-- NALU_FINDING (R362): the partner has met a cause; the same one held here is confirmed and ends the stripe. -/
def execNaluFinding (seq kind point code : Nat) (s : State) : Host.Outcome State Fault Refusal :=
  .next (s.deliver seq (fun s =>
    let f : Finding := { kind, point, code, posts := [], cause := 0 }
    match s.nlk.myFindings.find? f.same with
    | some mine => s.findingEnds mine
    | none =>
      let s := s.modNlk (fun n => { n with theirFindings := n.theirFindings ++ [f] })
      (s.lateToo kind point).findingPassed))

/-- NALU_FENCE (R351, R364): the partner has fenced itself. -/
def execNaluFence (seq _cause hard _flash : Nat) (s : State) : Host.Outcome State Fault Refusal :=
  .next (s.deliver seq (fun s =>
    (s.modNlk (fun n => { n with partnerFenced := true, partnerHard := hard != 0, theirFindings := [] })).alone.dropMirrorTables))

/-- NALU_EVENT (R352): the lead posts a device event of the mirror with SOURCE 0x04. -/
def execNaluEvent (seq : Nat) (raw : List Byte) (s : State) : Host.Outcome State Fault Refusal :=
  .next (s.deliver seq (fun s =>
    if s.isMirror then s else s.putEvent s.devEq { eventOf raw with source := 4 }))

/-- NALU_OUTCOME (R364, R365): a fenced lead writes the record and the hole records that come with it, and keeps the
record in EMS_OUTCOME. -/
def execNaluOutcome (seq : Nat) (record holes : List Byte) (s : State) : Host.Outcome State Fault Refusal :=
  .next (s.deliver seq (fun s =>
    match (if s.isMirror || s.fence.isNone then none else s.stripe) with
    | none => s
    | some st =>
      let s := s.putRecord st.req.resultAddr (record ++ holes)
      ({ s with lastOutcome := record }.modNlk (fun n => { n with outcomeIn := some (record, holes) })).outcomeArrives))

/-- NALU_HOLES (R365): further hole records, in booked order, written as they arrive. -/
def execNaluHoles (seq first : Nat) (holes : List Byte) (s : State) : Host.Outcome State Fault Refusal :=
  .next (s.deliver seq (fun s =>
    match s.stripe, s.nlk.outcomeIn with
    | some st, some (record, so) =>
      if first * 16 = so.length then
        let s := s.putRecord (st.req.resultAddr + 64 + so.length) holes
        (s.modNlk (fun n => { n with outcomeIn := some (record, so ++ holes) })).outcomeArrives
      else s
    | _, _ => s))

end Sys2Proof.Machine
end

