-- ==== Sys2Proof/Machine/Flags.lean ====
section
/-! DEFINITION. What a read of a register returns: the status fields and flags that the engine computes from what it
holds (every other field is stored), the latches of the LO/HI pairs, fields cleared by their read, and where reads are
answered (R10, R60, R349, R395, R400, R412, R420, R423 and the LO/HI rule of each chapter). -/

namespace Sys2Proof.Machine

/-! ## Computed fields, window by window -/

/-- FAULT_BLANK_N is driven low (R41, R300). -/
def State.blanks (s : State) : Bool :=
  !s.serviced || s.fence.isSome || s.stripe.any (fun st => st.st == .aborted && st.fbHold)

/-- A mask of the numbers below `n` that satisfy `p`. -/
def maskOf (n : Nat) (p : Nat → Bool) : Nat := ((List.range n).map (fun k => b2n (p k) * 2 ^ k)).sum

/-- MGT: state, clocks and balls, power states, commit controller, live items (R96). -/
def State.mgtView (s : State) (a lo : Nat) : Option Nat :=
  match a, lo with
  | 0x8, 0 => some s.aon.dieId
  | 0x10, 0 => some s.g.code
  | 0x10, 3 => some (b2n s.isMirror)
  | 0x10, 6 => some (b2n s.fence.isSome)
  | 0x30, 0 => some (b2n s.aon.rootLock)
  | 0x30, 1 => some (b2n s.aon.refclk)
  | 0x30, 2 => some 1
  | 0x30, 4 => some (b2n s.aon.rootLock)
  | 0x34, 0 => some (b2n s.aon.sos)
  | 0x34, 1 => some (b2n s.aon.stageOk)
  | 0x34, 2 => some (b2n s.aon.blankReq)
  | 0x34, 3 => some (b2n s.aon.parkHigh)
  | 0x34, 4 => some (b2n s.aon.twinPin)
  | 0x34, 5 => some (b2n (!s.blanks))
  | 0x34, 6 => some (b2n (!s.aon.therm0) + 2 * b2n (!s.aon.therm1))
  | 0x44, 0 => some (((List.range 16).map (fun k =>
      (match s.pwr k with | .run => 0 | .idle => 1 | .nap => 2 | .off => 3) * 4 ^ k)).sum)
  | 0x48, 0 => some s.pwrPend
  | 0x100, 0 => some s.commits.waiting.length
  | 0x120, 0 => some (b2n s.prot.flashWe)
  | 0x120, 1 => some (b2n s.prot.pmuUser)
  | 0x120, 2 => some (b2n s.prot.headKey.isSome)
  | 0x120, 3 => some (b2n s.prot.beamAuth.isSome)
  | 0x120, 8 => some s.prot.windows.length
  | _, _ => none

/-- HIF: the negotiated link (HIF_LINK), as configuration space has it, and the indices of the rings (HIF_SQ_CONS,
HIF_EQ_PROD). -/
def State.hifView (s : State) (a lo : Nat) : Option Nat :=
  if a = 0x10014 then
    some (match lo with
      | 0 => s.cfg.speed | 3 => s.cfg.width | 8 => bits s.cfg.devCtl 5 3 | _ => bits s.cfg.devCtl 12 3)
  else if 0x11000 ≤ a ∧ a < 0x11400 ∧ a % 16 = 12 then some (s.ring ((a - 0x11000) / 16)).cons
  else if 0x12000 ≤ a ∧ a < 0x12100 ∧ a % 32 = 16 then some (s.evRing ((a - 0x12000) / 32)).prod
  else none

/-- DMA: HALTED of every channel, the request that runs and the bytes it has delivered. -/
def State.dmaView (s : State) (a lo : Nat) : Option Nat :=
  let ch := (a - 0x21000) / 32
  if a = 0x20004 then some (maskOf 32 (fun c => s.reg (DMA_CH_STATUS.HALTED c) == 1))
  else if 0x21000 ≤ a then
    if a % 32 = 8 ∧ lo = 0 then some (b2n (s.chan ch).req.isSome)
    else if a % 32 = 16 then (s.chan ch).req.map (·.delivered)
    else none
  else none

/-- OWNER of check engine `e`: a host scan, or the signatures of a stripe in a pair (R124, R356). -/
def State.chkOwner (s : State) (e : Nat) : Nat :=
  if (s.scans.getD e none).isSome then 1
  else if s.joined && s.stripeActive && e < 2 then 2 + e
  else 0

/-- The feed decodes the coded stream of a live stripe on decompressor `k` (R171). -/
def State.feedsOn (s : State) (k : Nat) : Bool :=
  s.liveStripe.isSome && s.cdc.feed.raw == some false && k < s.feedWidth

/-- OWNER of codec engine `k`: the feed, a host job or a witness; a preempted job holds its engine no more (R174). -/
def State.cdcOwner (s : State) (k : Nat) : Nat :=
  match (s.cdc.engines.getD k none).filter (fun j => !j.preempted) with
  | some j => if j.kind = 3 then 3 else 2
  | none => b2n (s.feedsOn k)

/-- CHK and CDC: who owns an engine. -/
def State.engineView (s : State) (a lo : Nat) : Option Nat :=
  if 0xC0000 ≤ a then (if a % 16 = 0 ∧ lo = 0 then some (s.chkOwner ((a - 0xC0000) / 16)) else none)
  else if 0x30100 ≤ a ∧ a % 32 = 0 ∧ lo = 0 then some (s.cdcOwner ((a - 0x30100) / 32))
  else none

/-- The rasteriser's current work: band and unit (R215, R218). With no band in work CSM_BAND and CSM_STATUS show the next
regular one, and after the last band the number of bands: R220 does not say what they show then (DESIGN CHOICE, log
entry 148). -/
def State.csmWork (s : State) : Nat × Nat := s.recomputing.getD (s.csm.band, s.csm.unit)

/-- The rasteriser has work (R215, R218). -/
def State.csmActive (s : State) : Bool :=
  s.liveStripe.isSome && (s.recomputing.isSome || s.csm.band < s.prs.released)

/-- The rasteriser waits for the parser to release the next band (R215). -/
def State.waitInput (s : State) : Bool :=
  s.liveStripe.any (fun st => s.recomputing.isNone && s.prs.released ≤ s.csm.band && s.csm.band < bandsOf st.req.rows)

/-- PRS and CSM: stalls, the queue's fill (R198, R203), current work, planes held. -/
def State.rasterView (s : State) (a lo : Nat) : Option Nat :=
  match a, lo with
  | 0x40004, 2 => some (b2n s.stallAhead)
  | 0x40028, 0 => some s.laqFill
  | 0x50004, 0 => some (b2n s.csmActive)
  | 0x50004, 1 => some (b2n s.waitInput)
  | 0x50004, 3 => some (b2n s.recomputing.isSome)
  | 0x50004, 8 => some (s.csmWork.2 / 16)
  | 0x50004, 12 => some (s.csmWork.2 % 16)
  | 0x50008, 0 => some s.csmWork.1
  | 0x5000C, 0 => some s.csm.planes.length
  | _, _ => none

/-- The next band to be corrected, and whether it waits for its slot of the dose buffer (R231) or for class planes, none of
which lies in the pane buffers (R217). -/
def State.doseWaits (s : State) (slot : Bool) : Bool :=
  s.liveStripe.any (fun st => s.dosed < bandsOf st.req.rows &&
    (if slot then s.coverageIn s.dosed && !s.slotFree s.dosed else !s.coverageIn s.dosed && s.nextPlane.isNone))

/-- A band is being corrected (R229, R232): a pane of the next one has entered correction, or one is recomputed. -/
def State.correcting (s : State) : Bool :=
  s.liveStripe.isSome && (s.pec.entered.any (fun e => e / 16 == s.dosed) || s.csm.recompute.isSome)

/-- A vote has a recompute from the journal under way (R250, R357). -/
def State.journalBusy (s : State) : Bool :=
  s.covered && s.nlk.votes.any (fun v => v.round ≠ 0 && v.kind == 1 && v.myResults.length < v.round)

/-- PEC and SCH: waits, tables in force, ledger. With no stripe held SCH_LEDGER.WINDOW reads 0 (DESIGN CHOICE, log
entry 162). -/
def State.doseView (s : State) (a lo : Nat) : Option Nat :=
  match a, lo with
  | 0x60004, 16 => some s.boxHalf
  | 0x6000C, 0 => some (b2n s.correcting)
  | 0x6000C, 1 => some (b2n (s.liveStripe.isSome && s.waitGrid))
  | 0x6000C, 2 => some (b2n (s.doseWaits false))
  | 0x6000C, 3 => some (b2n (s.doseWaits true))
  | 0x6000C, 8 => some s.witnessHeld
  | 0x6001C, 0 => some (s.tabLive.crc 6)
  | 0x70010, 0 => some (b2n (s.stripe.any (fun st => st.stepBusy.isSome)))
  | 0x70010, 1 => some (b2n (!s.ledger.writes.isEmpty))
  | 0x70010, 2 => some (b2n s.journalBusy)
  | 0x70010, 3 => some (b2n (s.lv SCH_HEAD_ID.ID != 0 && s.shl.proved == some (s.lv SCH_HEAD_ID.ID)))
  | 0x70010, 4 => some (s.lv SCH_CTRL.MODE)
  | 0x70018, 0 => some (s.bookedIn s.nextFlash 256)
  | 0x70018, 16 => some (sat 16 s.ledger.writes.length)
  | 0x70020, 0 => some (s.tabLive.crc 1)
  | 0x70024, 0 => some (s.tabLive.crc 2)
  | 0x70028, 0 => some (s.tabLive.crc 3)
  | 0x7002C, 0 => some (s.tabLive.crc 4)
  | _, _ => none

/-- HMC: throttled ports, postponed counts, panic of a live stripe (R273, R275, R279). -/
def State.hmcView (s : State) (a lo : Nat) : Option Nat :=
  if a = 0x80010 ∧ lo = 2 then some (b2n (s.liveStripe.isSome && s.reg HMC_STATUS.PANIC == 1))
  else if a = 0x80010 ∧ lo = 8 then some (maskOf 9 (fun p => s.reg (HMC_PORT.THROTTLED p) == 1))
  else if 0x80200 ≤ a ∧ a < 0x80280 ∧ lo = 0 then some (unsgn 5 (s.pseudo ((a - 0x80200) / 4)).p)
  else none

/-- EMS: states of the stripe and the port, and the words of the last outcome record (R289, R293, R295, R300, R313). -/
def State.emsView (s : State) (a lo : Nat) : Option Nat :=
  match a, lo with
  | 0x90004, 0 => some s.stripeCode
  | 0x90004, 3 => some (b2n (s.stripe.any (·.sosLatched)))
  | 0x90004, 4 => some (b2n s.port.locked)
  | 0x90004, 5 => some (b2n (s.stripe.any (fun st => st.st == .aborted && st.fbHold)))
  | 0x90020, 0 => some s.port.y
  | 0x90028, 0 => some s.port.yf
  | 0x90030, 0 => some s.port.x
  | _, _ => if 0x90100 ≤ a then some (num s.lastOutcome (a - 0x90100) 4) else none

/-- The logical lane on spare lane `p` (R333, R340). -/
def State.spareLane (s : State) (p : Nat) : Option Nat := (s.shl.map.find? (fun e => e.2 == p)).map (·.1)

/-- SHL and NLK: link and pair states, spares, the live lane equalisation; RELATCH and REJOIN while they wait for their
stripe boundary (R10, R334, R370). -/
def State.linkView (s : State) (a lo : Nat) : Option Nat :=
  match a, lo with
  | 0xA0000, 1 => some (b2n s.shl.relatchDue)
  | 0xB0000, 1 => some (b2n s.nlk.rejoinWanted)
  | 0xA0004, 0 => some s.shl.st.code
  | 0xA0004, 7 => some (b2n s.shl.proved.isSome)
  | 0xA0008, 0 => some ((s.spareLane 32).getD 0)
  | 0xA0008, 5 => some (b2n (s.spareLane 32).isSome)
  | 0xA0008, 8 => some ((s.spareLane 33).getD 0)
  | 0xA0008, 13 => some (b2n (s.spareLane 33).isSome)
  | 0xA003C, 0 => some (s.tabLive.crc 7)
  | 0xB0004, 0 => some s.pairState
  | 0xB0004, 3 => some (b2n (s.fence.any (·.hard)))
  | _, _ => none

/-- CAL and BST: the state of calibration, its live tables, the park tag. -/
def State.calView (s : State) (a lo : Nat) : Option Nat :=
  match a, lo with
  | 0xD0004, 0 => some (if s.cal.gap.isSome then 2 else if s.reg CAL_STATUS.DUE = 0 then 0 else 1)
  | 0xD0014, 0 => some (s.tabLive.crc 8)
  | 0xD0018, 0 => some (s.tabLive.crc 9)
  | 0xE0010, 3 => some (b2n s.bst.tag.isSome)
  | 0xE0014, 0 => some (b2n s.bst.wakeAsked)
  | _, _ => none

/-- Field `lo` of a counter's 64 bits. -/
def Counter.field (c : Counter) (lo : Nat) : Nat := if lo = 0 then c.count else if lo = 48 then b2n c.ovf else c.epoch

/-- Counter (b, k), with index 8 b + k. -/
def State.counter (s : State) (i : Nat) : Counter := s.pmu.counters.getD i .reset

/-- Slot counter (s, c), with index 4 s + c. -/
def State.slotCounter (s : State) (i : Nat) : Counter := s.pmu.slots.getD i .reset

/-- PMU: the counters. -/
def State.pmuView (s : State) (a lo : Nat) : Option Nat :=
  if 0xF2000 ≤ a then some ((s.slotCounter ((a - 0xF2000) / 8)).field lo)
  else if 0xF1000 ≤ a ∧ a % 16 = 4 then some ((s.counter ((a - 0xF1000) / 16)).field lo)
  else none

/-- A field that the engine computes from what it holds; `none` for a field that is stored. -/
def State.viewAt (s : State) (a lo : Nat) : Option Nat :=
  match a / 0x10000 with
  | 0 => s.mgtView a lo
  | 1 => s.hifView a lo
  | 2 => s.dmaView a lo
  | 3 | 12 => s.engineView a lo
  | 4 | 5 => s.rasterView a lo
  | 6 | 7 => s.doseView a lo
  | 8 => s.hmcView a lo
  | 9 => s.emsView a lo
  | 10 | 11 => s.linkView a lo
  | 13 | 14 => s.calView a lo
  | 15 => s.pmuView a lo
  | _ => none

/-- What a read returns for a field (R10): 0 for a write-only one, 1 for a self-clearing one whose action still waits,
the staged copy of a commit field. -/
def State.view (s : State) (f : Field) : Nat :=
  match f.access with
  | .wo => 0
  | .sc => (s.viewAt f.addr f.lo).getD 0
  | _ => ((s.viewAt f.addr f.lo).getD (s.reg f)) % 2 ^ f.width

/-! ## Words -/

/-- The live value of the word at BAR0 offset `a`; reserved bits and unlisted words read 0. -/
def State.wordAt (s : State) (a : Nat) : Nat :=
  ((fieldsAt a).map (fun f => s.view f * 2 ^ f.lo / 2 ^ (8 * (a - f.addr)))).sum % 2 ^ 32

/-- The word at `a` is the LO word of a 64-bit register pair. -/
def isLo (a : Nat) : Bool := (fieldsAt a).any (fun f => f.addr == a && 32 < f.lo + f.width)

/-- The word at `a` is the HI word of a 64-bit register pair. -/
def isHi (a : Nat) : Bool := (fieldsAt a).any (fun f => f.addr + 4 == a)

/-- The windows whose LO words latch (R127, R186, R203, R220, R239, R264, R287, R317, R347, R374, R410, R423). -/
def latching (k : Nat) : Bool := 2 ≤ k && k ≤ 15 && k ≠ 13

/-- The key of the latch that holds the HI word at `a`: one for each pair, one for all of the PMU (R412). -/
def latchKey (a : Nat) : Nat := if a / 0x10000 = 15 then 0xF0000 else a

/-- The windows in which a read is answered with live values (R60, R400, R408). -/
def State.answers (s : State) (k : Nat) : Bool :=
  match s.g with
  | .off => false
  | .start => k == 0
  | .park | .safe => k == 0 || k == 14
  | _ => true

/-- What every word of block `k` that has fields reads, with its address. -/
def State.windowWords (s : State) (k : Nat) : List (Nat × Nat) :=
  (((List.range 0x4000).map (fun i => k * 0x10000 + 4 * i)).filter (fun a => !(fieldsAt a).isEmpty)).map
    (fun a => (a, s.wordAt a))

/-- A read of the word at `a` of the block under test: what it read at GO, with no other effect (R404). -/
def State.readHeld (s : State) (a : Nat) : State :=
  { s with answer := ((s.bst.test.bind (fun t => t.words.lookup a)).getD 0) }

/-- A read clears the fields of its word that are cleared by the read (R10). -/
def State.clearRead (s : State) (a : Nat) : State :=
  (fieldsAt a).foldl (fun s f => if f.access = .rc then s.setReg f 0 else s) s

/-- The value and byte count of a running check engine have gone on by the time a word at `a` is read (R127). -/
def State.engineStep (s : State) (a : Nat) : State :=
  if a / 0x10000 = 12 && a % 16 ≠ 0 then s.scanGoes ((a - 0xC0000) / 16) else s

/-- A read of a word that is answered: a latched HI word is returned and used up; a LO word latches its HI word. -/
def State.readLive (s : State) (a : Nat) : State :=
  let k := a / 0x10000
  let latch := fun (s : State) v => { s with latches := Sparse.set (fun _ => 0) s.latches (latchKey (a + 4)) v }
  match (if latching k && isHi a then s.latches.find? (fun e => e.1 == latchKey a) else none) with
  | some e =>
    { s with answer := e.2 - 1, latches := s.latches.filter (fun e => e.1 != latchKey a) }
  | none =>
    let s := s.engineStep a
    let s := { s with answer := s.wordAt a }
    if latching k && isLo a then latch s (s.wordAt (a + 4) + 1) else s.clearRead a

/-! ## BAR2 (R412, R420) -/

/-- The 64 bits of the counter window at offset `8 i`. -/
def State.barWord (s : State) (i : Nat) : Nat :=
  if i < 128 then unle (s.counter i).bytes
  else if i < 152 then unle (s.slotCounter (i - 128)).bytes
  else if i = 152 then s.cc
  else 0

/-- BAR2 answers with counters (R420, R421): in service, and in PARK, where they hold their values, while user access
is live and the PMU is on. -/
def State.bar2Live (s : State) : Bool := (s.serviced || s.g == .park) && s.prot.pmuUser && s.pwr 15 != .off

/-- A read of BAR2 at offset `o`: a low word latches its high word; 0 past the counter window and where BAR2 does not
answer, with no effect on the latch. -/
def State.bar2Read (s : State) (o : Nat) : State :=
  if !s.bar2Live || 0x4C8 ≤ o then { s with answer := 0 }
  else
    let w := s.barWord (o / 8)
    if o % 8 < 4 then { s with answer := w % 2 ^ 32, pmu := { s.pmu with latch2 := w / 2 ^ 32 % 2 ^ 32 + 1 } }
    else if s.pmu.latch2 = 0 then { s with answer := w / 2 ^ 32 % 2 ^ 32 }
    else { s with answer := s.pmu.latch2 - 1, pmu := { s.pmu with latch2 := 0 } }

/-! ## Bus reads -/

/-- A 4-byte read over PCIe: of BAR0 at offset `a`, of BAR2 at `a` - 0x100000, or of configuration space at
`a` - 0x200000, which answers in every state after OFF (R60). Where R60 and R400 answer with 0 the read
has no other effect; of a block that is OFF the manual gives no value; of one under test R404 gives the value at GO. -/
def State.busRead (s : State) (a : Nat) : State :=
  let a := a / 4 * 4
  let k := a / 0x10000
  if s.g == .off then s
  else if cfgBase ≤ a then { s with answer := s.cfgWord (a - cfgBase) }
  else if 0x100000 ≤ a then s.bar2Read (a - 0x100000)
  else if !s.answers k then { s with answer := 0 }
  else if s.pwr k == .off then { (s.fresh 32).2 with answer := (s.fresh 32).1 }
  else if s.underTest k then s.readHeld a
  else s.readLive a

/-- The whole counter whose low word stands at `a`, in BAR2 or BAR0, where a read of it is answered (R412, R420). -/
def State.wholeCounter (s : State) (a : Nat) : Option Nat :=
  if 0x100000 ≤ a && a < cfgBase && a % 8 = 0 then
    (if s.bar2Live then some (s.barWord ((a - 0x100000) / 8)) else none)
  else if !s.serviced || s.pwr 15 == .off then none
  else if 0xF1000 ≤ a && a < 0x100000 && isLo a && !s.underTest 15 then some (s.wordAt a + s.wordAt (a + 4) * 2 ^ 32)
  else none

/-- An 8-byte read over PCIe (R412): of a counter it returns the whole at once and uses no latch; elsewhere it is a read
of its low word and then of its high word (DESIGN CHOICE, log entry 133). -/
def State.busReadWide (s : State) (a : Nat) : State :=
  let a := a / 4 * 4
  match s.wholeCounter a with
  | some v => { s with answer := v }
  | none =>
    let lo := s.busRead a
    let hi := lo.busRead (a + 4)
    { hi with answer := lo.answer + hi.answer * 2 ^ 32 }

/-- LATCHED_LO_READ: a read of a LO word (R412 and the LO/HI rule of each chapter), of 4 bytes or, with `wide`, of 8. -/
def execLatchedLoRead (addr : Nat) (wide : Bool) (s : State) : Host.Outcome State Fault Refusal :=
  .next (if wide then s.busReadWide addr else s.busRead addr)

/-- READ_CLEAR: a read of a word with fields that the read clears (R10). -/
def execReadClear (addr : Nat) (s : State) : Host.Outcome State Fault Refusal := .next (s.busRead addr)

end Sys2Proof.Machine
end

