-- ==== Sys2Proof/Machine/RegWrite.lean ====
section
/-! DEFINITION. Writes over PCIe: which land (R59, R60, R349, R395, R400, R404), what a write of a word does to its
fields (R10), what the registers with rules of their own do, and the commands that are such writes; the ends of an
on-demand test, at which held writes land. -/

namespace Sys2Proof.Machine

/-! ## Plain fields (R10) -/

/-- The value of a field after the word at `a` is written as `w`, from its value `old`: the other word of a LO/HI pair
keeps its part. -/
def Field.merge (f : Field) (a w old : Nat) : Nat :=
  let n := min f.width (32 - f.lo)
  if a = f.addr then old / 2 ^ n * 2 ^ n + bits w f.lo n else old % 2 ^ n + w % 2 ^ 32 * 2 ^ n

/-- A write of `w` to one field of the word at `a`: rw stores, w1c clears, others ignore it. -/
def State.putField (a w : Nat) (s : State) (f : Field) : State :=
  match f.access with
  | .rw => s.setReg f (f.merge a w (s.reg f))
  | .w1c => if bit w f.lo then s.setReg f 0 else s
  | _ => s

/-- A write of `w` to every field of the word at `a`; a commit field takes it as its staged copy. -/
def State.putFields (s : State) (a w : Nat) : State := (fieldsAt a).foldl (State.putField a w) s

/-! ## Requests for a test (R403, R404, R407) -/

/-- A block that R403 does not test. -/
def untestable (k : Nat) : Bool := k == 0 || k == 1 || k == 8 || k == 14

/-- A write of GO to BST_REQ (R403, R404, R407): the request is refused, or the test
starts, which is work for BST and the block (R393); reads of the block return from now on what its words read at GO (log entry 134). Its SRAM is saved: somewhere in
the SRAM image's area, at a place and with bytes that the manual does not give (log entry 8). -/
def State.bistGo (s : State) (k : Nat) (yields : Bool) : State :=
  let refuse := fun st => s.setReg BST_STATUS.LAST_STATUS st
  if untestable k then refuse 0x09
  else if s.onDataPath k && s.stripeActive then refuse 0x11
  else if s.bst.test.isSome then refuse 0x11
  else if s.pwr k == .off || s.pwrPending k then refuse 0x0A
  else if !s.aon.rootLock then (s.bistNotRun 3 k).setReg BST_STATUS.LAST_STATUS 0x0A
  else
    let t := { s with bst := { s.bst with test := some ⟨k, yields, [], s.windowWords k⟩ } }.saveArea sramArea
    let t := (t.wakeBlock 14).wakeBlock k
    (t.setReg BST_STATUS.BUSY 1).setReg BST_STATUS.BLOCK k

/-! ## Registers with rules of their own -/

/-- MGT: reset, WARN_C, by which THERM_N[0] is judged anew (R51), power requests, the protection registers. -/
def State.mgtWrite (s : State) (a w : Nat) : State :=
  if a = 0x20 then s.mgtResetWrite w
  else if a = 0x38 then (s.setReg MGT_TEMP.WARN_C (min 110 (max 70 (bits w 16 8)))).thermWarn
  else if a = 0x40 then s.pwrReqWrite w
  else if a = 0x110 then s.protCtrlWrite w
  else if 0x200 ≤ a && s.protPending then s
  else s.putFields a w

/-- A base address is discarded while `on`; the low word keeps its alignment of `al` bytes. -/
def State.baseWrite (s : State) (on : Bool) (al a w : Nat) : State :=
  if on then s else s.putFields a (if a % 8 = 0 then w / al * al else w)

/-- HIF_EQ_MOD(e) is written (R90): the condition on COUNT is tested with the new value. -/
def State.eqModWrite (s : State) (e a w : Nat) : State :=
  let s := s.putFields a w
  let n := (s.evRing e).uncovered
  if s.eqOn e && n ≠ 0 && s.modCount e ≤ n then s.raiseEq e else s

/-- Entry `v` of the MSI-X table is written: a vector that is unmasked while pending raises its message (R90). -/
def State.msixWrite (s : State) (v a w : Nat) : State :=
  let s := s.putFields a w
  if s.vectorOpen v && s.reg (MSIX.PENDING v) = 1 then (s.setReg (MSIX.PENDING v) 0).raiseVector v else s

/-- HIF: the doorbell page, rings, interrupts (R70, R73, R88, R90, R109). -/
def State.hifWrite (s : State) (a w : Nat) : State :=
  let q := (a - 0x11000) / 16
  let e := (a - 0x12000) / 32
  if a < 0x10008 then s.baseWrite (s.reg HIF_CTRL.DB_EN == 1) 4096 a w
  else if a = 0x10008 then s.hifCtrlWrite w
  else if a = 0x1000C then s.poll
  else if 0x11000 ≤ a ∧ a < 0x11400 then
    if a % 16 = 8 then s.sqCfgWrite q w else s.baseWrite (s.sqOn q) 64 a w
  else if 0x12000 ≤ a ∧ a < 0x12100 then
    if a % 32 = 8 then s.eqCfgWrite e w
    else if a % 32 = 12 then s.eqModWrite e a w
    else s.baseWrite (s.eqOn e) 32 a w
  else if 0x18000 ≤ a ∧ a < 0x18400 then s.msixWrite ((a - 0x18000) / 16) a w
  else s.putFields a w

/-- DMA_CH_CFG(ch) is written: marks on paced channels, QLOG2 on STREAM channels (R99, R101, R102). -/
def State.chanCfgWrite (s : State) (ch w : Nat) : State :=
  let s := if dmaPaced ch then (s.setReg (DMA_CH_CFG.LOW ch) (bits w 8 7)).setReg (DMA_CH_CFG.HIGH ch) (bits w 16 7) else s
  if dmaClass ch = 1 then s.setReg (DMA_CH_CFG.QLOG2 ch) (bits w 24 5) else s

/-- DMA: the completion timeout, channels (R111 to R113). -/
def State.dmaWrite (s : State) (a w : Nat) : State :=
  let ch := (a - 0x21000) / 32
  if a = 0x20000 then s.setReg DMA_CTRL.CPL_TO_MS (min 64 (max 1 (bits w 0 7)))
  else if 0x21000 ≤ a ∧ a < 0x21400 then
    if a % 32 = 0 then s.chanCfgWrite ch w
    else if a % 32 = 4 then (if bit w 0 then s.dmaAbort ch else s)
    else if a % 32 = 8 then (if bit w 1 then s.dmaRelease ch else s)
    else s
  else s

/-- EMS_FLASHES_CTRL.CLEAR (R314): a new epoch of the lifetime flash count. -/
def State.flashEpoch (s : State) : State :=
  ((s.setReg EMS_FLASHES.COUNT 0).setReg EMS_FLASHES.OVF 0).setReg EMS_FLASHES.EPOCH (s.reg EMS_FLASHES.EPOCH + 1)

/-- LINK_EN and RELATCH of SHL_CTRL act (R331, R334). -/
def State.linkCtrl (s : State) (w : Nat) : State :=
  let s := s.linkEnWrite (bit w 0)
  if bit w 1 then s.relatchWrite else s

/-- What a write of SHL_CTRL brings the mirror of a joined pair (R29), as the fields of a set: LINK_EN outside a stripe,
and RELATCH (DESIGN CHOICE, log entry 96). -/
def State.linkSet (s : State) (w : Nat) : List (Nat × Nat) :=
  (if s.stripeActive then [] else [(SHL_CTRL.LINK_EN.key, bits w 0 1)]) ++
    (if bit w 1 then [(SHL_CTRL.RELATCH.key, 1)] else [])

/-- SHL_CTRL (R331, R334): MAX_RATE is staged, LINK_EN and RELATCH act, on both chips of a joined pair. -/
def State.shlWrite (s : State) (w : Nat) : State :=
  let s := s.setReg SHL_CTRL.MAX_RATE (bits w 4 2)
  let set := s.linkSet w
  (if set.isEmpty then s else s.sendSet (s.reg MGT_CMT_LAST_ID.COMMIT_ID) 0 set).linkCtrl w

/-- NLK_CTRL (R363, R370): SOLO and LOSS_LIMIT are staged; a rejoin acts at the next stripe boundary, which is now
when no stripe is ARMED or RUN (R34); FENCE fences this chip. -/
def State.nlkWrite (s : State) (a w : Nat) : State :=
  let s := s.putFields a w
  let s := if bit w 1 then { s with nlk := { s.nlk with rejoinWanted := true } } else s
  let s := if s.g == .ready then s.startRejoin else s
  if bit w 2 then s.fenceChip 0x0C else s

/-- CAL (R379, R381, R390): RUN_NOW makes the enabled items due, GO derives, item 0 stays enabled. -/
def State.calWrite (s : State) (a w : Nat) : State :=
  let s := s.putFields a w
  if a = 0xD0000 then (if bit w 16 then s.allDue else s)
  else if a = 0xD001C then (if bit w 0 then s.deriveGo else s)
  else if a = 0xD0100 then s.setReg (CAL_ITEM_CFG.ENABLE 0) 1
  else s

/-- BST (R401, R403): a test is requested, a park ends. -/
def State.bstWrite (s : State) (a w : Nat) : State :=
  let s := s.putFields a w
  if a = 0xE0000 then (if bit w 8 then s.bistGo (bits w 0 4) (bit w 4) else s)
  else if a = 0xE0014 then (if bit w 0 then s.wakeWrite else s)
  else s

/-- PMU_CTRL (R414, R416): FREEZE, and a new epoch of the slot counters. -/
def State.pmuCtrlWrite (s : State) (w : Nat) : State :=
  let s := s.setReg PMU_CTRL.FREEZE (bits w 0 1)
  if bit w 1 then { s with pmu := { s.pmu with slots := s.pmu.slots.map Counter.clear } } else s

/-- PMU_SNAP_CFG (R418, R419): base and size are read when ENABLE goes from 0 to 1; LOG2N above 12 stores 12, a period
of 1 to 9 stores 10. -/
def State.snapCfgWrite (s : State) (w : Nat) : State :=
  let on := s.reg PMU_SNAP_CFG.ENABLE == 1
  let us := bits w 16 16
  let s := if on then s else s.setReg PMU_SNAP_CFG.LOG2N (min 12 (bits w 0 4))
  let s := (s.setReg PMU_SNAP_CFG.ON_END (bits w 4 1)).setReg PMU_SNAP_CFG.ENABLE (bits w 5 1)
  let s := s.setReg PMU_SNAP_CFG.PERIOD_US (if us = 0 then 0 else max 10 us)
  if !on && bit w 5 then
    { s with pmu := { s.pmu with base := s.reg PMU_SNAP_BASE.ADDR, log2n := s.reg PMU_SNAP_CFG.LOG2N } }
  else s

/-- PMU_CNT_CFG(b, k) is written (R413): the event, and a new epoch; `i` is 8 b + k. -/
def State.counterWrite (s : State) (i w : Nat) : State :=
  let s := s.setReg (PMU_CNT_CFG.EVENT (i / 8) (i % 8)) (bits w 0 8)
  { s with pmu := { s.pmu with counters := modAt s.pmu.counters i Counter.clear } }

/-- PMU: control, snapshots, counters. -/
def State.pmuWrite (s : State) (a w : Nat) : State :=
  if a = 0xF0000 then s.pmuCtrlWrite w
  else if a = 0xF0010 ∨ a = 0xF0014 then s.baseWrite (s.reg PMU_SNAP_CFG.ENABLE == 1) 64 a w
  else if a = 0xF0018 then s.snapCfgWrite w
  else if a = 0xF001C then (if bit w 0 then s.snapshot else s)
  else if 0xF1000 ≤ a ∧ a < 0xF1800 ∧ a % 16 = 0 then s.counterWrite ((a - 0xF1000) / 16) w
  else s

/-- What a write that lands does, window by window. -/
def State.landed (s : State) (a w : Nat) : State :=
  match a / 0x10000 with
  | 0 => s.mgtWrite a w
  | 1 => s.hifWrite a w
  | 2 => s.dmaWrite a w
  | 9 => if a = 0x90050 then (if bit w 0 then s.flashEpoch else s) else s.putFields a w
  | 10 => if a = 0xA0000 then s.shlWrite w else s
  | 11 => if a = 0xB0000 then s.nlkWrite a w else s
  | 13 => s.calWrite a w
  | 14 => s.bstWrite a w
  | 15 => s.pmuWrite a w
  | _ => s.putFields a w

/-! ## Where a write lands -/

/-- The words of a mirror's BAR0 that a write reaches (R349). -/
def mirrorTakes (a : Nat) : Bool :=
  a == 0x20 || a == 0x38 || a == 0x40 || (0x110 ≤ a && a < 0x300) || a == 0xB0000 || (0xD0000 ≤ a && a < 0x100000)

/-- The words that a write reaches in the chip's state (R60, R349, R400, R408). -/
def State.takesWrite (s : State) (a : Nat) : Bool :=
  (match s.g with
    | .off => false
    | .start | .safe => a == 0x20
    | .park => a == 0x20 || a == 0xE0014
    | _ => true) && (!s.isMirror || mirrorTakes a)

/-- Block `k` is under a test that does not yield: the write is held (R404). -/
def State.holdWrite (s : State) (a : Nat) (w : Word) : State :=
  { s with bst := { s.bst with test := s.bst.test.map (fun t => { t with held := t.held ++ [(a, w)] }) } }

/-- A 4-byte write of `w` over PCIe to BAR0 at offset `a`, or to configuration space at `a` - 0x200000. Writes to
BAR2, and those to a block that is OFF, are discarded (R66, R395). -/
def State.busWrite (s : State) (a : Nat) (w : Word) : State :=
  let a := a / 4 * 4
  let k := a / 0x10000
  if cfgBase ≤ a then (if s.g == .off then s else s.cfgWrite (a - cfgBase) w.toNat)
  else if 0x100000 ≤ a || !s.takesWrite a || s.pwr k == .off then s
  else if s.bistHolds (· == k) then s.holdWrite a w
  else (s.bistYield (· == k)).landed a w.toNat

/-- REGISTER_WRITE (R10). -/
def execRegisterWrite (addr : Nat) (w : Word) (s : State) : Host.Outcome State Fault Refusal := .next (s.busWrite addr w)

/-! ## The writes that have a row of their own -/

/-- CHIP_RESET (R59): bit 0 of MGT_RESET is written as 1, with the KEY in `w`. -/
def execChipReset (w : Word) (s : State) : Host.Outcome State Fault Refusal := .next (s.busWrite 0x20 (w ||| 1#32))

/-- PWR_REQ_WRITE (R62). -/
def execPwrReqWrite (w : Word) (s : State) : Host.Outcome State Fault Refusal := .next (s.busWrite 0x40 w)

/-- MGT_PWR_REQ with field `k` replaced. -/
def State.pwrWord (s : State) (k req : Nat) : Word :=
  BitVec.ofNat 32 (s.reg MGT_PWR_REQ.REQ - s.pwrReq k * 4 ^ k + req % 4 * 4 ^ k)

/-- BLOCK_LEAVE_OFF (R62, R395): field `k` of MGT_PWR_REQ becomes `req`. -/
def execBlockLeaveOff (k req : Nat) (s : State) : Host.Outcome State Fault Refusal :=
  .next (s.busWrite 0x40 (s.pwrWord k req))

/-- PROT_STAGE (R95): CMD is 1. -/
def execProtStage (w : Word) (s : State) : Host.Outcome State Fault Refusal :=
  .next (s.busWrite 0x110 (w &&& ~~~3#32 ||| 1#32))

/-- PROT_CANCEL (R95): CMD is 2. -/
def execProtCancel (w : Word) (s : State) : Host.Outcome State Fault Refusal :=
  .next (s.busWrite 0x110 (w &&& ~~~3#32 ||| 2#32))

/-- DOORBELL_ENABLE (R70, R109): DB_EN is 1. -/
def execDoorbellEnable (w : Word) (s : State) : Host.Outcome State Fault Refusal := .next (s.busWrite 0x10008 (w ||| 1#32))

/-- A write to a register of ring `q` of `n`; there is no ring beyond. -/
def State.ringWrite (s : State) (n q a : Nat) (w : Word) : State := if q < n then s.busWrite a w else s

/-- SQ_ENABLE (R73, R100): ENABLE is 1. -/
def execSqEnable (q : Nat) (w : Word) (s : State) : Host.Outcome State Fault Refusal :=
  .next (s.ringWrite 64 q (0x11008 + 16 * q) (w ||| 1#32))

/-- SQ_DISABLE (R73): ENABLE is 0. -/
def execSqDisable (q : Nat) (w : Word) (s : State) : Host.Outcome State Fault Refusal :=
  .next (s.ringWrite 64 q (0x11008 + 16 * q) (w &&& ~~~1#32))

/-- EQ_ENABLE (R61, R88): ENABLE is 1. -/
def execEqEnable (e : Nat) (w : Word) (s : State) : Host.Outcome State Fault Refusal :=
  .next (s.ringWrite 8 e (0x12008 + 32 * e) (w ||| 1#32))

/-- DMA_ABORT (R112). -/
def execDmaAbort (ch : Nat) (s : State) : Host.Outcome State Fault Refusal :=
  .next (s.ringWrite 32 ch (0x21004 + 32 * ch) 1#32)

/-- DMA_RELEASE_HALT (R113). -/
def execDmaReleaseHalt (ch : Nat) (s : State) : Host.Outcome State Fault Refusal :=
  .next (s.ringWrite 32 ch (0x21008 + 32 * ch) 2#32)

/-- FLASH_COUNT_CLEAR (R314). -/
def execFlashCountClear (s : State) : Host.Outcome State Fault Refusal := .next (s.busWrite 0x90050 1#32)

/-- LINK_ENABLE (R331): LINK_EN is 1. -/
def execLinkEnable (w : Word) (s : State) : Host.Outcome State Fault Refusal := .next (s.busWrite 0xA0000 (w ||| 1#32))

/-- LINK_DISABLE (R331, R340): LINK_EN is 0. -/
def execLinkDisable (w : Word) (s : State) : Host.Outcome State Fault Refusal := .next (s.busWrite 0xA0000 (w &&& ~~~1#32))

/-- RELATCH (R334): RELATCH is 1. -/
def execRelatch (w : Word) (s : State) : Host.Outcome State Fault Refusal := .next (s.busWrite 0xA0000 (w ||| 2#32))

/-- NLK_REJOIN (R363, R370): REJOIN is 1. -/
def execNlkRejoin (w : Word) (s : State) : Host.Outcome State Fault Refusal := .next (s.busWrite 0xB0000 (w ||| 2#32))

/-- NLK_FENCE (R363, R364): FENCE is 1. -/
def execNlkFence (w : Word) (s : State) : Host.Outcome State Fault Refusal := .next (s.busWrite 0xB0000 (w ||| 4#32))

/-- CAL_RUN_NOW (R379): RUN_NOW is 1. -/
def execCalRunNow (w : Word) (s : State) : Host.Outcome State Fault Refusal := .next (s.busWrite 0xD0000 (w ||| 0x10000#32))

/-- DERIVE_GO (R390): GO is 1. -/
def execDeriveGo (w : Word) (s : State) : Host.Outcome State Fault Refusal := .next (s.busWrite 0xD001C (w ||| 1#32))

/-- BIST_REQUEST (R403): GO is 1. -/
def execBistRequest (w : Word) (s : State) : Host.Outcome State Fault Refusal := .next (s.busWrite 0xE0000 (w ||| 0x100#32))

/-- COUNTER_CONFIG (R413). -/
def execCounterConfig (b k : Nat) (w : Word) (s : State) : Host.Outcome State Fault Refusal :=
  .next (s.ringWrite 16 b (0xF1000 + 128 * b + 16 * (k % 8)) w)

/-- COUNTER_FREEZE (R414). -/
def execCounterFreeze (w : Word) (s : State) : Host.Outcome State Fault Refusal := .next (s.busWrite 0xF0000 w)

/-- SLOT_CLEAR (R416): TD_CLEAR is 1. -/
def execSlotClear (w : Word) (s : State) : Host.Outcome State Fault Refusal := .next (s.busWrite 0xF0000 (w ||| 2#32))

/-- SNAPSHOT_ENABLE (R419): ENABLE is 1. -/
def execSnapshotEnable (w : Word) (s : State) : Host.Outcome State Fault Refusal := .next (s.busWrite 0xF0018 (w ||| 0x20#32))

/-- SNAPSHOT_GO (R418). -/
def execSnapshotGo (s : State) : Host.Outcome State Fault Refusal := .next (s.busWrite 0xF001C 1#32)

/-- SNAPSHOT_PERIOD (R418, R419): PERIOD_US has passed. -/
def execSnapshotPeriod (s : State) : Host.Outcome State Fault Refusal :=
  .next (if s.serviced && s.reg PMU_SNAP_CFG.PERIOD_US ≠ 0 then s.snapshot else s)

/-! ## The end of an on-demand test (R403 to R407) -/

/-- Writes held during a test land, in order. -/
def State.landHeld (s : State) (held : List (Nat × Word)) : State := held.foldl (fun s h => s.busWrite h.1 h.2) s

/-- The test of block `t` ends with its four values (R402, R405, R406): a pass lands the held writes, and a snapshot that waited is taken; a failure fences
the chip into SAFE, with a fence cause that the manual does not give. -/
def State.bistEnds (s : State) (t : BlockTest) (misr count code ms : Nat) : State :=
  let r : BistRun := ⟨t.block, misr, count, code⟩
  let pass := s.bistPasses 3 r
  let s := (s.bistJudge 3 r).bistOver (if pass then 0x00 else 0x07) ms
  if pass then (s.landHeld t.held).snapDue
  else
    let c := s.fresh 8
    (c.2.enterSafe 1 c.1 true).snapDue

/-- BIST_DONE (R402, R403, R405, R406): a test does not end before its block has drained (log entry 134). -/
def execBistDone (misr count code ms : Nat) (s : State) : Host.Outcome State Fault Refusal :=
  .next (match s.bst.test with
    | none => s
    | some t => if s.busyBlock t.block then s else s.bistEnds t misr count code ms)

/-- BIST_WATCHDOG (R403): at 35 ms the test ends with CODE 0x3C, which fails. -/
def execBistWatchdog (misr count : Nat) (s : State) : Host.Outcome State Fault Refusal :=
  .next (match s.bst.test with | none => s | some t => s.bistEnds t misr count 0x3C 35)

/-- The on-demand test that runs ends NOT_RUN, and the held writes land (R407). -/
def State.testLost (s : State) : State := match s.bst.test with | none => s | some t => (s.bistAbort.landHeld t.held).snapDue

/-- BIST_PRECONDITION_LOSS (R407). -/
def execBistPreconditionLoss (s : State) : Host.Outcome State Fault Refusal := .next s.testLost

/-! ## Rails and clocks (R23, R55, R56, R407) -/

/-- VDD_CORE or the root lock is lost: the test that runs ends NOT_RUN, on demand or at park (R399, R407). -/
def State.preconditionLost (s : State) : State :=
  if s.g == .park && s.reg BST_PARK.PHASE = 4 then s.parkNotRun else s.testLost

/-- RAIL_TRIP (R55, R407): a rail below its trip level for 2 us or longer; rail 0 is VDD_CORE, in the order of R49. -/
def execRailTrip (rail us : Nat) (s : State) : Host.Outcome State Fault Refusal :=
  .next (if us < 2 || s.g == .off then s else (if rail = 0 then s.preconditionLost else s).enterSafe 5 7 true)

/-- CLOCK_LOSS (R23, R56, R407): loss of REFCLK, or of root lock once the root was locked, in any state after OFF; the
Nalu lanes stop with the others. -/
def execClockLoss (refclkLost : Bool) (s : State) : Host.Outcome State Fault Refusal :=
  .next (
    let t := { s with aon := { s.aon with rootLock := false, refclk := s.aon.refclk && !refclkLost } }
    if s.g != .off && (s.aon.rootLock || (refclkLost && s.aon.refclk)) then t.preconditionLost.enterSafe 4 0x0D false else t)

end Sys2Proof.Machine
end

