-- ==== Sys2Proof/Machine/Tick.lean ====
section
/-! DEFINITION. One cycle of the core clock with no command waiting (log entry 12): the CC count, the counters that
count cycles (R411, R417), the rasteriser's busy and stalled cycles (R220), the slots that the stages offer in a cycle
without work (R415), and the commit point of self-refresh entry (R281). -/

namespace Sys2Proof.Machine

/-- The common counters of block `b`: cc in RUN, IDLE and NAP (R411); none while OFF. -/
def State.countPwr (s : State) (b : Nat) : State :=
  match s.pwr b with
  | .run => s.count b 0x01 1
  | .idle => s.count b 0x02 1
  | .nap => s.count b 0x03 1
  | .off => s

/-- The parser is stalled (R199, R234). -/
def State.prsStalled (s : State) : Bool := s.liveStripe.isSome && (s.reg PRS_STATUS.STALL_LAQ == 1 || s.stallAhead)

/-- The block events that count cycles, each with its block, its number and whether this cycle counts (R411). -/
def State.cycleEvents (s : State) : List (Nat × Nat × Bool) :=
  [(2, 0x12, (List.range 32).any (fun ch => dmaPaced ch && s.reg (DMA_CH_STATUS.HELD ch) == 1)),
    (4, 0x13, s.prsStalled),
    (5, 0x12, s.reg CSM_STATUS.WAIT_BUF == 1),
    (6, 0x12, s.doseWaits true),
    (6, 0x13, s.liveStripe.isSome && s.waitGrid),
    (8, 0x12, s.liveStripe.isSome && s.reg HMC_STATUS.PANIC == 1)]

/-- SRAM words of block `b` that SECDED corrects in a cycle (R411, event 0x05): a free number, counted where a counter of
the block asks for it (log entry 38). -/
def State.sramCorrected (s : State) (b : Nat) : State :=
  if (List.range 8).any (fun k => s.reg (PMU_CNT_CFG.EVENT b k) == 0x05) && s.pwr b != .off then
    (s.fresh 32).2.count b 0x05 (s.fresh 32).1
  else s

/-- The slots of a cycle without work: the stage, its slots, and whether it is starved at the back (R415): the
decompressors while the parser's input queue is full, the parser in its stalls, and so on. `full` tells that the write
queue of HMC port 1 is full. -/
def State.cycleSlots (s : State) (full : Bool) : List (Nat × Nat × Bool) :=
  [(0, s.feedWidth, s.inputFull && !s.cdc.feed.buf.isEmpty), (1, 4, s.prsStalled),
    (2, 64, s.reg CSM_STATUS.WAIT_BUF == 1), (3, 1, s.doseWaits true), (4, 4, full)]

/-- Whether the write queue of HMC port 1 is full in this cycle: while an entry step is under way, which alone writes
through it, the manual does not say when (free; DESIGN CHOICE, log entry 37). -/
def State.portFull (s : State) : Bool × State :=
  if s.liveStripe.any (fun st => st.stepBusy.isSome) then ((s.fresh 1).1 == 1, (s.fresh 1).2) else (false, s)

/-- One core-clock cycle (log entry 12). Outside READY, ARMED and RUN the common events advance while the root is locked
(R421), and self-refresh entry comes to its commit point. -/
def tick (s : State) : State :=
  if s.serviced then
    let p := { s with cc := s.cc + 1 }.portFull
    let n := (List.range 16).foldl State.sramCorrected ((List.range 16).foldl State.countPwr p.2)
    let n := s.cycleEvents.foldl (fun n e => if e.2.2 then n.count e.1 e.2.1 1 else n) n
    let n := (s.cycleSlots p.1).foldl (fun n e => n.slots e.1 (if e.2.2 then 2 else 3) e.2.1) n
    if s.reg CSM_STATUS.WAIT_BUF = 1 then n.setReg CSM_STALL.CC (s.reg CSM_STALL.CC + 1)
    else if s.csmActive then n.setReg CSM_BUSY.CC (s.reg CSM_BUSY.CC + 1)
    else n
  else
    (if s.g != .off && s.aon.rootLock then
      (List.range 16).foldl State.sramCorrected ((List.range 16).foldl State.countPwr s)
    else s).srCommit

end Sys2Proof.Machine
end

