-- ==== Sys2Proof/Machine/Dispatch.lean ====
section
/-! DEFINITION. What each command does: one arm per command, in the order of the table, each one call of its
meaning. -/

namespace Sys2Proof.Machine

/-- The effect of command `i` on a state whose queue no longer holds it. -/
def exec (i : Instr) (s : State) : Host.Outcome State Fault Refusal :=
  match i with
  | .resetNFall => Sys2Proof.Machine.execResetNFall s
  | .resetNRise lowUs twinId speed width prog => Sys2Proof.Machine.execResetNRise lowUs twinId speed width prog s
  | .railTrip rail us => Sys2Proof.Machine.execRailTrip rail us s
  | .clockLoss refclkLost => Sys2Proof.Machine.execClockLoss refclkLost s
  | .rootPllLock => Sys2Proof.Machine.execRootPllLock s
  | .firmwareImageCheck slot0 slot1 => Sys2Proof.Machine.execFirmwareImageCheck slot0 slot1 s
  | .hbmTraining found raaimt raammt => Sys2Proof.Machine.execHbmTraining found raaimt raammt s
  | .parkRestore image ecc => Sys2Proof.Machine.execParkRestore image ecc s
  | .deviceTrimRead => Sys2Proof.Machine.execDeviceTrimRead s
  | .fullSelfTest ran runs => Sys2Proof.Machine.execFullSelfTest ran runs s
  | .readyReached ms => Sys2Proof.Machine.execReadyReached ms s
  | .perstNFall speed width => Sys2Proof.Machine.execPerstNFall speed width s
  | .functionLevelReset speed width => Sys2Proof.Machine.execFunctionLevelReset speed width s
  | .d3hotEntry speed width => Sys2Proof.Machine.execD3hotEntry speed width s
  | .chipReset w => Sys2Proof.Machine.execChipReset w s
  | .parkReqFall => Sys2Proof.Machine.execParkReqFall s
  | .parkReqRise => Sys2Proof.Machine.execParkReqRise s
  | .sosRise stageOk => Sys2Proof.Machine.execSosRise stageOk s
  | .stageOkTimeout => Sys2Proof.Machine.execStageOkTimeout s
  | .doorbellPoll hw => Sys2Proof.Machine.execDoorbellPoll hw s
  | .nudge underWay hw => Sys2Proof.Machine.execNudge underWay hw s
  | .doorbellEnable w => Sys2Proof.Machine.execDoorbellEnable w s
  | .sqEnable q w => Sys2Proof.Machine.execSqEnable q w s
  | .sqDisable q w => Sys2Proof.Machine.execSqDisable q w s
  | .eqEnable e w => Sys2Proof.Machine.execEqEnable e w s
  | .eventQueueDrain hw => Sys2Proof.Machine.execEventQueueDrain hw s
  | .eqModTimer e => Sys2Proof.Machine.execEqModTimer e s
  | .armStripe q partnerOff => Sys2Proof.Machine.execArmStripe q partnerOff s
  | .abortStripe q partnerOff => Sys2Proof.Machine.execAbortStripe q partnerOff s
  | .streamBuf q hw => Sys2Proof.Machine.execStreamBuf q hw s
  | .loadTable q hw => Sys2Proof.Machine.execLoadTable q hw s
  | .saveTable q => Sys2Proof.Machine.execSaveTable q s
  | .compress q hw => Sys2Proof.Machine.execCompress q hw s
  | .decompress q hw => Sys2Proof.Machine.execDecompress q hw s
  | .codecJobComplete engine => Sys2Proof.Machine.execCodecJobComplete engine s
  | .codecJobResume engine => Sys2Proof.Machine.execCodecJobResume engine s
  | .scan q hw => Sys2Proof.Machine.execScan q hw s
  | .scanComplete engine ecc => Sys2Proof.Machine.execScanComplete engine ecc s
  | .witness q => Sys2Proof.Machine.execWitness q s
  | .witnessComplete compressor ecc => Sys2Proof.Machine.execWitnessComplete compressor ecc s
  | .commit q => Sys2Proof.Machine.execCommit q s
  | .barrier q => Sys2Proof.Machine.execBarrier q s
  | .barrierDone => Sys2Proof.Machine.execBarrierDone s
  | .park q => Sys2Proof.Machine.execPark q s
  | .protStage w => Sys2Proof.Machine.execProtStage w s
  | .protCancel w => Sys2Proof.Machine.execProtCancel w s
  | .protStatus target pecOk => Sys2Proof.Machine.execProtStatus target pecOk s
  | .protRead target count offset32 pecOk => Sys2Proof.Machine.execProtRead target count offset32 pecOk s
  | .protConfirm target count crc nonce pecOk => Sys2Proof.Machine.execProtConfirm target count crc nonce pecOk s
  | .protRefuse target count pecOk => Sys2Proof.Machine.execProtRefuse target count pecOk s
  | .protTimeout => Sys2Proof.Machine.execProtTimeout s
  | .pwrReqWrite w => Sys2Proof.Machine.execPwrReqWrite w s
  | .blockDrainedOff k => Sys2Proof.Machine.execBlockDrainedOff k s
  | .blockIdleTimer k => Sys2Proof.Machine.execBlockIdleTimer k s
  | .blockNapTimer k => Sys2Proof.Machine.execBlockNapTimer k s
  | .blockWake k ch => Sys2Proof.Machine.execBlockWake k ch s
  | .blockLeaveOff k req => Sys2Proof.Machine.execBlockLeaveOff k req s
  | .registerWrite addr w => Sys2Proof.Machine.execRegisterWrite addr w s
  | .latchedLoRead addr wide => Sys2Proof.Machine.execLatchedLoRead addr wide s
  | .readClear addr => Sys2Proof.Machine.execReadClear addr s
  | .dmaAbort ch => Sys2Proof.Machine.execDmaAbort ch s
  | .dmaReleaseHalt ch => Sys2Proof.Machine.execDmaReleaseHalt ch s
  | .dmaCplTimeout ch => Sys2Proof.Machine.execDmaCplTimeout ch s
  | .dmaCplError ch => Sys2Proof.Machine.execDmaCplError ch s
  | .lateCompletion ch => Sys2Proof.Machine.execLateCompletion ch s
  | .descriptorFetch ch hw => Sys2Proof.Machine.execDescriptorFetch ch hw s
  | .transferComplete ch => Sys2Proof.Machine.execTransferComplete ch s
  | .azradBlock ecc => Sys2Proof.Machine.execAzradBlock ecc s
  | .sovisRecord ecc => Sys2Proof.Machine.execSovisRecord ecc s
  | .templateLineFill line ecc => Sys2Proof.Machine.execTemplateLineFill line ecc s
  | .bandRelease => Sys2Proof.Machine.execBandRelease s
  | .parserResume => Sys2Proof.Machine.execParserResume s
  | .bandRetire => Sys2Proof.Machine.execBandRetire s
  | .densityBandDone => Sys2Proof.Machine.execDensityBandDone s
  | .blurBandDone => Sys2Proof.Machine.execBlurBandDone s
  | .paneSliceDone ecc => Sys2Proof.Machine.execPaneSliceDone ecc s
  | .paneBufferFree => Sys2Proof.Machine.execPaneBufferFree s
  | .recomputeBand => Sys2Proof.Machine.execRecomputeBand s
  | .bandCorrected => Sys2Proof.Machine.execBandCorrected s
  | .entryStepBegin => Sys2Proof.Machine.execEntryStepBegin s
  | .entryStepComplete ecc => Sys2Proof.Machine.execEntryStepComplete ecc s
  | .repaymentWrite ecc => Sys2Proof.Machine.execRepaymentWrite ecc s
  | .refreshCredit pc => Sys2Proof.Machine.execRefreshCredit pc s
  | .refreshPay pc => Sys2Proof.Machine.execRefreshPay pc s
  | .stackTempRead tempC => Sys2Proof.Machine.execStackTempRead tempC s
  | .rfmIssue pc bank acts => Sys2Proof.Machine.execRfmIssue pc bank acts s
  | .throttleExpire port => Sys2Proof.Machine.execThrottleExpire port s
  | .powerDownEntry pc => Sys2Proof.Machine.execPowerDownEntry pc s
  | .selfRefreshRequest => Sys2Proof.Machine.execSelfRefreshRequest s
  | .eccCeReport => Sys2Proof.Machine.execEccCeReport s
  | .sillFetchDone ecc => Sys2Proof.Machine.execSillFetchDone ecc s
  | .positionSlot fy fx stageOk blankReq twinId => Sys2Proof.Machine.execPositionSlot fy fx stageOk blankReq twinId s
  | .enterWaitSos => Sys2Proof.Machine.execEnterWaitSos s
  | .stripeArm => Sys2Proof.Machine.execStripeArm s
  | .stripeDone => Sys2Proof.Machine.execStripeDone s
  | .stripeOutcome => Sys2Proof.Machine.execStripeOutcome s
  | .stallTimeout => Sys2Proof.Machine.execStallTimeout s
  | .fbHoldExpire => Sys2Proof.Machine.execFbHoldExpire s
  | .flashCountClear => Sys2Proof.Machine.execFlashCountClear s
  | .linkEnable w => Sys2Proof.Machine.execLinkEnable w s
  | .linkDisable w => Sys2Proof.Machine.execLinkDisable w s
  | .relatch w => Sys2Proof.Machine.execRelatch w s
  | .knockSend => Sys2Proof.Machine.execKnockSend s
  | .knockTimeout => Sys2Proof.Machine.execKnockTimeout s
  | .knockReply h => Sys2Proof.Machine.execKnockReply h s
  | .latchStart => Sys2Proof.Machine.execLatchStart s
  | .laneStatus h => Sys2Proof.Machine.execLaneStatus h s
  | .latchTimeout => Sys2Proof.Machine.execLatchTimeout s
  | .openTimeout => Sys2Proof.Machine.execOpenTimeout s
  | .authResponse h => Sys2Proof.Machine.execAuthResponse h s
  | .authTimeout => Sys2Proof.Machine.execAuthTimeout s
  | .trimAck h => Sys2Proof.Machine.execTrimAck h s
  | .trimRetry => Sys2Proof.Machine.execTrimRetry s
  | .frameStatus h => Sys2Proof.Machine.execFrameStatus h s
  | .frameStatusMissing frame => Sys2Proof.Machine.execFrameStatusMissing frame s
  | .doneStatusWaitExpire => Sys2Proof.Machine.execDoneStatusWaitExpire s
  | .backchannelTimeout lane => Sys2Proof.Machine.execBackchannelTimeout lane s
  | .naluHello seq role stepping fw die lanes => Sys2Proof.Machine.execNaluHello seq role stepping fw die lanes s
  | .naluAck ackSeq state fenced => Sys2Proof.Machine.execNaluAck ackSeq state fenced s
  | .naluAckTimer => Sys2Proof.Machine.execNaluAckTimer s
  | .naluResend seq => Sys2Proof.Machine.execNaluResend seq s
  | .naluLinkLost => Sys2Proof.Machine.execNaluLinkLost s
  | .naluLaneDrop lane => Sys2Proof.Machine.execNaluLaneDrop lane s
  | .naluEntry seq ring index raw => Sys2Proof.Machine.execNaluEntry seq ring index raw s
  | .naluCommitSet seq commitId mask set crcs => Sys2Proof.Machine.execNaluCommitSet seq commitId mask set crcs s
  | .naluTableChunk seq tableId offset data => Sys2Proof.Machine.execNaluTableChunk seq tableId offset data s
  | .naluFetched seq ring index => Sys2Proof.Machine.execNaluFetched seq ring index s
  | .naluSig seq step dose blocks => Sys2Proof.Machine.execNaluSig seq step dose blocks s
  | .naluRecompute seq step round kind mask => Sys2Proof.Machine.execNaluRecompute seq step round kind mask s
  | .recomputeDone ecc => Sys2Proof.Machine.execRecomputeDone ecc s
  | .naluResult seq step round dose blocks ecc => Sys2Proof.Machine.execNaluResult seq step round dose blocks ecc s
  | .voteClose step ecc => Sys2Proof.Machine.execVoteClose step ecc s
  | .naluVerdict seq step doseV blockV => Sys2Proof.Machine.execNaluVerdict seq step doseV blockV s
  | .naluBlock seq step depth data => Sys2Proof.Machine.execNaluBlock seq step depth data s
  | .naluDecision seq flash outcome => Sys2Proof.Machine.execNaluDecision seq flash outcome s
  | .naluMissList seq flash => Sys2Proof.Machine.execNaluMissList seq flash s
  | .naluFinding seq kind point code => Sys2Proof.Machine.execNaluFinding seq kind point code s
  | .naluFence seq cause hard flash => Sys2Proof.Machine.execNaluFence seq cause hard flash s
  | .naluEvent seq raw => Sys2Proof.Machine.execNaluEvent seq raw s
  | .naluOutcome seq record holes => Sys2Proof.Machine.execNaluOutcome seq record holes s
  | .naluHoles seq first holes => Sys2Proof.Machine.execNaluHoles seq first holes s
  | .naluSoloTimeout => Sys2Proof.Machine.execNaluSoloTimeout s
  | .nlkRejoin w => Sys2Proof.Machine.execNlkRejoin w s
  | .nlkFence w => Sys2Proof.Machine.execNlkFence w s
  | .rejoinTimeout => Sys2Proof.Machine.execRejoinTimeout s
  | .sensorRead temps => Sys2Proof.Machine.execSensorRead temps s
  | .calRunNow w => Sys2Proof.Machine.execCalRunNow w s
  | .calGapOpen => Sys2Proof.Machine.execCalGapOpen s
  | .calItemDone item m => Sys2Proof.Machine.execCalItemDone item m s
  | .calGapEnd => Sys2Proof.Machine.execCalGapEnd s
  | .calOverdue => Sys2Proof.Machine.execCalOverdue s
  | .deriveGo w => Sys2Proof.Machine.execDeriveGo w s
  | .deriveDone => Sys2Proof.Machine.execDeriveDone s
  | .trimStore eraseOk programOk validOk => Sys2Proof.Machine.execTrimStore eraseOk programOk validOk s
  | .bistRequest w => Sys2Proof.Machine.execBistRequest w s
  | .bistDone misr count code ms => Sys2Proof.Machine.execBistDone misr count code ms s
  | .bistWatchdog misr count => Sys2Proof.Machine.execBistWatchdog misr count s
  | .bistPreconditionLoss => Sys2Proof.Machine.execBistPreconditionLoss s
  | .parkEnter => Sys2Proof.Machine.execParkEnter s
  | .parkSaveDone => Sys2Proof.Machine.execParkSaveDone s
  | .parkBistDone ran runs entryMs bistMs => Sys2Proof.Machine.execParkBistDone ran runs entryMs bistMs s
  | .parkWake => Sys2Proof.Machine.execParkWake s
  | .counterConfig b k w => Sys2Proof.Machine.execCounterConfig b k w s
  | .counterFreeze w => Sys2Proof.Machine.execCounterFreeze w s
  | .slotClear w => Sys2Proof.Machine.execSlotClear w s
  | .snapshotEnable w => Sys2Proof.Machine.execSnapshotEnable w s
  | .snapshotGo => Sys2Proof.Machine.execSnapshotGo s
  | .snapshotPeriod => Sys2Proof.Machine.execSnapshotPeriod s
  | .powerLoss => Sys2Proof.Machine.execPowerLoss s
  | .railsUp resetHigh => Sys2Proof.Machine.execRailsUp resetHigh s
  | .selfRefreshReentry => Sys2Proof.Machine.execSelfRefreshReentry s

end Sys2Proof.Machine
end

