-- ==== Sys2Proof/Safety.lean ====
section
/-! DEFINITION. The words that the statements use: a safe run, the invariant of the memories, and what a command
leaves unchanged. -/

namespace Sys2Proof

/-- The step answers a next state: neither a fault nor a refusal. -/
def Safe (s : Machine.State) : Prop := ∃ t, Machine.step s = .next t

namespace Machine

/-- The three memories are in their canonical form. -/
def State.MemoriesWf (s : State) : Prop :=
  Memory.wf s.host = true ∧ Memory.wf s.hbm = true ∧ Sparse.wf flashByte s.flash = true

/-- The memories of `t` are those of `s`, byte for byte. -/
def SameMemories (s t : State) : Prop := t.host = s.host ∧ t.hbm = s.hbm ∧ t.flash = s.flash

/-- The memories of `t` are those of `s` but for the 32 bytes of one entry at host address `slot`. -/
def MemoriesBut (slot : Nat) (s t : State) : Prop :=
  t.hbm = s.hbm ∧ t.flash = s.flash ∧
  ∀ a, a < slot ∨ slot + 32 ≤ a → Memory.byte t.host a = Memory.byte s.host a

/-- The slot that the next device event of this chip goes to (R71, R426). -/
def State.devSlot (s : State) : Nat := (s.evRing s.devEq).slot

/-- Of the register fields only those in `fs` may differ. -/
def RegsBut (fs : List Field) (s t : State) : Prop := ∀ f : Field, f.key ∉ fs.map Field.key → t.reg f = s.reg f

/-- Of the register fields only those in `fs`, and those of the HIF's window (which an event may count or pend in), may
differ. -/
def RegsButHif (fs : List Field) (s t : State) : Prop :=
  ∀ f : Field, f.key ∉ fs.map Field.key → keyBlock f.key ≠ 1 → t.reg f = s.reg f

/-- The state without what an event may change: register fields, host memory, the host interface, the Nalu link and the
power state of its block, the counters, the events held in PARK. Two states with equal `quiet` agree in everything else. -/
def State.quiet (s : State) : State :=
  { s with regs := [], host := [], hif := .reset, nlk := .reset, pmu := .reset, bst := .reset
           power := setAt s.power 11 .run }

/-- A write over PCIe to the word at `a` reaches its register (R60, R349, R395, R404): the chip's state answers it, its
block is not OFF, and no block is under test. -/
abbrev State.writeLands (s : State) (a : Nat) : Prop :=
  s.takesWrite a = true ∧ s.pwr (a / 0x10000) ≠ .off ∧ s.bst.test = none

/-- Entry `e` of ring `q`, with this OPC, is the one that acts next, with nothing in its way: rings are serviced, it
is the first of its OPC whose action has not begun and may begin, R117 lets it act, and no block is under test. -/
abbrev State.acts (s : State) (q opc : Nat) (e : Entry) : Prop :=
  s.serviced = true ∧ s.nextEntry q opc = some e ∧ s.gate e.raw = .go ∧ s.bst.test = none

/-- The index, with its epoch, of the entry that ring `q` has next. -/
def State.nextIdx (s : State) (q : Nat) : Nat := (s.ring q).cons + 2 ^ 32 * (s.ring q).epoch

/-- CONTROL ring `q` of a lead has a well-formed COMMIT next that R77 lets the engine take and R117 does not refuse, with no
block under test. -/
abbrev State.mayCommit (s : State) (q : Nat) : Prop :=
  s.serviced = true ∧ s.isMirror = false ∧ s.commitNext q = true ∧ s.orderLets q = true ∧
    malformed 7 (s.nextRaw q) = false ∧ s.gate (s.nextRaw q) = .go ∧ s.bst.test = none

/-- The slot that the completion of an entry of ring `q` goes to (R71, R426). -/
def State.cplSlot (s : State) (q : Nat) : Nat := (s.evRing (s.ring q).eq).slot

/-- A Nalu message with this SEQ is the next one and is delivered (R354): the lanes run, the link is up, and no block is
under test. -/
abbrev State.arrives (s : State) (seq : Nat) : Prop :=
  s.naluRuns = true ∧ s.nlk.linkUp = true ∧ seq = s.nlk.rxSeq ∧ s.bst.test = none

/-- A Nalu message with this SEQ is not taken (R354, R404). -/
abbrev State.passesBy (s : State) (seq : Nat) : Prop :=
  s.naluServes = false ∨ s.nlk.linkUp = false ∨ seq ≠ s.nlk.rxSeq

/-- The message with this SEQ has arrived (R354), which is work for NLK (R393). -/
def State.took (s : State) (seq : Nat) : State :=
  (s.wakeBlock 11).modNlk (fun n => { n with rxSeq := (seq + 1) % 2 ^ 16 })

/-- A record of the head with this TYPE and payload is heard (R330, R341): the chip is in service, a copy of the record
decodes whole and its CRC holds, it has its TYPE's LEN, and it tells nothing new about the lanes. -/
abbrev State.hears (s : State) (h : BackCopies) (type : Nat) (p : List Byte) : Prop :=
  s.serviced = true ∧ heardCopy h = some (type, p) ∧ backLen type = some p.length ∧
    (s.shl.watching = true → s.reg SHL_BC.GOOD = 3)

/-- The registers that an error on a read of HBM3 is recorded in (R283, R284). -/
def eccFields : List Field :=
  [HMC_ECC_CE.COUNT, HMC_ECC_UE.COUNT, HMC_ECC_ADDR.ADDR, HMC_ECC_INFO.UE, HMC_ECC_INFO.ON_DIE, HMC_ECC_INFO.PORT,
    HMC_ECC_INFO.PC]

/-- The registers that the end of a stripe's stream quiets (R101, R203, R220). -/
def pathFields : List Field :=
  [PRS_STATUS.ACTIVE, PRS_STATUS.LAST_STATUS, PRS_STATUS.LAST_REASON, PRS_STATUS.STALL_LAQ, PRS_STATUS.STALL_AHEAD,
    PRS_STATUS.STARVED, PRS_TSTORE.LINES, PRS_TSTORE.LOCKED, CSM_STATUS.WAIT_BUF] ++
  (List.range 32).map DMA_CH_STATUS.HELD

/-- The fields of MGT_RESET_CAUSE. -/
abbrev resetCauses : List Field := [MGT_RESET_CAUSE.POWER_ON, MGT_RESET_CAUSE.RESET_PIN, MGT_RESET_CAUSE.CHIP,
  MGT_RESET_CAUSE.PERST, MGT_RESET_CAUSE.WAKE]

/-- What waits for a DMA channel or an engine: an entry whose action has not begun, a scan, a witness with its
capture. -/
abbrev State.nothingWaits (s : State) : Prop :=
  s.hif.entries.all (·.started) = true ∧ s.scanWait = [] ∧ s.pec.witnesses.all (·.capture.isNone) = true

/-- The slot with frames `fy` and `fx` decides the next flash of the stripe `st` in RUN, on a chip without a partner (R293,
R302, R303): both frames are good, the pair is accepted, and it lies at or beyond the target. -/
abbrev State.decides (s : State) (st : Stripe) (fy fx : BitVec 50) : Prop :=
  s.serviced = true ∧ s.pwr 9 ≠ .off ∧ s.port.locked = true ∧ s.nlk.paired = false ∧ s.working = true ∧ s.g = .run ∧
    s.stripe = some st ∧ st.st = .run ∧ frameSync fy = true ∧ frameSync fx = true ∧ frameCheck fy = true ∧
    frameCheck fx = true ∧ frameValid fy = true ∧ frameValid fx = true ∧ s.glitch (frameWord fy) = false ∧
    s.port.yf ≤ frameWord fy ∧ s.target st.req st.nextFlash ≤ frameWord fy

/-- At the next slot the minimum time since the last fire mark and the time of the segment that started at slot `a` are
past (R303). -/
abbrev State.timesPast (s : State) (st : Stripe) (a : Nat) : Prop :=
  (∀ w, st.lastFire = some w → w + s.reg EMS_EFF.TMIN_EFF ≤ s.port.slots) ∧ a + s.reg EMS_EFF.SEG_SLOTS ≤ s.port.slots

/-- The stripe that `s` held is ABORTED in `t` with this cause and holds FAULT_BLANK_N (R296, R300); HBM3 is
unchanged. -/
def AbortedBy (cause : Nat) (s t : State) : Prop :=
  t.g = .run ∧ t.reg EMS_STATE.CAUSE = cause ∧ t.hbm = s.hbm ∧
  ∃ st st', s.stripe = some st ∧ t.stripe = some st' ∧ st'.st = .aborted ∧ st'.cause = cause ∧ st'.fbHold = true ∧
    st'.req = st.req ∧ st'.fired = st.fired ∧ t.lastOutcome = st'.record

end Machine

end Sys2Proof
end

