-- ==== Sys2Proof/Certificates/Slice0/Obligations.lean ====
section
/-! DEFINITION. The statements for the provers. -/

/-- With a command at the front of the queue, a step is that command's effect on the state with the queue's rest. -/
def Obligations.StepRunsFrontCommand : Prop :=
  ∀ (c : Sys2Proof.Instr) (rest : List Sys2Proof.Instr) (s : Sys2Proof.Machine.State),
    Sys2Proof.Machine.step { s with pending := c :: rest } = Sys2Proof.Machine.exec c { s with pending := rest }

section Statements

open Sys2Proof Sys2Proof.Machine

/-! ## The machine as a whole -/

/-- On an empty queue a step is one core-clock cycle (log entry 12, the model's choice): CC advances in the states
that service rings (R87, R417), and no memory, stripe, table or global state changes. -/
def Obligations.IdleStepIsOneCycle : Prop :=
  ∀ s : State, s.pending = [] → ∃ t, step s = .next t ∧ t.pending = [] ∧
    t.cc = s.cc + b2n s.serviced ∧ SameMemories s t ∧ t.g = s.g ∧ t.stripe = s.stripe ∧ t.shl = s.shl ∧
    t.tabLive = s.tabLive ∧ t.prot = s.prot ∧ t.fence = s.fence

/-- The state after reset: OFF, no stripe, no ring entry, no fence, every register field at the reset value of its
field table, staged and live, and memories in canonical form. Where the table gives none, for the causes of
MGT_RESET_CAUSE and the MSI-X table, the value is the model's (log entries 2 and 9). -/
def Obligations.ResetState : Prop :=
  State.reset.g = .off ∧ State.reset.pending = [] ∧ State.reset.stripe = none ∧ State.reset.waiting = none ∧
  State.reset.hif.entries = [] ∧ State.reset.fence = none ∧ State.reset.prot.windows = [] ∧
  State.reset.prot.headKey = none ∧ State.reset.shl.st = .down ∧ State.reset.tabLive = .cold ∧
  (∀ f : Field, State.reset.reg f = f.reset ∧ State.reset.lv f = f.reset) ∧ State.reset.MemoriesWf

/-- Every step from every state with canonical memories gives a state with canonical memories. -/
def Obligations.StepKeepsMemoriesCanonical : Prop :=
  ∀ s t : State, s.MemoriesWf → step s = .next t → t.MemoriesWf

/-- A posted device event changes nothing but the 32 bytes of the next entry of the ring that DEV_EQ names, the HIF's
registers and queues, the Nalu link, the counters and the events held in PARK (R87 to R91, R352, R400, R426); in OFF
and SAFE it changes nothing (R425). Completing an entry changes host memory at most in the 32 bytes of the next entry
of its ring's event ring, and nothing but the HIF and the counters; an OK entry without NOTIFY posts nothing (R76,
R426). -/
def Obligations.EventFrames : Prop :=
  (∀ (s : State) (code status info d0 d1 : Nat),
    (s.postDev code status info d0 d1).quiet = s.quiet ∧
    MemoriesBut s.devSlot s (s.postDev code status info d0 d1) ∧
    RegsButHif [] s (s.postDev code status info d0 d1) ∧
    (s.g = .off ∨ s.g = .safe → s.postDev code status info d0 d1 = s)) ∧
  (∀ (s : State) (q idx status info d0 d1 : Nat),
    let t := s.complete q idx status info d0 d1
    t.quiet = s.quiet ∧ t.nlk = s.nlk ∧ t.bst = s.bst ∧ RegsButHif [] s t ∧
    MemoriesBut (s.evRing (s.ring q).eq).slot s t ∧
    (s.entry? q idx = none → t = s) ∧ t.entry? q idx = none ∧
    (∀ e, s.entry? q idx = some e → status = 0 → rawNotify e.raw = false → t = s.dropEntry q idx))

/-! ## Reset, start-up and SAFE -/

/-- A fall of RESET_N with the rails in range (R54, R97, R98): OFF, the clocks and THERM_N off, RESET_PIN set; from PARK
the stack's contents stay, and with a park tag the protected items and the park image too, but not what the last
protection sequence left; from every other running
state HBM3, the protected items, the tables and the stripe are lost. What stands outside the chip stays. Without rails
only the ball moves. The rails go: OFF, and HBM3, the park tag, every protected item and every register are lost (R57,
R97); the rails come up: POWER_ON is set and the engine stays OFF (R53). Host memory and serial flash are not the
chip's. A rise of RESET_N after at least 10 µs low with the rails in range starts the engine from OFF and samples
TWIN_ID; the path is the quick one exactly when the park tag is held; the serial flash is as a programmer left it
(R46). A shorter low leaves the engine in OFF (R43,
R53, R57). That a fall in PARK clears what the last sequence left is the model's choice (log entry 105), and so is what
a shorter low does, and what a fall does without rails (log entries 10 and 11). -/
def Obligations.ResetPinAndRails : Prop :=
  ((∀ s : State, s.aon.rails = true → ∃ t, exec .resetNFall s = .next t ∧ t.g = .off ∧ t.aon.resetHigh = false ∧
    t.aon.seenLow = true ∧ t.aon.rootLock = false ∧ t.aon.therm0 = false ∧ t.aon.therm1 = false ∧
    t.reg MGT_RESET_CAUSE.RESET_PIN = 1 ∧ t.host = s.host ∧ t.flash = s.flash ∧ t.pending = s.pending ∧
    (s.g = .park → t.hbm = s.hbm) ∧
    (s.g = .park → s.bst.tag.isSome = true → t.bst = s.bst ∧ t.prot = { s.prot with
      pending := none, lastItem := 0, lastLen := 0, lastCrc := 0, lastNonce := 0, smbReply := [], smbAlert := false }) ∧
    (s.g ≠ .park → s.g ≠ .off → t.hbm = [] ∧ t.stripe = none ∧ t.prot.windows = [] ∧ t.prot.headKey = none ∧
      t.tabLive = .cold ∧ t.hif.entries = [])) ∧
  (∀ s : State, s.aon.rails = false →
    exec .resetNFall s = .next { s with aon := { s.aon with resetHigh := false, seenLow := true } })) ∧
  ((∀ s : State, ∃ t, exec .powerLoss s = .next t ∧ t.g = .off ∧ t.aon.rails = false ∧ t.hbm = [] ∧ t.host = s.host ∧
    t.flash = s.flash ∧ t.bst.tag = none ∧ t.prot.windows = [] ∧ t.prot.headKey = none ∧ t.prot.beamAuth = none ∧
    t.prot.flashWe = false ∧ t.prot.pmuUser = false ∧ t.stripe = none ∧
    (∀ f : Field, f.key ≠ MGT_RESET_CAUSE.POWER_ON.key → t.reg f = f.reset)) ∧
  (∀ (s : State) (high : Bool), s.aon.rails = false → ∃ t, exec (.railsUp high) s = .next t ∧ t.g = s.g ∧
    t.aon.rails = true ∧ t.aon.resetHigh = high ∧ t.aon.seenLow = !high ∧ t.reg MGT_RESET_CAUSE.POWER_ON = 1 ∧
    SameMemories s t ∧ RegsBut [MGT_RESET_CAUSE.POWER_ON] s t ∧ t.bst = s.bst)) ∧
  (∀ (s : State) (us : Nat) (twin : Bool) (speed width : Nat) (prog : Cells), s.aon.resetHigh = false → s.g = .off →
    s.aon.rails = true → s.aon.seenLow = true →
    ∃ t, exec (.resetNRise us twin speed width prog) s = .next t ∧ t.aon.resetHigh = true ∧ t.aon.twinPin = twin ∧
    t.host = s.host ∧ t.hbm = s.hbm ∧ t.flash = prog.foldl (fun m c => Sparse.set flashByte m c.1 c.2) s.flash ∧
    t.prot = s.prot ∧ { t.bst with wakeAsked := s.bst.wakeAsked } = s.bst ∧
    (10 ≤ us → t.g = .start ∧ t.phase = .boot ∧ t.quick = s.bst.tag.isSome ∧ t.isMirror = twin ∧ t.cfg.speed = speed ∧
      t.cfg.width = width ∧ RegsBut (BST_PARK.PHASE :: CAL_STATUS.GAPS :: (List.range 6).map CAL_ITEM_STATUS.RUNS) s t) ∧
    (us < 10 → t.g = .off ∧ t.isMirror = s.isMirror ∧ t.regs = s.regs))

/-- START goes through its phases (R57, R58, R268, R386): root lock, with which the Nalu lanes train, the firmware
image of the good slot with the higher version (none: SAFE with SAFE_CAUSE 2), training in which every measured lane
passes, the device trims. That the Nalu lanes train from root lock on is the model's choice (log entry 86). -/
def Obligations.StartPhases : Prop :=
  (∀ s : State, s.g = .start → s.phase = .boot → ∃ t, exec .rootPllLock s = .next t ∧ t.g = .start ∧ t.phase = .locked ∧
    t.aon = { s.aon with rootLock := true, refclk := true } ∧ SameMemories s t ∧ RegsBut [NLK_STATE.LANES_UP] s t ∧
    t.nlk.linkUp = false ∧ t.nlk.lanes.length = 8 ∧ (∀ l ∈ t.nlk.lanes, l.mode = .latchSets)) ∧
  (∀ (s : State) (a b : Option FwImage), s.g = .start → s.phase = .locked → s.quick = false →
    ∃ t, exec (.firmwareImageCheck a b) s = .next t ∧ SameMemories s t ∧
      (∀ im, chooseImage a b = some im → t.g = .start ∧ t.phase = .imaged ∧
        t.reg MGT_REV.FW_VERSION = im.version % 2 ^ 16 ∧ t.bst.expect = im.expect ∧
        (a = some im ∨ b = some im) ∧ ∀ x, a = some x ∨ b = some x → x.version ≤ im.version) ∧
      (a = none → b = none → t.g = .safe ∧ t.reg MGT_STATE.SAFE_CAUSE = 2)) ∧
  (∀ (s : State) (found : List TrainFinding) (imt mmt : Nat), s.g = .start →
    (s.quick = true ∧ s.phase = .locked ∨ s.quick = false ∧ s.phase = .imaged) → (∀ f ∈ found, findingFails f = false) →
    ∃ t, exec (.hbmTraining found imt mmt) s = .next t ∧ t.g = .start ∧ t.phase = .stackUp ∧
      t.reg HMC_STATUS.TRAINED = 1 ∧ t.reg HMC_STATUS.SELF_REFRESH = 0 ∧ SameMemories s t) ∧
  (∀ s : State, s.g = .start → s.phase = (if s.quick then .restored else .stackUp) →
    ∃ t, exec .deviceTrimRead s = .next t ∧ t.g = .start ∧ t.phase = .trimsRead ∧ t.flash = s.flash ∧ t.hbm = s.hbm ∧
      (∀ k, s.activeSlot = some k → t.reg CAL_STATUS.TRIMS_VALID = 1 ∧ t.host = s.host) ∧
      (s.activeSlot = none → t.reg CAL_STATUS.TRIMS_VALID = 0 ∧ t.reg CAL_TRIM_SEQ.SEQ = 0xFFFFFFFF))

/-- The full self-test of a cold start, which comes after the RCAL phase (R57, R59, R383, R407): with every expected test
passed START goes on; a first NOT_RUN stands in the results of every expected block and is retried; a second, or a
failure, holds the engine in SAFE with SAFE_CAUSE 1. An item 3 that the port has not let run by then ends with NOT_RUN
and stays due. Before the RCAL phase is over the test does not begin (log entry 10). Start-up ends in READY with CC at 0 and the park tag cleared; with PARK_REQ_N high the engine stays in READY, with LINK_EN at 1 it
knocks (R57, R331), and with PARK_REQ_N low it parks at once or waits to (R44, R396). That READY clears the park tag
is the model's reading (log entry 45). -/
def Obligations.StartEnds : Prop :=
  ((∀ (s : State) (runs : List BistRun), s.g = .start → s.phase = .trimsRead → s.quick = false → s.startCalDone = true →
    ∃ t, exec (.fullSelfTest true runs) s = .next t ∧ SameMemories s t ∧
      (s.bistAllPass 1 runs = true → t.g = .start ∧ t.phase = .tested) ∧
      (s.bistAllPass 1 runs = false → t.g = .safe ∧ t.reg MGT_STATE.SAFE_CAUSE = 1) ∧
      (s.itemDue 3 = true → s.pwr 13 ≠ .off → t.reg (CAL_ITEM_STATUS.LAST_STATUS 3) = 0x0A ∧
        bit (t.reg CAL_STATUS.DUE) 3 = true)) ∧
  (∀ (s : State) (runs : List BistRun), s.g = .start → s.phase = .trimsRead → s.quick = false → s.startCalDone = true →
    (s.bst.retried = false → (∀ e ∈ s.bst.expect, e.block < 16) →
      ∃ t, exec (.fullSelfTest false runs) s = .next t ∧ t.bst = { s.bst with retried := true } ∧
      t.g = .start ∧ t.phase = .trimsRead ∧ SameMemories s t ∧
      (∀ e ∈ s.bst.expect, e.kind = 1 → t.reg (BST_RESULT.STATUS e.block) = 0x0A ∧ t.reg (BST_RESULT.CODE e.block) = 0x3C ∧
        t.reg (BST_RESULT.KIND e.block) = 1) ∧
      (∀ f : Field, keyBlock f.key ≠ 14 → f.key ∉ [CAL_ITEM_STATUS.LAST_STATUS 3, CAL_STATUS.DUE].map Field.key →
        t.reg f = s.reg f)) ∧
    (s.bst.retried = true → ∃ t, exec (.fullSelfTest false runs) s = .next t ∧ t.g = .safe ∧
      t.reg MGT_STATE.SAFE_CAUSE = 1)) ∧
  (∀ (s : State) (ran : Bool) (runs : List BistRun), s.startCalDone = false → exec (.fullSelfTest ran runs) s = .next s)) ∧
  ((∀ (s : State) (ms : Nat), s.g = .start → s.phase = (if s.quick then .trimsRead else .tested) →
    (s.quick = true → s.startCalDone = true) → s.aon.parkHigh = false →
    ∃ t, exec (.readyReached ms) s = .next t ∧ (t.g = .park ∨ t.g = .ready ∧ t.bst.strapReq = true)) ∧
  ∀ (s : State) (ms : Nat), s.g = .start → s.phase = (if s.quick then .trimsRead else .tested) →
    (s.quick = true → s.startCalDone = true) → s.aon.parkHigh = true →
    ∃ t, exec (.readyReached ms) s = .next t ∧ t.g = .ready ∧ t.cc = 0 ∧ t.bst.tag = none ∧ t.bst.heldEvents = [] ∧
      t.hbm = s.hbm ∧ t.flash = s.flash ∧ t.prot = s.prot ∧ t.stripe = s.stripe ∧
      t.reg MGT_STATE.QUICK = b2n s.quick ∧
      (s.reg SHL_CTRL.LINK_EN = 1 → t.shl.st = .knock) ∧ (s.reg SHL_CTRL.LINK_EN ≠ 1 → t.shl = s.shl))

/-- If any rail falls below its monitor trip level for 2 µs or longer, the chip fences itself and enters SAFE with
SAFE_CAUSE 5 (R55): in every state but OFF, where nothing runs. That the cause replaces the one of a chip already in
SAFE is the model's choice (log entry 101). The memories stay, unless VDD_CORE ends a test for which writes were held,
which then land (R407). -/
def Obligations.RailTripEntersSafe : Prop :=
  ∀ (s : State) (rail us : Nat), 2 ≤ us → s.g ≠ .off →
    ∃ t, exec (.railTrip rail us) s = .next t ∧ t.g = .safe ∧ t.reg MGT_STATE.SAFE_CAUSE = 5 ∧
      t.fence.isSome = true ∧ t.stripe = none ∧
      (rail ≠ 0 ∨ s.bst.test.all (·.held.isEmpty) = true → t.hbm = s.hbm ∧ t.flash = s.flash)

/-- Loss of REFCLK or of root lock fences the chip hard and puts it into SAFE with SAFE_CAUSE 4; the shutter link's
lanes stop (R23, R56). Writes held for a test that this ends land first (R407). That the link is then DOWN is the model's reading (log entry 94), that the cause replaces the
one of a chip already in SAFE its choice (log entry 101), and so that a dip of a rail below 2 µs, or in OFF, changes
nothing (log entry 10). -/
def Obligations.ClockLossEntersSafe : Prop :=
  (∀ (s : State) (ref : Bool), s.aon.rootLock = true ∨ ref = true ∧ s.aon.refclk = true → s.g ≠ .off →
    ∃ t, exec (.clockLoss ref) s = .next t ∧ t.g = .safe ∧ t.reg MGT_STATE.SAFE_CAUSE = 4 ∧
      t.fence.any (·.hard) = true ∧ t.stripe = none ∧ t.aon.rootLock = false ∧ t.aon.refclk = (s.aon.refclk && !ref) ∧
      (s.bst.test.all (·.held.isEmpty) = true → t.hbm = s.hbm ∧ t.flash = s.flash ∧
        t.fence = (if s.fence.any (·.hard) then s.fence else some ⟨0x0D, true⟩) ∧
        (s.fence.any (·.hard) = false → t.shl.st = .down))) ∧
  (∀ (s : State) (rail us : Nat), us < 2 ∨ s.g = .off → exec (.railTrip rail us) s = .next s)

/-- A write to MGT_RESET without KEY 0x3C3C is ignored as a whole; with it, CHIP_RESET sets REFUSED and does nothing
else while a stripe is ARMED or RUN, and otherwise starts the cold path with the protected items kept (R59, R97). -/
def Obligations.ChipResetNeedsKey : Prop :=
  ∀ (s : State) (w : Word), s.writeLands 0x20 →
    (w.toNat / 2 ^ 16 ≠ 0x3C3C → exec (.chipReset w) s = .next s) ∧
    (w.toNat / 2 ^ 16 = 0x3C3C → s.stripeActive = true → ∃ r, exec (.chipReset w) s = .next { s with regs := r } ∧
      State.reg { s with regs := r } MGT_RESET.REFUSED = 1 ∧ RegsBut [MGT_RESET.REFUSED] s { s with regs := r }) ∧
    (w.toNat / 2 ^ 16 = 0x3C3C → s.stripeActive = false → ∃ t, exec (.chipReset w) s = .next t ∧ t.g = .start ∧
      t.phase = .boot ∧ t.quick = false ∧ t.reg MGT_RESET_CAUSE.CHIP = 1 ∧ t.prot.windows = s.prot.windows ∧
      t.prot.headKey = s.prot.headKey ∧ t.prot.flashWe = s.prot.flashWe ∧ t.prot.pmuUser = s.prot.pmuUser ∧
      SameMemories s t ∧ t.stripe = none ∧ t.hif.entries = [] ∧ t.fence = none ∧ t.tabLive = .cold)

/-- A host reset (R61, R67) from any of its three sources, in every state after START: every ring disabled, every
entry taken gone, no stripe waiting, no COMMIT waiting; the live tables, HBM3 and serial flash stay. In START nothing is
reset. The error registers of AER outlive all but PERST_N, and a
function in D3hot enters it no more: that is the PCIe family's and the model's (log entry 100). -/
def Obligations.HostResets : Prop :=
  (∀ (s : State) (speed width : Nat), s.g = .start → exec (.functionLevelReset speed width) s = .next s) ∧
  ∀ (s : State) (speed width : Nat), s.g ≠ .off → s.g ≠ .start →
    ∃ t, exec (.functionLevelReset speed width) s = .next t ∧
      (s.cfg.d3 = false → exec (.d3hotEntry speed width) s = .next { t with cfg := { t.cfg with d3 := true } }) ∧
      (∃ c, exec (.perstNFall speed width) s = .next ({ t with cfg := c }.setReg MGT_RESET_CAUSE.PERST 1) ∧
        c.uncStatus = 0 ∧ c.corStatus = 0 ∧ c.speed = speed ∧ c.width = width) ∧
      t.hif.entries = [] ∧ t.waiting = none ∧ t.commits.waiting = [] ∧ t.hif.awaitDevEq = true ∧
      t.cfg.uncStatus = s.cfg.uncStatus ∧ t.cfg.corStatus = s.cfg.corStatus ∧ t.cfg.speed = speed ∧ t.cfg.msixOn = false ∧
      t.tabLive = s.tabLive ∧
      (∀ q, q < 64 → t.sqOn q = false) ∧ (∀ e, e < 8 → t.eqOn e = false) ∧ t.hbm = s.hbm ∧ t.flash = s.flash

/-! ## Rings, polling and events -/

/-- A poll happens only on a chip that services rings, polls and is not the mirror, with the doorbell page inside a
live window (R70, R109); otherwise DOORBELL_POLL changes nothing but what the host wrote. A poll changes no HBM3 byte,
no flash byte, no stripe and no live table while no CONTROL ring is enabled, and ends with no further poll owed. With one
well-formed entry new on one ring, and none on the others, the poll takes it: it stands last among the entries taken, the
ring's index has moved on by one, and the doorbell page shows the index (R70, R74, R76); a COMMIT taken is copied and
validated at that moment (R34, R92), and in a stripe waits. A nudge is a poll, and on a
chip that services rings and is not the mirror one that comes while a poll is under way asks for one more. Setting DB_EN
starts polling, with POLL_US held between 1 and 1,000 (R70, R109). -/
def Obligations.PollingIsGuarded : Prop :=
  (∀ (s : State) (hw : Cells),
    (s.hif.pollAgain = false →
      (s.serviced = false ∨ s.hif.polling = false ∨ s.isMirror = true ∨ s.inWindow s.page 4096 = false) →
      exec (.doorbellPoll hw) s = .next (s.hostWrites hw)) ∧
    (∃ t, exec (.doorbellPoll hw) s = .next t ∧ t.hif.pollAgain = false ∧
      ((∀ q, q < 64 → s.sqOn q = true → s.sqType q ≠ 7) → t.hbm = s.hbm ∧ t.flash = s.flash ∧
        t.stripe = s.stripe ∧ t.g = s.g ∧ t.tabLive = s.tabLive ∧ t.prot = s.prot)) ∧
    (s.serviced = true → s.isMirror = false → ∃ t, exec (.nudge true hw) s = .next t ∧ t.hif.pollAgain = true ∧
      t.hif.entries = s.hif.entries ∧ t.host = Memory.apply s.host hw ∧ t.regs = s.regs) ∧
    (s.hif.pollAgain = false → exec (.nudge false hw) s = exec (.doorbellPoll hw) s)) ∧
  (∀ (s : State) (hw : Cells) (q : Nat), s.serviced = true → s.hif.polling = true → s.isMirror = false → s.bst.test = none →
    s.hif.pollAgain = false → s.hif.hold = [] → s.hif.lostToPost = 0 → s.parkWaiting = false → q < 64 →
    q < s.hif.sq.length → s.sqOn q = true → s.sqType q ≠ 2 → s.reg (HIF_SQ_CFG.HALTED q) = 0 →
    let u := s.hostWrites hw
    let r := s.ring q
    let raw := u.nextRaw q
    u.inWindow u.page 4096 = true → u.inWindow (r.base + r.cons % r.size * 64) 64 = true → 0 < r.size →
    u.hostWord (u.page + 4 * q) = (r.cons + 1) % 2 ^ 32 → r.written ≠ (r.cons + 1) % 2 ^ 32 →
    (∀ q', q' < 64 → q' ≠ q → s.sqOn q' = false ∨ u.hostWord (u.page + 4 * q') = (s.ring q').cons) →
    malformed (s.sqType q) raw = false → u.orderLets q = true →
    let idx := r.cons + 2 ^ 32 * r.epoch
    ∃ t, exec (.doorbellPoll hw) s = .next t ∧
      (rawOpc raw ≠ 0x60 → t.hif.entries = s.hif.entries ++ [u.heldEntry q idx raw]) ∧
      (t.ring q).cons = (r.cons + 1) % 2 ^ 32 ∧
      t.hostWord (s.page + 0x200 + 4 * q) = (r.cons + 1) % 2 ^ 32 ∧
      (rawOpc raw = 0x60 → num raw 8 4 ≠ 0 → s.gate raw = .go → s.stripeActive = true →
        let c := s.takeSet q idx (num raw 8 4) (num raw 12 4)
        s.refusing c = none → c.storesTrims = false → t.commits.waiting = s.commits.waiting ++ [c] ∧ t.live = s.live)) ∧
  (∀ (s : State) (w : Word), s.writeLands 0x10008 →
    ∃ t, exec (.doorbellEnable w) s = .next t ∧ t.hif.polling = true ∧ t.reg HIF_CTRL.DB_EN = 1 ∧
      t.reg HIF_CTRL.POLL_US = min 1000 (max 1 (bits (w ||| 1#32).toNat 8 10)) ∧
      t.reg HIF_CTRL.DEV_EQ = bits (w ||| 1#32).toNat 18 3 ∧ t.quiet = s.quiet ∧ t.hif.sq = s.hif.sq ∧
      t.hif.entries = s.hif.entries)

/-- Enabling a submission ring (R73, R100): a legal enable starts it at index 0 with the base and size of its
registers, which its event ring is one of, and binds a STREAM ring to a channel; an illegal one sets REFUSED and leaves it
disabled. `sqMayEnable` counts a STREAM channel that a disable unbound, and that still runs a request, as not free: the
model's choice (log entry 135). Disabling it
leaves the entries taken. Enabling an event ring starts a first pass (R88): PHASE 1, index 0; with nothing held,
nothing is written. -/
def Obligations.RingEnables : Prop :=
  (∀ (s : State) (q : Nat) (w : Word), q < 64 → q < s.hif.sq.length → s.writeLands (0x11008 + 16 * q) →
    (s.sqOn q = false →
      let x := (w ||| 1#32).toNat
      let u := ((s.setReg (HIF_SQ_CFG.TYPE q) (bits x 8 4)).setReg (HIF_SQ_CFG.LOG2SIZE q) (bits x 12 5)).setReg
        (HIF_SQ_CFG.EQ q) (bits x 17 3)
      ∃ t, exec (.sqEnable q w) s = .next t ∧ { t.quiet with chans := s.chans } = s.quiet ∧ t.host = s.host ∧
        t.hif.entries = s.hif.entries ∧ (∀ ch, (t.chan ch).req = (s.chan ch).req) ∧
        (bits x 8 4 ≠ 2 → t.chans = s.chans) ∧
        (u.sqMayEnable q = true → bits x 8 4 = 2 → ∀ ch, u.freeStreamChan = some ch → ch < s.chans.length →
          (t.chan ch).ring = some q ∧ t.reg (DMA_CH_STATUS.BOUND ch) = 1 ∧ t.reg (DMA_CH_STATUS.RING ch) = q) ∧
        (u.sqMayEnable q = true → t.sqOn q = true ∧ t.reg (HIF_SQ_CFG.HALTED q) = 0 ∧ (t.ring q).cons = 0 ∧
          (t.ring q).base = s.reg (HIF_SQ_BASE.ADDR q) ∧ (t.ring q).size = 2 ^ bits x 12 5 ∧ (t.ring q).eq = bits x 17 3) ∧
        (u.sqMayEnable q = false → t.sqOn q = false ∧ t.reg (HIF_SQ_CFG.REFUSED q) = 1 ∧ t.hif = s.hif)) ∧
    (s.sqOn q = true → ∃ t, exec (.sqDisable q w) s = .next t ∧ t.sqOn q = false ∧ t.mayTake q = false ∧
      t.hif = s.hif ∧ t.quiet = s.quiet ∧ t.host = s.host)) ∧
  (∀ (s : State) (e : Nat) (w : Word), e < 8 → e < s.hif.eq.length → s.writeLands (0x12008 + 32 * e) → s.eqOn e = false →
    6 ≤ bits (w ||| 1#32).toNat 8 5 → bits (w ||| 1#32).toNat 8 5 ≤ 16 → s.hif.hold = [] → s.hif.lostToPost = 0 →
    s.hif.awaitDevEq = false →
    ∃ t, exec (.eqEnable e w) s = .next t ∧ t.eqOn e = true ∧ (t.evRing e).prod = 0 ∧ (t.evRing e).phase = 1 ∧
      (t.evRing e).size = 2 ^ bits (w ||| 1#32).toNat 8 5 ∧ (t.evRing e).base = s.reg (HIF_EQ_BASE.ADDR e) ∧
      SameMemories s t ∧ t.quiet = s.quiet)

/-- EVENT_QUEUE_DRAIN (R89): one event held is written as soon as its ring has room, otherwise kept; of several held for
one ring the oldest go, as many as there is room for, and the others stay in order, on a chip that polls with the
consumer index read anew. An event goes to the ring it was held for, whatever DEV_EQ says since (log entry 13). With
nothing held any more, one events-lost entry tells of the events discarded (R89, R426). The time condition of R90: the
ring raises its vector, which covers every event written; a vector that is masked, by itself or with its function, or
without MSI-X enabled, pends. -/
def Obligations.EventsLeave : Prop :=
  (∀ (s : State) (hw : Cells) (e : Nat) (ev : Event), s.serviced = true → s.hif.polling = false → e < s.hif.eq.length →
    s.hif.hold = [⟨e, ev⟩] → s.hif.lostToPost = 0 →
    let u := { s.hostWrites hw with hif := { s.hif with hold := [] } }
    ∃ t, exec (.eventQueueDrain hw) s = .next t ∧ t.quiet = s.quiet ∧ t.hif.entries = s.hif.entries ∧
      (u.mayWrite e ev = true → t.hif.hold = [] ∧ (t.evRing e).prod = ((s.evRing e).prod + 1) % 2 ^ 32) ∧
      (u.mayWrite e ev = false → t.hif.hold = [⟨e, ev⟩] ∧ t.host = Memory.apply s.host hw)) ∧
  (∀ (s : State) (hw : Cells), s.serviced = true → s.hif.awaitDevEq = false →
    let u := if s.hif.polling = true ∧ s.inWindow s.page 4096 = true then (s.hostWrites hw).readCons else s.hostWrites hw
    (∀ (e : Nat) (evs : List Event), s.eqOn e = true → e < s.hif.eq.length → s.hif.hold = evs.map (HeldEvent.mk e) →
      s.hif.lostToPost = 0 → evs.length ≤ 4032 → 0 < (s.evRing e).size → (s.evRing e).size ≤ 2 ^ 16 →
      (s.evRing e).prod < 2 ^ 32 → s.inWindow (s.evRing e).base ((s.evRing e).size * 32) = true →
      let n := min evs.length ((s.evRing e).size - idxDiff (s.evRing e).prod (u.evRing e).consSeen)
      ∃ t, exec (.eventQueueDrain hw) s = .next t ∧ t.quiet = s.quiet ∧ t.hif.entries = s.hif.entries ∧
        t.hif.hold = (evs.drop n).map (HeldEvent.mk e) ∧ (t.evRing e).prod = ((s.evRing e).prod + n) % 2 ^ 32) ∧
    (s.hif.hold = [] → s.hif.lostToPost ≠ 0 →
      let lost : Event := ⟨0, 3, 0, 0xFF, 0, 0, s.hif.lostToPost, 0⟩
      ∃ t, exec (.eventQueueDrain hw) s = .next t ∧ t.quiet = s.quiet ∧ t.hif.entries = s.hif.entries ∧
        (u.mayWrite s.devEq lost = true → t.hif.lostToPost = 0 ∧
          t.host = Memory.write u.host u.devSlot (eventBytes lost 0 s.timeUs (s.evRing s.devEq).phase)) ∧
        (u.mayWrite s.devEq lost = false → t = u))) ∧
  (∀ (s : State) (e : Nat), e < s.hif.eq.length →
    let v := s.reg (HIF_EQ_CFG.VECTOR e) % 64
    (s.eqOn e = true → s.reg (HIF_EQ_MOD.TIME_US e) ≠ 0 → (s.evRing e).uncovered ≠ 0 →
      ∃ t, exec (.eqModTimer e) s = .next t ∧ (t.evRing e).uncovered = 0 ∧ t.quiet = s.quiet ∧ t.host = s.host ∧
        (s.vectorOpen v = false → t.reg (MSIX.PENDING v) = 1 ∧ t.hif.msi = s.hif.msi) ∧
        (s.vectorOpen v = true → t.hif.msi = v :: s.hif.msi ∧ t.regs = s.regs)) ∧
    (s.reg (HIF_EQ_MOD.TIME_US e) = 0 → exec (.eqModTimer e) s = .next s))

/-! ## Entries of the rings -/

/-- ARM_STRIPE (R79): an entry is validated when it is taken: one that breaks R79's list is held with the answer
REJECTED, one on an engine without trims with UNCALIBRATED; acted on, the first completes with REJECTED, as does one of a
joined pair whose partner has a block at OFF, the second with UNCALIBRATED, and any other waits to arm. ABORT_STRIPE
(R80), with every earlier ARM_STRIPE of its ring acted on, of a stripe that is neither held nor waiting completes with
REJECTED and does nothing else; of one that waits to arm ends it unarmed with cause 0x01; of one in WAIT_SOS or ARMED
aborts it and returns to IDLE; of one in RUN or TAIL leaves it ABORTED with cause 0x01. Each then completes with OK. A
stripe whose ARM_STRIPE stands behind the ABORT_STRIPE is not acted on (R77). That `armAnswer` answers in a pair for the
chip's own trims alone (log entry 136), and that the partner's OFF block comes as the operand `off` (log entry 126), are the
model's choices. -/
def Obligations.StripeEntries : Prop :=
  (∀ (s : State) (q idx : Nat) (raw : List Byte), rawOpc raw = 0x01 →
    (s.heldEntry q idx raw).answer = (if s.armBreaks (armOf q idx raw) = true then 0x09
      else if s.reg MGT_STATE.UNCAL = 1 then 0x12 else 0)) ∧
  (∀ (s : State) (q : Nat) (off : Bool) (e : Entry), s.acts q 0x01 e → s.waiting = none →
    (e.answer = 0x09 ∨ s.joined = true ∧ off = true →
      exec (.armStripe q off) s = .next (s.complete e.q e.idx 0x09 0 0 0)) ∧
    (e.answer = 0x12 → s.joined = false ∨ off = false →
      exec (.armStripe q off) s = .next (s.complete e.q e.idx 0x12 0 0 0)) ∧
    (e.answer ≠ 0x09 → e.answer ≠ 0x12 → s.joined = false ∨ off = false →
      ∃ t, exec (.armStripe q off) s = .next t ∧ t.waiting = some (armOf e.q e.idx e.raw) ∧ t.stripe = s.stripe ∧ t.g = s.g ∧
        t.regs = s.regs ∧ SameMemories s t ∧ (t.entry? e.q e.idx).isSome = true)) ∧
  (∀ (s : State) (q : Nat) (off : Bool) (e : Entry), s.acts q 0x02 e →
    (s.entriesBefore e.q e.idx).all (fun x => rawOpc x.raw != 0x01 || x.started) = true →
    let id := num e.raw 8 4
    (s.liveStripe.all (fun st => st.req.id != id || e.before st.req) = true →
      s.waiting.all (fun r => r.id != id || e.before r) = true →
      exec (.abortStripe q off) s = .next (s.complete e.q e.idx 0x09 0 0 0)) ∧
    (∀ r, s.liveStripe.all (fun st => st.req.id != id || e.before st.req) = true → s.waiting = some r → r.id = id →
      e.before r = false →
      exec (.abortStripe q off) s = .next ((s.endUnarmed true r 0x01).complete e.q e.idx 0x00 0 0 0) ∧
      ∃ t, exec (.abortStripe q off) s = .next t ∧ t.waiting = none ∧ t.stripe = s.stripe ∧ t.g = s.g ∧
        t.reg EMS_STATE.CAUSE = 1 ∧ t.hbm = s.hbm ∧ t.entry? e.q e.idx = none) ∧
    (∀ st, s.liveStripe = some st → st.req.id = id → e.before st.req = false →
      exec (.abortStripe q off) s = .next ((s.abortStripe 0x01).complete e.q e.idx 0x00 0 0 0) ∧
      ∃ t, exec (.abortStripe q off) s = .next t ∧ t.entry? e.q e.idx = none ∧
        (st.st = .armed ∨ st.st = .waitSos → t.stripe = none ∧ t.g = .ready ∧ t.hbm = s.hbm) ∧
        (st.st = .run ∨ st.st = .tail → AbortedBy 0x01 s t)))

/-- STREAM_BUF (R81, R101, R107): on a free STREAM channel bound to the ring, the next buffer of the stripe in work
becomes the channel's request, its bytes still to be read. -/
def Obligations.StreamBufStarts : Prop :=
  ∀ (s : State) (q ch : Nat) (hw : Cells) (st : Stripe) (u : State) (e : Entry), s.serviced = true → s.isMirror = false →
    s.sqType q = 2 → (s.ring q).discard = [] → s.liveStripe = some st → s.streamChan q = some ch →
    st.req.streamSq = q → s.cdc.feed.lastTaken = false → (s.chan ch).req = none → s.reg (DMA_CH_STATUS.HALTED ch) = 0 →
    ch < s.chans.length → (s.hostWrites hw).nextBuf q = (u, some e) →
    ∃ t, exec (.streamBuf q hw) s = .next t ∧
      (let b := streamOf e.raw
       (b.id = st.req.id → b.pass = st.req.pass → u.cdc.feed.raw = none → b.len ≠ 0 → u.inWindow b.addr b.len = true →
         t.cdc.feed.raw = some b.raw ∧ t.cdc.feed.lastTaken = b.last ∧
         ∃ r, (t.chan ch).req = some r ∧ r.q = e.q ∧ r.idx = e.idx ∧ r.piece.addr = b.addr ∧ r.piece.len = b.len ∧
           r.piece.moved = 0 ∧ r.next = b.link ∧ r.delivered = 0))

/-- LOAD_TABLE and SAVE_TABLE (R82, R101): a zero length completes with EMPTY, an unknown table or a range past its end
with REJECTED; any other starts on the lowest-numbered free TABLE channel, or waits for one. TRANSFER_COMPLETE (R82,
R110) of a load on a chip without a partner: the bytes reach the staged copy of the table and nothing else of the tables,
and the entry completes with OK; with a wrong CRC the staged copy stays and it completes with BAD_CHECK; of a load that a
joined pair shares, once nothing of it is on its way to the partner, with OK (R351). TRANSFER_COMPLETE of a save: the
live bytes stand in host memory, which changes nowhere else but in the completion's slot, and the entry completes with OK
and their CRC-32C in DATA0. -/
def Obligations.TableTransfers : Prop :=
  (∀ (s : State) (q : Nat) (e : Entry) (hw : Cells) (load : Bool),
    (if load then (s.hostWrites hw).acts q 0x20 e else hw = [] ∧ s.acts q 0x21 e) →
    let u := s.hostWrites hw
    let t0 := tableOf e.raw
    let c : Instr := if load then .loadTable q hw else .saveTable q
    (t0.len = 0 → exec c s = .next (u.complete e.q e.idx 0x01 0 0 0)) ∧
    (t0.len ≠ 0 → s.tableBad t0 = true → exec c s = .next (u.complete e.q e.idx 0x09 0 0 0)) ∧
    (t0.len ≠ 0 → s.tableBad t0 = false → u.freeChan 3 = none → exec c s = .next u) ∧
    (t0.len ≠ 0 → s.tableBad t0 = false → ∀ ch, u.freeChan 3 = some ch → ch < s.chans.length →
      u.inWindow t0.addr t0.len = true → ∃ t, exec c s = .next t ∧ t.tabLive = s.tabLive ∧ t.tabStaged = s.tabStaged ∧
        t.stripe = s.stripe ∧ SameMemories u t ∧ (t.entry? e.q e.idx).isSome = true ∧
        (t.chan ch).req = some ⟨e.q, e.idx, ⟨t0.addr, t0.len, 0, 0, 0⟩, 0, 0, t0.len, 0⟩)) ∧
  (∀ (s : State) (ch : Nat) (r : Request) (e : Entry), s.serviced = true → dmaClass ch = 2 → ch < s.chans.length →
    (s.chan ch).req = some r → s.reg (DMA_CH_STATUS.WAKE_WAIT ch) = 0 → s.entry? r.q r.idx = some e →
    s.hif.entries = [e] →
    let t0 := tableOf e.raw
    let r' := { r with piece := { r.piece with moved := t0.len }, delivered := t0.len }
    t0.ofMirror = false →
    (rawOpc e.raw = 0x20 → s.joined = false → r.piece.moved ≠ t0.len →
      let bs := Memory.bytes s.host t0.addr t0.len
      let w := (s.modChan ch (fun c => { c with req := some r' })).count 2 0x10 t0.len
      ∃ t, exec (.transferComplete ch) s = .next t ∧ t.tabLive = s.tabLive ∧ (t.chan ch).req = none ∧ t.hif.entries = [] ∧
        t.hbm = s.hbm ∧
        (crc32c 0 bs = t0.check → t.tabStaged = s.tabStaged.write t0.table t0.offset bs ∧
          t.reg (DMA_CH_STATUS.LAST_STATUS ch) = 0x00 ∧
          t = { w with tabStaged := w.tabStaged.write t0.table t0.offset bs }.endReq ch 0x00 0 t0.check 0) ∧
        (crc32c 0 bs ≠ t0.check → t.tabStaged = s.tabStaged ∧ t.reg (DMA_CH_STATUS.LAST_STATUS ch) = 0x07 ∧
          t = w.endReq ch 0x07 0 (crc32c 0 bs) 0)) ∧
    (rawOpc e.raw = 0x20 → r.piece.moved = t0.len → s.sending t0.id = false →
      exec (.transferComplete ch) s = .next (s.endReq ch 0x00 0 t0.check 0)) ∧
    (rawOpc e.raw = 0x21 →
      let bs := s.tabLive.bytes t0.table t0.offset t0.len
      let w := (({ s with host := Memory.write s.host t0.addr bs }.count 2 0x11 t0.len).saveOver r.q r.idx).modChan ch
        (fun c => { c with req := some r' })
      ∃ t, exec (.transferComplete ch) s = .next t ∧ t = w.endReq ch 0x00 0 (crc32c 0 bs) 0 ∧ t.tabLive = s.tabLive ∧
        t.tabStaged = s.tabStaged ∧ (t.chan ch).req = none ∧ t.hif.entries = [] ∧ t.hbm = s.hbm ∧
        t.reg (DMA_CH_STATUS.LAST_STATUS ch) = 0x00 ∧
        (∀ i, i < t0.len → (t0.addr + i < s.cplSlot r.q ∨ s.cplSlot r.q + 32 ≤ t0.addr + i) →
          Memory.byte t.host (t0.addr + i) = bs.getD i 0#8) ∧
        ∀ a, (a < t0.addr ∨ t0.addr + t0.len ≤ a) → (a < s.cplSlot r.q ∨ s.cplSlot r.q + 32 ≤ a) →
          Memory.byte t.host a = Memory.byte s.host a))

/-- DESCRIPTOR_FETCH (R104 to R108). With the piece in work moved whole, the next descriptor is read: a well-formed one
whose data lies within the windows becomes the piece in work and counts as a hop, whatever else the chip does; a
malformed one stops the channel of a chip that holds no stripe, with its request gone and the channel halted. That a
NEXT that is no multiple of 32 is read as it stands is the model's choice (log entry 110). -/
def Obligations.DescriptorFetched : Prop :=
  ∀ (s : State) (ch : Nat) (hw : Cells) (r : Request), s.serviced = true → dmaClass ch = 1 → ch < s.chans.length →
    (s.chan ch).req = some r → r.piece.moved = r.piece.len → r.next ≠ 0 → r.hops < 4096 →
    s.reg (DMA_CH_STATUS.WAKE_WAIT ch) = 0 → s.inWindow r.next 32 = true →
    let d := descOf (Memory.bytes (Memory.apply s.host hw) r.next 32)
    (d.bad = false → d.len = 0 ∨ s.inWindow d.range.1 d.range.2 = true →
      ∃ t, exec (.descriptorFetch ch hw) s = .next t ∧
        (t.chan ch).req = some { r with
          hops := r.hops + 1, named := r.named + d.len, next := d.next,
          piece := ⟨d.addr, d.len, d.swap, if d.wrap then d.wrapLog2 else 0, 0⟩ } ∧
        t.reg (DMA_CH_STATUS.HALTED ch) = s.reg (DMA_CH_STATUS.HALTED ch) ∧
        RegsBut [DMA_CH_STATUS.HELD ch] s t ∧ t.host = Memory.apply s.host hw ∧ t.flash = s.flash ∧
        (∀ a, Memory.byte t.hbm a = Memory.byte s.hbm a) ∧ t.hif = s.hif ∧ t.stripe = s.stripe ∧ t.g = s.g) ∧
    (d.bad = true → s.liveStripe = none →
      ∃ t, exec (.descriptorFetch ch hw) s = .next t ∧ (t.chan ch).req = none ∧
        t.reg (DMA_CH_STATUS.HALTED ch) = 1 ∧ t.reg (DMA_CH_STATUS.CAUSE ch) = 4 ∧
        t.reg (DMA_CH_STATUS.LAST_STATUS ch) = 8 ∧ t.stripe = s.stripe)

/-- A SCAN with LEN 0 and CTX 0 completes with EMPTY and DATA0 = SEED; with LEN 0 and CTX 1 the engine reads the 8 B
at SEED_ADDR and completes with OK, with that value in DATA0. It writes nothing back (R122): the state changes by the
completion alone. -/
def Obligations.EmptyScan : Prop :=
  ∀ (s : State) (q : Nat) (hw : Cells) (e : Entry), (s.hostWrites hw).acts q 0x40 e →
    let u := s.hostWrites hw
    let p := scanOf e.raw
    u.scanBad p = false → p.len = 0 →
    (p.ctx ≠ 1 → exec (.scan q hw) s = .next (u.complete e.q e.idx 0x01 0 p.seed 0)) ∧
    (p.ctx = 1 → exec (.scan q hw) s = .next (u.complete e.q e.idx 0x00 0 (unle (Memory.bytes u.host p.seedAddr 8)) 0))

/-- A SCAN with data takes the lowest-numbered engine it may (R121, R124): the engine holds its range, polynomial and
starting value, and nothing is written to memory yet. A SCAN that R121 refuses completes with REJECTED and takes none.
A scan ends (R120, R123): its value over all its bytes stands in CHK_ENG_VAL, goes to SEED_ADDR when that is not 0,
and its entry completes; host memory changes nowhere else but in the completion's slot. Which ranges R121 refuses is
read as log entry 21 says; bytes of HBM3 that the model does not hold give a free value (log entry 15). -/
def Obligations.ScanRuns : Prop :=
  (∀ (s : State) (q : Nat) (hw : Cells) (e : Entry), (s.hostWrites hw).acts q 0x40 e →
    let u := s.hostWrites hw
    let p := scanOf e.raw
    ∃ t, exec (.scan q hw) s = .next t ∧ t.hbm = s.hbm ∧ t.stripe = s.stripe ∧ t.tabLive = s.tabLive ∧
      (u.scanBad p = true → t = u.complete e.q e.idx 0x09 0 0 0 ∧ t.scans = s.scans ∧ t.chans = s.chans ∧
        t.entry? e.q e.idx = none ∧ MemoriesBut (u.cplSlot e.q) u t) ∧
      (u.scanBad p = false → p.len ≠ 0 → ∀ k, u.freeEngine = some k → k < s.scans.length →
        t.scans.getD k none = some ⟨e.q, e.idx, p.addr, p.len, u.scanStart p, p.poly, p.space, p.seedAddr, 0⟩ ∧
        SameMemories u t ∧ t.reg (CHK_ENG_VAL.VAL k) = u.scanStart p % 2 ^ 64)) ∧
  (∀ (s : State) (k : Nat) (sc : Scan) (e : Entry) (r : Request) (ecc : EccReads), s.serviced = true → k < 4 →
    s.reg (DMA_CH_STATUS.WAKE_WAIT (17 + k)) = 0 → s.scans.getD k none = some sc → k < s.scans.length →
    (s.chan (17 + k)).req = some r → 17 + k < s.chans.length → r.q = sc.q → r.idx = sc.idx →
    s.entry? sc.q sc.idx = some e → s.hif.entries = [e] → s.scanWait = [] → ecc.bad = none →
    (sc.space = 1 → hbmUnheld sc.addr sc.len = false) →
    let v := checkValue sc.poly sc.value (Memory.bytes (if sc.space = 1 then s.hbm else s.host) sc.addr sc.len)
    ∃ t, exec (.scanComplete k ecc) s = .next t ∧ t.scans.getD k none = none ∧ t.hif.entries = [] ∧
      t.reg (CHK_ENG_VAL.VAL k) = v % 2 ^ 64 ∧ t.hbm = s.hbm ∧ t.flash = s.flash ∧ t.stripe = s.stripe ∧
      (sc.seedAddr = 0 → MemoriesBut (s.cplSlot sc.q) s t) ∧
      (sc.seedAddr ≠ 0 → (s.cplSlot sc.q + 32 ≤ sc.seedAddr ∨ sc.seedAddr + 8 ≤ s.cplSlot sc.q) →
        (∀ i, i < 8 → Memory.byte t.host (sc.seedAddr + i) = (le 8 v).getD i 0#8) ∧
        ∀ a, (a < sc.seedAddr ∨ sc.seedAddr + 8 ≤ a) → (a < s.cplSlot sc.q ∨ s.cplSlot sc.q + 32 ≤ a) →
          Memory.byte t.host a = Memory.byte s.host a))

/-- COMPRESS and DECOMPRESS (R175, R176, R180): a refused job completes with REJECTED and touches no memory but the
completion's slot; another takes the lowest free engine of its kind and the lowest free CODEC channel. A host codec
job without a state area ends (R175 to R177): its output stands at DST, host memory changes nowhere else but in the
completion's slot, and its engine and channel are free. A preempted host job goes on (R174): on decompressor 3 when
HOST_SHARE is 1 and it is free or the job's own; without a stripe ARMED or RUN on its own engine; otherwise it waits.
Which jobs are refused is read as log entries 20 and 21 say. -/
def Obligations.CodecJobs : Prop :=
  (∀ (s : State) (q : Nat) (hw : Cells) (e : Entry) (comp : Bool),
    (s.hostWrites hw).acts q (if comp then 0x30 else 0x31) e → rawOpc e.raw = (if comp then 0x30 else 0x31) →
    let u := s.hostWrites hw
    let c := codecOf e.raw
    let kind := if comp then 1 else 2
    ∃ t, exec (if comp then .compress q hw else .decompress q hw) s = .next t ∧ t.hbm = s.hbm ∧ t.stripe = s.stripe ∧
      (u.codecBad kind c = true → t = u.complete e.q e.idx 0x09 0 0 0 ∧ t.cdc = s.cdc ∧ t.chans = s.chans ∧
        t.entry? e.q e.idx = none ∧ MemoriesBut (u.cplSlot e.q) u t) ∧
      (u.codecBad kind c = false → c.resume = false → c.srcLen ≠ 0 → ∀ k ch, u.jobEngine kind = some k →
        k < s.cdc.engines.length → u.freeChan 4 = some ch → ch < s.chans.length →
        t.cdc.engines.getD k none = some ⟨e.q, e.idx, kind, ch, false, 0, 0⟩ ∧
        (t.chan ch).req = some ⟨e.q, e.idx, ⟨c.src, c.srcLen, 0, 0, 0⟩, 0, 0, c.srcLen, 0⟩ ∧ t.host = u.host)) ∧
  (∀ (s : State) (k : Nat) (j : CodecJob) (e : Entry) (r : Request), s.serviced = true → k < s.cdc.engines.length →
    s.cdc.engines.getD k none = some j → j.kind = 1 ∨ j.kind = 2 → j.preempted = false → j.ch < s.chans.length →
    s.reg (DMA_CH_STATUS.WAKE_WAIT j.ch) = 0 → s.entry? j.q j.idx = some e → s.hif.entries = [e] →
    (s.chan j.ch).req = some r → r.q = j.q → r.idx = j.idx → s.pec.witnesses = [] →
    let c := codecOf e.raw
    let src := Memory.bytes s.host c.src c.srcLen
    let end0 := if j.kind = 1 then compressJob (AzState.fresh 1) src c.dstLen c.save
      else decompressJob (AzState.fresh 2) src c.dstLen c.save
    c.resume = false → c.state = 0 →
    ∃ t, exec (.codecJobComplete k) s = .next t ∧ t.cdc.engines.getD k none = none ∧ (t.chan j.ch).req = none ∧
      t.hif.entries = [] ∧ t.hbm = s.hbm ∧ t.stripe = s.stripe ∧
      (∀ a, (a < c.dst ∨ c.dst + end0.out.length ≤ a) → (a < s.cplSlot j.q ∨ s.cplSlot j.q + 32 ≤ a) →
        Memory.byte t.host a = Memory.byte s.host a) ∧
      (end0.status ≠ 0x02 → ∀ i, i < end0.out.length →
        (c.dst + i < s.cplSlot j.q ∨ s.cplSlot j.q + 32 ≤ c.dst + i) →
        Memory.byte t.host (c.dst + i) = end0.out.getD i 0#8)) ∧
  (∀ (s : State) (k : Nat) (j : CodecJob), k < 4 → s.cdc.engines.length = 6 → s.cdc.engines.getD k none = some j →
    j.preempted = true → s.hif.entries.all (·.started) = true →
    (s.lv CDC_CTRL.HOST_SHARE = 1 → k = 3 ∨ s.cdc.engines.getD 3 none = none →
      ∃ t, exec (.codecJobResume k) s = .next t ∧ t.cdc.engines.getD 3 none = some { j with preempted := false } ∧
        (k ≠ 3 → t.cdc.engines.getD k none = none) ∧ SameMemories s t ∧ t.hif = s.hif) ∧
    (s.lv CDC_CTRL.HOST_SHARE ≠ 1 → s.stripeActive = false →
      ∃ t, exec (.codecJobResume k) s = .next t ∧ t.cdc.engines.getD k none = some { j with preempted := false } ∧
        SameMemories s t ∧ t.hif = s.hif) ∧
    (s.lv CDC_CTRL.HOST_SHARE ≠ 1 → s.stripeActive = true → exec (.codecJobResume k) s = .next s))

/-- AZRAD_BLOCK (R169 to R172): a block of the held stripe's coded stream that stands whole in its decompressor's input,
and passes every check, hands its bytes on in stream order: to the parser, but for those from the STRIPE_END record on,
which wait for the END block. The feed moves on to the next block; the stream and the stripe stay otherwise as they
are. -/
def Obligations.AzradBlockPasses : Prop :=
  ∀ (s : State) (st : Stripe) (ch : Nat) (ecc : EccReads), s.liveStripe = some st → s.streamChan st.req.streamSq = some ch →
    s.cdc.feed.raw = some false → s.working = true → s.reg (DMA_CH_STATUS.HALTED s.feedChan) = 0 →
    s.inputFull = false → s.stagedCount ch = 0 → s.cdc.feed.dec.phase ≠ 3 →
    let f := s.cdc.feed
    let r := Dec.block ((bitsOf f.buf).length + 1) f.dec (bitsOf f.buf)
    r.stop = .ended →
    ∃ t, exec (.azradBlock ecc) s = .next t ∧ t.cdc.feed.block = f.block + 1 ∧ t.cdc.feed.dec = r.dec ∧
      t.cdc.feed.buf = f.buf.drop (r.bits / 8) ∧ t.prs.input ++ t.cdc.feed.tail = s.prs.input ++ f.tail ++ r.out ∧
      (r.dec.phase = 3 → t.cdc.feed.tail = []) ∧ t.stripe = s.stripe ∧ SameMemories s t ∧ t.hif = s.hif

/-- A WITNESS that is taken (R85, R235): one that names no stripe ARMED, RUN or waiting, a band or a pane outside it, or
too small a buffer completes with REJECTED; the seventeenth held with BUSY; one whose pane has entered correction with
NOT_RUN; any other is held until its band is corrected, and writes nothing yet. `witnessHeld` counts a witness from its
entry to its completion, the model's reading (log entry 64), and that BUSY stands before NOT_RUN is the model's choice (log
entry 161). WITNESS (R184,
R235): a compressor that holds a witness writes the Azrad stream of its capture's copy in HBM3 at DST, when the buffer
lies in a window, completes the entry, and is free. -/
def Obligations.Witnesses : Prop :=
  (∀ (s : State) (q : Nat) (e : Entry), s.acts q 0x50 e →
    let w := witnessOf e.raw
    ∃ t, exec (.witness q) s = .next t ∧ t.hbm = s.hbm ∧ t.stripe = s.stripe ∧ t.tabLive = s.tabLive ∧
      (s.namedStripe w.id w.pass = none ∨
        (∃ r, s.namedStripe w.id w.pass = some r ∧ (bandsOf r.rows ≤ w.band ∨ 15 < w.paneX ∨ w.dstLen < 327784)) →
        t = s.complete e.q e.idx 0x09 0 0 0 ∧ t.pec = s.pec ∧ t.entry? e.q e.idx = none ∧
        MemoriesBut (s.cplSlot e.q) s t) ∧
      (∀ r, s.namedStripe w.id w.pass = some r → w.band < bandsOf r.rows → w.paneX ≤ 15 → 327784 ≤ w.dstLen →
        (16 ≤ s.witnessHeld → t = s.complete e.q e.idx 0x11 0 0 0) ∧
        (s.witnessHeld < 16 → s.stripe.any (fun st => st.req == r) = true → s.paneEntered w.band w.paneX = true →
          t = s.complete e.q e.idx 0x0A 0 0 0)) ∧
      (∀ r, s.namedStripe w.id w.pass = some r → w.band < bandsOf r.rows → w.paneX ≤ 15 → 327784 ≤ w.dstLen →
        s.witnessHeld < 16 → s.paneEntered w.band w.paneX = false →
        (s.stripe.any (fun st => st.req == r) = true → s.liveStripe.isSome = true) →
        t.pec = { s.pec with witnesses := s.pec.witnesses ++ [⟨e.q, e.idx, w.id, w.pass, w.paneX, w.band, none⟩] } ∧
        SameMemories s t)) ∧
  (∀ (s : State) (k : Nat) (j : CodecJob) (e : Entry) (r : Request) (ecc : EccReads), s.serviced = true →
    k < s.cdc.engines.length → s.cdc.engines.getD k none = some j → j.kind = 3 → j.ch < s.chans.length → ecc.bad = none →
    s.reg (DMA_CH_STATUS.WAKE_WAIT j.ch) = 0 → s.entry? j.q j.idx = some e → s.hif.entries = [e] →
    (s.chan j.ch).req = some r → r.q = j.q → r.idx = j.idx → s.pec.witnesses = [] →
    let w := witnessOf e.raw
    let out := azradStream (Memory.bytes s.hbm (witnessCopy j.copy) captureBytes)
    s.inWindow w.dst w.dstLen = true →
    ∃ t, exec (.witnessComplete k ecc) s = .next t ∧ t.cdc.engines.getD k none = none ∧ (t.chan j.ch).req = none ∧
      t.hif.entries = [] ∧ t.hbm = s.hbm ∧ t.stripe = s.stripe ∧
      (∀ a, (a < w.dst ∨ w.dst + out.length ≤ a) → (a < s.cplSlot j.q ∨ s.cplSlot j.q + 32 ≤ a) →
        Memory.byte t.host a = Memory.byte s.host a) ∧
      (∀ i, i < out.length → (w.dst + i < s.cplSlot j.q ∨ s.cplSlot j.q + 32 ≤ w.dst + i) →
        Memory.byte t.host (w.dst + i) = out.getD i 0#8))

/-! ## Commit sets -/

/-- When a COMMIT names NLK, NLK refuses the set with reason 0x01 if LOSS_LIMIT is 0, and with reason 0x02 if SOLO is
set on a chip whose role is mirror (R373); the lower code where both hold, and none otherwise. -/
def Obligations.NaluCommitRefusals : Prop :=
  ∀ (s : State) (c : PendingCommit), s.refusal c 11 =
    if c.val NLK_CTRL.LOSS_LIMIT = 0 then some 0x01
    else if c.val NLK_CTRL.SOLO = 1 ∧ s.isMirror = true then some 0x02 else none

/-- The PMU has no commit fields. A COMMIT that names it validates and changes nothing (R422): its part of a set is
empty and never refused; a COMMIT that names the PMU alone is accepted outside a stripe with status OK, and no live
field and no table changes. -/
def Obligations.CommitOfPmuIsEmpty : Prop :=
  commitFields 15 = [] ∧ blockTables 15 = [] ∧
  (∀ (s : State) (q idx id : Nat), (s.takeSet q idx (2 ^ 15) id).fields = [] ∧ (s.takeSet q idx (2 ^ 15) id).tables = [] ∧
    s.refusing (s.takeSet q idx (2 ^ 15) id) = none ∧ (s.takeSet q idx (2 ^ 15) id).storesTrims = false) ∧
  (∀ (s : State) (q : Nat), s.mayCommit q →
    let raw := s.nextRaw q
    num raw 8 4 = 2 ^ 15 → s.stripeActive = false → s.commits.waiting = [] →
    ∃ t, exec (.commit q) s = .next t ∧ t.live = s.live ∧ t.tabLive = s.tabLive ∧ t.tabStaged = s.tabStaged ∧
      t.entry? q (s.nextIdx q) = none ∧ t.reg MGT_CMT_STATUS.LAST_STATUS = 0 ∧
      t.reg MGT_CMT_LAST_ID.COMMIT_ID = num raw 12 4)

/-- COMMIT (R34, R92, R93): the set is copied and validated when its entry is taken. A set that a block refuses changes no
live field and no live table, and MGT_CMT_STATUS names the lowest refusing block and its reason; a set that none refuses
waits, whole, while a stripe is ARMED or RUN. Outside a stripe a valid COMMIT takes effect at once (R34, R35, R92): every
commit field of every block it names goes live with the value that was staged when the entry was taken, and every table of
those blocks with that staged copy. A set that waited takes effect at the end of the stripe as it was copied: no later
write of a register or a staged table reaches it. -/
def Obligations.CommitSets : Prop :=
  (∀ (s : State) (q : Nat), s.mayCommit q →
    let raw := s.nextRaw q
    let c := s.takeSet q (s.nextIdx q) (num raw 8 4) (num raw 12 4)
    num raw 8 4 ≠ 0 →
    ∃ t, exec (.commit q) s = .next t ∧
      (∀ k r, s.refusing c = some (k, r) → k < 16 → r < 256 → t.live = s.live ∧ t.tabLive = s.tabLive ∧
        t.tabStaged = s.tabStaged ∧ t.commits = s.commits ∧ t.reg MGT_CMT_STATUS.LAST_STATUS = 0x09 ∧
        t.reg MGT_CMT_STATUS.LAST_BLOCK = k ∧ t.reg MGT_CMT_STATUS.LAST_REASON = r ∧ t.entry? q (s.nextIdx q) = none ∧
        MemoriesBut (s.cplSlot q) s t) ∧
      (s.refusing c = none → c.storesTrims = false →
        (s.stripeActive = true → t.live = s.live ∧ t.tabLive = s.tabLive ∧
          t.commits.waiting = s.commits.waiting ++ [c] ∧ SameMemories s t ∧ (t.entry? q (s.nextIdx q)).isSome = true) ∧
        (s.stripeActive = false → s.commits.waiting = [] → s.commits.behind = [] → t.commits.waiting = [] ∧
          (∀ k f, k < 16 → bit (num raw 8 4) k = true → f ∈ commitFields k → t.lv f = s.reg f % 2 ^ f.width) ∧
          (∀ id, 1 ≤ id → id ≤ 9 → bit (num raw 8 4) (tableBlock id) = true → t.tabLive.get id = s.tabStaged.get id) ∧
          (∀ id, 1 ≤ id → id ≤ 9 → bit (num raw 8 4) (tableBlock id) = false → t.tabLive.get id = s.tabLive.get id)))) ∧
  (∀ (s s0 : State) (st : Stripe) (q idx mask id : Nat), s.stripe = some st → st.st = .aborted → st.outcomeDone = true →
    let c := s0.copySet q idx mask id
    s.commits.waiting = [c] → s.changesTrims c = false →
    ∃ t, exec .fbHoldExpire s = .next t ∧ t.commits.waiting = [] ∧
      (∀ k f, k < 16 → bit mask k = true → f ∈ commitFields k → t.lv f = s0.reg f % 2 ^ f.width) ∧
      (∀ id, 1 ≤ id → id ≤ 9 → bit mask (tableBlock id) = true → t.tabLive.get id = s0.tabStaged.get id) ∧
      (∀ id, 1 ≤ id → id ≤ 9 → bit mask (tableBlock id) = false → t.tabLive.get id = s.tabLive.get id))

/-- BARRIER (R86) holds the CONTROL ring back, and completes as soon as it is the oldest entry taken. Where a command
does not apply, that nothing changes is the model's choice (log entry 10). -/
def Obligations.BarrierWaits : Prop :=
  (∀ (s : State) (q : Nat) (e : Entry), s.serviced = true → s.nextControl q 0x61 = some e →
    ∃ t, exec (.barrier q) s = .next t ∧ SameMemories s t ∧ t.regs = s.regs ∧ t.quiet = s.quiet ∧
      t.hif.entries = s.hif.entries.map (fun x => if x.q = q ∧ x.idx = e.idx then { x with started := true } else x) ∧
      t.nextControl q 0x60 = none) ∧
  (∀ (s : State) (e : Entry) (rest : List Entry), s.serviced = true → s.hif.entries = e :: rest → e.started = true →
    rawOpc e.raw = 0x61 → ∃ t, exec .barrierDone s = .next t ∧ t.entry? e.q e.idx = none ∧ t.quiet = s.quiet ∧
      MemoriesBut (s.cplSlot e.q) s t) ∧
  (∀ (s : State) (e : Entry) (rest : List Entry), s.hif.entries = e :: rest → rawOpc e.raw ≠ 0x61 →
    exec .barrierDone s = .next s)

/-! ## Protection -/

/-- CMD STAGE (R94, R95): a sequence already pending answers BUSY; a value that does not keep R94's table, or an
authorisation staged on a mirror, REJECTED; any other becomes PENDING with the CRC of its bytes and asserts
SMB_ALERT_N. The SMBus reads (R98): PROT_STATUS answers 12 bytes, state first; PROT_READ answers 32 bytes of the
staged value, 0 past its end and 0 while no sequence is pending. A transfer with a wrong PEC answers nothing, nor does
one to another address than the chip's own: 0x5A, or 0x5B on a mirror (R45). That a mirror answers REJECTED where it
does not take an authorisation, which R350 has the lead take, is the model's reading (log entry 57). -/
def Obligations.ProtectionStages : Prop :=
  (∀ (s : State) (w : Word), s.writeLands 0x110 →
    let x := (w &&& ~~~3#32 ||| 1#32).toNat
    let item := bits x 8 3
    let bs := s.stageBytes (bits x 16 9)
    ∃ t, exec (.protStage w) s = .next t ∧ SameMemories s t ∧ t.hif = s.hif ∧ t.prot.windows = s.prot.windows ∧
      t.prot.headKey = s.prot.headKey ∧ t.prot.beamAuth = s.prot.beamAuth ∧
      (s.prot.pending.isSome = true → t.prot = s.prot ∧ t.reg MGT_PROT_STATUS.RESULT = 0x11) ∧
      (s.prot.pending = none → itemOk item (bits x 16 9) bs = false ∨ item = 4 ∧ s.isMirror = true →
        t.prot = s.prot ∧ t.reg MGT_PROT_STATUS.RESULT = 0x09) ∧
      (s.prot.pending = none → itemOk item (bits x 16 9) bs = true → ¬(item = 4 ∧ s.isMirror = true) →
        t.prot.pending = some (item, bs) ∧ t.prot.lastCrc = crc32c 0 bs ∧ t.prot.smbAlert = true ∧
        t.reg MGT_PROT_STATUS.STATE = 1 ∧ t.reg MGT_PROT_STATUS.ITEM = item ∧
        t.reg MGT_PROT_CRC.VALUE = crc32c 0 bs % 2 ^ 32)) ∧
  (∀ (s : State) (o : Nat), s.g ≠ .off →
    let a := s.smbTarget
    (exec (.protStatus a true) s = .next (s.smbAnswer (le 1 (b2n s.prot.pending.isSome) ++ le 1 s.prot.lastItem ++
      le 2 s.prot.lastLen ++ le 4 s.prot.lastCrc ++ le 4 s.prot.lastNonce))) ∧
    (∃ t, exec (.protRead a 1 o true) s = .next t ∧ t = s.smbAnswer t.prot.smbReply ∧ t.prot.smbReply.length = 32 ∧
      ∀ i, i < 32 → t.prot.smbReply.getD i 0#8 = ((s.prot.pending.map (·.2)).getD []).getD (32 * o + i) 0#8) ∧
    exec (.protStatus a false) s = .next s ∧ exec (.protRead a 1 o false) s = .next s ∧
    (s.isMirror = false → a = 0x5A) ∧ (s.isMirror = true → a = 0x5B) ∧
    ∀ x, x ≠ a → exec (.protStatus x true) s = .next s ∧ exec (.protRead x 1 o true) s = .next s)

/-- A pending sequence ends in one of four other ways (R95): CANCEL with ABORTED, PROT_REFUSE and a wrong CRC or nonce
with BAD_CHECK, one second with TIMEOUT. None makes anything live; STATE is IDLE and SMB_ALERT_N released, and no byte
of a head key stays readable (R337; log entry 106). An authorisation accepted takes the place of the one held, a reserved
one too: that is the model's choice (log entry 107). PROT_CONFIRM with the CRC and the nonce accepts the item (R95,
R96): an authorisation is held at once; another item is live at once outside a stripe, and at the next stripe boundary
while one is ARMED or RUN. -/
def Obligations.ProtectionEnds : Prop :=
  (∀ (s : State) (i : Instr) (status : Nat), s.prot.pending.isSome = true → s.g ≠ .off →
    ((∃ w, i = .protCancel w ∧ status = 0x04 ∧ s.writeLands 0x110) ∨ (i = .protRefuse s.smbTarget 0 true ∧ status = 0x07) ∨
      (∃ crc nonce, i = .protConfirm s.smbTarget 8 crc nonce true ∧ status = 0x07 ∧ ¬(crc = s.prot.lastCrc ∧ nonce = s.prot.lastNonce)) ∨
      (i = .protTimeout ∧ status = 0x06)) →
    ∃ t, exec i s = .next t ∧ t.prot = { s.prot with pending := none, smbAlert := false } ∧
      (s.prot.lastItem = 3 → ∀ i, i < 64 → t.reg (MGT_PROT_STAGE.DATA i) = 0) ∧
      t.reg MGT_PROT_STATUS.STATE = 0 ∧ t.reg MGT_PROT_STATUS.RESULT = status ∧ MemoriesBut s.devSlot s t ∧
      t.stripe = s.stripe ∧ t.tabLive = s.tabLive) ∧
  (∀ (s : State) (item : Nat) (bs : List Byte), s.prot.pending = some (item, bs) → s.g ≠ .off →
    ∃ t, exec (.protConfirm s.smbTarget 8 s.prot.lastCrc s.prot.lastNonce true) s = .next t ∧ t.prot.pending = none ∧
      t.prot.smbAlert = false ∧ t.reg MGT_PROT_STATUS.RESULT = 0 ∧ t.hbm = s.hbm ∧ t.flash = s.flash ∧
      (item = 4 → t.prot.beamAuth = some ⟨num bs 0 4, none⟩ ∧ t.prot.windows = s.prot.windows) ∧
      (item = 1 → s.stripeActive = false → t.prot.windows = windowsOf bs ∧ t.prot.headKey = s.prot.headKey) ∧
      (item = 2 → s.stripeActive = false → t.prot.flashWe = (num bs 0 1 == 1)) ∧
      (item = 3 → s.stripeActive = false → t.prot.headKey = some bs ∧ t.prot.windows = s.prot.windows) ∧
      (item = 5 → s.stripeActive = false → t.prot.pmuUser = (num bs 0 1 == 1)) ∧
      (item ≠ 4 → s.stripeActive = true → t.prot.waiting = s.prot.waiting ++ [(item, bs)] ∧
        t.prot.windows = s.prot.windows ∧ t.prot.headKey = s.prot.headKey ∧ t.prot.flashWe = s.prot.flashWe ∧
        t.prot.pmuUser = s.prot.pmuUser))

/-! ## Power -/

/-- A block with an OFF request goes OFF once it is drained, to which `drained` counts, by the model's reading, an
ARM_STRIPE taken and not armed (R62, R394, R395; log entry 48): its window, staged and live, is at reset values; HMC,
which keeps the stack (R280), and CAL, which reads its trims from serial flash (R395; log entry 59), are left to their
own rules. RUN, IDLE and NAP (R116, R393): after 64 cc without work (`hasWork`; what work is, is the model's choice,
log entry 168) a block is IDLE, after a further 1 ms in AUTO it is in NAP where it may, and an access wakes it to RUN;
nothing else of the block changes. Block `k` leaves OFF (R62, R395): the write of AUTO or HOLD_RUN brings it back to
RUN at once; an OFF request that has not taken effect is withdrawn. The other blocks' requests and states stay. A
write of MGT_PWR_REQ that asks for OFF of one block and leaves the other fields as they are (R62): a drained block is
OFF at once; a busy one stays, its request pending, and memory changes at most where one device event goes. Where a
command does not apply, that nothing changes is the model's choice (log entry 10). -/
def Obligations.BlockStates : Prop :=
  (∀ (s : State) (k : Nat), k < 16 → s.power.length = 16 →
    (s.pwrPending k = true → s.drained k = true → s.g ≠ .off → ∃ t, exec (.blockDrainedOff k) s = .next t ∧ t.pwr k = .off ∧
      SameMemories s t ∧ t.hif = s.hif ∧ (∀ j, j ≠ k → t.pwr j = s.pwr j) ∧
      (k ≠ 8 → k ≠ 13 → ∀ f : Field, keyBlock f.key = k → t.reg f = f.reset ∧ t.lv f = f.reset) ∧
      (∀ f : Field, keyBlock f.key ≠ k → t.reg f = s.reg f ∧ t.lv f = s.lv f)) ∧
    (s.pwrPending k = false ∨ s.drained k = false → exec (.blockDrainedOff k) s = .next s)) ∧
  (∀ (s : State) (k : Nat), k < 16 → s.power.length = 16 →
    (s.pwr k = .run → s.pwrReq k ≠ 2 → s.hasWork k = false → exec (.blockIdleTimer k) s = .next (s.setPwr k .idle)) ∧
    (s.pwr k = .idle → s.mayNap k = true → exec (.blockNapTimer k) s = .next (s.setPwr k .nap)) ∧
    (s.mayNap k = false → exec (.blockNapTimer k) s = .next s) ∧
    (∀ ch, ch < 32 → s.pwr k ≠ .off → ∃ t, exec (.blockWake k ch) s = .next t ∧ t.pwr k = .run ∧
      (∀ j, j ≠ k → t.pwr j = s.pwr j) ∧ SameMemories s t ∧ RegsBut [DMA_CH_STATUS.WAKE_WAIT ch] s t ∧ t.hif = s.hif)) ∧
  (∀ (s : State) (k v : Nat), 2 ≤ k → k < 16 → s.power.length = 16 → s.writeLands 0x40 → s.pwrReq k = 2 → v < 2 →
    s.reg MGT_PWR_REQ.REQ < 2 ^ 32 →
    ∃ t, exec (.blockLeaveOff k v) s = .next t ∧ t.pwrReq k = v ∧ t.pwr k = (if s.pwr k = .off then .run else s.pwr k) ∧
      (∀ j, j < 16 → j ≠ k → t.pwrReq j = s.pwrReq j ∧ t.pwr j = s.pwr j) ∧ SameMemories s t ∧
      RegsBut [MGT_PWR_REQ.REQ] s t) ∧
  (∀ (s : State) (w : Word) (k : Nat), 2 ≤ k → k < 16 → s.power.length = 16 → s.writeLands 0x40 → s.pwrReq k ≠ 2 →
    s.reg MGT_PWR_REQ.REQ < 2 ^ 32 → s.pwr k ≠ .off →
    (∀ j, j < 16 → j ≠ k → bits w.toNat (2 * j) 2 = s.pwrReq j) → bits w.toNat (2 * k) 2 = 2 →
    ∃ t, exec (.pwrReqWrite w) s = .next t ∧ t.pwrReq k = 2 ∧ (∀ j, j ≠ k → t.pwr j = s.pwr j) ∧ t.hbm = s.hbm ∧
      t.flash = s.flash ∧
      (s.drained k = true → t.pwr k = .off ∧ t.host = s.host) ∧
      (s.drained k = false → t.pwr k = s.pwr k ∧ t.pwrPending k = true ∧ MemoriesBut s.devSlot s t))

/-! ## Registers -/

/-- A write of one of five commit fields reaches its staged copy alone, cut to the field's width (R10, R92): ETA, SCALE,
DWELL_NS, PD_IDLE and XTOL_PU, of the windows of PEC, SCH, HMC and EMS. No live value, memory or other field changes; a
write to MGT_ID, a read-only word, or to any word of BAR0 but MGT_RESET in START, changes nothing.

Other writes act at once. A 1 clears its bit of MGT_RESET_CAUSE and a 0 does not (R10). DMA_CTRL holds CPL_TO_MS within 1
to 64 (R111); a word of MGT_PROT_STAGE is stored, but not while a sequence is pending (R95); the low word of HIF_SQ_BASE
keeps an alignment of 64 bytes, and no write reaches it while the ring is on (R73). DATA of an MSI-X vector is stored; a
write of its mask stores the bit, and where that opens a pending vector sends its message (R66, R90). In configuration
space, whose offsets are the model's (log entry 100), the identity takes no write (R65), Command stores its bits, a 1 clears
its bit of AER's status, and MSI-X control stores enable and function mask and lets every pending vector that is open then
send (R64, R90). -/
def Obligations.RegisterWriteIsStaged : Prop :=
  (∀ (s : State) (w : Word) (f : Field), f ∈ [PEC_CTRL.ETA, PEC_SCALE.SCALE, HMC_PD.PD_IDLE, EMS_XTOL.XTOL_PU, SCH_DWELL.DWELL_NS] →
    s.writeLands f.addr → ∃ t, exec (.registerWrite f.addr w) s = .next t ∧ t.reg f = w.toNat % 2 ^ f.width ∧
      t.live = s.live ∧ RegsBut [f] s t ∧ SameMemories s t ∧ t.hif = s.hif ∧ t.stripe = s.stripe) ∧
  (∀ (s : State) (w : Word), s.bst.test = none → exec (.registerWrite MGT_ID.VENDOR.addr w) s = .next s) ∧
  (∀ (s : State) (a : Nat) (w : Word), s.g = .start → a / 4 * 4 ≠ 0x20 → a < cfgBase → exec (.registerWrite a w) s = .next s) ∧
  (∀ (s : State) (w : Word), s.writeLands 0x24 → ∃ t, exec (.registerWrite 0x24 w) s = .next t ∧
    (∀ f ∈ resetCauses, t.reg f = if bit w.toNat f.lo then 0 else s.reg f) ∧ RegsBut resetCauses s t ∧ SameMemories s t) ∧
  (∀ (s : State) (w : Word), s.writeLands 0x20000 → ∃ t, exec (.registerWrite 0x20000 w) s = .next t ∧
    t.reg DMA_CTRL.CPL_TO_MS = min 64 (max 1 (bits w.toNat 0 7)) ∧ RegsBut [DMA_CTRL.CPL_TO_MS] s t ∧ SameMemories s t) ∧
  (∀ (s : State) (i : Nat) (w : Word), i < 64 → s.writeLands (0x200 + 4 * i) →
    (s.protPending = true → exec (.registerWrite (0x200 + 4 * i) w) s = .next s) ∧
    (s.protPending = false → ∃ t, exec (.registerWrite (0x200 + 4 * i) w) s = .next t ∧
      t.reg (MGT_PROT_STAGE.DATA i) = w.toNat ∧ RegsBut [MGT_PROT_STAGE.DATA i] s t ∧ SameMemories s t ∧ t.prot = s.prot)) ∧
  (∀ (s : State) (q : Nat) (w : Word), q < 64 → s.writeLands (0x11000 + 16 * q) →
    (s.sqOn q = true → exec (.registerWrite (0x11000 + 16 * q) w) s = .next s) ∧
    (s.sqOn q = false → s.reg (HIF_SQ_BASE.ADDR q) < 2 ^ 64 → ∃ t, exec (.registerWrite (0x11000 + 16 * q) w) s = .next t ∧
      t.reg (HIF_SQ_BASE.ADDR q) = s.reg (HIF_SQ_BASE.ADDR q) / 2 ^ 32 * 2 ^ 32 + w.toNat / 64 * 64 ∧
      RegsBut [HIF_SQ_BASE.ADDR q] s t ∧ SameMemories s t ∧ t.hif = s.hif)) ∧
  (∀ (s : State) (v : Nat) (w : Word), v < 64 → s.writeLands (0x18000 + 16 * v) →
    ((s.vectorOpen v = false ∨ s.reg (MSIX.PENDING v) = 0) → ∃ t, exec (.registerWrite (0x18008 + 16 * v) w) s = .next t ∧
      t.reg (MSIX.DATA v) = w.toNat ∧ RegsBut [MSIX.DATA v] s t ∧ SameMemories s t ∧ t.hif = s.hif) ∧
    ∃ t, exec (.registerWrite (0x1800C + 16 * v) w) s = .next t ∧ t.reg (MSIX.MASK v) = bits w.toNat 0 1 ∧
      RegsBut [MSIX.MASK v, MSIX.PENDING v] s t ∧ SameMemories s t ∧
      (if s.cfg.msixOn = true ∧ s.cfg.msixMask = false ∧ bit w.toNat 0 = false ∧ s.reg (MSIX.PENDING v) = 1
        then t.reg (MSIX.PENDING v) = 0 ∧ t.hif.msi = v :: s.hif.msi
        else t.reg (MSIX.PENDING v) = s.reg (MSIX.PENDING v) ∧ t.hif = s.hif)) ∧
  (∀ (s : State) (w : Word), s.g ≠ .off →
    exec (.registerWrite cfgBase w) s = .next s ∧
    exec (.registerWrite (cfgBase + 0x04) w) s = .next { s with cfg := { s.cfg with command := w.toNat &&& 0x546 } } ∧
    (∃ t, exec (.registerWrite (cfgBase + 0x104) w) s = .next t ∧ { t with cfg := s.cfg } = s ∧
      { t.cfg with uncStatus := s.cfg.uncStatus } = s.cfg ∧
      ∀ j, bit t.cfg.uncStatus j = (bit s.cfg.uncStatus j && !bit w.toNat j)) ∧
    ∃ t, exec (.registerWrite (cfgBase + 0x90) w) s = .next t ∧
      t.cfg = { s.cfg with msixMask := bit w.toNat 30, msixOn := bit w.toNat 31 } ∧
      RegsBut ((List.range 64).map MSIX.PENDING) s t ∧ SameMemories s t ∧
      ∀ v < 64, if t.vectorOpen v = true ∧ s.reg (MSIX.PENDING v) = 1
        then t.reg (MSIX.PENDING v) = 0 ∧ v ∈ t.hif.msi else t.reg (MSIX.PENDING v) = s.reg (MSIX.PENDING v))

/-- A read of EMS_FLASHES_LO latches the high bits, OVF and EPOCH; the next read of EMS_FLASHES_HI returns them
although the count has moved on meanwhile (R314, R317). Outside the states that answer, a read returns 0 and latches
nothing. A read of HIF_EVT_LOST or EMS_SOS_IGN, whose fields clear on read, returns the count and clears it; nothing else
changes (R10). An 8-byte
read of a counter returns the whole counter, in BAR0 and, with user access live, in BAR2; a 4-byte read of its low word
latches its high word (R412, R420). In
configuration space the function shows the identity that R65 fixes; that the register windows are read by offset, BAR2
at 0x100000 (log entry 75) and configuration space at 0x200000 (log entry 100), is the model's form of a bus address. -/
def Obligations.ReadsHaveEffects : Prop :=
  ((∀ (s : State), s.serviced = true → s.pwr 9 ≠ .off → s.underTest 9 = false → ∃ t, exec (.latchedLoRead 0x90048 false) s = .next t ∧
    t.answer = s.wordAt 0x90048 ∧ t.regs = s.regs ∧ SameMemories s t ∧
    ∀ r, ∃ t', exec (.latchedLoRead 0x9004C false) { t with regs := r } = .next t' ∧ t'.answer = s.wordAt 0x9004C) ∧
  (∀ s : State, s.g = .park ∨ s.g = .safe → exec (.latchedLoRead 0x90048 false) s = .next { s with answer := 0 })) ∧
  (∀ (s : State) (f : Field), f ∈ [HIF_EVT_LOST.LOST, EMS_SOS_IGN.COUNT] → s.serviced = true → s.pwr (f.addr / 0x10000) ≠ .off →
    s.underTest (f.addr / 0x10000) = false → ∃ t, exec (.readClear f.addr) s = .next t ∧ t.answer = s.reg f % 2 ^ f.width ∧ t.reg f = 0 ∧
      RegsBut [f] s t ∧ SameMemories s t ∧ t.hif = s.hif) ∧
  (∀ (s : State) (o v : Nat), s.g ≠ .off → s.reg MGT_REV.STEPPING < 2 ^ 8 →
    (o, v) ∈ [(0x00, 0x10241F3D), (0x08, 0x12000000 + s.reg MGT_REV.STEPPING), (0x2C, 0x00011F3D)] →
    exec (.latchedLoRead (cfgBase + o) false) s = .next { s with answer := v }) ∧
  (∀ (s : State) (i : Nat), i < 128 → s.serviced = true → s.pwr 15 ≠ .off →
    (s.underTest 15 = false → exec (.latchedLoRead (0xF1004 + 16 * i) true) s =
      .next { s with answer := s.wordAt (0xF1004 + 16 * i) + s.wordAt (0xF1008 + 16 * i) * 2 ^ 32 }) ∧
    (s.prot.pmuUser = true →
      exec (.latchedLoRead (0x100000 + 8 * i) true) s = .next { s with answer := unle (s.counter i).bytes } ∧
      ∃ t, exec (.latchedLoRead (0x100000 + 8 * i) false) s = .next t ∧ t.answer = unle (s.counter i).bytes % 2 ^ 32 ∧
        ∀ c, ∃ t', exec (.latchedLoRead (0x100004 + 8 * i) false) { t with pmu := { t.pmu with counters := c } } = .next t' ∧
          t'.answer = unle (s.counter i).bytes / 2 ^ 32 % 2 ^ 32))

/-! ## Stops of a DMA channel -/

/-- A channel that runs a TABLE request with nothing in flight stops by DMA_CH_CTRL.ABORT, a completion timeout or a
completion with error status (R111 to R113): the request is gone, its entry completes, CAUSE and LAST_STATUS say why,
DONE and RESIDUE how a load stood, and the last two causes halt the channel. A timeout does not count while a block
wakes (R116). A halted channel is released by writing 1 to HALTED (R113); with nothing waiting, nothing else changes.
A completion that comes after its timeout is discarded, with an unexpected completion in AER, an advisory non-fatal
error (R111; the bits are those of log entry 100). -/
def Obligations.ChannelStops : Prop :=
  (∀ (s : State) (i : Instr) (ch status cause : Nat) (r : Request), s.serviced = true → dmaClass ch = 2 →
    ch < s.chans.length → (s.chan ch).req = some r → r.piece.moved = r.piece.len →
    s.reg (DMA_CH_STATUS.HALTED ch) = 0 → s.reg (DMA_CH_STATUS.WAKE_WAIT ch) = 0 → s.nothingWaits →
    ((i = .dmaAbort ch ∧ status = 0x04 ∧ cause = 1 ∧ s.writeLands (0x21004 + 32 * ch)) ∨
      (i = .dmaCplTimeout ch ∧ status = 0x06 ∧ cause = 6) ∨ (i = .dmaCplError ch ∧ status = 0x04 ∧ cause = 7)) →
    ∃ t, exec i s = .next t ∧ (t.chan ch).req = none ∧ t.reg (DMA_CH_STATUS.LAST_STATUS ch) = status ∧
      t.reg (DMA_CH_STATUS.CAUSE ch) = cause ∧ t.reg (DMA_CH_STATUS.HALTED ch) = b2n (haltingCause cause) ∧
      (∀ e, s.entry? r.q r.idx = some e → rawOpc e.raw = 0x20 → t.reg (DMA_CH_DONE.DONE ch) = r.delivered % 2 ^ 64 ∧
        t.reg (DMA_CH_RESIDUE.RESIDUE ch) = (r.named - r.delivered) % 2 ^ 64) ∧ t.entry? r.q r.idx = none ∧
      t.hbm = s.hbm ∧ t.flash = s.flash ∧ t.stripe = s.stripe ∧ t.tabStaged = s.tabStaged) ∧
  (∀ (s : State) (ch : Nat), s.reg (DMA_CH_STATUS.WAKE_WAIT ch) = 1 → exec (.dmaCplTimeout ch) s = .next s) ∧
  (∀ (s : State) (ch : Nat), ch < 32 → s.writeLands (0x21008 + 32 * ch) → s.nothingWaits →
    ∃ t, exec (.dmaReleaseHalt ch) s = .next t ∧ t.reg (DMA_CH_STATUS.HALTED ch) = 0 ∧
      RegsBut [DMA_CH_STATUS.HALTED ch] s t ∧ t.quiet = s.quiet ∧ t.host = s.host ∧ t.hif = s.hif) ∧
  (∀ (s : State) (ch : Nat), s.g ≠ .off → ∃ t, exec (.lateCompletion ch) s = .next t ∧ { t with cfg := s.cfg } = s ∧
    bit t.cfg.uncStatus 16 = true ∧ bit t.cfg.corStatus 13 = true)

/-! ## Counters -/

/-- While PMU_CTRL.FREEZE is 1 no block counter and no slot counter advances, and the write that sets or clears it
acts at once (R414). A write of PMU_CNT_CFG selects the counter's event and starts a new epoch of that counter alone
(R413): COUNT and OVF clear, EPOCH increments and wraps at 256. The 24 slot counters have no event number. A write of
1 to PMU_CTRL.TD_CLEAR starts a new epoch for all of them together (R416); no block counter changes. -/
def Obligations.CounterEpochs : Prop :=
  ((∀ (s : State) (b ev n : Nat), s.reg PMU_CTRL.FREEZE = 1 → s.count b ev n = s ∧ s.slots b ev n = s) ∧
  (∀ (s : State) (w : Word), s.writeLands 0xF0000 → bit w.toNat 1 = false →
    exec (.counterFreeze w) s = .next (s.setReg PMU_CTRL.FREEZE (bits w.toNat 0 1)))) ∧
  (∀ (s : State) (b k : Nat) (w : Word), b < 16 → k < 8 → s.pmu.counters.length = 128 → s.writeLands (0xF1000 + 128 * b + 16 * k) →
    ∃ t, exec (.counterConfig b k w) s = .next t ∧ t.reg (PMU_CNT_CFG.EVENT b k) = bits w.toNat 0 8 ∧
      t.counter (8 * b + k) = ⟨0, false, ((s.counter (8 * b + k)).epoch + 1) % 256⟩ ∧
      (∀ j, j ≠ 8 * b + k → t.counter j = s.counter j) ∧ t.pmu.slots = s.pmu.slots ∧
      RegsBut [PMU_CNT_CFG.EVENT b k] s t ∧ SameMemories s t) ∧
  (∀ (s : State) (w : Word), s.writeLands 0xF0000 → ∃ t, exec (.slotClear w) s = .next t ∧
    t.pmu.slots = s.pmu.slots.map (fun c => ⟨0, false, (c.epoch + 1) % 256⟩) ∧ t.pmu.counters = s.pmu.counters ∧
    t.reg PMU_CTRL.FREEZE = bits w.toNat 0 1 ∧ RegsBut [PMU_CTRL.FREEZE] s t ∧ SameMemories s t)

/-- Snapshots (R417 to R419): ENABLE going to 1 reads SNAP_BASE and LOG2N; a snapshot, asked for or periodic, writes
the 1,216 bytes of every counter behind a 64-byte header that waits for them; one asked for while the last is still
being written is skipped and counted; one outside the live windows clears ENABLE; one that falls due while the PMU or DMA
is under a test that does not yield waits for its end (R404). -/
def Obligations.Snapshots : Prop :=
  ∀ s : State,
    (∀ w : Word, s.writeLands 0xF0018 → s.reg PMU_SNAP_CFG.ENABLE = 0 → ∃ t, exec (.snapshotEnable w) s = .next t ∧
      t.reg PMU_SNAP_CFG.ENABLE = 1 ∧ t.pmu.base = s.reg PMU_SNAP_BASE.ADDR ∧
      t.pmu.log2n = min 12 (bits (w ||| 0x20#32).toNat 0 4) ∧ SameMemories s t) ∧
    (∀ i : Instr, (i = .snapshotGo ∧ s.writeLands 0xF001C) ∨ (i = .snapshotPeriod ∧ s.serviced = true ∧
        s.reg PMU_SNAP_CFG.PERIOD_US ≠ 0 ∧ s.bst.test = none) → s.reg PMU_SNAP_CFG.ENABLE = 1 → s.pwr 15 ≠ .off →
      s.pmu.due = false →
      let a := s.pmu.base + (s.reg PMU_SNAP_SEQ.SEQ + 1 - 1) % 2 ^ s.pmu.log2n * 1280
      ∃ t, exec i s = .next t ∧ t.hbm = s.hbm ∧ t.stripe = s.stripe ∧
        (s.pmu.writing.isSome = true → t.reg PMU_SNAP_STATUS.SKIPPED = min (s.reg PMU_SNAP_STATUS.SKIPPED + 1) 65535 ∧
          t.host = s.host) ∧
        (s.pmu.writing = none → s.inWindow a 1280 = true → t.host = Memory.write s.host (a + 64) s.snapBody ∧
          t.pmu.writing = some (a, s.snapHead (s.reg PMU_SNAP_SEQ.SEQ + 1), s.reg PMU_SNAP_SEQ.SEQ + 1)) ∧
        (s.pmu.writing = none → s.inWindow a 1280 = false → t.reg PMU_SNAP_CFG.ENABLE = 0 ∧
          MemoriesBut s.devSlot s t)) ∧
    (s.serviced = true → s.reg PMU_SNAP_CFG.ENABLE = 1 → s.pwr 15 ≠ .off → s.pmu.writing = none →
      (s.bistHolds (fun k => k == 2 || k == 15) = true → s.pmu.due = false → s.reg PMU_SNAP_CFG.PERIOD_US ≠ 0 →
        exec .snapshotPeriod s = .next { s with pmu := { s.pmu with due := true } }) ∧
      (∀ t0 : BlockTest, s.bst.test = some t0 → t0.held = [] → s.pmu.due = true →
        s.inWindow (s.pmu.base + (s.reg PMU_SNAP_SEQ.SEQ + 1 - 1) % 2 ^ s.pmu.log2n * 1280) 1280 = true →
        ∃ t, exec .bistPreconditionLoss s = .next t ∧ t.bst.test = none ∧ t.pmu.due = false ∧
          t.pmu.writing.isSome = true))

/-! ## Self-test -/

/-- A request on demand (R403, R407): a block that R403 never tests is REJECTED, one on the data path during a stripe
or with another test running BUSY, one that is OFF NOT_RUN; otherwise the test starts, HBM3 changes at most in the park
save area of the SRAM (what is saved there, and where in it, is not given; log entry 8), and reads of the block return
what its words read at GO (R404; that GO, not the end of the drain, is the start of the test is the model's choice, log
entry 134). A block's test ends (R402, R403, R405 to R407), not before the block has drained unless the watchdog ends
it. It passes only with CODE 0xA5, the full count and the expected signature; a pass leaves the
global state, a failure, or the 35 ms watchdog, fences the chip into SAFE with SAFE_CAUSE 1; losing a precondition
ends it NOT_RUN and changes only the result registers. -/
def Obligations.BlockTests : Prop :=
  (∀ (s : State) (w : Word), s.takesWrite 0xE0000 = true → s.pwr 14 ≠ .off → s.bst.test.all (fun t => t.block != 14) = true →
    let k := bits (w ||| 0x100#32).toNat 0 4
    ∃ t, exec (.bistRequest w) s = .next t ∧ t.host = s.host ∧ t.flash = s.flash ∧ t.hif = s.hif ∧ t.stripe = s.stripe ∧
      (∀ j, j ≠ 14 → j ≠ k → t.pwr j = s.pwr j) ∧
      (∀ a, a < sramArea.1 ∨ sramArea.1 + sramArea.2 ≤ a → Memory.byte t.hbm a = Memory.byte s.hbm a) ∧
      (untestable k = true → t.bst = s.bst ∧ t.hbm = s.hbm ∧ t.reg BST_STATUS.LAST_STATUS = 0x09) ∧
      (untestable k = false → s.onDataPath k = true ∧ s.stripeActive = true ∨ s.bst.test.isSome = true → t.bst = s.bst ∧
        t.hbm = s.hbm ∧ t.reg BST_STATUS.LAST_STATUS = 0x11) ∧
      (untestable k = false → (s.onDataPath k && s.stripeActive) = false → s.bst.test = none → s.pwr k = .off →
        t.bst = s.bst ∧ t.hbm = s.hbm ∧ t.reg BST_STATUS.LAST_STATUS = 0x0A) ∧
      (untestable k = false → (s.onDataPath k && s.stripeActive) = false → s.bst.test = none → s.pwr k ≠ .off →
        s.pwrPending k = false → s.aon.rootLock = true → t.reg BST_STATUS.BUSY = 1 ∧ t.reg BST_STATUS.BLOCK = k ∧
        t.bst = { s.bst with test := some ⟨k, bit (w ||| 0x100#32).toNat 4, [], s.windowWords k⟩ })) ∧
  (∀ (s : State) (t0 : BlockTest), s.bst.test = some t0 → t0.block < 16 → t0.held = [] → s.g ≠ .off →
    s.pmu.due = false →
    (∀ a b, a < 0x100000 → a / 0x10000 = t0.block → t0.words.lookup (a / 4 * 4) = some b → s.answers t0.block = true →
      s.pwr t0.block ≠ .off → exec (.latchedLoRead a false) s = .next { s with answer := b }) ∧
    (∀ misr count code ms, s.busyBlock t0.block = true → exec (.bistDone misr count code ms) s = .next s) ∧
    (∀ misr count code ms, s.busyBlock t0.block = false → ∃ t, exec (.bistDone misr count code ms) s = .next t ∧ t.bst.test = none ∧
      t.reg BST_STATUS.BUSY = 0 ∧ t.hbm = s.hbm ∧ t.flash = s.flash ∧
      (s.bistPasses 3 ⟨t0.block, misr, count, code⟩ = true → t.g = s.g ∧ t.fence = s.fence ∧
        t.reg (BST_RESULT.STATUS t0.block) = 0x00 ∧ t.stripe = s.stripe ∧ t.host = s.host) ∧
      (s.bistPasses 3 ⟨t0.block, misr, count, code⟩ = false → t.g = .safe ∧ t.fence.isSome = true ∧
        t.reg MGT_STATE.SAFE_CAUSE = 1 ∧ t.reg (BST_RESULT.STATUS t0.block) = 0x07) ∧
      (code ≠ 0xA5 → t.g = .safe)) ∧
    (∀ misr count, ∃ t, exec (.bistWatchdog misr count) s = .next t ∧ t.g = .safe ∧ t.bst.test = none ∧
      t.reg (BST_RESULT.CODE t0.block) = 0x3C ∧ t.reg BST_STATUS.LAST_MS = 35) ∧
    (∃ t, exec .bistPreconditionLoss s = .next t ∧ t.bst = { s.bst with test := none } ∧ t.g = s.g ∧ t.fence = s.fence ∧
      t.stripe = s.stripe ∧ SameMemories s t ∧ t.reg (BST_RESULT.STATUS t0.block) = 0x0A ∧
      t.reg (BST_RESULT.CODE t0.block) = 0x3C))

/-! ## Park -/

/-- Park is requested by the strap or by a CONTROL entry and withdrawn by the strap's rise (R44, R396); while it waits
no entry is taken. A wake (R399, R401): in PARK with the tag written it starts the quick path and keeps what was
saved; with the tag not written and no step running, the cold path; during the steps of R397 it is held. The lead of a
pair forwards it to the mirror (R396; that it is counted, since no message is given for it, is log entry 56). Outside PARK
it does nothing. Where a command does not apply, that nothing changes is the model's choice (log entry 10). -/
def Obligations.ParkBeginsAndEnds : Prop :=
  ((∀ s : State, s.serviced = true → ∃ t, exec .parkReqFall s = .next t ∧ t.bst.strapReq = true ∧ t.aon.parkHigh = false ∧
    t.reg BST_PARK.PHASE = 1 ∧ t.g = s.g ∧ SameMemories s t ∧ (∀ q, t.mayTake q = false)) ∧
  (∀ s : State, s.g ≠ .park → s.bst.strapReq = true → ∃ t, exec .parkReqRise s = .next t ∧ t.bst.strapReq = false ∧
    t.aon.parkHigh = true ∧ t.bst.ringReq = s.bst.ringReq ∧ t.g = s.g ∧ SameMemories s t) ∧
  (∀ (s : State) (q : Nat) (e : Entry), s.acts q 0x62 e → (s.entriesOf q).any (fun x => !x.started && x.idx < e.idx) = false →
    ∃ t, exec (.park q) s = .next t ∧ t.bst.ringReq = some (q, e.idx) ∧ t.reg BST_PARK.PHASE = 1 ∧ SameMemories s t ∧
      t.g = s.g ∧ ∀ q', t.mayTake q' = false)) ∧
  ((∀ s : State, s.g = .park → s.reg BST_PARK.PHASE = 5 → ∃ t, exec .parkWake s = .next t ∧ t.g = .start ∧ t.quick = true ∧
    t.phase = .boot ∧ t.reg MGT_RESET_CAUSE.WAKE = 1 ∧ SameMemories s t ∧ t.prot = s.prot ∧
    { t.bst with wakeAsked := s.bst.wakeAsked } = s.bst ∧
    (s.nlk.paired = true → s.isMirror = false → t.nlk.wakesSent = s.nlk.wakesSent + 1)) ∧
  (∀ s : State, s.g = .park → s.reg BST_PARK.PHASE = 0 → ∃ t, exec .parkWake s = .next t ∧ t.g = .start ∧ t.quick = false ∧
    t.prot.windows = [] ∧ t.prot.headKey = none ∧ SameMemories s t) ∧
  (∀ s : State, s.g = .park → s.reg BST_PARK.PHASE ≠ 0 → s.reg BST_PARK.PHASE ≠ 5 →
    ∃ t, exec .parkWake s = .next t ∧ t.reg BST_PARK.WAKE_HELD = 1 ∧ RegsBut [BST_PARK.WAKE_HELD] s t ∧ t.g = .park ∧
      t.bst = { s.bst with wakeAsked := true } ∧ SameMemories s t ∧ t.hif = s.hif ∧
      (s.nlk.paired = true → s.isMirror = false → t.nlk.wakesSent = s.nlk.wakesSent + 1)) ∧
  (∀ s : State, s.g ≠ .park → exec .parkWake s = .next s))

/-- The park's own steps (R397, R398): with the wait over the engine is in PARK with polling stopped and the links
idle; the save writes the three areas, whose bytes are not given (log entry 8), and the park record with their CRCs into
HBM3 and nothing else of it, and self-refresh entry begins; `parkReady` waits for a self-test and a trim store under way
too, the model's reading of R396 (log entry 50). Park BIST ends (R397, R399), of blocks 2 to 13 and 15 (log
entry 36): a pass writes the record with its BIST_PASS bits and the tag, which is the record's; a failure holds the engine
in SAFE with SAFE_CAUSE 1 and no tag; NOT_RUN, which the results of those blocks show, leaves it in PARK untagged.
PARK_RESTORE on the quick path (R57, R398): with the areas read back whole and the record matching them, the tag and the
image in serial flash the start goes on; otherwise the engine takes the cold path from its HBM3 phase, and no protected
item stays. Where a command does not apply, that nothing changes is the
model's choice (log entry 10). -/
def Obligations.ParkSteps : Prop :=
  ((∀ s : State, s.parkWaiting = true → s.parkReady = true → ∃ t, exec .parkEnter s = .next t ∧ t.g = .park ∧
    t.hif.polling = false ∧ t.shl.st = .down ∧ t.nlk.linkUp = false ∧ t.reg BST_PARK.PHASE = 2 ∧ t.hbm = s.hbm ∧
    t.bst.strapReq = false ∧ t.bst.ringReq = none ∧ t.hif.entries = [] ∧ t.stripe = none) ∧
  (∀ s : State, s.parkWaiting = false ∨ s.parkReady = false → exec .parkEnter s = .next s) ∧
  (∀ s : State, s.g = .park → s.reg BST_PARK.PHASE = 2 → ∃ t, exec .parkSaveDone s = .next t ∧ t.reg BST_PARK.PHASE = 3 ∧
    t.reg HMC_STATUS.SR_ENTRY = 1 ∧ t.bst.parkCount = (s.bst.parkCount + 1) % 2 ^ 32 ∧ t.host = s.host ∧
    t.flash = s.flash ∧
    (let r := Memory.bytes t.hbm parkRecordAddr 512;
      num r 0 4 = 0x4B524150 ∧ num r 12 4 = t.bst.parkCount ∧ num r 24 4 = t.imageCrc ∧ num r 28 4 = t.fwCrc) ∧
    ∀ a, a < parkRecordAddr ∨ parkRecordAddr + 512 ≤ a →
      (∀ p ∈ [firmwareArea, gatekeeperArea, sramArea], a < p.1 ∨ p.1 + p.2 ≤ a) →
      Memory.byte t.hbm a = Memory.byte s.hbm a)) ∧
  (∀ (s : State) (runs : List BistRun) (entryMs bistMs : Nat), s.g = .park → s.reg BST_PARK.PHASE = 4 →
    s.reg HMC_STATUS.SR_ENTRY = 0 → s.reg BST_PARK.WAKE_HELD = 0 → s.bst.tag = none →
    let rs := runs.filter (fun r => parkBlocks.contains r.block)
    (∃ t, exec (.parkBistDone false runs entryMs bistMs) s = .next t ∧ t.g = .park ∧ t.bst.tag = none ∧
      t.reg BST_PARK.PHASE = 0 ∧ t.reg BST_PARK.BIST_STATUS = 0x0A ∧ SameMemories s t ∧
      ∀ k ∈ parkBlocks, t.reg (BST_RESULT.STATUS k) = 0x0A ∧ t.reg (BST_RESULT.CODE k) = 0x3C) ∧
    ∃ t, exec (.parkBistDone true runs entryMs bistMs) s = .next t ∧ t.host = s.host ∧ t.flash = s.flash ∧
      (s.bistAllPass 2 rs = true → t.g = .park ∧ t.reg BST_PARK.PHASE = 5 ∧ t.reg BST_PARK.BIST_STATUS = 0 ∧
        (let r := Memory.bytes t.hbm parkRecordAddr 512;
          num r 32 2 = s.parkPass rs ∧ (∀ k ∈ parkBlocks, bit (num r 32 2) k = true) ∧
          t.bst.tag = some (s.bst.parkCount, num r 508 4)) ∧
        ∀ a, a < parkRecordAddr ∨ parkRecordAddr + 512 ≤ a → Memory.byte t.hbm a = Memory.byte s.hbm a) ∧
      (s.bistAllPass 2 rs = false → t.g = .safe ∧ t.reg MGT_STATE.SAFE_CAUSE = 1 ∧ t.bst.tag = none ∧ t.hbm = s.hbm ∧
        t.reg BST_PARK.BIST_STATUS = 0x07)) ∧
  (∀ (s : State) (image : Option Nat) (ecc : EccReads), s.g = .start → s.quick = true → s.phase = .stackUp →
    ∃ t, exec (.parkRestore image ecc) s = .next t ∧ t.g = .start ∧ SameMemories s t ∧
      (ecc.bad = none → s.recordOk image = true → t.phase = .restored ∧ t.quick = true ∧
        t.prot = s.prot ∧ t.bst = s.bst ∧ t.tabLive = s.tabLive ∧ RegsBut eccFields s t) ∧
      (s.recordOk image = false ∨
        (∃ w, ecc.bad = some w ∧ eccWithin w parkRecordAddr 0x8000000 = true) →
        t.quick = false ∧ t.phase = .imaged ∧ t.prot.windows = [] ∧ t.prot.headKey = none))

/-! ## The data path -/

/-- The parser's commands on the held stripe. SOVIS_RECORD (R131 to R136, R157): a whole record is read past, counted
in SEQ, offset and CRC; a faulty one ends the stripe of a chip that carries it alone with cause 0x02.
TEMPLATE_LINE_FILL (R196, R284): the missing line is in the store, or, read with an uncorrectable error, fences the chip
with cause 0x01. PARSER_RESUME, BAND_RELEASE and BAND_RETIRE (R195, R198,
R199): the stalls end, bands pass on in order, one at a time. RAW streams stand for both modes: AZRAD_BLOCK has its
own statement. Where a command does not apply, that nothing changes is the model's choice (log entry 10). -/
def Obligations.ParserCommands : Prop :=
  ∀ (s : State) (st : Stripe), s.liveStripe = some st →
    (s.cdc.feed.raw = some true → s.working = true → (∀ ch, s.streamChan st.req.streamSq = some ch → s.stagedCount ch = 0) →
      s.parsing = true → s.prs.endSeen = false →
      (∀ r ecc, s.prs.read st.req (s.inputEnded st) = .whole r → ecc.bad = none → ∃ t, exec (.sovisRecord ecc) s = .next t ∧
        t.prs.seq = (s.prs.seq + 1) % 2 ^ 32 ∧ t.prs.offset = s.prs.offset + r.length ∧
        t.prs.input = s.prs.input.drop r.length ∧ t.prs.crcStripe = crc32c s.prs.crcStripe r ∧
        t.reg PRS_STATUS.ACTIVE = 1 ∧ t.host = s.host ∧ t.flash = s.flash ∧ t.stripe = s.stripe ∧ t.hif = s.hif) ∧
      (∀ n ecc, s.prs.read st.req (s.inputEnded st) = .fault n → ecc.bad = none → s.covered = false → st.st = .run → s.g = .run →
        ∃ t, exec (.sovisRecord ecc) s = .next t ∧ AbortedBy 0x02 s t)) ∧
    (∀ line ecc, (s.prs.needLine = some line → s.serviced = true → ecc.bad = none →
        ∃ t, exec (.templateLineFill line ecc) s = .next t ∧ line ∈ t.prs.lines ∧ SameMemories s t ∧
          t.stripe = s.stripe ∧ t.hif = s.hif) ∧
      (∀ w, s.prs.needLine = some line → s.serviced = true → ecc.bad = some w → s.fence = none →
        eccWithin w (spillBase + 4096 * line) 4096 = true → ∃ t, exec (.templateLineFill line ecc) s = .next t ∧
          t.fence = some ⟨0x01, false⟩ ∧ t.hbm = s.hbm) ∧
      (s.prs.needLine ≠ some line → exec (.templateLineFill line ecc) s = .next s)) ∧
    (∃ t, exec .parserResume s = .next t ∧ SameMemories s t ∧ t.stripe = s.stripe ∧ t.hif = s.hif ∧
      (s.tooFarAhead = false → t.reg PRS_STATUS.STALL_AHEAD = 0) ∧
      (s.prs.todo = [] → t.prs = s.prs ∧ t.reg PRS_STATUS.STALL_LAQ = 0)) ∧
    (s.mayRelease st = true → s.working = true → ∃ t, exec .bandRelease s = .next t ∧
      t.prs = { s.prs with released := s.prs.released + 1 } ∧ t.reg PRS_BAND_REL.BAND = s.prs.released % 2 ^ 32 ∧
      t.csm = s.csm ∧ SameMemories s t ∧ t.stripe = s.stripe ∧ t.hif = s.hif) ∧
    (s.mayRelease st = false ∨ s.working = false → exec .bandRelease s = .next s) ∧
    (s.prs.retired < s.csmSkip.csm.band → ∃ t, exec .bandRetire s = .next t ∧ t.prs.retired = s.prs.retired + 1 ∧
      t.prs.released = s.prs.released ∧ (∀ p ∈ t.prs.placed, p ∈ s.prs.placed) ∧ t.csm = s.csmSkip.csm ∧
      SameMemories s t ∧ t.stripe = s.stripe ∧ t.hif = s.hif)

/-- The rasteriser (R215 to R218): a slice's planes enter the pane buffers one by one; when the next would not fit,
the slice waits, begun; correction takes one plane, whose sums count in the band's or, for a band corrected before, in
the recompute's; a recompute takes the first band that its vote still asks for. That the planes of a slice enter one by
one and no recompute overtakes a slice that is begun (log entry 61), and that `nextPlane` takes a recomputed band's planes
first (log entry 62), are the model's readings. -/
def Obligations.BandsAreRasterised : Prop :=
  ∀ (s : State) (st : Stripe), s.liveStripe = some st → s.working = true →
    (∀ ecc, ecc.bad = none → s.csm.recompute = none → s.csmSkip.csm.band < s.prs.released →
      let c := s.csmSkip.csm
      let n := (s.csm.part.map (·.2)).getD 0
      let ps := (s.slicePlanes st.req.rows c.band (c.unit / 16) (c.unit % 16)).drop n
      let room := planeRoom - s.csm.planes.length
      ∃ t, exec (.paneSliceDone ecc) s = .next t ∧ SameMemories s t ∧ t.prs = s.prs ∧ t.pec = s.pec ∧
        t.stripe = s.stripe ∧ t.hif = s.hif ∧ t.csm.planes = s.csm.planes ++ ps.take room ∧
        (ps.length ≤ room → t.csm.part = none ∧ t.reg CSM_STATUS.WAIT_BUF = 0) ∧
        (room < ps.length → t.csm = { c with planes := t.csm.planes, part := some (false, n + room) } ∧
          t.reg CSM_STATUS.WAIT_BUF = 1)) ∧
    (∀ p, s.nextPlane = some p → ∃ t, exec .paneBufferFree s = .next t ∧ SameMemories s t ∧ t.prs = s.prs ∧
      t.csm = { s.csm with planes := s.csm.planes.erase p } ∧ t.reg CSM_STATUS.WAIT_BUF = 0 ∧ t.hif = s.hif ∧
      (p.band < s.dosed → t.pec.v = s.pec.v ∧
        t.pec.vRecompute = foldPlane (s.prs.mult p.cls) s.pec.vRecompute p) ∧
      (s.dosed ≤ p.band → t.pec.v = foldPlane (s.prs.mult p.cls) s.pec.v p ∧ t.pec.vRecompute = s.pec.vRecompute)) ∧
    (∀ v b, s.csm.recompute = none → s.doseVote st = some v →
      (st.bandsOfStep v.step).find? (fun b => !v.redone.contains b) = some b →
      ∃ t, exec .recomputeBand s = .next t ∧ (∃ u, t.csm.recompute = some (b, u)) ∧ t.csm.planes = s.csm.planes ∧
        t.pec = { s.pec with vRecompute := [] } ∧ SameMemories s t ∧ t.regs = s.regs ∧ t.nlk = s.nlk)

/-- Density, blur and correction of the next band (R221 to R234). Every sash cell of the band holds the density of
R222; the band of B replaces the oldest of eight; the corrected doses stand packed in the band's slot of the dose
buffer, and no other byte of HBM3 changes but in the witness copies, where a witness asks for the band. -/
def Obligations.DensityAndDose : Prop :=
  ∀ (s : State) (st : Stripe), s.liveStripe = some st → s.working = true →
    (s.densed < s.prs.released → s.waitGrid = false → ∃ t, exec .densityBandDone s = .next t ∧ SameMemories s t ∧
      t.reg PEC_BAND_DENS.BAND = s.densed ∧ t.csm = s.csm ∧ t.stripe = s.stripe ∧ t.hif = s.hif ∧
      ∀ x y, x < 1024 → y < 16 → Sparse.get (fun _ => 0) t.pec.rho ((16 * s.densed + y) * 1024 + x) =
        cellDensity st.req.rows (s.bandClasses s.densed) x (16 * s.densed + y)) ∧
    (s.mayBlur st s.blurred = true → ∃ t, exec .blurBandDone s = .next t ∧ SameMemories s t ∧
      t.reg PEC_BAND_B.BAND = s.blurred ∧ t.prs = s.prs ∧ t.csm = s.csm ∧ t.stripe = s.stripe ∧
      t.pec.rho = s.pec.rho ∧ t.pec.v = s.pec.v ∧
      t.pec.blur = Sparse.setList (fun _ => 0) (forgetBands s.pec.blur (s.blurred + 1 - blurBands))
        (s.blurred * bandCells) (s.pec.blurBand st.req.rows s.boxHalf s.blurred).flatten) ∧
    (s.csm.recompute = none → s.dosed < bandsOf st.req.rows → s.csmSkip.coverageIn s.dosed = true →
      s.dosed < s.blurred → s.slotFree s.dosed = true →
      let bs := ((s.bandDoses st.req.rows s.dosed s.pec.v).map doseRow).flatMap pack10
      ∃ t, exec .bandCorrected s = .next t ∧ t.host = s.host ∧ t.flash = s.flash ∧ t.stripe = s.stripe ∧
        t.reg PEC_BAND_DOSE.BAND = s.dosed ∧ t.pec.v = [] ∧ bs.length = 256 * rowBytes ∧
        (∀ i, i < 256 * rowBytes → Memory.byte t.hbm (doseAddr s.dosed 0 + i) = bs.getD i 0#8) ∧
        ∀ a, a < doseAddr s.dosed 0 ∨ doseAddr s.dosed 0 + 256 * rowBytes ≤ a →
          a < witnessCopy 0 ∨ witnessCopy 16 ≤ a ∨ (∀ w ∈ s.pec.witnesses, w.band ≠ s.dosed) →
          Memory.byte t.hbm a = Memory.byte s.hbm a)

/-- Entry steps and repayments (R25, R200, R201, R246 to R257). A step begins when its band is complete; a step before
flash 0 waits for its band, and in RUN an incomplete band ends the stripe of a chip alone with cause 0x03. A step's
end writes its depth blocks and its journal row and nothing else of HBM3, and the last step takes RUN to TAIL. A
repayment sets its bit and changes no other byte. -/
def Obligations.EntrySteps : Prop :=
  ∀ (s : State) (st : Stripe), s.liveStripe = some st → s.working = true →
    (st.stepBusy = none → st.stepDue st.stepNext = true →
      ((∀ b, st.bandAt st.stepNext = some b → s.lateStage st b = 0) → exec .entryStepBegin s = .next
        (s.modStripe (fun st => { st with stepBusy := some st.stepNext, stepNext := st.stepNext + 1 }))) ∧
      (∀ b, st.bandAt st.stepNext = some b → s.lateStage st b ≠ 0 →
        (st.stepNext < 0 → exec .entryStepBegin s = .next s) ∧
        (0 ≤ st.stepNext → s.covered = false → s.g = .run → ∃ t, exec .entryStepBegin s = .next t ∧ AbortedBy 0x03 s t))) ∧
    (∀ m ecc, st.stepBusy = some m → ecc.bad = none →
      let row := s.stepRow st m
      let ms := s.stepMasks st m row
      ∃ t, exec (.entryStepComplete ecc) s = .next t ∧ t.host = s.host ∧ t.flash = s.flash ∧
        t.reg SCH_STEP.STEP = unsgn 32 m ∧
        (∃ st', t.stripe = some st' ∧ st'.stepBusy = none ∧ st'.stepsDone = m + 1 ∧ st'.stepNext = st.stepNext ∧
          st'.ledger = st.ledger ∧ st'.st = (if m = st.lastStep ∧ st.st = .run then .tail else st.st)) ∧
        (∀ d i, d < 64 → st.writesBlock m d = true → i < 2048 →
          Memory.byte t.hbm (blockAddr (st.frameOf m d) d + i) = (maskBlock ms d).getD i 0#8) ∧
        (∀ i, i < rowBytes → Memory.byte t.hbm (journalAddr m + i) = (pack10 row).getD i 0#8) ∧
        ∀ a, (∀ d, d < 64 → st.writesBlock m d = true →
            a < blockAddr (st.frameOf m d) d ∨ blockAddr (st.frameOf m d) d + 2048 ≤ a) →
          a < journalAddr m ∨ journalAddr m + rowBytes ≤ a → Memory.byte t.hbm a = Memory.byte s.hbm a) ∧
    (∀ r rest ecc, st.ledger.writes = r :: rest → r.louver < 16384 → ecc.bad = none →
      ∃ t, exec (.repaymentWrite ecc) s = .next t ∧
      frameBit t.hbm r.frame r.depth r.louver = true ∧
      (∀ a, a ≠ blockAddr r.frame r.depth + r.louver / 8 → Memory.byte t.hbm a = Memory.byte s.hbm a) ∧
      t.host = s.host ∧ t.flash = s.flash ∧ RegsBut (SCH_REPAID.COUNT :: eccFields) s t ∧
      ∃ st', t.stripe = some st' ∧ st'.ledger.writes = rest ∧ st'.repaid = st.repaid + 1 ∧
        st'.ledger.holes = st.ledger.holes ∧ st'.st = st.st)

/-! ## The HBM3 controller -/

/-- Refresh credits of one pseudo-channel (R275, R280): a credit accrues up to 8, where a forced REFab pays the next
at once; one is paid down to -8; power-down where PD_EN allows it. No other pseudo-channel changes. Where a command
does not apply, that nothing changes is the model's choice (log entry 10). -/
def Obligations.RefreshCredits : Prop :=
  ∀ (s : State) (pc : Nat), pc < 32 → s.hmc.pcs.length = 32 → s.stackLive = true →
    ((s.pseudo pc).p < 8 → ∃ t, exec (.refreshCredit pc) s = .next t ∧ (t.pseudo pc).p = (s.pseudo pc).p + 1 ∧
      (∀ k, k ≠ pc → t.pseudo k = s.pseudo k) ∧ RegsBut [HMC_REF.PEAK pc] s t ∧ SameMemories s t) ∧
    (8 ≤ (s.pseudo pc).p → ∃ t, exec (.refreshCredit pc) s = .next t ∧ (t.pseudo pc).p = (s.pseudo pc).p ∧
      t.reg (HMC_REF.FORCED pc) = sat 16 (s.reg (HMC_REF.FORCED pc) + 1) ∧
      (∀ k, k ≠ pc → t.pseudo k = s.pseudo k) ∧ RegsBut [HMC_REF.FORCED pc] s t ∧ SameMemories s t) ∧
    (-8 < (s.pseudo pc).p → ∃ t, exec (.refreshPay pc) s = .next t ∧ (t.pseudo pc).p = (s.pseudo pc).p - 1 ∧
      (t.pseudo pc).down = false ∧ (∀ k, k ≠ pc → t.pseudo k = s.pseudo k) ∧ t.regs = s.regs ∧ SameMemories s t) ∧
    ((s.pseudo pc).p ≤ -8 → exec (.refreshPay pc) s = .next s) ∧
    (s.lv HMC_CTRL.PD_EN = 1 → ∃ t, exec (.powerDownEntry pc) s = .next t ∧ (t.pseudo pc).down = true ∧
      (t.pseudo pc).p = (s.pseudo pc).p ∧ (∀ k, k ≠ pc → t.pseudo k = s.pseudo k) ∧ t.regs = s.regs ∧ SameMemories s t) ∧
    (s.lv HMC_CTRL.PD_EN ≠ 1 → exec (.powerDownEntry pc) s = .next s)

/-- The stack's temperature (R51, R276): at 85 degrees the stack becomes hot and every P doubles within -8 and 8; at
81 it cools and every P halves, toward positive infinity; at 105 the chip fences itself and enters SAFE with
SAFE_CAUSE 3. The controller that reads it runs on the root clock (R21): without root lock nothing changes. That the cause
replaces the one of a chip already in SAFE is the model's choice (log entry 101). -/
def Obligations.StackTemperature : Prop :=
  ∀ (s : State) (c : Nat), (s.aon.rootLock = false → exec (.stackTempRead c) s = .next s) ∧
    (s.g ≠ .off → s.aon.rootLock = true → s.hmc.pcs.length = 32 → ∃ t, exec (.stackTempRead c) s = .next t ∧
    t.reg MGT_TEMP.STACK = c % 2 ^ 8 ∧ t.hbm = s.hbm ∧ t.flash = s.flash ∧
    (c < 105 → t.g = s.g ∧ t.stripe = s.stripe ∧ t.fence = s.fence ∧ MemoriesBut s.devSlot s t ∧
      (s.reg HMC_STATUS.HOT = 0 → 85 ≤ c → t.reg HMC_STATUS.HOT = 1 ∧
        ∀ pc, pc < 32 → (t.pseudo pc).p = max (min (2 * (s.pseudo pc).p) 8) (-8)) ∧
      (s.reg HMC_STATUS.HOT = 1 → c ≤ 81 → t.reg HMC_STATUS.HOT = 0 ∧
        ∀ pc, pc < 32 → (t.pseudo pc).p = -(-(s.pseudo pc).p / 2)) ∧
      ((s.reg HMC_STATUS.HOT = 0 → c < 85) → (s.reg HMC_STATUS.HOT = 1 → 81 < c) → t.hmc = s.hmc ∧ t.host = s.host ∧
        t.reg HMC_STATUS.HOT = s.reg HMC_STATUS.HOT)) ∧
    (105 ≤ c → s.aon.therm1 = false → t.g = .safe ∧ t.reg MGT_STATE.SAFE_CAUSE = 3 ∧ t.aon.therm1 = true ∧
      t.fence.isSome = true ∧ t.stripe = none))

/-- Row-hammer defence (R278, R279), self-refresh requests (R281, R282) and the report of corrected errors (R283). A
bank counts its ACTs up to RAAMMT, an RFM takes RAAIMT off; a bank that reaches RAAMMT throttles the port with the
most ACTs to it, the lowest of several (that is the model's choice, log entry 54), but never the sill reader's; a
throttled port regains its weight, while the root clock runs (R21). That self-refresh entry leaves a P below 0 as it is, where R281 pays until P is 0, is
the model's choice (log entry 125). Where a command does not apply, that nothing changes is the model's choice (log
entry 10). -/
def Obligations.StackDefences : Prop :=
  (∀ (s : State) (pc bank : Nat) (acts : List Nat), pc < 32 → s.hmc.pcs.length = 32 → s.stackLive = true →
    let b := ((s.pseudo pc).banks.find? (fun b => b.1 == bank)).getD (bank, 0, [])
    let raa := min (s.reg HMC_RH.RAAMMT) (b.2.1 + acts.sum)
    ∃ t, exec (.rfmIssue pc bank acts) s = .next t ∧ t.hbm = s.hbm ∧ t.flash = s.flash ∧ t.stripe = s.stripe ∧
      (∃ per rest, (t.pseudo pc).banks =
        (bank, (if s.reg HMC_RH.RAAIMT ≤ raa then raa - s.reg HMC_RH.RAAIMT else raa), per) :: rest) ∧
      (∀ k, k ≠ pc → t.pseudo k = s.pseudo k) ∧
      (raa < s.reg HMC_RH.RAAMMT ∨ s.reg HMC_RH.RAAMMT ≤ b.2.1 → t.regs = s.regs ∧ t.host = s.host) ∧
      (s.reg HMC_RH.RAAMMT ≤ raa → b.2.1 < s.reg HMC_RH.RAAMMT →
        let per := (List.range 9).map (fun p => b.2.2.getD p 0 + acts.getD p 0)
        ∃ p, p < 9 ∧ (∀ q, q < 9 → per.getD q 0 ≤ per.getD p 0) ∧ (∀ q, q < p → per.getD q 0 < per.getD p 0) ∧
          (p ≠ 0 → t.reg (HMC_PORT.THROTTLED p) = 1 ∧ t.reg (HMC_PORT.WEIGHT p) = 1 ∧ MemoriesBut s.devSlot s t) ∧
          (p = 0 → t.regs = s.regs ∧ t.host = s.host))) ∧
  (∀ (s : State) (p : Nat), p < 9 →
    (s.aon.rootLock = true → s.reg (HMC_PORT.THROTTLED p) = 1 → ∃ t, exec (.throttleExpire p) s = .next t ∧ t.reg (HMC_PORT.THROTTLED p) = 0 ∧
      t.reg (HMC_PORT.WEIGHT p) = portLeaves p ∧ RegsBut [HMC_PORT.THROTTLED p, HMC_PORT.WEIGHT p] s t ∧
      t.quiet = s.quiet ∧ t.host = s.host ∧ t.hif = s.hif) ∧
    (s.aon.rootLock = false ∨ s.reg (HMC_PORT.THROTTLED p) ≠ 1 → exec (.throttleExpire p) s = .next s)) ∧
  (∀ s : State, s.reg HMC_STATUS.SR_ENTRY = 1 → ∃ t, exec .selfRefreshRequest s = .next t ∧
    t.reg HMC_STATUS.SR_ENTRY = 0 ∧ t.hmc = { s.hmc with srCancelled := true, srHeld := false } ∧ SameMemories s t ∧
    RegsBut [HMC_STATUS.SR_ENTRY] s t ∧ t.g = s.g) ∧
  (∀ s : State, s.hmc.srCancelled = true → s.g = .park → ∃ t, exec .selfRefreshReentry s = .next t ∧
    t.reg HMC_STATUS.SR_ENTRY = 1 ∧ t.reg BST_PARK.PHASE = 3 ∧ t.hmc.srCancelled = false ∧
    (∀ pc, pc < s.hmc.pcs.length → (t.pseudo pc).p = min (s.pseudo pc).p 0 ∧ (t.pseudo pc).down = false) ∧
    SameMemories s t ∧ t.g = .park) ∧
  (∀ s : State, s.hmc.srCancelled = false ∨ s.g ≠ .park → exec .selfRefreshReentry s = .next s) ∧
  (∀ s : State, s.hmc.ceReported < s.reg HMC_ECC_CE.COUNT → ∃ t, exec .eccCeReport s = .next t ∧
    t.hmc.ceReported = s.reg HMC_ECC_CE.COUNT ∧ MemoriesBut s.devSlot s t ∧ RegsButHif [] s t ∧ t.stripe = s.stripe) ∧
  (∀ s : State, s.reg HMC_ECC_CE.COUNT ≤ s.hmc.ceReported → exec .eccCeReport s = .next s)

/-! ## A stripe from arming to IDLE -/

/-- STRIPE_ARM with the link OPEN and no fence (R242, R296, R297, R337): a fresh proof is asked for first; after it a
head that is not the one of SCH_HEAD_ID ends the stripe unarmed with cause 0x05, targets out of range with 0x06 (in a
pair the chip sends the FINDING and holds, log entry 73), and otherwise the stripe is ARMED with every count at 0, the
sill asking for frames 0 to 31 and ARM sent with the trims. That the fresh challenge takes the place of one that still
waits for its answer is the model's choice (log entry 149). Without a waiting stripe, or where arming must wait,
nothing changes, but that on a mirror the sets which waited for a stripe that does not arm there take effect. Where a
command does not apply, that nothing changes is the model's choice (log entry 10). -/
def Obligations.StripeArms : Prop :=
  (∀ (s : State) (r : ArmReq), s.waiting = some r → s.mayArm = true → s.fence = none → s.shl.st = .opened →
    (s.shl.freshEnded = false → s.shl.freshAsked = false → s.prot.headKey.isSome = true → s.shl.challenge = none →
      ∃ t, exec .stripeArm s = .next t ∧ t.waiting = some r ∧ t.stripe = s.stripe ∧ t.g = s.g ∧
        t.shl.challenge = some s.shl.draws ∧ t.shl.freshAsked = true ∧ SameMemories s t ∧ (s.bst.test = none → t.regs = s.regs)) ∧
    (∀ n, s.shl.freshEnded = false → s.shl.freshAsked = false → s.prot.headKey.isSome = true → s.shl.challenge = some n →
      ∃ t, exec .stripeArm s = .next t ∧ t.waiting = some r ∧ t.shl.challenge = some s.shl.draws ∧
        t.shl.freshAsked = true ∧ SameMemories s t) ∧
    (s.shl.freshEnded = true → (s.gen = 1 → s.unfitBeam = none) → ∃ t, exec .stripeArm s = .next t ∧ t.hbm = s.hbm ∧
      (s.isMirror = false → t.flash = s.flash) ∧
      (∀ c, s.headWrong = true ∧ c = 5 ∨ s.headWrong = false ∧ s.outOfRange r = true ∧ c = 6 → t.stripe = s.stripe ∧
        t.g = s.g ∧ (s.covered = false → t.waiting = none ∧ t.reg EMS_STATE.CAUSE = c ∧
          t.reg EMS_STRIPE.STRIPE_ID = r.id % 2 ^ 32) ∧
        (s.covered = true → s.nlk.theirFindings = [] → s.nlk.leadArmed = false → t.waiting = some r ∧ t.holding = true ∧
          ∃ evs, t.nlk.myFindings = [⟨2, 0, c, evs, c⟩])) ∧
      (s.headWrong = false → s.outOfRange r = false → t.waiting = none ∧ t.g = .armed ∧
        t.reg EMS_STRIPE.STRIPE_ID = r.id % 2 ^ 32 ∧
        (∃ l, Sent.record l (.arm r.id r.pass (s.lv SCH_DWELL.DWELL_NS) (t.reg SHL_TRIM_CRC.CRC)) ∈ t.shl.sent) ∧
        ∃ st, t.stripe = some st ∧ st.req = r ∧ st.st = .armed ∧ st.fired = 0 ∧ st.missed = 0 ∧ st.nextFlash = 0 ∧
          st.stepNext = -(r.lead : Int) ∧ st.sillWanted = List.range 32 ∧ st.ledger.holes = []))) ∧
  (∀ s : State, s.waiting = none ∨ s.mayArm = false → s.isMirror = false ∨ s.g ≠ .ready ∨ s.setsDue = [] →
    exec .stripeArm s = .next s)

/-- From ARMED to RUN (R25, R296, R298, R308): the sill takes the oldest frame that it asked for, or, read with an
uncorrectable error, fences the chip with cause 0x01 (R284); WAIT_SOS is entered with everything there. SOS is latched in
ARMED and taken on entry to WAIT_SOS; in WAIT_SOS it starts RUN (or TAIL) when the stage is good and the first target lies
ahead; with Yf at or beyond the first target it ends the stripe of a chip alone with cause 0x07; with the stage not good
it is ignored and counted, as it is counted with no stripe held and in RUN, TAIL, DONE and ABORTED. Where a command does
not apply, that nothing changes is the model's choice (log entry 10). -/
def Obligations.StripeStarts : Prop :=
  (∀ (s : State) (st : Stripe), s.stripe = some st →
    (∀ n rest ecc, s.serviced = true → s.liveStripe = some st → st.sillWanted = n :: rest → s.mayFetch st n = true →
      (ecc.bad = none → ∃ t, exec (.sillFetchDone ecc) s = .next t ∧ SameMemories s t ∧ t.g = s.g ∧
        t.stripe = some { st with sill := st.sill ++ [n], sillWanted := rest }) ∧
      (∀ w, ecc.bad = some w → eccWithin w (blockAddr n 0) (sillBytes n) = true → s.fence = none →
        ∃ t, exec (.sillFetchDone ecc) s = .next t ∧ t.fence = some ⟨0x01, false⟩ ∧ t.hbm = s.hbm)) ∧
    (s.sosReady st = true → st.sosLatched = false → exec .enterWaitSos s = .next
      { s with stripe := some { st with st := .waitSos, seg := .pending s.port.slots, segEnd := 0, sosLatched := false } }) ∧
    (s.sosReady st = false → exec .enterWaitSos s = .next s) ∧
    (∀ ok, s.serviced = true → st.st = .armed → ∃ t, exec (.sosRise ok) s = .next t ∧
      t.stripe = some { st with sosLatched := true } ∧ t.g = s.g ∧ t.regs = s.regs ∧ SameMemories s t) ∧
    (∀ i : Instr, (i = .enterWaitSos ∧ s.sosReady st = true ∧ st.sosLatched = true ∨
        (∃ ok, i = .sosRise ok ∧ s.serviced = true ∧ st.st = .waitSos ∧ s.working = true)) →
      let ok := i = .sosRise true ∨ i = .enterWaitSos ∧ s.aon.stageOk = true
      ((s.port.yf : Int) < s.target st.req 0 → ok → s.port.locked = true → ∃ t, exec i s = .next t ∧ t.g = .run ∧
        t.port.yf = s.port.y ∧ t.regs = s.regs ∧ SameMemories s t ∧ ∃ st', t.stripe = some st' ∧
          st'.st = (if st.lastStep < 0 then .tail else .run) ∧ st'.nextFlash = st.nextFlash ∧ st'.recentOver = [] ∧
          st'.blankRun = 0 ∧ st'.fired = st.fired) ∧
      ((s.port.yf : Int) < s.target st.req 0 → ¬ok ∨ s.port.locked = false → ∃ t, exec i s = .next t ∧ t.g = s.g ∧
        t.stripe.map (fun x => (x.st, x.req)) = some (.waitSos, st.req) ∧
        t.reg EMS_SOS_IGN.COUNT = sat 16 (s.reg EMS_SOS_IGN.COUNT + 1) ∧ MemoriesBut s.devSlot s t) ∧
      (s.target st.req 0 ≤ (s.port.yf : Int) → s.stripeActive = true → s.covered = false → ∃ t, exec i s = .next t ∧
        t.stripe = none ∧ t.g = .ready ∧ t.reg EMS_STATE.CAUSE = 0x07 ∧ t.hbm = s.hbm))) ∧
  (∀ (s : State) (ok : Bool), s.serviced = true →
    s.stripe = none ∨ (∃ st, s.stripe = some st ∧ (st.st = .run ∨ st.st = .tail ∨ st.st = .done ∨ st.st = .aborted)) →
    ∃ t, exec (.sosRise ok) s = .next t ∧ t.reg EMS_SOS_IGN.COUNT = sat 16 (s.reg EMS_SOS_IGN.COUNT + 1) ∧
      RegsBut [EMS_SOS_IGN.COUNT] s t ∧ t.stripe = s.stripe ∧ t.g = s.g ∧ SameMemories s t)

/-- A slot of the position port (R289, R293, R296, R300, R302, R303): the 64th good slot in a row locks the port and a
bad one starts the count again. On a chip without a partner, an accepted pair at or beyond the target decides the next
flash. With the stage good, the stripe not blanked, X within tolerance and the segment and minimum times past, it
fires: counted, marked, awaiting its FRAME_STATUS, and not a miss. Otherwise it is missed, counted under its cause and
nothing else: the segment or the minimum time not past (1), blanked (2), X outside the tolerance (3), its frame never
sent (4). What ends the stripe of a chip alone in RUN or TAIL: the loss of lock at the 8th bad slot (0x08), a step
back beyond JTOL_PU (0x09), more misses of cause 1 in 256 flashes than OVS_LIMIT (0x0A), the 256th miss in a row of
cause 2 (0x0C). Where it does not run, or with EMS OFF, the port does nothing. In which states the port listens is the
model's reading (log entry 83): in service, and in START once the root is locked. The levels on the balls, TWIN_ID
among them, are as the slot brings them (R43). -/
def Obligations.PositionSlots : Prop :=
  ∀ (s : State) (fy fx : BitVec 50) (ok blank twin : Bool),
    let good := frameSync fy && frameSync fx && frameCheck fy && frameCheck fx
    (s.portRuns = false → exec (.positionSlot fy fx ok blank twin) s = .next (s.levels ok blank twin)) ∧
    ((s.levels ok blank twin).isMirror = s.isMirror ∧ (s.aon.rails = true →
      (s.levels ok blank twin).aon = { s.aon with stageOk := ok, blankReq := blank, twinPin := twin })) ∧
    (s.serviced = true ∨ s.g = .start ∧ s.aon.rootLock = true → s.pwr 9 ≠ .off → s.port.locked = false →
      ∃ t, exec (.positionSlot fy fx ok blank twin) s = .next t ∧ t.port.slots = s.port.slots + 1 ∧ t.hbm = s.hbm ∧
        t.flash = s.flash ∧
        (good = false → t.port.good = 0 ∧ t.port.locked = false) ∧
        (good = true → s.port.good < 63 → t.port.good = s.port.good + 1 ∧ t.port.locked = false) ∧
        (good = true → 63 ≤ s.port.good → t.port.locked = true ∧ t.port.base = s.port.slots + 1)) ∧
    (∀ st a, s.decides st fy fx → st.seg = .sent a → st.nextFlash ≤ st.final → ok = true → blank = false →
      ((frameWord fx : Int) - st.req.originX).natAbs ≤ s.lv EMS_XTOL.XTOL_PU → s.timesPast st a →
      (st.recentOver.filter (fun f => st.nextFlash < f + 256)).length ≤ s.lv EMS_FLASH_CFG.OVS_LIMIT →
      ∃ t, exec (.positionSlot fy fx ok blank twin) s = .next t ∧ t.hbm = s.hbm ∧ t.flash = s.flash ∧ t.g = s.g ∧
        t.port.yf = frameWord fy ∧ t.reg EMS_FLASHES.COUNT = (s.reg EMS_FLASHES.COUNT + 1) % 2 ^ 48 ∧
        Sent.fire (s.shl.map.map (·.2)) st.nextFlash ∈ t.shl.sent ∧
        ∃ st', t.stripe = some st' ∧ st'.st = .run ∧ st'.fired = st.fired + 1 ∧ st'.missed = st.missed ∧
          st'.nextFlash = st.nextFlash + 1 ∧ st'.lastFlash = some st.nextFlash ∧ st'.lastFire = some s.port.slots ∧
          st'.awaiting = (if st.overdue then st.awaiting.filter (fun n => some n != st.lastFired) else st.awaiting) ++
            [st.nextFlash] ∧
          st'.ledger = st.ledger) ∧
    (∀ st c, s.decides st fy fx → st.nextFlash ≤ st.final → ok = true ∨ st.stageLow < 24 →
      (c = 1 ∧ ((∃ a, st.seg = .pending a ∧ s.port.slots < a) ∨ ∃ a, st.seg = .sent a ∧ ¬s.timesPast st a)) ∨
        (c = 2 ∧ blank = true ∧ ∃ a, st.seg = .sent a ∧ s.timesPast st a) ∨
        (c = 3 ∧ blank = false ∧ s.lv EMS_XTOL.XTOL_PU < ((frameWord fx : Int) - st.req.originX).natAbs ∧
          ∃ a, st.seg = .sent a ∧ s.timesPast st a) ∨ (c = 4 ∧ st.seg = .nosill) →
      let recent := ((if c = 1 then st.nextFlash :: st.recentOver else st.recentOver).filter
        (fun f => st.nextFlash < f + 256)).length
      ∃ t, exec (.positionSlot fy fx ok blank twin) s = .next t ∧ t.hbm = s.hbm ∧ t.flash = s.flash ∧
        t.reg (EMS_MISS.COUNT c) = sat 32 (s.reg (EMS_MISS.COUNT c) + 1) ∧
        t.reg EMS_FLASHES.COUNT = s.reg EMS_FLASHES.COUNT ∧
        (recent ≤ s.lv EMS_FLASH_CFG.OVS_LIMIT → (c = 2 → st.blankRun < 255) →
          t.g = s.g ∧ ∃ st', t.stripe = some st' ∧ st'.st = .run ∧ st'.fired = st.fired ∧
          st'.missed = st.missed + 1 ∧ st'.missCause = modAt st.missCause (c - 1) (fun m => m + 1) ∧
          st'.nextFlash = st.nextFlash + 1 ∧ st'.awaiting = st.awaiting) ∧
        (s.lv EMS_FLASH_CFG.OVS_LIMIT < recent → ∃ st', t.stripe = some st' ∧ st'.st = .aborted ∧ st'.cause = 0x0A) ∧
        (recent ≤ s.lv EMS_FLASH_CFG.OVS_LIMIT → c = 2 → 255 ≤ st.blankRun →
          ∃ st', t.stripe = some st' ∧ st'.st = .aborted ∧ st'.cause = 0x0C)) ∧
    (∀ st, s.serviced = true → s.pwr 9 ≠ .off → s.port.locked = true → s.covered = false → s.working = true →
      s.g = .run → s.stripe = some st → st.st = .run ∨ st.st = .tail →
      (good = false → 7 ≤ s.port.bad → ∃ t, exec (.positionSlot fy fx ok blank twin) s = .next t ∧
        t.port.locked = false ∧ t.reg EMS_POS_ERR.LOSSES = sat 8 (s.reg EMS_POS_ERR.LOSSES + 1) ∧ AbortedBy 0x08 s t) ∧
      (good = true → frameValid fy = true → frameValid fx = true → s.glitch (frameWord fy) = false →
        frameWord fy + s.lv EMS_POS_CFG.JTOL_PU < s.port.yf →
        ∃ t, exec (.positionSlot fy fx ok blank twin) s = .next t ∧ AbortedBy 0x09 s t))

/-- What ends a stripe (R296, R300, R313, R314). In RUN and TAIL, STAGE_OK low for 25 slots and a stall end the stripe of a chip
alone with causes 0x0B and 0x0D; with STALL_MS 0, or fewer slots, they do nothing. A stripe whose last flash is decided and
whose ledger is empty is DONE, its staging queue discarded (R101); its outcome makes the engine READY with the record
of R313; so does the end of FAULT_BLANK_N. The lifetime count starts a new epoch when it is cleared. Where a command
does not apply, that nothing changes is the model's choice (log entry 10). -/
def Obligations.StripeEnds : Prop :=
  (∀ (s : State) (st : Stripe), s.stripe = some st →
    (st.st = .run ∨ st.st = .tail → s.g = .run → s.working = true → s.covered = false → 25 ≤ st.stageLow →
      ∃ t, exec .stageOkTimeout s = .next t ∧ AbortedBy 0x0B s t) ∧
    (st.stageLow < 25 → exec .stageOkTimeout s = .next s) ∧
    (st.st = .run ∨ st.st = .tail → s.g = .run → s.working = true → s.covered = false →
      s.lv EMS_TIMEOUT.STALL_MS ≠ 0 →
      ∃ t, exec .stallTimeout s = .next t ∧ AbortedBy 0x0D s t) ∧
    (s.lv EMS_TIMEOUT.STALL_MS = 0 → exec .stallTimeout s = .next s) ∧
    (st.st = .tail → s.working = true → st.final < st.nextFlash → st.ledger.writes = [] → s.nlk.pendingMiss = [] → s.nlk.missTimed = [] →
      ∃ t, exec .stripeDone s = .next t ∧ t.stripe = some { st with st := .done, endState := 4, cause := 0 } ∧
        t.reg EMS_STATE.CAUSE = 0 ∧ RegsBut (EMS_STATE.CAUSE :: pathFields) s t ∧ SameMemories s t ∧ t.hif = s.hif ∧
        ∀ ch, s.streamChan st.req.streamSq = some ch → t.stagedCount ch = 0) ∧
    (st.st = .done → st.awaiting = [] → s.fence = none → ∃ t, exec .stripeOutcome s = .next t ∧ t.stripe = none ∧
      t.g = .ready ∧ t.lastOutcome = st.record ∧ t.hbm = s.hbm) ∧
    (st.st = .aborted → st.outcomeDone = true → ∃ t, exec .fbHoldExpire s = .next t ∧ t.stripe = none ∧ t.g = .ready ∧
      t.hbm = s.hbm) ∧
    (st.st ≠ .aborted → exec .fbHoldExpire s = .next s)) ∧
  (∀ s : State, s.writeLands 0x90050 → ∃ t, exec .flashCountClear s = .next t ∧ t.reg EMS_FLASHES.COUNT = 0 ∧
    t.reg EMS_FLASHES.OVF = 0 ∧ t.reg EMS_FLASHES.EPOCH = (s.reg EMS_FLASHES.EPOCH + 1) % 2 ^ 8 ∧
    RegsBut [EMS_FLASHES.COUNT, EMS_FLASHES.OVF, EMS_FLASHES.EPOCH] s t ∧ t.quiet = s.quiet ∧ t.host = s.host)

/-! ## The shutter link -/

/-- LINK_EN, RELATCH and the knock (R330 to R334, R341, R349): a write of SHL_CTRL, which a mirror discards. LINK_EN starts
a knock with no identity proved, or takes the link DOWN; RELATCH latches again;
KNOCK is sent on physical lanes 0 to 3, its silence reported once, and a whole KNOCK_REPLY fixes generation and rate,
while one that is whole on no lane, of another TYPE or LEN, or with a bad field is only counted. That RELATCH latches at
once in READY is the model's reading (log entry 71). Where a command does
not apply, that nothing changes is the model's choice (log entry 10). -/
def Obligations.LinkKnocks : Prop :=
  (∀ (s : State) (w : Word), s.isMirror = true → exec (.linkEnable w) s = .next s ∧ exec (.linkDisable w) s = .next s ∧
    exec (.relatch w) s = .next s) ∧
  (∀ (s : State) (w : Word), s.writeLands 0xA0000 → s.stripeActive = false →
    (s.reg SHL_CTRL.LINK_EN = 0 → bit w.toNat 1 = false → ∃ t, exec (.linkEnable w) s = .next t ∧ t.shl.st = .knock ∧
      t.shl.proved = none ∧ t.reg SHL_CTRL.LINK_EN = 1 ∧ t.reg SHL_STATE.GEN = 0 ∧ t.reg SHL_STATE.RATE = 0 ∧
      SameMemories s t ∧ t.hif = s.hif) ∧
    (bit w.toNat 1 = false → ∃ t, exec (.linkDisable w) s = .next t ∧ t.shl.st = .down ∧ t.shl.proved = none ∧
      t.reg SHL_CTRL.LINK_EN = 0 ∧ SameMemories s t ∧ t.hif = s.hif) ∧
    (s.g = .ready → s.reg SHL_CTRL.LINK_EN = 1 → bit w.toNat 0 = true → s.shl.st = .opened → s.shl.knockDue = false →
      ∃ t, exec (.relatch w) s = .next t ∧ t.shl.st = .latch ∧ t.shl.proved = s.shl.proved ∧
        t.reg SHL_STATE.LOSSES = 0 ∧ SameMemories s t ∧ t.hif = s.hif)) ∧
  (∀ s : State, s.shl.st = .knock → s.gen = 0 →
    (s.mute = false → exec .knockSend s =
      .next (s.send (.record [0, 1, 2, 3] (.knock (s.lv SHL_CTRL.MAX_RATE) (b2n s.isMirror) s.aon.dieId)))) ∧
    (s.shl.knockPosted = false → ∃ t, exec .knockTimeout s = .next t ∧ t.shl = { s.shl with knockPosted := true } ∧
      t.reg SHL_STATE.LAST_STATUS = 6 ∧ MemoriesBut s.devSlot s t ∧ t.stripe = s.stripe) ∧
    (s.shl.knockPosted = true → exec .knockTimeout s = .next s) ∧
    (∀ h p, s.hears h 0x01 p → num p 0 1 = 1 → 1 ≤ num p 1 1 → num p 1 1 ≤ 3 → num p 3 1 = 0 →
      ∃ t, exec (.knockReply h) s = .next t ∧ t.reg SHL_STATE.GEN = num p 1 1 ∧
      t.reg SHL_STATE.RATE = min (s.lv SHL_CTRL.MAX_RATE) (min (num p 2 1) (num p 1 1)) ∧
      t.reg SHL_HEAD_ID.VALUE = num p 4 8 ∧ t.shl.watching = true ∧ t.shl.st = .knock ∧ SameMemories s t ∧
      t.hif = s.hif)) ∧
  (∀ (s : State) (h : BackCopies), s.serviced = true →
    heardCopy h = none ∨ (∃ type p, heardCopy h = some (type, p) ∧ (type ≠ 0x01 ∨ p.length ≠ 20 ∨ num p 0 1 ≠ 1 ∨
      num p 1 1 = 0 ∨ 3 < num p 1 1 ∨ num p 3 1 ≠ 0)) →
    ∃ t, exec (.knockReply h) s = .next t ∧
      t.reg SHL_BC.BAD = sat 16 (s.reg SHL_BC.BAD + 1) ∧ RegsBut [SHL_BC.BAD] s t ∧ t.shl = s.shl ∧ SameMemories s t)

/-- LATCH and OPEN (R328, R332 to R335, R339, R340). Every used lane sends latch sets with its scrambler started anew
and the equalisation entry of the rate in force, the others nothing. With every used lane locked each logical lane
takes its own physical lane and OPEN is sent; the same lanes reported again open the link; LANE_STATUS
alone tells so, and a FRAME_STATUS in LATCH changes nothing of the link. LATCH_TIMEOUT places the
lanes that are locked, with spares, or falls to the next lower rate, below the lowest of which the link is FAILED. A
third lane lost fences the chip. -/
def Obligations.LinkLatchesAndOpens : Prop :=
  (∀ s : State, (s.shl.st = .knock ∧ s.gen ≠ 0) ∨ (s.shl.st = .latch ∧ s.shl.latching = false ∧ s.shl.openSent = false) →
    s.shl.lanes.length = 34 →
    ∃ t, exec .latchStart s = .next t ∧ t.shl.st = .latch ∧ t.shl.latching = true ∧ t.shl.lanes.length = 34 ∧
      t.shl.proved = s.shl.proved ∧ SameMemories s t ∧ t.hif = s.hif ∧
      ∀ n, n < 34 →
        (n ∈ genUsed s.gen → .latchSet n (scrambled 14 0xFFFF).1 ∈ t.shl.sent ∧ t.shl.lanes[n]? = some
          ⟨.latchSets, (scrambled 14 0xFFFF).2, (s.tabLive.eqEntry (34 * s.rate + n)).1,
            (s.tabLive.eqEntry (34 * s.rate + n)).2.1, (s.tabLive.eqEntry (34 * s.rate + n)).2.2.1,
            disparityAfter (s.shl.lanes.getD n .reset).neg (latchSyms n (scrambled 14 0xFFFF).1), []⟩) ∧
        (n ∉ genUsed s.gen → t.shl.lanes[n]? = some .reset)) ∧
  (∀ (s : State) (h : BackCopies) (p : List Byte), s.shl.st = .latch → s.hears h 0x02 p →
    let lock := num p 0 8
    (s.shl.latching = true → s.mute = false → (∀ l ∈ genUsed s.gen, bit lock l = true) →
      ∃ t, exec (.laneStatus h) s = .next t ∧ t.shl.st = .latch ∧ t.shl.openSent = true ∧ t.shl.latching = false ∧
        t.shl.map = (List.range (genLanes s.gen)).map (fun k => (k, k)) ∧
        t.shl.sent.head? = some (.record [0, 1] (.openMap (openMap t.shl.map))) ∧ t.reg SHL_LOST.LANES = 0 ∧ t.reg SHL_STATE.LOSSES = 0 ∧
        SameMemories s t ∧ t.hif = s.hif) ∧
    (s.shl.latching = false → s.shl.openSent = true → (∀ e ∈ s.shl.map, e.2 < 34 ∧ bit lock e.2 = true) →
      ∃ t, exec (.laneStatus h) s = .next t ∧ t.shl.st = .opened ∧ t.shl.map = s.shl.map ∧ t.hbm = s.hbm ∧
        t.flash = s.flash ∧ t.stripe = s.stripe)) ∧
  (∀ (s : State) (h : BackCopies) (p : List Byte), s.shl.st = .latch → s.hears h 0x06 p → s.nlk.silentCheck = false →
    ∃ t, exec (.frameStatus h) s = .next t ∧ t.shl = s.shl) ∧
  (∀ s : State, s.shl.st = .latch →
    (∀ m, s.shl.latching = true → placeLanes s.shl.latchLock (List.range (genLanes s.gen)) [] = some m →
      ∃ t, exec .latchTimeout s = .next t ∧ t.shl.map = m ∧ t.shl.openSent = true ∧ t.shl.latching = false ∧
        t.shl.st = .latch ∧ SameMemories s t ∧ t.hif = s.hif) ∧
    (∀ i : Instr, (i = .latchTimeout ∧ s.shl.latching = true ∧
        placeLanes s.shl.latchLock (List.range (genLanes s.gen)) [] = none) ∨ (i = .openTimeout ∧ s.shl.openSent = true) →
      (s.rate = 0 → ∃ t, exec i s = .next t ∧ t.shl.st = .failed ∧ t.shl.proved = none ∧ t.stripe = s.stripe ∧
        MemoriesBut s.devSlot s t) ∧
      (s.rate ≠ 0 → s.rate < 4 → ∃ t, exec i s = .next t ∧ t.shl.st = .latch ∧ t.rate = s.rate - 1 ∧
        t.shl.latching = false ∧ SameMemories s t ∧ t.hif = s.hif))) ∧
  (∀ (s : State) (h : BackCopies) (p : List Byte) (l : Nat), s.shl.st = .opened → s.hears h 0x02 p → s.fence = none →
    s.g ≠ .off → s.g ≠ .safe → s.reg SHL_STATE.LOSSES = 2 →
    (genUsed s.gen).filter (fun k => !lockedLane (num p 0 8 % 2 ^ 34) k && !bit (s.reg SHL_LOST.LANES) k) = [l] →
    ∃ t, exec (.laneStatus h) s = .next t ∧ t.fence = some ⟨0x08, false⟩ ∧ t.shl.proved = none ∧ t.hbm = s.hbm)

/-- The proof of the head, its trims and its reports (R336 to R343). A good answer to the outstanding challenge proves
the head, any other and silence leave it unproved. The right TRIM_ACK ends the wait for trims; without it ARM and the
8 trim segments of every lane are sent again. A fired frame is confirmed by its FRAME_STATUS, which counts switches,
or counted as missing: the frame fired last not before another one fires, or the stripe aborts, or the wait of DONE is over
(log entry 170). The back-channel with one lane silent goes on with the other; with none, outside a stripe, the
link knocks anew. That a failed proof clears the identity is the model's reading (log entry 70). Where a command does
not apply, that nothing changes is the model's choice (log entry 10). -/
def Obligations.HeadReports : Prop :=
  (∀ (s : State) (n : Nat), s.shl.challenge = some n →
    (∀ h p, s.hears h 0x04 p →
      let id := num p 0 8
      let shots := num p 8 8
      let mac := (p.drop 16).take 32
      ∃ t, exec (.authResponse h) s = .next t ∧
      t.shl.challenge = none ∧ t.hbm = s.hbm ∧ t.flash = s.flash ∧ t.stripe = s.stripe ∧
      (s.authGood n id shots mac = true → t.shl.proved = some id ∧ t.reg SHL_SHOTS.VALUE = shots % 2 ^ 64) ∧
      (s.authGood n id shots mac = false → t.shl.proved = none ∧ t.reg SHL_SHOTS.VALUE = s.reg SHL_SHOTS.VALUE)) ∧
    (∃ t, exec .authTimeout s = .next t ∧ t.shl.challenge = none ∧ t.shl.proved = none ∧ t.hbm = s.hbm ∧
      t.flash = s.flash ∧ t.stripe = s.stripe)) ∧
  (∀ s : State, s.shl.challenge = none → exec .authTimeout s = .next s) ∧
  (∀ (s : State) (st : Stripe), s.stripe = some st →
    (∀ h p, s.hears h 0x05 p → st.st = .armed →
      let id := num p 0 4
      let crc := num p 4 4
      ∃ t, exec (.trimAck h) s = .next t ∧ SameMemories s t ∧
      t.regs = s.regs ∧ t.shl = s.shl ∧
      (st.req.id = id → s.reg SHL_TRIM_CRC.CRC = crc → t.stripe = some { st with trimAcked := true }) ∧
      (st.req.id ≠ id ∨ s.reg SHL_TRIM_CRC.CRC ≠ crc → t.stripe = some { st with trimWrong := some crc })) ∧
    (st.st = .armed → st.trimAcked = false → s.shl.st = .opened → ∃ t, exec .trimRetry s = .next t ∧
      t.stripe = some { st with trimRetryPosted := true } ∧ MemoriesBut s.devSlot s t ∧
      t.shl.sent = (s.trimSegments st.req).reverse ++ .record s.recordLanes
        (.arm st.req.id st.req.pass (s.lv SCH_DWELL.DWELL_NS) (s.reg SHL_TRIM_CRC.CRC)) :: s.shl.sent) ∧
    (∀ h p, s.hears h 0x06 p → s.shl.st = .opened → s.nlk.silentCheck = false →
      let frame := num p 0 6
      let src := num p 6 4
      let lock := num p 14 8
      (∀ l ∈ genUsed s.gen, bit lock l = true ∨ bit (s.reg SHL_LOST.LANES) l = true) →
      ∃ t, exec (.frameStatus h) s = .next t ∧ t.g = s.g ∧ t.fence = s.fence ∧
        MemoriesBut s.devSlot s t ∧ t.stripe = some { st with
          awaiting := st.awaiting.filter (fun n => n != frame), counted := st.counted.filter (fun n => n != frame),
          overdue := st.overdue && st.lastFired != some frame, switches := if src = 0 then st.switches else st.switches + 1 }) ∧
    (∀ frame, st.awaiting.contains frame = true → s.nlk.pendingMiss.contains frame = false →
      (st.lastFired ≠ some frame ∨ st.st = .aborted → ∃ t, exec (.frameStatusMissing frame) s = .next t ∧
        t.reg SHL_BC.MISSING = sat 8 (s.reg SHL_BC.MISSING + 1) ∧ RegsBut [SHL_BC.MISSING] s t ∧ SameMemories s t ∧
        t.stripe = some { st with
          awaiting := st.awaiting.filter (fun n => n != frame), counted := frame :: st.counted,
          overdue := st.overdue && st.lastFired != some frame }) ∧
      (st.lastFired = some frame → st.st ≠ .aborted → st.st ≠ .done → exec (.frameStatusMissing frame) s =
        .next { s with stripe := some { st with overdue := true } }) ∧
      (st.st = .done → st.lastFired = some frame → exec (.frameStatusMissing frame) s = .next s ∧
        ∃ t, exec .doneStatusWaitExpire s = .next t ∧ t.reg SHL_BC.MISSING = sat 8 (s.reg SHL_BC.MISSING + 1) ∧
          SameMemories s t ∧ t.stripe = some { st with
            awaiting := st.awaiting.filter (fun n => n != frame), counted := frame :: st.counted, overdue := false }))) ∧
  (∀ (s : State) (lane : Nat), lane < 2 → s.shl.watching = true →
    (s.reg SHL_BC.GOOD = 3 → ∃ t, exec (.backchannelTimeout lane) s = .next t ∧ t.reg SHL_BC.GOOD = 3 - 2 ^ lane ∧
      t.shl = s.shl ∧ t.fence = s.fence ∧ MemoriesBut s.devSlot s t) ∧
    (s.reg SHL_BC.GOOD = 2 ^ lane → s.stripeActive = false → ∃ t, exec (.backchannelTimeout lane) s = .next t ∧
      t.shl.st = .knock ∧ t.shl.proved = none ∧ t.fence = s.fence ∧ MemoriesBut s.devSlot s t))

/-! ## The twin pair -/

/-- The Nalu link (R21, R353, R354, R366, R370, R371). Before root lock nothing trains; under a test of NLK that does
not yield (R404) the link's commands change nothing, as log entry 171 reads it. The lanes that train in START with the
partner's role and versions right form the pair; with its role the same, both chips fence; without a partner the lead
goes on alone and the mirror fences itself. An ACK frees what it covers and takes its turn among the lanes;
unacknowledged messages are sent again and the fourth time lose the link; a lead that loses it goes on alone, a mirror
that carries no stripe fences itself. That the SEQ of the partner goes on after that of its HELLO is the model's
reading (log entry 93). Where a command does not apply, that nothing changes is the model's choice (log entry 10). -/
def Obligations.NaluLink : Prop :=
  (∀ (s : State) (seq role stepping fw die lanes : Nat), s.g = .start → s.aon.rootLock = false →
    exec (.naluHello seq role stepping fw die lanes) s = .next s ∧ exec .naluSoloTimeout s = .next s) ∧
  (∀ (s : State) (seq role stepping fw die lanes : Nat), s.g = .start → s.aon.rootLock = true → s.pwr 11 ≠ .off →
    s.bst.test = none → s.fence = none → 0 < lanes % 256 →
    (role ≠ b2n s.isMirror → stepping = s.reg MGT_REV.STEPPING → fw = s.reg MGT_REV.FW_VERSION → s.nlk.rejoining = false →
      ∃ t, exec (.naluHello seq role stepping fw die lanes) s = .next t ∧ t.nlk.paired = true ∧ t.nlk.linkUp = true ∧
        t.nlk.rxSeq = (seq + 1) % 2 ^ 16 ∧ t.reg NLK_STATE.LANES_UP = lanes % 256 ∧ t.reg NLK_PARTNER.DIE_ID = die % 2 ^ 64 ∧
        t.fence = none ∧ t.g = .start ∧ t.hbm = s.hbm) ∧
    (role = b2n s.isMirror → ∃ t, exec (.naluHello seq role stepping fw die lanes) s = .next t ∧ t.nlk.paired = false ∧
      t.nlk.linkUp = false ∧ t.fence.isSome = true ∧ t.hbm = s.hbm) ∧
    (s.nlk.linkUp = false → ∃ t, exec .naluSoloTimeout s = .next t ∧ t.nlk.paired = false ∧ t.nlk.linkUp = false ∧
      t.reg NLK_STATE.LANES_UP = 0 ∧ t.hbm = s.hbm ∧
      (s.isMirror = false → t.fence = none ∧ t.g = .start ∧ RegsBut [NLK_STATE.LANES_UP] s t ∧ SameMemories s t ∧
        t.hif = s.hif) ∧
      (s.isMirror = true → t.fence.isSome = true))) ∧
  (∀ s : State, s.naluServes = false → exec .naluAckTimer s = .next s ∧ (∀ a st f, exec (.naluAck a st f) s = .next s) ∧
    (∀ seq, exec (.naluResend seq) s = .next s) ∧
    ∀ seq role stepping fw die lanes, exec (.naluHello seq role stepping fw die lanes) s = .next s) ∧
  (∀ s : State, s.naluRuns = true → s.nlk.linkUp = true → s.bst.test = none →
    (∀ a st, s.isMirror = false → s.holding = false → exec (.naluAck a st 1) s = .next
      { s.wakeBlock 11 with nlk := { s.nlk with
        unacked := afterAck a s.nlk.unacked, partnerState := st, leadArmed := false } }) ∧
    (∃ t, exec .naluAckTimer s = .next t ∧ SameMemories s t ∧ t.regs = s.regs ∧ t.hif = s.hif ∧ t.stripe = s.stripe ∧
      t.nlk = { s.nlk with
        turn := s.naluLane
        acksSent := (s.naluLane, .ack ((s.nlk.rxSeq + 2 ^ 16 - 1) % 2 ^ 16) s.g.code (b2n s.fence.isSome)) ::
          s.nlk.acksSent }) ∧
    (∀ seq m, s.nlk.unacked.find? (fun m => m.seq == seq) = some m →
      (m.resent < 3 → ∃ t, exec (.naluResend seq) s = .next t ∧ t.reg NLK_RETX.RESENT = sat 16 (s.reg NLK_RETX.RESENT + 1) ∧
        t.nlk.linkUp = true ∧ t.nlk.turn = s.naluLane ∧
        t.nlk.unacked.map (fun x => (x.seq, x.msg)) = s.nlk.unacked.map (fun x => (x.seq, x.msg)) ∧
        RegsBut [NLK_RETX.RESENT] s t ∧ SameMemories s t) ∧
      (3 ≤ m.resent → ∃ t, exec (.naluResend seq) s = .next t ∧ t.nlk.linkUp = false ∧ t.hbm = s.hbm)) ∧
    (∃ t, exec .naluLinkLost s = .next t ∧ t.nlk.linkUp = false ∧ t.reg NLK_STATE.LANES_UP = 0 ∧
      t.hbm = s.hbm ∧ (s.isMirror = false → t.nlk.partnerFenced = true ∧ (s.fence = none → t.fence = none)) ∧
      (s.isMirror = true → s.liveStripe = none → t.fence.isSome = true))) ∧
  (∀ s : State, s.nlk.linkUp = false → exec .naluLinkLost s = .next s) ∧
  (∀ (s : State) (lane : Nat), lane < 8 →
    (bit (s.reg NLK_STATE.LANES_UP) lane = true → ∃ t, exec (.naluLaneDrop lane) s = .next t ∧
      bit (t.reg NLK_STATE.LANES_UP) lane = false ∧ t.reg NLK_RETX.DROPS = sat 8 (s.reg NLK_RETX.DROPS + 1) ∧
      RegsBut [NLK_STATE.LANES_UP, NLK_RETX.DROPS] s t ∧ { t.nlk with lanes := s.nlk.lanes } = s.nlk ∧
      (∀ k, k ≠ lane → t.nlk.lanes[k]? = s.nlk.lanes[k]?) ∧ SameMemories s t) ∧
    (bit (s.reg NLK_STATE.LANES_UP) lane = false → exec (.naluLaneDrop lane) s = .next s))

/-- What the lead sends and the mirror takes (R81, R348 to R352, R354). A message out of SEQ order, or with the link
down, does nothing. An ARM_STRIPE of the lead stands among the mirror's entries; a set waits for the boundary; table
bytes reach the staged copy; a buffer that the mirror has fetched is noted, and one that the lead has fetched too
completes with OK; an event of the mirror is posted by the lead alone. The set takes effect on the mirror's own tables,
as they were staged when the entry of the COMMIT came (R92; log entries 91, 96 and 120). Where a command does not apply, that nothing changes is the model's choice (log entry 10).
-/
def Obligations.NaluForwards : Prop :=
  ∀ (s : State) (seq : Nat),
    (∀ i : Instr, s.passesBy seq → (∃ r x raw, i = .naluEntry seq r x raw) ∨ (∃ c m l k, i = .naluCommitSet seq c m l k) ∨
        (∃ a o d, i = .naluTableChunk seq a o d) ∨ (∃ r x, i = .naluFetched seq r x) ∨ (∃ m d b, i = .naluSig seq m d b) ∨
        (∃ m r k x, i = .naluRecompute seq m r k x) ∨ (∃ m r d b x, i = .naluResult seq m r d b x) ∨
        (∃ m d b, i = .naluVerdict seq m d b) ∨ (∃ m d b, i = .naluBlock seq m d b) ∨
        (∃ f o, i = .naluDecision seq f o) ∨ (∃ f, i = .naluMissList seq f) ∨ (∃ k p c, i = .naluFinding seq k p c) ∨
        (∃ c h f, i = .naluFence seq c h f) ∨ (∃ raw, i = .naluEvent seq raw) ∨ (∃ r h, i = .naluOutcome seq r h) ∨
        (∃ f h, i = .naluHoles seq f h) →
      exec i s = .next s) ∧
    (s.arrives seq →
      let u := s.took seq
      (∀ r x raw, s.isMirror = true → rawOpc raw = 0x01 → malformed (opcType 1) raw = false → exec (.naluEntry seq r x raw) s = .next
        { u with hif := { u.hif with entries := u.hif.entries ++ [u.heldEntry r x raw] } }) ∧
      (∀ r x raw, s.isMirror = false → exec (.naluEntry seq r x raw) s = .next u) ∧
      (∀ q x raw, s.isMirror = true → rawOpc raw = 0x60 → num raw 8 4 ≠ 0 → malformed (opcType 0x60) raw = false →
        exec (.naluEntry seq q x raw) s = .next { u with commits := { u.commits with
          taken := some (u.copySet 64 0 (num raw 8 4) (num raw 12 4)) } }) ∧
      (∀ c m l k, s.isMirror = true → s.stripeActive = true → s.commits.storing = none →
        (u.mirrorSet c m l (!k.isEmpty)).storesTrims = false →
        ∃ t, exec (.naluCommitSet seq c m l k) s = .next t ∧ t.live = s.live ∧ t.tabLive = s.tabLive ∧ t.fence = s.fence ∧
          t.commits.waiting = s.commits.waiting ++ [u.mirrorSet c m l (!k.isEmpty)] ∧ SameMemories s t ∧
          (k = [] → (u.mirrorSet c m l false).fields = l.filter (fun kv => kv.1 != setAfter) ∧
            ∀ c0, s.commits.taken = some c0 → c0.id = c → c0.mask = m →
              (u.mirrorSet c m l false).tables = c0.tables)) ∧
      (∀ a o d, s.isMirror = true → a < 0x100 → exec (.naluTableChunk seq a o d) s = .next
        { u with tabStaged := u.tabStaged.write a o d }) ∧
      (∀ r x, s.hif.entries.all (fun e => e.q != r) = true → exec (.naluFetched seq r x) s = .next
        { u with nlk := { u.nlk with fetchedByMirror := u.nlk.fetchedByMirror ++ [(r, x)] } }) ∧
      (∀ e, s.hif.entries = [e] → rawOpc e.raw = 0x10 → e.started = true → (∀ c ∈ s.chans, c.req = none) →
        exec (.naluFetched seq e.q (e.idx % 2 ^ 32)) s = .next (u.complete e.q e.idx 0x00 0 0 0)) ∧
      (∀ raw, s.isMirror = false → ∃ t, exec (.naluEvent seq raw) s = .next t ∧ t.quiet = s.quiet ∧
        MemoriesBut s.devSlot s t ∧ RegsButHif [] s t ∧ t.nlk = u.nlk) ∧
      (∀ raw, s.isMirror = true → exec (.naluEvent seq raw) s = .next u))

/-- The cross-check of a step (R284, R356 to R360, R363) on a chip that checks against a partner. Signatures that agree in the
dose row and in every written block close the vote on the lead; others start round 1; a round that the partner starts
is started here; results are kept until both are there; at its closing flash both chips send the entry bits of what is
undecided, the lead closes the vote, and the mirror closes it by a verdict like its own or fences itself with cause
0x0A (R363). That the first VOTE_CLOSE only sends the bits where blocks are undecided, and a later one closes, is the model's
choice (log entry 132). Entry bits read with an uncorrectable error fence the chip with cause 0x01 (R284), whose port is the
model's choice (log entry 153). Closing a vote changes HBM3 in the blocks of its step alone. The clock of a vote before SOS is the model's
reading (log entry 67). Where a command does not apply, that nothing changes is the model's choice (log entry 10). -/
def Obligations.VotesAreHeld : Prop :=
  ∀ (s : State) (st : Stripe) (v : Vote), s.liveStripe = some st → s.checked = true → s.voteOf v.step = some v →
    (∀ seq dose blocks sig, s.arrives seq → v.mine = some sig → sig.dose = dose → st.sigMask v.step sig ⟨dose, blocks⟩ = 0 →
      v.round = 0 → s.nlk.myFindings = [] →
      ∃ t, exec (.naluSig seq v.step dose blocks) s = .next t ∧ SameMemories s t ∧ t.stripe = s.stripe ∧ t.fence = none ∧
        RegsBut [NLK_MARGIN.TF, NLK_RESOLVED.COUNT] s t ∧
        (s.isMirror = false → t.voteOf v.step = none) ∧
        (s.isMirror = true → t.voteOf v.step = some { v with theirs := some ⟨dose, blocks⟩ })) ∧
    (∀ seq dose blocks sig, s.arrives seq → v.mine = some sig →
      sig.dose ≠ dose ∨ st.sigMask v.step sig ⟨dose, blocks⟩ ≠ 0 → v.round = 0 →
      s.nlk.myFindings = [] → ∃ t w, exec (.naluSig seq v.step dose blocks) s = .next t ∧ t.voteOf v.step = some w ∧
        w.round = 1 ∧ w.theirs = some ⟨dose, blocks⟩ ∧ SameMemories s t ∧ t.stripe = s.stripe) ∧
    (∀ seq r k m, s.arrives seq → v.round < r → ∃ t w, exec (.naluRecompute seq v.step r k m) s = .next t ∧
      t.voteOf v.step = some w ∧ w.round = r ∧ w.kind = k ∧ w.redone = [] ∧ SameMemories s t ∧ t.stripe = s.stripe) ∧
    (∀ ecc, s.recomputed st = some v → v.theirResults.length < v.round → s.serviced = true → ecc.bad = none →
      ∃ t w, exec (.recomputeDone ecc) s = .next t ∧
      t.voteOf v.step = some w ∧ w.myResults.length = v.myResults.length + 1 ∧ w.theirResults = v.theirResults ∧
      SameMemories s t ∧ t.stripe = s.stripe) ∧
    (∀ seq d bs ecc, s.arrives seq → v.myResults.length < v.round →
      ∃ t w, exec (.naluResult seq v.step (v.theirResults.length + 1) d bs ecc) s = .next t ∧ t.voteOf v.step = some w ∧
        w.theirResults = v.theirResults ++ [⟨d, bs⟩] ∧ SameMemories s t ∧ t.stripe = s.stripe) ∧
    (∀ seq d bs, s.arrives seq → v.blocksSent = false → ∃ t w, exec (.naluBlock seq v.step d bs) s = .next t ∧ t.voteOf v.step = some w ∧
      w.theirBlocks = v.theirBlocks ++ [(d, bs)] ∧ SameMemories s t ∧ t.stripe = s.stripe) ∧
    (∀ i : Instr, ((∃ ecc, i = .voteClose v.step ecc ∧ ecc.bad = none ∧ s.isMirror = false ∧ s.serviced = true ∧
          st.closingFlash v.step ≤ s.voteClock st ∧ (v.blocksSent = true ∨ v.undecided false st = [])) ∨
        (∃ seq, i = .naluVerdict seq v.step (v.closing true st).1 (v.closing true st).2 ∧ s.arrives seq ∧
          s.isMirror = true)) →
      ∃ t, exec i s = .next t ∧ t.voteOf v.step = none ∧ t.flash = s.flash ∧ t.stripe.isSome = true ∧
        ∀ a, (∀ d, d < 64 → st.writesBlock v.step d = true →
            a < blockAddr (st.frameOf v.step d) d ∨ blockAddr (st.frameOf v.step d) d + 2048 ≤ a) →
          Memory.byte t.hbm a = Memory.byte s.hbm a) ∧
    (∀ ecc, s.serviced = true → st.closingFlash v.step ≤ s.voteClock st → v.blocksSent = false → v.theirBlocks = [] →
      v.undecided s.isMirror st ≠ [] →
      (ecc.bad = none → ∃ t, exec (.voteClose v.step ecc) s = .next t ∧ SameMemories s t ∧ t.stripe = s.stripe ∧
        t.voteOf v.step = some { v with blocksSent := true } ∧ RegsBut eccFields s t) ∧
      (∀ w d, ecc.bad = some w → v.undecided s.isMirror st = [d] →
        eccWithin w (blockAddr (st.frameOf v.step d) d) 2048 = true → ∃ t, exec (.voteClose v.step ecc) s = .next t ∧
        t.fence = some ⟨0x01, false⟩ ∧ t.hbm = s.hbm)) ∧
    (∀ ecc, (s.isMirror = true ∧ v.blocksSent = true) ∨ s.voteClock st < st.closingFlash v.step →
      exec (.voteClose v.step ecc) s = .next s) ∧
    (∀ seq d bs, s.arrives seq → s.isMirror = true → v.closing true st ≠ (d, bs) →
      ∃ t, exec (.naluVerdict seq v.step d bs) s = .next t ∧ t.fence = some ⟨0x0A, false⟩ ∧ t.hbm = s.hbm ∧
        t.stripe = s.stripe)

/-- Decisions, misses, findings, fences and outcomes of a pair (R361 to R366). A mirror that decided a flash otherwise
fences itself; it books the lead's missed flashes; a finding that the chip holds too ends the stripe with its cause,
another is kept; a fence of the partner is known; a fenced lead writes the mirror's outcome and hole records as they
arrive, and once all its hole records are there ends the stripe with the outcome event, which tells of the record. On the
lead a MISS_LIST changes nothing but SEQ (log entry 10). -/
def Obligations.PairDecides : Prop :=
  ∀ (s : State) (seq : Nat), s.arrives seq →
    (∀ f o, s.checked = true → s.nlk.myFindings = [] →
      ((∀ d ∈ s.nlk.decisions, d.1 ≠ f) → ∃ t, exec (.naluDecision seq f o) s = .next t ∧
        t.nlk.theirDecisions = s.nlk.theirDecisions ++ [(f, o)] ∧ t.fence = none ∧ SameMemories s t ∧ t.stripe = s.stripe) ∧
      (∀ o', s.nlk.decisions = [(f, o')] → s.nlk.theirDecisions = [] → s.isMirror = true →
        ∃ t, exec (.naluDecision seq f o) s = .next t ∧ t.hbm = s.hbm ∧ t.stripe = s.stripe ∧
          t.fence = if o' = o then none else some ⟨0x05, false⟩)) ∧
    (∀ f st, s.isMirror = true → s.checked = true → s.running = some st → s.bookedIn f 255 < 32 →
      ∃ t st', exec (.naluMissList seq f) s = .next t ∧ t.stripe = some st' ∧ f ∈ st'.ledger.booked ∧ st'.st = st.st ∧
        SameMemories s t) ∧
    (∀ f, s.isMirror = false → exec (.naluMissList seq f) s = .next (s.took seq)) ∧
    (∀ k p c, (s.nlk.myFindings = [] → ∃ t, exec (.naluFinding seq k p c) s = .next t ∧
        t.nlk.theirFindings = s.nlk.theirFindings ++ [⟨k, p, c, [], 0⟩] ∧ t.stripe = s.stripe ∧ SameMemories s t) ∧
      (∀ f st, s.nlk.myFindings.find? (Finding.same ⟨k, p, c, [], 0⟩) = some f → s.stripe = some st → st.st = .run → s.g = .run → 1 ≤ f.cause → f.cause < 256 →
        ∃ t, exec (.naluFinding seq k p c) s = .next t ∧ AbortedBy f.cause s t ∧ t.nlk.myFindings = [])) ∧
    (∀ c h f, s.nlk.myFindings = [] → s.nlk.missTimed = [] → ∃ t, exec (.naluFence seq c h f) s = .next t ∧
      t.nlk.partnerFenced = true ∧ t.nlk.partnerHard = (h != 0) ∧ t.nlk.votes = s.nlk.votes ∧ t.nlk.theirFindings = [] ∧ t.fence = s.fence ∧ t.stripe = s.stripe ∧ t.hbm = s.hbm) ∧
    (∀ record holes st, s.isMirror = false → s.fence.isSome = true → s.stripe = some st →
      let ev : Event := ⟨num record 5 1, 1, st.req.tag, st.req.q, 0x01, 0, st.req.id + st.req.pass * 2 ^ 32,
        num record 40 4 + num record 16 4 * 2 ^ 32⟩
      (16 * holesDue record st ≤ holes.length → ∃ t, exec (.naluOutcome seq record holes) s = .next t ∧ t.stripe = none ∧
        t.g = .ready ∧ t.lastOutcome = record ∧ t.hbm = s.hbm ∧
        ∃ w : State, t = (w.putEvent (s.ring st.req.q).eq ev).toIdle ∧ w.lastOutcome = record ∧ w.hbm = s.hbm ∧
          w.entry? st.req.q st.req.idx = none) ∧
      (holes.length < 16 * holesDue record st → ∃ t, exec (.naluOutcome seq record holes) s = .next t ∧
        t.nlk.outcomeIn = some (record, holes) ∧ t.stripe = s.stripe ∧ t.lastOutcome = record ∧ t.hbm = s.hbm ∧
        (s.inWindow st.req.resultAddr (record ++ holes).length = true →
          t.host = Memory.write s.host st.req.resultAddr (record ++ holes)))) ∧
    (∀ first more record so st, s.stripe = some st → s.nlk.outcomeIn = some (record, so) → s.lastOutcome = record → first * 16 = so.length →
      (16 * holesDue record st ≤ (so ++ more).length → ∃ t, exec (.naluHoles seq first more) s = .next t ∧
        t.stripe = none ∧ t.g = .ready ∧ t.lastOutcome = record ∧ t.hbm = s.hbm) ∧
      ((so ++ more).length < 16 * holesDue record st → ∃ t, exec (.naluHoles seq first more) s = .next t ∧
        t.nlk.outcomeIn = some (record, so ++ more) ∧ t.stripe = s.stripe ∧ t.lastOutcome = record ∧ t.hbm = s.hbm ∧
        (s.inWindow (st.req.resultAddr + 64 + so.length) more.length = true →
          t.host = Memory.write s.host (st.req.resultAddr + 64 + so.length) more)))

/-- Fence and rejoin (R363, R364, R370): FENCE fences an unfenced chip softly with cause 0x0C; REJOIN lets a soft-
fenced chip start to rejoin when no stripe is ARMED or RUN, and is kept until then otherwise; a rejoin that does not
end in time leaves the fence as it is. That a request in READY acts at once is the model's reading (log entry 72).
Where a command does not apply, that nothing changes is the model's choice (log entry 10). -/
def Obligations.FenceAndRejoin : Prop :=
  (∀ (s : State) (w : Word), s.writeLands 0xB0000 →
    (s.fence = none → ∃ t, exec (.nlkFence w) s = .next t ∧ t.fence = some ⟨0x0C, false⟩ ∧ t.hbm = s.hbm) ∧
    (bit w.toNat 2 = false → ∃ t, exec (.nlkRejoin w) s = .next t ∧ t.fence = s.fence ∧ t.hif = s.hif ∧ SameMemories s t ∧
      t.stripe = s.stripe ∧
      (s.stripeActive = true → t.nlk.rejoinWanted = true ∧ t.nlk.rejoining = s.nlk.rejoining) ∧
      (s.g = .ready → s.softFenced = true → t.nlk.rejoining = true))) ∧
  (∀ s : State, s.nlk.rejoining = true →
    ∃ t, exec .rejoinTimeout s = .next t ∧ t.nlk.rejoining = false ∧ t.fence = s.fence ∧ t.stripe = s.stripe ∧
      MemoriesBut s.devSlot s t) ∧
  (∀ s : State, s.nlk.rejoining = false → exec .rejoinTimeout s = .next s)

/-! ## Calibration -/

/-- Sensors and gaps (R51, R379 to R383): the 16 readings carry the offsets of the device trims, and one of 115
degrees puts the chip into SAFE with SAFE_CAUSE 3; RUN_NOW makes the enabled items due; a gap opens for an item due on
a chip of the pair, and its end takes the baselines from its start once nothing is due, and otherwise ends the items
whose precondition never held with NOT_RUN; the timer's end sets OVERDUE. That a gap opens on the other chip's account
alone is the model's reading (log entry 55), that the cause replaces the one of a chip already in SAFE its choice (log
entry 101). Where a command does not apply, that nothing changes is the model's choice (log entry 10). -/
def Obligations.SensorsAndGaps : Prop :=
  (∀ (s : State) (temps : List Int), s.g ≠ .off → temps.length = 16 →
    let r := (List.range 16).map (fun i => temps.getD i 0 + s.sensorOfs i)
    ∃ t, exec (.sensorRead temps) s = .next t ∧ t.cal.temps = r ∧ SameMemories s t ∧
      ((∀ x ∈ r, x < 460) → t.g = s.g ∧ t.stripe = s.stripe ∧ t.fence = s.fence ∧ t.hif = s.hif) ∧
      ((∃ x ∈ r, 460 ≤ x) → s.aon.therm1 = false → t.g = .safe ∧ t.reg MGT_STATE.SAFE_CAUSE = 3 ∧
        t.aon.therm1 = true ∧ t.fence.isSome = true ∧ t.stripe = none)) ∧
  (∀ (s : State) (w : Word), s.writeLands 0xD0000 → ∃ t, exec (.calRunNow w) s = .next t ∧
    t.reg CAL_STATUS.DUE = (s.reg CAL_STATUS.DUE ||| s.itemsEnabled) % 2 ^ 6 ∧ t.live = s.live ∧ SameMemories s t ∧
    t.quiet = s.quiet ∧ t.hif = s.hif) ∧
  (∀ s : State, s.waiting = none → s.gapMayOpen = true ∨ s.pairGapMayOpen = true → ∃ t, exec .calGapOpen s = .next t ∧
    t.cal.gap = some (0, 0, s.cal.temps, s.reg CAL_DRIFT.DRIFT, s.reg CAL_DRIFT.SENSOR) ∧ t.cal.overdueArmed = false ∧
    t.reg CAL_STATUS.GAPS = sat 16 (s.reg CAL_STATUS.GAPS + 1) ∧ SameMemories s t ∧ t.hif = s.hif) ∧
  (∀ (s : State) run bad temps drift sensor, s.cal.gap = some (run, bad, temps, drift, sensor) → s.g ≠ .start →
    (s.reg CAL_STATUS.DUE = 0 → ∃ t, exec .calGapEnd s = .next t ∧ t.cal.gap = none ∧ t.cal.baseline = temps ∧
      t.reg CAL_STATUS.OVERDUE = 0 ∧ MemoriesBut s.devSlot s t ∧ t.stripe = s.stripe) ∧
    (s.reg CAL_STATUS.DUE ≠ 0 → ∃ t, exec .calGapEnd s = .next t ∧ t.cal = { s.cal with gap := none } ∧
      (∀ k, k < 6 → bit (s.reg CAL_STATUS.DUE) k = true → s.itemReady k = false →
        t.reg (CAL_ITEM_STATUS.LAST_STATUS k) = 0x0A) ∧
      RegsBut ((List.range 6).map CAL_ITEM_STATUS.LAST_STATUS) s t ∧ SameMemories s t ∧ t.hif = s.hif)) ∧
  (∀ s : State, s.cal.overdueArmed = true → s.reg CAL_STATUS.OVERDUE = 0 → ∃ t, exec .calOverdue s = .next t ∧
    t.reg CAL_STATUS.OVERDUE = 1 ∧ MemoriesBut s.devSlot s t ∧ t.stripe = s.stripe) ∧
  (∀ s : State, s.cal.overdueArmed = false → exec .calOverdue s = .next s)

/-- Calibration items, derived offsets and stored trims (R375 to R378, R387, R390). Item 0 measures RCAL, and outside
its bounds freezes items 1 to 3. A plausible result replaces code and element, an implausible one or a frozen item
leaves them. The derived offsets are staged, never live. A trim store that fails refuses its set as a whole; one that
succeeds writes the inactive slot alone, its set waiting for the stripe boundary. `itemResult` ends an item that would step
below code 0 or above the highest code outside its bounds: the model's choice (log entry 102). Where a command does not apply, that
nothing changes is the model's choice (log entry 10). -/
def Obligations.CalibrationResults : Prop :=
  (∀ (s : State) (x10 : Nat), s.itemRuns 0 = true → ∃ t, exec (.calItemDone 0 (.ohms x10)) s = .next t ∧
    t.reg CAL_RCAL.OHMS_X10 = sat 16 x10 ∧ t.reg CAL_RCAL.FAULT = rcalFault x10 ∧ bit (t.reg CAL_STATUS.DUE) 0 = false ∧
    (2280 ≤ x10 → x10 ≤ 2520 → t.reg CAL_STATUS.RCAL_FROZEN = 0 ∧
      t.reg (CAL_ITEM_STATUS.LAST_STATUS 0) = 0 ∧ SameMemories s t ∧ t.hif = s.hif) ∧
    (x10 < 2280 ∨ 2520 < x10 → t.reg CAL_STATUS.RCAL_FROZEN = 1 ∧ t.reg (CAL_ITEM_STATUS.LAST_STATUS 0) = 0x0B ∧
      (∀ k, 1 ≤ k → k ≤ 3 → s.itemDue k = true → t.reg (CAL_ITEM_STATUS.LAST_STATUS k) = 0x0B) ∧
      MemoriesBut s.devSlot s t ∧ t.stripe = s.stripe)) ∧
  (∀ (s : State) (item : Nat) (m : CalMeas), 1 ≤ item → item < 6 → s.itemRuns item = true →
    (item ≤ 3 → s.reg CAL_STATUS.RCAL_FROZEN = 1 → ∃ t, exec (.calItemDone item m) s = .next t ∧
      t.reg (CAL_ITEM_STATUS.LAST_STATUS item) = 0x0B ∧ bit (t.reg CAL_STATUS.DUE) item = false ∧
      t.reg (CAL_ITEM_STATUS.CODE item) = s.reg (CAL_ITEM_STATUS.CODE item) ∧ SameMemories s t ∧ t.hif = s.hif) ∧
    (∀ c e good, (item ≤ 3 → s.reg CAL_STATUS.RCAL_FROZEN ≠ 1) → s.itemResult item m = some (c, e, good) → ∃ t, exec (.calItemDone item m) s = .next t ∧
      bit (t.reg CAL_STATUS.DUE) item = false ∧ SameMemories s t ∧ t.hif = s.hif ∧
      (good = true → t.reg (CAL_ITEM_STATUS.LAST_STATUS item) = 0 ∧ t.reg (CAL_ITEM_STATUS.CODE item) = c % 2 ^ 7 ∧
        t.reg (CAL_ITEM_STATUS.ELEMENT item) = e % 2 ^ 2) ∧
      (good = false → t.reg (CAL_ITEM_STATUS.LAST_STATUS item) = 0x0B ∧
        t.reg (CAL_ITEM_STATUS.CODE item) = s.reg (CAL_ITEM_STATUS.CODE item) ∧
        t.reg (CAL_ITEM_STATUS.ELEMENT item) = s.reg (CAL_ITEM_STATUS.ELEMENT item)))) ∧
  (∀ (s : State) (w : Word), s.writeLands 0xD001C →
    (s.reg CAL_DERIVE.BUSY = 1 → ∃ t, exec (.deriveGo w) s = .next t ∧ t.reg CAL_DERIVE.LAST_STATUS = 0x11 ∧
      RegsBut [CAL_DERIVE.LAST_STATUS] s t ∧ SameMemories s t) ∧
    (s.reg CAL_DERIVE.BUSY ≠ 1 → ∃ t, exec (.deriveGo w) s = .next t ∧ t.reg CAL_DERIVE.BUSY = 1 ∧
      RegsBut [CAL_DERIVE.BUSY] s t ∧ SameMemories s t)) ∧
  (∀ s : State, s.reg CAL_DERIVE.BUSY = 1 → ∃ t, exec .deriveDone s = .next t ∧ t.reg CAL_DERIVE.BUSY = 0 ∧
    t.tabStaged = s.tabLive.derive s.tabStaged ∧ t.tabLive = s.tabLive ∧ t.reg CAL_DERIVE.LAST_STATUS = 0 ∧
    SameMemories s t) ∧
  (∀ s : State, s.reg CAL_DERIVE.BUSY ≠ 1 → exec .deriveDone s = .next s) ∧
  (∀ (s : State) (c : PendingCommit) (er pr va : Bool), s.serviced = true → s.commits.storing = some c →
    s.commits.behind = [] →
    s.reg CAL_STATUS.ACTIVE_SLOT < 2 →
    let slot := if s.reg CAL_STATUS.TRIMS_VALID = 1 then 1 - s.reg CAL_STATUS.ACTIVE_SLOT else 0
    ∃ t, exec (.trimStore er pr va) s = .next t ∧ t.commits.storing = none ∧ t.hbm = s.hbm ∧
      (er = false ∨ pr = false → s.isMirror = false → t.tabLive = s.tabLive ∧ t.live = s.live ∧ t.commits.waiting = s.commits.waiting ∧
        t.reg MGT_CMT_STATUS.LAST_STATUS = 0x09 ∧ t.reg MGT_CMT_STATUS.LAST_BLOCK = 13 ∧
        t.reg MGT_CMT_STATUS.LAST_REASON = 6 ∧ t.reg CAL_STATUS.STORE_PENDING = 0) ∧
      (er = true → pr = true → s.stripeActive = true → t.tabLive = s.tabLive ∧ t.live = s.live ∧
        t.commits.waiting = s.commits.waiting ++ [c] ∧
        t.reg CAL_STATUS.STORE_PENDING = 1 ∧ t.host = s.host ∧
        t.flashNum (trimSlot slot + 4104) 4 = 0xFFFFFFFF ∧
        ∀ a, a < trimSlot slot ∨ trimSlot slot + 0x2000 ≤ a →
          Sparse.get flashByte t.flash a = Sparse.get flashByte s.flash a))

end Statements
end

