-- ==== Sys2Proof/Laws/Memory.lean ====
section
/-! SUPPORT. The laws of the sparse stores: read after write, every other key unchanged, and the canonical form kept by
every operation on a memory. -/

namespace Sys2Proof.Machine

variable {β : Type}

/-! ## Reading after writing -/

@[simp] theorem Sparse.get_nil (d : Nat → β) (k : Nat) : Sparse.get d [] k = d k := rfl

theorem Sparse.get_put_same (d : Nat → β) (m : Sparse β) (k : Nat) (v : β) : Sparse.get d (Sparse.put m k v) k = v := by
  induction m with
  | nil => simp [Sparse.put, Sparse.get]
  | cons e m ih =>
    obtain ⟨a, b⟩ := e
    simp only [Sparse.put]
    split
    · simp [Sparse.get]
    · split
      · simp [Sparse.get]
      · simp [Sparse.get, ih, Ne.symm ‹¬k = a›]

theorem Sparse.get_put_ne (d : Nat → β) (m : Sparse β) {k k' : Nat} (v : β) (h : k ≠ k') :
    Sparse.get d (Sparse.put m k v) k' = Sparse.get d m k' := by
  induction m with
  | nil => simp [Sparse.put, Sparse.get, h]
  | cons e m ih =>
    obtain ⟨a, b⟩ := e
    simp only [Sparse.put]
    split
    · simp [Sparse.get, h]
    · split
      · next hk => subst hk; simp [Sparse.get, h]
      · simp [Sparse.get, ih]

theorem Sparse.get_drop_same (d : Nat → β) (m : Sparse β) (k : Nat) : Sparse.get d (Sparse.drop m k) k = d k := by
  induction m with
  | nil => rfl
  | cons e m ih =>
    obtain ⟨a, b⟩ := e
    simp only [Sparse.drop]
    split
    · exact ih
    · simp [Sparse.get, ih, ‹¬a = k›]

theorem Sparse.get_drop_ne (d : Nat → β) (m : Sparse β) {k k' : Nat} (h : k ≠ k') :
    Sparse.get d (Sparse.drop m k) k' = Sparse.get d m k' := by
  induction m with
  | nil => rfl
  | cons e m ih =>
    obtain ⟨a, b⟩ := e
    simp only [Sparse.drop]
    split
    · next ha => subst ha; simp [Sparse.get, ih, h]
    · simp [Sparse.get, ih]

@[simp] theorem Sparse.get_set_same [DecidableEq β] (d : Nat → β) (m : Sparse β) (k : Nat) (v : β) :
    Sparse.get d (Sparse.set d m k v) k = v := by
  unfold Sparse.set
  split
  · next h => rw [Sparse.get_drop_same, h]
  · exact Sparse.get_put_same d m k v

theorem Sparse.get_set_ne [DecidableEq β] (d d' : Nat → β) (m : Sparse β) {k k' : Nat} (v : β) (h : k ≠ k') :
    Sparse.get d (Sparse.set d' m k v) k' = Sparse.get d m k' := by
  unfold Sparse.set
  split
  · exact Sparse.get_drop_ne d m h
  · exact Sparse.get_put_ne d m v h

/-- A list written at `k` leaves every key outside `k`, ..., `k + length - 1` alone. -/
theorem Sparse.get_setList_outside [DecidableEq β] (d : Nat → β) (vs : List β) :
    ∀ (m : Sparse β) (k a : Nat), a < k ∨ k + vs.length ≤ a →
      Sparse.get d (Sparse.setList d m k vs) a = Sparse.get d m a := by
  induction vs with
  | nil => intros; rfl
  | cons v vs ih =>
    intro m k a h
    simp only [List.length_cons] at h
    rw [Sparse.setList, ih _ _ _ (by omega), Sparse.get_set_ne d d m v (by omega)]

/-- A list written at `k` is read back value by value. -/
theorem Sparse.get_setList_inside [DecidableEq β] (d : Nat → β) (vs : List β) :
    ∀ (m : Sparse β) (k i : Nat) (h : i < vs.length), Sparse.get d (Sparse.setList d m k vs) (k + i) = vs[i] := by
  induction vs with
  | nil => intro m k i h; simp at h
  | cons v vs ih =>
    intro m k i h
    rw [Sparse.setList]
    cases i with
    | zero =>
      show Sparse.get d (Sparse.setList d (Sparse.set d m k v) (k + 1) vs) k = v
      rw [Sparse.get_setList_outside d vs _ (k + 1) k (by omega), Sparse.get_set_same]
    | succ i =>
      have := ih (Sparse.set d m k v) (k + 1) i (by simpa using h)
      rw [show k + (i + 1) = k + 1 + i by omega, this]
      rfl

/-- A part of a list written at `k` is read back as that part. -/
theorem Sparse.getList_setList [DecidableEq β] (d : Nat → β) (m : Sparse β) (k i n : Nat) (vs : List β)
    (h : i + n ≤ vs.length) : Sparse.getList d (Sparse.setList d m k vs) (k + i) n = (vs.drop i).take n := by
  apply List.ext_getElem
  · simp [Sparse.getList]; omega
  · intro j h1 h2
    simp only [Sparse.getList, List.length_map, List.length_range] at h1
    simp only [Sparse.getList, List.getElem_map, List.getElem_range, List.getElem_take, List.getElem_drop, Nat.add_assoc]
    exact Sparse.get_setList_inside d vs m k (i + j) (by omega)

/-! ## The canonical form -/

/-- Every key of the list lies above `k`. -/
def Sparse.above (k : Nat) (m : Sparse β) : Prop := ∀ e ∈ m, k < e.1

theorem Sparse.wf_cons [DecidableEq β] (d : Nat → β) (a : Nat) (b : β) (m : Sparse β) :
    Sparse.wf d ((a, b) :: m) = true ↔ b ≠ d a ∧ Sparse.above a m ∧ Sparse.wf d m = true := by
  induction m generalizing a b with
  | nil => simp [Sparse.wf, Sparse.above]
  | cons e m ih =>
    obtain ⟨a', b'⟩ := e
    simp only [Sparse.wf, Bool.and_eq_true, decide_eq_true_eq, Sparse.above, List.mem_cons, forall_eq_or_imp]
    constructor
    · rintro ⟨⟨hb, ha⟩, hm⟩
      refine ⟨hb, ⟨ha, fun e he => ?_⟩, hm⟩
      have h := (ih a' b').1 hm
      exact Nat.lt_trans ha (h.2.1 e he)
    · rintro ⟨hb, ⟨ha, -⟩, hm⟩
      exact ⟨⟨hb, ha⟩, hm⟩

theorem Sparse.above_put {k a : Nat} {m : Sparse β} (v : β) (ha : a < k) (h : Sparse.above a m) :
    Sparse.above a (Sparse.put m k v) := by
  induction m with
  | nil => intro e he; simp [Sparse.put] at he; simpa [he] using ha
  | cons e m ih =>
    obtain ⟨x, b⟩ := e
    have hm : Sparse.above a m := fun e he => h e (List.mem_cons_of_mem _ he)
    intro e he
    simp only [Sparse.put] at he
    split at he
    · simp only [List.mem_cons] at he
      rcases he with he | he
      · simpa [he] using ha
      · exact h e (by simpa using he)
    · split at he
      · simp only [List.mem_cons] at he
        rcases he with he | he
        · simpa [he] using ha
        · exact hm e he
      · simp only [List.mem_cons] at he
        rcases he with he | he
        · exact h e (by simp [he])
        · exact ih hm e he

theorem Sparse.above_drop {k a : Nat} {m : Sparse β} (h : Sparse.above a m) : Sparse.above a (Sparse.drop m k) := by
  induction m with
  | nil => exact h
  | cons e m ih =>
    obtain ⟨x, b⟩ := e
    have hm : Sparse.above a m := fun e he => h e (List.mem_cons_of_mem _ he)
    simp only [Sparse.drop]
    split
    · exact ih hm
    · intro e he
      simp only [List.mem_cons] at he
      rcases he with he | he
      · exact h e (by simp [he])
      · exact ih hm e he

theorem Sparse.wf_put [DecidableEq β] (d : Nat → β) (m : Sparse β) (k : Nat) (v : β) (hv : v ≠ d k)
    (h : Sparse.wf d m = true) : Sparse.wf d (Sparse.put m k v) = true := by
  induction m with
  | nil => simpa [Sparse.put, Sparse.wf] using hv
  | cons e m ih =>
    obtain ⟨a, b⟩ := e
    have hc := (Sparse.wf_cons d a b m).1 h
    simp only [Sparse.put]
    split
    · next hk =>
      refine (Sparse.wf_cons d k v _).2 ⟨hv, fun e he => ?_, h⟩
      simp only [List.mem_cons] at he
      rcases he with he | he
      · simpa [he] using hk
      · exact Nat.lt_trans hk (hc.2.1 e he)
    · split
      · next hk => subst hk; exact (Sparse.wf_cons d _ v m).2 ⟨hv, hc.2.1, hc.2.2⟩
      · exact (Sparse.wf_cons d a b _).2 ⟨hc.1, Sparse.above_put v (by omega) hc.2.1, ih hc.2.2⟩

theorem Sparse.wf_drop [DecidableEq β] (d : Nat → β) (m : Sparse β) (k : Nat) (h : Sparse.wf d m = true) :
    Sparse.wf d (Sparse.drop m k) = true := by
  induction m with
  | nil => rfl
  | cons e m ih =>
    obtain ⟨a, b⟩ := e
    have hc := (Sparse.wf_cons d a b m).1 h
    simp only [Sparse.drop]
    split
    · exact ih hc.2.2
    · exact (Sparse.wf_cons d a b _).2 ⟨hc.1, Sparse.above_drop hc.2.1, ih hc.2.2⟩

/-- Writing one value keeps the canonical form. -/
theorem Sparse.wf_set [DecidableEq β] (d : Nat → β) (m : Sparse β) (k : Nat) (v : β) (h : Sparse.wf d m = true) :
    Sparse.wf d (Sparse.set d m k v) = true := by
  unfold Sparse.set
  split
  · exact Sparse.wf_drop d m k h
  · exact Sparse.wf_put d m k v ‹_› h

/-- Writing a list keeps the canonical form. -/
theorem Sparse.wf_setList [DecidableEq β] (d : Nat → β) (vs : List β) :
    ∀ (m : Sparse β) (k : Nat), Sparse.wf d m = true → Sparse.wf d (Sparse.setList d m k vs) = true := by
  induction vs with
  | nil => intro m k h; exact h
  | cons v vs ih => intro m k h; exact ih _ _ (Sparse.wf_set d m k v h)

/-- Leaving entries out keeps the canonical form. -/
theorem Sparse.wf_filter [DecidableEq β] (d : Nat → β) (p : Nat × β → Bool) (m : Sparse β) (h : Sparse.wf d m = true) :
    Sparse.wf d (m.filter p) = true := by
  induction m with
  | nil => rfl
  | cons e m ih =>
    obtain ⟨a, b⟩ := e
    have hc := (Sparse.wf_cons d a b m).1 h
    simp only [List.filter_cons]
    split
    · exact (Sparse.wf_cons d a b _).2 ⟨hc.1, fun e he => hc.2.1 e (List.mem_of_mem_filter he), ih hc.2.2⟩
    · exact ih hc.2.2

/-! ## Memories -/

theorem Memory.wf_write (m : Sparse Byte) (a : Nat) (bs : List Byte) (h : Memory.wf m = true) :
    Memory.wf (Memory.write m a bs) = true := Sparse.wf_setList ramByte bs m a h

theorem Memory.wf_apply (hw : Cells) : ∀ m : Sparse Byte, Memory.wf m = true → Memory.wf (Memory.apply m hw) = true := by
  induction hw with
  | nil => intro m h; exact h
  | cons c hw ih => intro m h; exact ih _ (Sparse.wf_set ramByte m c.1 c.2 h)

/-- A write leaves every byte outside its range alone. -/
theorem Memory.byte_write_outside (m : Sparse Byte) (k a : Nat) (bs : List Byte) (h : a < k ∨ k + bs.length ≤ a) :
    Memory.byte (Memory.write m k bs) a = Memory.byte m a := Sparse.get_setList_outside ramByte bs m k a h

/-- A write is read back byte by byte. -/
theorem Memory.byte_write_inside (m : Sparse Byte) (k i : Nat) (bs : List Byte) (h : i < bs.length) :
    Memory.byte (Memory.write m k bs) (k + i) = bs[i] := Sparse.get_setList_inside ramByte bs m k i h

@[simp] theorem le_length (k n : Nat) : (le k n).length = k := by
  induction k generalizing n with
  | zero => rfl
  | succ k ih => simp [le, ih]

/-- Numbers survive their little-endian bytes. -/
theorem unle_le (k n : Nat) : unle (le k n) = n % 256 ^ k := by
  induction k generalizing n with
  | zero => simp [le, unle, Nat.mod_one]
  | succ k ih =>
    rw [le, unle, ih, BitVec.toNat_ofNat, show 256 ^ (k + 1) = 2 ^ 8 * 256 ^ k by rw [pow_succ, mul_comm]; norm_num,
      Nat.mod_mul]
    norm_num

end Sys2Proof.Machine
end

