-- ==== Sys2Proof/Laws/Crc.lean ====
section
/-! SUPPORT. A CRC-32C is a 32-bit number; SHA-256 and its HMAC give 32 bytes. -/

namespace Sys2Proof.Machine

theorem crc32cBit_lt {r : Nat} (h : r < 2 ^ 32) : crc32cBit r < 2 ^ 32 := by
  unfold crc32cBit
  split
  · exact Nat.xor_lt_two_pow (by omega) (by norm_num)
  · omega

theorem crc32cByte_lt {r : Nat} (h : r < 2 ^ 32) (b : Byte) : crc32cByte r b < 2 ^ 32 :=
  crc32cBit_lt (crc32cBit_lt (crc32cBit_lt (crc32cBit_lt (crc32cBit_lt (crc32cBit_lt (crc32cBit_lt (crc32cBit_lt
    (Nat.xor_lt_two_pow h (by have := b.isLt; omega)))))))))

theorem crc32c_foldl_lt (bs : List Byte) : ∀ r, r < 2 ^ 32 → bs.foldl crc32cByte r < 2 ^ 32 := by
  induction bs with
  | nil => intro r h; exact h
  | cons b bs ih => intro r h; exact ih _ (crc32cByte_lt h b)

/-- A CRC-32C from a 32-bit seed is a 32-bit number. -/
theorem crc32c_lt {seed : Nat} (h : seed < 2 ^ 32) (bs : List Byte) : crc32c seed bs < 2 ^ 32 :=
  Nat.xor_lt_two_pow (crc32c_foldl_lt bs _ (Nat.xor_lt_two_pow h (by norm_num))) (by norm_num)

/-- SHA-256 gives 32 bytes. -/
theorem sha256_length (m : List Byte) : (sha256 m).length = 32 := by
  simp [sha256, ShaVars.digest, le_length]

/-- HMAC-SHA-256 gives 32 bytes. -/
theorem hmacSha256_length (k m : List Byte) : (hmacSha256 k m).length = 32 := sha256_length _

end Sys2Proof.Machine
end

