-- ==== Sys2Proof/Laws/State.lean ====
section
/-! SUPPORT. What each update of the state leaves: one lemma per field of State and update, true by rfl. -/

namespace Sys2Proof.Machine

variable (s : State)

/-! ### `State.setReg` changes `regs` -/

@[simp] theorem setReg_pending (f : Field) (v : Nat) : (s.setReg f v).pending = s.pending := rfl
@[simp] theorem setReg_g (f : Field) (v : Nat) : (s.setReg f v).g = s.g := rfl
@[simp] theorem setReg_phase (f : Field) (v : Nat) : (s.setReg f v).phase = s.phase := rfl
@[simp] theorem setReg_quick (f : Field) (v : Nat) : (s.setReg f v).quick = s.quick := rfl
@[simp] theorem setReg_fence (f : Field) (v : Nat) : (s.setReg f v).fence = s.fence := rfl
@[simp] theorem setReg_aon (f : Field) (v : Nat) : (s.setReg f v).aon = s.aon := rfl
@[simp] theorem setReg_live (f : Field) (v : Nat) : (s.setReg f v).live = s.live := rfl
@[simp] theorem setReg_latches (f : Field) (v : Nat) : (s.setReg f v).latches = s.latches := rfl
@[simp] theorem setReg_answer (f : Field) (v : Nat) : (s.setReg f v).answer = s.answer := rfl
@[simp] theorem setReg_cc (f : Field) (v : Nat) : (s.setReg f v).cc = s.cc := rfl
@[simp] theorem setReg_free (f : Field) (v : Nat) : (s.setReg f v).free = s.free := rfl
@[simp] theorem setReg_host (f : Field) (v : Nat) : (s.setReg f v).host = s.host := rfl
@[simp] theorem setReg_hbm (f : Field) (v : Nat) : (s.setReg f v).hbm = s.hbm := rfl
@[simp] theorem setReg_flash (f : Field) (v : Nat) : (s.setReg f v).flash = s.flash := rfl
@[simp] theorem setReg_tabLive (f : Field) (v : Nat) : (s.setReg f v).tabLive = s.tabLive := rfl
@[simp] theorem setReg_tabStaged (f : Field) (v : Nat) : (s.setReg f v).tabStaged = s.tabStaged := rfl
@[simp] theorem setReg_prot (f : Field) (v : Nat) : (s.setReg f v).prot = s.prot := rfl
@[simp] theorem setReg_cfg (f : Field) (v : Nat) : (s.setReg f v).cfg = s.cfg := rfl
@[simp] theorem setReg_commits (f : Field) (v : Nat) : (s.setReg f v).commits = s.commits := rfl
@[simp] theorem setReg_power (f : Field) (v : Nat) : (s.setReg f v).power = s.power := rfl
@[simp] theorem setReg_hif (f : Field) (v : Nat) : (s.setReg f v).hif = s.hif := rfl
@[simp] theorem setReg_chans (f : Field) (v : Nat) : (s.setReg f v).chans = s.chans := rfl
@[simp] theorem setReg_cdc (f : Field) (v : Nat) : (s.setReg f v).cdc = s.cdc := rfl
@[simp] theorem setReg_scans (f : Field) (v : Nat) : (s.setReg f v).scans = s.scans := rfl
@[simp] theorem setReg_scanWait (f : Field) (v : Nat) : (s.setReg f v).scanWait = s.scanWait := rfl
@[simp] theorem setReg_prs (f : Field) (v : Nat) : (s.setReg f v).prs = s.prs := rfl
@[simp] theorem setReg_csm (f : Field) (v : Nat) : (s.setReg f v).csm = s.csm := rfl
@[simp] theorem setReg_pec (f : Field) (v : Nat) : (s.setReg f v).pec = s.pec := rfl
@[simp] theorem setReg_waiting (f : Field) (v : Nat) : (s.setReg f v).waiting = s.waiting := rfl
@[simp] theorem setReg_stripe (f : Field) (v : Nat) : (s.setReg f v).stripe = s.stripe := rfl
@[simp] theorem setReg_lastOutcome (f : Field) (v : Nat) : (s.setReg f v).lastOutcome = s.lastOutcome := rfl
@[simp] theorem setReg_port (f : Field) (v : Nat) : (s.setReg f v).port = s.port := rfl
@[simp] theorem setReg_shl (f : Field) (v : Nat) : (s.setReg f v).shl = s.shl := rfl
@[simp] theorem setReg_nlk (f : Field) (v : Nat) : (s.setReg f v).nlk = s.nlk := rfl
@[simp] theorem setReg_hmc (f : Field) (v : Nat) : (s.setReg f v).hmc = s.hmc := rfl
@[simp] theorem setReg_cal (f : Field) (v : Nat) : (s.setReg f v).cal = s.cal := rfl
@[simp] theorem setReg_bst (f : Field) (v : Nat) : (s.setReg f v).bst = s.bst := rfl
@[simp] theorem setReg_pmu (f : Field) (v : Nat) : (s.setReg f v).pmu = s.pmu := rfl

/-! ### `State.addReg` changes `regs` -/

@[simp] theorem addReg_pending (f : Field) (n : Nat) : (s.addReg f n).pending = s.pending := rfl
@[simp] theorem addReg_g (f : Field) (n : Nat) : (s.addReg f n).g = s.g := rfl
@[simp] theorem addReg_phase (f : Field) (n : Nat) : (s.addReg f n).phase = s.phase := rfl
@[simp] theorem addReg_quick (f : Field) (n : Nat) : (s.addReg f n).quick = s.quick := rfl
@[simp] theorem addReg_fence (f : Field) (n : Nat) : (s.addReg f n).fence = s.fence := rfl
@[simp] theorem addReg_aon (f : Field) (n : Nat) : (s.addReg f n).aon = s.aon := rfl
@[simp] theorem addReg_live (f : Field) (n : Nat) : (s.addReg f n).live = s.live := rfl
@[simp] theorem addReg_latches (f : Field) (n : Nat) : (s.addReg f n).latches = s.latches := rfl
@[simp] theorem addReg_answer (f : Field) (n : Nat) : (s.addReg f n).answer = s.answer := rfl
@[simp] theorem addReg_cc (f : Field) (n : Nat) : (s.addReg f n).cc = s.cc := rfl
@[simp] theorem addReg_free (f : Field) (n : Nat) : (s.addReg f n).free = s.free := rfl
@[simp] theorem addReg_host (f : Field) (n : Nat) : (s.addReg f n).host = s.host := rfl
@[simp] theorem addReg_hbm (f : Field) (n : Nat) : (s.addReg f n).hbm = s.hbm := rfl
@[simp] theorem addReg_flash (f : Field) (n : Nat) : (s.addReg f n).flash = s.flash := rfl
@[simp] theorem addReg_tabLive (f : Field) (n : Nat) : (s.addReg f n).tabLive = s.tabLive := rfl
@[simp] theorem addReg_tabStaged (f : Field) (n : Nat) : (s.addReg f n).tabStaged = s.tabStaged := rfl
@[simp] theorem addReg_prot (f : Field) (n : Nat) : (s.addReg f n).prot = s.prot := rfl
@[simp] theorem addReg_cfg (f : Field) (n : Nat) : (s.addReg f n).cfg = s.cfg := rfl
@[simp] theorem addReg_commits (f : Field) (n : Nat) : (s.addReg f n).commits = s.commits := rfl
@[simp] theorem addReg_power (f : Field) (n : Nat) : (s.addReg f n).power = s.power := rfl
@[simp] theorem addReg_hif (f : Field) (n : Nat) : (s.addReg f n).hif = s.hif := rfl
@[simp] theorem addReg_chans (f : Field) (n : Nat) : (s.addReg f n).chans = s.chans := rfl
@[simp] theorem addReg_cdc (f : Field) (n : Nat) : (s.addReg f n).cdc = s.cdc := rfl
@[simp] theorem addReg_scans (f : Field) (n : Nat) : (s.addReg f n).scans = s.scans := rfl
@[simp] theorem addReg_scanWait (f : Field) (n : Nat) : (s.addReg f n).scanWait = s.scanWait := rfl
@[simp] theorem addReg_prs (f : Field) (n : Nat) : (s.addReg f n).prs = s.prs := rfl
@[simp] theorem addReg_csm (f : Field) (n : Nat) : (s.addReg f n).csm = s.csm := rfl
@[simp] theorem addReg_pec (f : Field) (n : Nat) : (s.addReg f n).pec = s.pec := rfl
@[simp] theorem addReg_waiting (f : Field) (n : Nat) : (s.addReg f n).waiting = s.waiting := rfl
@[simp] theorem addReg_stripe (f : Field) (n : Nat) : (s.addReg f n).stripe = s.stripe := rfl
@[simp] theorem addReg_lastOutcome (f : Field) (n : Nat) : (s.addReg f n).lastOutcome = s.lastOutcome := rfl
@[simp] theorem addReg_port (f : Field) (n : Nat) : (s.addReg f n).port = s.port := rfl
@[simp] theorem addReg_shl (f : Field) (n : Nat) : (s.addReg f n).shl = s.shl := rfl
@[simp] theorem addReg_nlk (f : Field) (n : Nat) : (s.addReg f n).nlk = s.nlk := rfl
@[simp] theorem addReg_hmc (f : Field) (n : Nat) : (s.addReg f n).hmc = s.hmc := rfl
@[simp] theorem addReg_cal (f : Field) (n : Nat) : (s.addReg f n).cal = s.cal := rfl
@[simp] theorem addReg_bst (f : Field) (n : Nat) : (s.addReg f n).bst = s.bst := rfl
@[simp] theorem addReg_pmu (f : Field) (n : Nat) : (s.addReg f n).pmu = s.pmu := rfl

/-! ### `State.setLive` changes `live` -/

@[simp] theorem setLive_pending (f : Field) (v : Nat) : (s.setLive f v).pending = s.pending := rfl
@[simp] theorem setLive_g (f : Field) (v : Nat) : (s.setLive f v).g = s.g := rfl
@[simp] theorem setLive_phase (f : Field) (v : Nat) : (s.setLive f v).phase = s.phase := rfl
@[simp] theorem setLive_quick (f : Field) (v : Nat) : (s.setLive f v).quick = s.quick := rfl
@[simp] theorem setLive_fence (f : Field) (v : Nat) : (s.setLive f v).fence = s.fence := rfl
@[simp] theorem setLive_aon (f : Field) (v : Nat) : (s.setLive f v).aon = s.aon := rfl
@[simp] theorem setLive_regs (f : Field) (v : Nat) : (s.setLive f v).regs = s.regs := rfl
@[simp] theorem setLive_latches (f : Field) (v : Nat) : (s.setLive f v).latches = s.latches := rfl
@[simp] theorem setLive_answer (f : Field) (v : Nat) : (s.setLive f v).answer = s.answer := rfl
@[simp] theorem setLive_cc (f : Field) (v : Nat) : (s.setLive f v).cc = s.cc := rfl
@[simp] theorem setLive_free (f : Field) (v : Nat) : (s.setLive f v).free = s.free := rfl
@[simp] theorem setLive_host (f : Field) (v : Nat) : (s.setLive f v).host = s.host := rfl
@[simp] theorem setLive_hbm (f : Field) (v : Nat) : (s.setLive f v).hbm = s.hbm := rfl
@[simp] theorem setLive_flash (f : Field) (v : Nat) : (s.setLive f v).flash = s.flash := rfl
@[simp] theorem setLive_tabLive (f : Field) (v : Nat) : (s.setLive f v).tabLive = s.tabLive := rfl
@[simp] theorem setLive_tabStaged (f : Field) (v : Nat) : (s.setLive f v).tabStaged = s.tabStaged := rfl
@[simp] theorem setLive_prot (f : Field) (v : Nat) : (s.setLive f v).prot = s.prot := rfl
@[simp] theorem setLive_cfg (f : Field) (v : Nat) : (s.setLive f v).cfg = s.cfg := rfl
@[simp] theorem setLive_commits (f : Field) (v : Nat) : (s.setLive f v).commits = s.commits := rfl
@[simp] theorem setLive_power (f : Field) (v : Nat) : (s.setLive f v).power = s.power := rfl
@[simp] theorem setLive_hif (f : Field) (v : Nat) : (s.setLive f v).hif = s.hif := rfl
@[simp] theorem setLive_chans (f : Field) (v : Nat) : (s.setLive f v).chans = s.chans := rfl
@[simp] theorem setLive_cdc (f : Field) (v : Nat) : (s.setLive f v).cdc = s.cdc := rfl
@[simp] theorem setLive_scans (f : Field) (v : Nat) : (s.setLive f v).scans = s.scans := rfl
@[simp] theorem setLive_scanWait (f : Field) (v : Nat) : (s.setLive f v).scanWait = s.scanWait := rfl
@[simp] theorem setLive_prs (f : Field) (v : Nat) : (s.setLive f v).prs = s.prs := rfl
@[simp] theorem setLive_csm (f : Field) (v : Nat) : (s.setLive f v).csm = s.csm := rfl
@[simp] theorem setLive_pec (f : Field) (v : Nat) : (s.setLive f v).pec = s.pec := rfl
@[simp] theorem setLive_waiting (f : Field) (v : Nat) : (s.setLive f v).waiting = s.waiting := rfl
@[simp] theorem setLive_stripe (f : Field) (v : Nat) : (s.setLive f v).stripe = s.stripe := rfl
@[simp] theorem setLive_lastOutcome (f : Field) (v : Nat) : (s.setLive f v).lastOutcome = s.lastOutcome := rfl
@[simp] theorem setLive_port (f : Field) (v : Nat) : (s.setLive f v).port = s.port := rfl
@[simp] theorem setLive_shl (f : Field) (v : Nat) : (s.setLive f v).shl = s.shl := rfl
@[simp] theorem setLive_nlk (f : Field) (v : Nat) : (s.setLive f v).nlk = s.nlk := rfl
@[simp] theorem setLive_hmc (f : Field) (v : Nat) : (s.setLive f v).hmc = s.hmc := rfl
@[simp] theorem setLive_cal (f : Field) (v : Nat) : (s.setLive f v).cal = s.cal := rfl
@[simp] theorem setLive_bst (f : Field) (v : Nat) : (s.setLive f v).bst = s.bst := rfl
@[simp] theorem setLive_pmu (f : Field) (v : Nat) : (s.setLive f v).pmu = s.pmu := rfl

/-! ### `State.modStripe` changes `stripe` -/

@[simp] theorem modStripe_pending (f : Stripe → Stripe) : (s.modStripe f).pending = s.pending := rfl
@[simp] theorem modStripe_g (f : Stripe → Stripe) : (s.modStripe f).g = s.g := rfl
@[simp] theorem modStripe_phase (f : Stripe → Stripe) : (s.modStripe f).phase = s.phase := rfl
@[simp] theorem modStripe_quick (f : Stripe → Stripe) : (s.modStripe f).quick = s.quick := rfl
@[simp] theorem modStripe_fence (f : Stripe → Stripe) : (s.modStripe f).fence = s.fence := rfl
@[simp] theorem modStripe_aon (f : Stripe → Stripe) : (s.modStripe f).aon = s.aon := rfl
@[simp] theorem modStripe_regs (f : Stripe → Stripe) : (s.modStripe f).regs = s.regs := rfl
@[simp] theorem modStripe_live (f : Stripe → Stripe) : (s.modStripe f).live = s.live := rfl
@[simp] theorem modStripe_latches (f : Stripe → Stripe) : (s.modStripe f).latches = s.latches := rfl
@[simp] theorem modStripe_answer (f : Stripe → Stripe) : (s.modStripe f).answer = s.answer := rfl
@[simp] theorem modStripe_cc (f : Stripe → Stripe) : (s.modStripe f).cc = s.cc := rfl
@[simp] theorem modStripe_free (f : Stripe → Stripe) : (s.modStripe f).free = s.free := rfl
@[simp] theorem modStripe_host (f : Stripe → Stripe) : (s.modStripe f).host = s.host := rfl
@[simp] theorem modStripe_hbm (f : Stripe → Stripe) : (s.modStripe f).hbm = s.hbm := rfl
@[simp] theorem modStripe_flash (f : Stripe → Stripe) : (s.modStripe f).flash = s.flash := rfl
@[simp] theorem modStripe_tabLive (f : Stripe → Stripe) : (s.modStripe f).tabLive = s.tabLive := rfl
@[simp] theorem modStripe_tabStaged (f : Stripe → Stripe) : (s.modStripe f).tabStaged = s.tabStaged := rfl
@[simp] theorem modStripe_prot (f : Stripe → Stripe) : (s.modStripe f).prot = s.prot := rfl
@[simp] theorem modStripe_cfg (f : Stripe → Stripe) : (s.modStripe f).cfg = s.cfg := rfl
@[simp] theorem modStripe_commits (f : Stripe → Stripe) : (s.modStripe f).commits = s.commits := rfl
@[simp] theorem modStripe_power (f : Stripe → Stripe) : (s.modStripe f).power = s.power := rfl
@[simp] theorem modStripe_hif (f : Stripe → Stripe) : (s.modStripe f).hif = s.hif := rfl
@[simp] theorem modStripe_chans (f : Stripe → Stripe) : (s.modStripe f).chans = s.chans := rfl
@[simp] theorem modStripe_cdc (f : Stripe → Stripe) : (s.modStripe f).cdc = s.cdc := rfl
@[simp] theorem modStripe_scans (f : Stripe → Stripe) : (s.modStripe f).scans = s.scans := rfl
@[simp] theorem modStripe_scanWait (f : Stripe → Stripe) : (s.modStripe f).scanWait = s.scanWait := rfl
@[simp] theorem modStripe_prs (f : Stripe → Stripe) : (s.modStripe f).prs = s.prs := rfl
@[simp] theorem modStripe_csm (f : Stripe → Stripe) : (s.modStripe f).csm = s.csm := rfl
@[simp] theorem modStripe_pec (f : Stripe → Stripe) : (s.modStripe f).pec = s.pec := rfl
@[simp] theorem modStripe_waiting (f : Stripe → Stripe) : (s.modStripe f).waiting = s.waiting := rfl
@[simp] theorem modStripe_lastOutcome (f : Stripe → Stripe) : (s.modStripe f).lastOutcome = s.lastOutcome := rfl
@[simp] theorem modStripe_port (f : Stripe → Stripe) : (s.modStripe f).port = s.port := rfl
@[simp] theorem modStripe_shl (f : Stripe → Stripe) : (s.modStripe f).shl = s.shl := rfl
@[simp] theorem modStripe_nlk (f : Stripe → Stripe) : (s.modStripe f).nlk = s.nlk := rfl
@[simp] theorem modStripe_hmc (f : Stripe → Stripe) : (s.modStripe f).hmc = s.hmc := rfl
@[simp] theorem modStripe_cal (f : Stripe → Stripe) : (s.modStripe f).cal = s.cal := rfl
@[simp] theorem modStripe_bst (f : Stripe → Stripe) : (s.modStripe f).bst = s.bst := rfl
@[simp] theorem modStripe_pmu (f : Stripe → Stripe) : (s.modStripe f).pmu = s.pmu := rfl

/-! ### `State.modChan` changes `chans` -/

@[simp] theorem modChan_pending (ch : Nat) (f : Chan → Chan) : (s.modChan ch f).pending = s.pending := rfl
@[simp] theorem modChan_g (ch : Nat) (f : Chan → Chan) : (s.modChan ch f).g = s.g := rfl
@[simp] theorem modChan_phase (ch : Nat) (f : Chan → Chan) : (s.modChan ch f).phase = s.phase := rfl
@[simp] theorem modChan_quick (ch : Nat) (f : Chan → Chan) : (s.modChan ch f).quick = s.quick := rfl
@[simp] theorem modChan_fence (ch : Nat) (f : Chan → Chan) : (s.modChan ch f).fence = s.fence := rfl
@[simp] theorem modChan_aon (ch : Nat) (f : Chan → Chan) : (s.modChan ch f).aon = s.aon := rfl
@[simp] theorem modChan_regs (ch : Nat) (f : Chan → Chan) : (s.modChan ch f).regs = s.regs := rfl
@[simp] theorem modChan_live (ch : Nat) (f : Chan → Chan) : (s.modChan ch f).live = s.live := rfl
@[simp] theorem modChan_latches (ch : Nat) (f : Chan → Chan) : (s.modChan ch f).latches = s.latches := rfl
@[simp] theorem modChan_answer (ch : Nat) (f : Chan → Chan) : (s.modChan ch f).answer = s.answer := rfl
@[simp] theorem modChan_cc (ch : Nat) (f : Chan → Chan) : (s.modChan ch f).cc = s.cc := rfl
@[simp] theorem modChan_free (ch : Nat) (f : Chan → Chan) : (s.modChan ch f).free = s.free := rfl
@[simp] theorem modChan_host (ch : Nat) (f : Chan → Chan) : (s.modChan ch f).host = s.host := rfl
@[simp] theorem modChan_hbm (ch : Nat) (f : Chan → Chan) : (s.modChan ch f).hbm = s.hbm := rfl
@[simp] theorem modChan_flash (ch : Nat) (f : Chan → Chan) : (s.modChan ch f).flash = s.flash := rfl
@[simp] theorem modChan_tabLive (ch : Nat) (f : Chan → Chan) : (s.modChan ch f).tabLive = s.tabLive := rfl
@[simp] theorem modChan_tabStaged (ch : Nat) (f : Chan → Chan) : (s.modChan ch f).tabStaged = s.tabStaged := rfl
@[simp] theorem modChan_prot (ch : Nat) (f : Chan → Chan) : (s.modChan ch f).prot = s.prot := rfl
@[simp] theorem modChan_cfg (ch : Nat) (f : Chan → Chan) : (s.modChan ch f).cfg = s.cfg := rfl
@[simp] theorem modChan_commits (ch : Nat) (f : Chan → Chan) : (s.modChan ch f).commits = s.commits := rfl
@[simp] theorem modChan_power (ch : Nat) (f : Chan → Chan) : (s.modChan ch f).power = s.power := rfl
@[simp] theorem modChan_hif (ch : Nat) (f : Chan → Chan) : (s.modChan ch f).hif = s.hif := rfl
@[simp] theorem modChan_cdc (ch : Nat) (f : Chan → Chan) : (s.modChan ch f).cdc = s.cdc := rfl
@[simp] theorem modChan_scans (ch : Nat) (f : Chan → Chan) : (s.modChan ch f).scans = s.scans := rfl
@[simp] theorem modChan_scanWait (ch : Nat) (f : Chan → Chan) : (s.modChan ch f).scanWait = s.scanWait := rfl
@[simp] theorem modChan_prs (ch : Nat) (f : Chan → Chan) : (s.modChan ch f).prs = s.prs := rfl
@[simp] theorem modChan_csm (ch : Nat) (f : Chan → Chan) : (s.modChan ch f).csm = s.csm := rfl
@[simp] theorem modChan_pec (ch : Nat) (f : Chan → Chan) : (s.modChan ch f).pec = s.pec := rfl
@[simp] theorem modChan_waiting (ch : Nat) (f : Chan → Chan) : (s.modChan ch f).waiting = s.waiting := rfl
@[simp] theorem modChan_stripe (ch : Nat) (f : Chan → Chan) : (s.modChan ch f).stripe = s.stripe := rfl
@[simp] theorem modChan_lastOutcome (ch : Nat) (f : Chan → Chan) : (s.modChan ch f).lastOutcome = s.lastOutcome := rfl
@[simp] theorem modChan_port (ch : Nat) (f : Chan → Chan) : (s.modChan ch f).port = s.port := rfl
@[simp] theorem modChan_shl (ch : Nat) (f : Chan → Chan) : (s.modChan ch f).shl = s.shl := rfl
@[simp] theorem modChan_nlk (ch : Nat) (f : Chan → Chan) : (s.modChan ch f).nlk = s.nlk := rfl
@[simp] theorem modChan_hmc (ch : Nat) (f : Chan → Chan) : (s.modChan ch f).hmc = s.hmc := rfl
@[simp] theorem modChan_cal (ch : Nat) (f : Chan → Chan) : (s.modChan ch f).cal = s.cal := rfl
@[simp] theorem modChan_bst (ch : Nat) (f : Chan → Chan) : (s.modChan ch f).bst = s.bst := rfl
@[simp] theorem modChan_pmu (ch : Nat) (f : Chan → Chan) : (s.modChan ch f).pmu = s.pmu := rfl

/-! ### `State.modRing` changes `hif` -/

@[simp] theorem modRing_pending (q : Nat) (f : SubRing → SubRing) : (s.modRing q f).pending = s.pending := rfl
@[simp] theorem modRing_g (q : Nat) (f : SubRing → SubRing) : (s.modRing q f).g = s.g := rfl
@[simp] theorem modRing_phase (q : Nat) (f : SubRing → SubRing) : (s.modRing q f).phase = s.phase := rfl
@[simp] theorem modRing_quick (q : Nat) (f : SubRing → SubRing) : (s.modRing q f).quick = s.quick := rfl
@[simp] theorem modRing_fence (q : Nat) (f : SubRing → SubRing) : (s.modRing q f).fence = s.fence := rfl
@[simp] theorem modRing_aon (q : Nat) (f : SubRing → SubRing) : (s.modRing q f).aon = s.aon := rfl
@[simp] theorem modRing_regs (q : Nat) (f : SubRing → SubRing) : (s.modRing q f).regs = s.regs := rfl
@[simp] theorem modRing_live (q : Nat) (f : SubRing → SubRing) : (s.modRing q f).live = s.live := rfl
@[simp] theorem modRing_latches (q : Nat) (f : SubRing → SubRing) : (s.modRing q f).latches = s.latches := rfl
@[simp] theorem modRing_answer (q : Nat) (f : SubRing → SubRing) : (s.modRing q f).answer = s.answer := rfl
@[simp] theorem modRing_cc (q : Nat) (f : SubRing → SubRing) : (s.modRing q f).cc = s.cc := rfl
@[simp] theorem modRing_free (q : Nat) (f : SubRing → SubRing) : (s.modRing q f).free = s.free := rfl
@[simp] theorem modRing_host (q : Nat) (f : SubRing → SubRing) : (s.modRing q f).host = s.host := rfl
@[simp] theorem modRing_hbm (q : Nat) (f : SubRing → SubRing) : (s.modRing q f).hbm = s.hbm := rfl
@[simp] theorem modRing_flash (q : Nat) (f : SubRing → SubRing) : (s.modRing q f).flash = s.flash := rfl
@[simp] theorem modRing_tabLive (q : Nat) (f : SubRing → SubRing) : (s.modRing q f).tabLive = s.tabLive := rfl
@[simp] theorem modRing_tabStaged (q : Nat) (f : SubRing → SubRing) : (s.modRing q f).tabStaged = s.tabStaged := rfl
@[simp] theorem modRing_prot (q : Nat) (f : SubRing → SubRing) : (s.modRing q f).prot = s.prot := rfl
@[simp] theorem modRing_cfg (q : Nat) (f : SubRing → SubRing) : (s.modRing q f).cfg = s.cfg := rfl
@[simp] theorem modRing_commits (q : Nat) (f : SubRing → SubRing) : (s.modRing q f).commits = s.commits := rfl
@[simp] theorem modRing_power (q : Nat) (f : SubRing → SubRing) : (s.modRing q f).power = s.power := rfl
@[simp] theorem modRing_chans (q : Nat) (f : SubRing → SubRing) : (s.modRing q f).chans = s.chans := rfl
@[simp] theorem modRing_cdc (q : Nat) (f : SubRing → SubRing) : (s.modRing q f).cdc = s.cdc := rfl
@[simp] theorem modRing_scans (q : Nat) (f : SubRing → SubRing) : (s.modRing q f).scans = s.scans := rfl
@[simp] theorem modRing_scanWait (q : Nat) (f : SubRing → SubRing) : (s.modRing q f).scanWait = s.scanWait := rfl
@[simp] theorem modRing_prs (q : Nat) (f : SubRing → SubRing) : (s.modRing q f).prs = s.prs := rfl
@[simp] theorem modRing_csm (q : Nat) (f : SubRing → SubRing) : (s.modRing q f).csm = s.csm := rfl
@[simp] theorem modRing_pec (q : Nat) (f : SubRing → SubRing) : (s.modRing q f).pec = s.pec := rfl
@[simp] theorem modRing_waiting (q : Nat) (f : SubRing → SubRing) : (s.modRing q f).waiting = s.waiting := rfl
@[simp] theorem modRing_stripe (q : Nat) (f : SubRing → SubRing) : (s.modRing q f).stripe = s.stripe := rfl
@[simp] theorem modRing_lastOutcome (q : Nat) (f : SubRing → SubRing) : (s.modRing q f).lastOutcome = s.lastOutcome := rfl
@[simp] theorem modRing_port (q : Nat) (f : SubRing → SubRing) : (s.modRing q f).port = s.port := rfl
@[simp] theorem modRing_shl (q : Nat) (f : SubRing → SubRing) : (s.modRing q f).shl = s.shl := rfl
@[simp] theorem modRing_nlk (q : Nat) (f : SubRing → SubRing) : (s.modRing q f).nlk = s.nlk := rfl
@[simp] theorem modRing_hmc (q : Nat) (f : SubRing → SubRing) : (s.modRing q f).hmc = s.hmc := rfl
@[simp] theorem modRing_cal (q : Nat) (f : SubRing → SubRing) : (s.modRing q f).cal = s.cal := rfl
@[simp] theorem modRing_bst (q : Nat) (f : SubRing → SubRing) : (s.modRing q f).bst = s.bst := rfl
@[simp] theorem modRing_pmu (q : Nat) (f : SubRing → SubRing) : (s.modRing q f).pmu = s.pmu := rfl

/-! ### `State.modEvRing` changes `hif` -/

@[simp] theorem modEvRing_pending (e : Nat) (f : EvRing → EvRing) : (s.modEvRing e f).pending = s.pending := rfl
@[simp] theorem modEvRing_g (e : Nat) (f : EvRing → EvRing) : (s.modEvRing e f).g = s.g := rfl
@[simp] theorem modEvRing_phase (e : Nat) (f : EvRing → EvRing) : (s.modEvRing e f).phase = s.phase := rfl
@[simp] theorem modEvRing_quick (e : Nat) (f : EvRing → EvRing) : (s.modEvRing e f).quick = s.quick := rfl
@[simp] theorem modEvRing_fence (e : Nat) (f : EvRing → EvRing) : (s.modEvRing e f).fence = s.fence := rfl
@[simp] theorem modEvRing_aon (e : Nat) (f : EvRing → EvRing) : (s.modEvRing e f).aon = s.aon := rfl
@[simp] theorem modEvRing_regs (e : Nat) (f : EvRing → EvRing) : (s.modEvRing e f).regs = s.regs := rfl
@[simp] theorem modEvRing_live (e : Nat) (f : EvRing → EvRing) : (s.modEvRing e f).live = s.live := rfl
@[simp] theorem modEvRing_latches (e : Nat) (f : EvRing → EvRing) : (s.modEvRing e f).latches = s.latches := rfl
@[simp] theorem modEvRing_answer (e : Nat) (f : EvRing → EvRing) : (s.modEvRing e f).answer = s.answer := rfl
@[simp] theorem modEvRing_cc (e : Nat) (f : EvRing → EvRing) : (s.modEvRing e f).cc = s.cc := rfl
@[simp] theorem modEvRing_free (e : Nat) (f : EvRing → EvRing) : (s.modEvRing e f).free = s.free := rfl
@[simp] theorem modEvRing_host (e : Nat) (f : EvRing → EvRing) : (s.modEvRing e f).host = s.host := rfl
@[simp] theorem modEvRing_hbm (e : Nat) (f : EvRing → EvRing) : (s.modEvRing e f).hbm = s.hbm := rfl
@[simp] theorem modEvRing_flash (e : Nat) (f : EvRing → EvRing) : (s.modEvRing e f).flash = s.flash := rfl
@[simp] theorem modEvRing_tabLive (e : Nat) (f : EvRing → EvRing) : (s.modEvRing e f).tabLive = s.tabLive := rfl
@[simp] theorem modEvRing_tabStaged (e : Nat) (f : EvRing → EvRing) : (s.modEvRing e f).tabStaged = s.tabStaged := rfl
@[simp] theorem modEvRing_prot (e : Nat) (f : EvRing → EvRing) : (s.modEvRing e f).prot = s.prot := rfl
@[simp] theorem modEvRing_cfg (e : Nat) (f : EvRing → EvRing) : (s.modEvRing e f).cfg = s.cfg := rfl
@[simp] theorem modEvRing_commits (e : Nat) (f : EvRing → EvRing) : (s.modEvRing e f).commits = s.commits := rfl
@[simp] theorem modEvRing_power (e : Nat) (f : EvRing → EvRing) : (s.modEvRing e f).power = s.power := rfl
@[simp] theorem modEvRing_chans (e : Nat) (f : EvRing → EvRing) : (s.modEvRing e f).chans = s.chans := rfl
@[simp] theorem modEvRing_cdc (e : Nat) (f : EvRing → EvRing) : (s.modEvRing e f).cdc = s.cdc := rfl
@[simp] theorem modEvRing_scans (e : Nat) (f : EvRing → EvRing) : (s.modEvRing e f).scans = s.scans := rfl
@[simp] theorem modEvRing_scanWait (e : Nat) (f : EvRing → EvRing) : (s.modEvRing e f).scanWait = s.scanWait := rfl
@[simp] theorem modEvRing_prs (e : Nat) (f : EvRing → EvRing) : (s.modEvRing e f).prs = s.prs := rfl
@[simp] theorem modEvRing_csm (e : Nat) (f : EvRing → EvRing) : (s.modEvRing e f).csm = s.csm := rfl
@[simp] theorem modEvRing_pec (e : Nat) (f : EvRing → EvRing) : (s.modEvRing e f).pec = s.pec := rfl
@[simp] theorem modEvRing_waiting (e : Nat) (f : EvRing → EvRing) : (s.modEvRing e f).waiting = s.waiting := rfl
@[simp] theorem modEvRing_stripe (e : Nat) (f : EvRing → EvRing) : (s.modEvRing e f).stripe = s.stripe := rfl
@[simp] theorem modEvRing_lastOutcome (e : Nat) (f : EvRing → EvRing) : (s.modEvRing e f).lastOutcome = s.lastOutcome := rfl
@[simp] theorem modEvRing_port (e : Nat) (f : EvRing → EvRing) : (s.modEvRing e f).port = s.port := rfl
@[simp] theorem modEvRing_shl (e : Nat) (f : EvRing → EvRing) : (s.modEvRing e f).shl = s.shl := rfl
@[simp] theorem modEvRing_nlk (e : Nat) (f : EvRing → EvRing) : (s.modEvRing e f).nlk = s.nlk := rfl
@[simp] theorem modEvRing_hmc (e : Nat) (f : EvRing → EvRing) : (s.modEvRing e f).hmc = s.hmc := rfl
@[simp] theorem modEvRing_cal (e : Nat) (f : EvRing → EvRing) : (s.modEvRing e f).cal = s.cal := rfl
@[simp] theorem modEvRing_bst (e : Nat) (f : EvRing → EvRing) : (s.modEvRing e f).bst = s.bst := rfl
@[simp] theorem modEvRing_pmu (e : Nat) (f : EvRing → EvRing) : (s.modEvRing e f).pmu = s.pmu := rfl

/-! ### `State.dropEntry` changes `hif` -/

@[simp] theorem dropEntry_pending (q idx : Nat) : (s.dropEntry q idx).pending = s.pending := rfl
@[simp] theorem dropEntry_g (q idx : Nat) : (s.dropEntry q idx).g = s.g := rfl
@[simp] theorem dropEntry_phase (q idx : Nat) : (s.dropEntry q idx).phase = s.phase := rfl
@[simp] theorem dropEntry_quick (q idx : Nat) : (s.dropEntry q idx).quick = s.quick := rfl
@[simp] theorem dropEntry_fence (q idx : Nat) : (s.dropEntry q idx).fence = s.fence := rfl
@[simp] theorem dropEntry_aon (q idx : Nat) : (s.dropEntry q idx).aon = s.aon := rfl
@[simp] theorem dropEntry_regs (q idx : Nat) : (s.dropEntry q idx).regs = s.regs := rfl
@[simp] theorem dropEntry_live (q idx : Nat) : (s.dropEntry q idx).live = s.live := rfl
@[simp] theorem dropEntry_latches (q idx : Nat) : (s.dropEntry q idx).latches = s.latches := rfl
@[simp] theorem dropEntry_answer (q idx : Nat) : (s.dropEntry q idx).answer = s.answer := rfl
@[simp] theorem dropEntry_cc (q idx : Nat) : (s.dropEntry q idx).cc = s.cc := rfl
@[simp] theorem dropEntry_free (q idx : Nat) : (s.dropEntry q idx).free = s.free := rfl
@[simp] theorem dropEntry_host (q idx : Nat) : (s.dropEntry q idx).host = s.host := rfl
@[simp] theorem dropEntry_hbm (q idx : Nat) : (s.dropEntry q idx).hbm = s.hbm := rfl
@[simp] theorem dropEntry_flash (q idx : Nat) : (s.dropEntry q idx).flash = s.flash := rfl
@[simp] theorem dropEntry_tabLive (q idx : Nat) : (s.dropEntry q idx).tabLive = s.tabLive := rfl
@[simp] theorem dropEntry_tabStaged (q idx : Nat) : (s.dropEntry q idx).tabStaged = s.tabStaged := rfl
@[simp] theorem dropEntry_prot (q idx : Nat) : (s.dropEntry q idx).prot = s.prot := rfl
@[simp] theorem dropEntry_cfg (q idx : Nat) : (s.dropEntry q idx).cfg = s.cfg := rfl
@[simp] theorem dropEntry_commits (q idx : Nat) : (s.dropEntry q idx).commits = s.commits := rfl
@[simp] theorem dropEntry_power (q idx : Nat) : (s.dropEntry q idx).power = s.power := rfl
@[simp] theorem dropEntry_chans (q idx : Nat) : (s.dropEntry q idx).chans = s.chans := rfl
@[simp] theorem dropEntry_cdc (q idx : Nat) : (s.dropEntry q idx).cdc = s.cdc := rfl
@[simp] theorem dropEntry_scans (q idx : Nat) : (s.dropEntry q idx).scans = s.scans := rfl
@[simp] theorem dropEntry_scanWait (q idx : Nat) : (s.dropEntry q idx).scanWait = s.scanWait := rfl
@[simp] theorem dropEntry_prs (q idx : Nat) : (s.dropEntry q idx).prs = s.prs := rfl
@[simp] theorem dropEntry_csm (q idx : Nat) : (s.dropEntry q idx).csm = s.csm := rfl
@[simp] theorem dropEntry_pec (q idx : Nat) : (s.dropEntry q idx).pec = s.pec := rfl
@[simp] theorem dropEntry_waiting (q idx : Nat) : (s.dropEntry q idx).waiting = s.waiting := rfl
@[simp] theorem dropEntry_stripe (q idx : Nat) : (s.dropEntry q idx).stripe = s.stripe := rfl
@[simp] theorem dropEntry_lastOutcome (q idx : Nat) : (s.dropEntry q idx).lastOutcome = s.lastOutcome := rfl
@[simp] theorem dropEntry_port (q idx : Nat) : (s.dropEntry q idx).port = s.port := rfl
@[simp] theorem dropEntry_shl (q idx : Nat) : (s.dropEntry q idx).shl = s.shl := rfl
@[simp] theorem dropEntry_nlk (q idx : Nat) : (s.dropEntry q idx).nlk = s.nlk := rfl
@[simp] theorem dropEntry_hmc (q idx : Nat) : (s.dropEntry q idx).hmc = s.hmc := rfl
@[simp] theorem dropEntry_cal (q idx : Nat) : (s.dropEntry q idx).cal = s.cal := rfl
@[simp] theorem dropEntry_bst (q idx : Nat) : (s.dropEntry q idx).bst = s.bst := rfl
@[simp] theorem dropEntry_pmu (q idx : Nat) : (s.dropEntry q idx).pmu = s.pmu := rfl

/-! ### `State.startEntry` changes `hif` -/

@[simp] theorem startEntry_pending (q idx : Nat) : (s.startEntry q idx).pending = s.pending := rfl
@[simp] theorem startEntry_g (q idx : Nat) : (s.startEntry q idx).g = s.g := rfl
@[simp] theorem startEntry_phase (q idx : Nat) : (s.startEntry q idx).phase = s.phase := rfl
@[simp] theorem startEntry_quick (q idx : Nat) : (s.startEntry q idx).quick = s.quick := rfl
@[simp] theorem startEntry_fence (q idx : Nat) : (s.startEntry q idx).fence = s.fence := rfl
@[simp] theorem startEntry_aon (q idx : Nat) : (s.startEntry q idx).aon = s.aon := rfl
@[simp] theorem startEntry_regs (q idx : Nat) : (s.startEntry q idx).regs = s.regs := rfl
@[simp] theorem startEntry_live (q idx : Nat) : (s.startEntry q idx).live = s.live := rfl
@[simp] theorem startEntry_latches (q idx : Nat) : (s.startEntry q idx).latches = s.latches := rfl
@[simp] theorem startEntry_answer (q idx : Nat) : (s.startEntry q idx).answer = s.answer := rfl
@[simp] theorem startEntry_cc (q idx : Nat) : (s.startEntry q idx).cc = s.cc := rfl
@[simp] theorem startEntry_free (q idx : Nat) : (s.startEntry q idx).free = s.free := rfl
@[simp] theorem startEntry_host (q idx : Nat) : (s.startEntry q idx).host = s.host := rfl
@[simp] theorem startEntry_hbm (q idx : Nat) : (s.startEntry q idx).hbm = s.hbm := rfl
@[simp] theorem startEntry_flash (q idx : Nat) : (s.startEntry q idx).flash = s.flash := rfl
@[simp] theorem startEntry_tabLive (q idx : Nat) : (s.startEntry q idx).tabLive = s.tabLive := rfl
@[simp] theorem startEntry_tabStaged (q idx : Nat) : (s.startEntry q idx).tabStaged = s.tabStaged := rfl
@[simp] theorem startEntry_prot (q idx : Nat) : (s.startEntry q idx).prot = s.prot := rfl
@[simp] theorem startEntry_cfg (q idx : Nat) : (s.startEntry q idx).cfg = s.cfg := rfl
@[simp] theorem startEntry_commits (q idx : Nat) : (s.startEntry q idx).commits = s.commits := rfl
@[simp] theorem startEntry_power (q idx : Nat) : (s.startEntry q idx).power = s.power := rfl
@[simp] theorem startEntry_chans (q idx : Nat) : (s.startEntry q idx).chans = s.chans := rfl
@[simp] theorem startEntry_cdc (q idx : Nat) : (s.startEntry q idx).cdc = s.cdc := rfl
@[simp] theorem startEntry_scans (q idx : Nat) : (s.startEntry q idx).scans = s.scans := rfl
@[simp] theorem startEntry_scanWait (q idx : Nat) : (s.startEntry q idx).scanWait = s.scanWait := rfl
@[simp] theorem startEntry_prs (q idx : Nat) : (s.startEntry q idx).prs = s.prs := rfl
@[simp] theorem startEntry_csm (q idx : Nat) : (s.startEntry q idx).csm = s.csm := rfl
@[simp] theorem startEntry_pec (q idx : Nat) : (s.startEntry q idx).pec = s.pec := rfl
@[simp] theorem startEntry_waiting (q idx : Nat) : (s.startEntry q idx).waiting = s.waiting := rfl
@[simp] theorem startEntry_stripe (q idx : Nat) : (s.startEntry q idx).stripe = s.stripe := rfl
@[simp] theorem startEntry_lastOutcome (q idx : Nat) : (s.startEntry q idx).lastOutcome = s.lastOutcome := rfl
@[simp] theorem startEntry_port (q idx : Nat) : (s.startEntry q idx).port = s.port := rfl
@[simp] theorem startEntry_shl (q idx : Nat) : (s.startEntry q idx).shl = s.shl := rfl
@[simp] theorem startEntry_nlk (q idx : Nat) : (s.startEntry q idx).nlk = s.nlk := rfl
@[simp] theorem startEntry_hmc (q idx : Nat) : (s.startEntry q idx).hmc = s.hmc := rfl
@[simp] theorem startEntry_cal (q idx : Nat) : (s.startEntry q idx).cal = s.cal := rfl
@[simp] theorem startEntry_bst (q idx : Nat) : (s.startEntry q idx).bst = s.bst := rfl
@[simp] theorem startEntry_pmu (q idx : Nat) : (s.startEntry q idx).pmu = s.pmu := rfl

/-! ### `State.resetWindow` changes `regs`, `live`, `latches` -/

@[simp] theorem resetWindow_pending (k : Nat) : (s.resetWindow k).pending = s.pending := rfl
@[simp] theorem resetWindow_g (k : Nat) : (s.resetWindow k).g = s.g := rfl
@[simp] theorem resetWindow_phase (k : Nat) : (s.resetWindow k).phase = s.phase := rfl
@[simp] theorem resetWindow_quick (k : Nat) : (s.resetWindow k).quick = s.quick := rfl
@[simp] theorem resetWindow_fence (k : Nat) : (s.resetWindow k).fence = s.fence := rfl
@[simp] theorem resetWindow_aon (k : Nat) : (s.resetWindow k).aon = s.aon := rfl
@[simp] theorem resetWindow_answer (k : Nat) : (s.resetWindow k).answer = s.answer := rfl
@[simp] theorem resetWindow_cc (k : Nat) : (s.resetWindow k).cc = s.cc := rfl
@[simp] theorem resetWindow_free (k : Nat) : (s.resetWindow k).free = s.free := rfl
@[simp] theorem resetWindow_host (k : Nat) : (s.resetWindow k).host = s.host := rfl
@[simp] theorem resetWindow_hbm (k : Nat) : (s.resetWindow k).hbm = s.hbm := rfl
@[simp] theorem resetWindow_flash (k : Nat) : (s.resetWindow k).flash = s.flash := rfl
@[simp] theorem resetWindow_tabLive (k : Nat) : (s.resetWindow k).tabLive = s.tabLive := rfl
@[simp] theorem resetWindow_tabStaged (k : Nat) : (s.resetWindow k).tabStaged = s.tabStaged := rfl
@[simp] theorem resetWindow_prot (k : Nat) : (s.resetWindow k).prot = s.prot := rfl
@[simp] theorem resetWindow_cfg (k : Nat) : (s.resetWindow k).cfg = s.cfg := rfl
@[simp] theorem resetWindow_commits (k : Nat) : (s.resetWindow k).commits = s.commits := rfl
@[simp] theorem resetWindow_power (k : Nat) : (s.resetWindow k).power = s.power := rfl
@[simp] theorem resetWindow_hif (k : Nat) : (s.resetWindow k).hif = s.hif := rfl
@[simp] theorem resetWindow_chans (k : Nat) : (s.resetWindow k).chans = s.chans := rfl
@[simp] theorem resetWindow_cdc (k : Nat) : (s.resetWindow k).cdc = s.cdc := rfl
@[simp] theorem resetWindow_scans (k : Nat) : (s.resetWindow k).scans = s.scans := rfl
@[simp] theorem resetWindow_scanWait (k : Nat) : (s.resetWindow k).scanWait = s.scanWait := rfl
@[simp] theorem resetWindow_prs (k : Nat) : (s.resetWindow k).prs = s.prs := rfl
@[simp] theorem resetWindow_csm (k : Nat) : (s.resetWindow k).csm = s.csm := rfl
@[simp] theorem resetWindow_pec (k : Nat) : (s.resetWindow k).pec = s.pec := rfl
@[simp] theorem resetWindow_waiting (k : Nat) : (s.resetWindow k).waiting = s.waiting := rfl
@[simp] theorem resetWindow_stripe (k : Nat) : (s.resetWindow k).stripe = s.stripe := rfl
@[simp] theorem resetWindow_lastOutcome (k : Nat) : (s.resetWindow k).lastOutcome = s.lastOutcome := rfl
@[simp] theorem resetWindow_port (k : Nat) : (s.resetWindow k).port = s.port := rfl
@[simp] theorem resetWindow_shl (k : Nat) : (s.resetWindow k).shl = s.shl := rfl
@[simp] theorem resetWindow_nlk (k : Nat) : (s.resetWindow k).nlk = s.nlk := rfl
@[simp] theorem resetWindow_hmc (k : Nat) : (s.resetWindow k).hmc = s.hmc := rfl
@[simp] theorem resetWindow_cal (k : Nat) : (s.resetWindow k).cal = s.cal := rfl
@[simp] theorem resetWindow_bst (k : Nat) : (s.resetWindow k).bst = s.bst := rfl
@[simp] theorem resetWindow_pmu (k : Nat) : (s.resetWindow k).pmu = s.pmu := rfl

/-! ### `State.hostWriteWord` changes `host` -/

@[simp] theorem hostWriteWord_pending (a v : Nat) : (s.hostWriteWord a v).pending = s.pending := rfl
@[simp] theorem hostWriteWord_g (a v : Nat) : (s.hostWriteWord a v).g = s.g := rfl
@[simp] theorem hostWriteWord_phase (a v : Nat) : (s.hostWriteWord a v).phase = s.phase := rfl
@[simp] theorem hostWriteWord_quick (a v : Nat) : (s.hostWriteWord a v).quick = s.quick := rfl
@[simp] theorem hostWriteWord_fence (a v : Nat) : (s.hostWriteWord a v).fence = s.fence := rfl
@[simp] theorem hostWriteWord_aon (a v : Nat) : (s.hostWriteWord a v).aon = s.aon := rfl
@[simp] theorem hostWriteWord_regs (a v : Nat) : (s.hostWriteWord a v).regs = s.regs := rfl
@[simp] theorem hostWriteWord_live (a v : Nat) : (s.hostWriteWord a v).live = s.live := rfl
@[simp] theorem hostWriteWord_latches (a v : Nat) : (s.hostWriteWord a v).latches = s.latches := rfl
@[simp] theorem hostWriteWord_answer (a v : Nat) : (s.hostWriteWord a v).answer = s.answer := rfl
@[simp] theorem hostWriteWord_cc (a v : Nat) : (s.hostWriteWord a v).cc = s.cc := rfl
@[simp] theorem hostWriteWord_free (a v : Nat) : (s.hostWriteWord a v).free = s.free := rfl
@[simp] theorem hostWriteWord_hbm (a v : Nat) : (s.hostWriteWord a v).hbm = s.hbm := rfl
@[simp] theorem hostWriteWord_flash (a v : Nat) : (s.hostWriteWord a v).flash = s.flash := rfl
@[simp] theorem hostWriteWord_tabLive (a v : Nat) : (s.hostWriteWord a v).tabLive = s.tabLive := rfl
@[simp] theorem hostWriteWord_tabStaged (a v : Nat) : (s.hostWriteWord a v).tabStaged = s.tabStaged := rfl
@[simp] theorem hostWriteWord_prot (a v : Nat) : (s.hostWriteWord a v).prot = s.prot := rfl
@[simp] theorem hostWriteWord_cfg (a v : Nat) : (s.hostWriteWord a v).cfg = s.cfg := rfl
@[simp] theorem hostWriteWord_commits (a v : Nat) : (s.hostWriteWord a v).commits = s.commits := rfl
@[simp] theorem hostWriteWord_power (a v : Nat) : (s.hostWriteWord a v).power = s.power := rfl
@[simp] theorem hostWriteWord_hif (a v : Nat) : (s.hostWriteWord a v).hif = s.hif := rfl
@[simp] theorem hostWriteWord_chans (a v : Nat) : (s.hostWriteWord a v).chans = s.chans := rfl
@[simp] theorem hostWriteWord_cdc (a v : Nat) : (s.hostWriteWord a v).cdc = s.cdc := rfl
@[simp] theorem hostWriteWord_scans (a v : Nat) : (s.hostWriteWord a v).scans = s.scans := rfl
@[simp] theorem hostWriteWord_scanWait (a v : Nat) : (s.hostWriteWord a v).scanWait = s.scanWait := rfl
@[simp] theorem hostWriteWord_prs (a v : Nat) : (s.hostWriteWord a v).prs = s.prs := rfl
@[simp] theorem hostWriteWord_csm (a v : Nat) : (s.hostWriteWord a v).csm = s.csm := rfl
@[simp] theorem hostWriteWord_pec (a v : Nat) : (s.hostWriteWord a v).pec = s.pec := rfl
@[simp] theorem hostWriteWord_waiting (a v : Nat) : (s.hostWriteWord a v).waiting = s.waiting := rfl
@[simp] theorem hostWriteWord_stripe (a v : Nat) : (s.hostWriteWord a v).stripe = s.stripe := rfl
@[simp] theorem hostWriteWord_lastOutcome (a v : Nat) : (s.hostWriteWord a v).lastOutcome = s.lastOutcome := rfl
@[simp] theorem hostWriteWord_port (a v : Nat) : (s.hostWriteWord a v).port = s.port := rfl
@[simp] theorem hostWriteWord_shl (a v : Nat) : (s.hostWriteWord a v).shl = s.shl := rfl
@[simp] theorem hostWriteWord_nlk (a v : Nat) : (s.hostWriteWord a v).nlk = s.nlk := rfl
@[simp] theorem hostWriteWord_hmc (a v : Nat) : (s.hostWriteWord a v).hmc = s.hmc := rfl
@[simp] theorem hostWriteWord_cal (a v : Nat) : (s.hostWriteWord a v).cal = s.cal := rfl
@[simp] theorem hostWriteWord_bst (a v : Nat) : (s.hostWriteWord a v).bst = s.bst := rfl
@[simp] theorem hostWriteWord_pmu (a v : Nat) : (s.hostWriteWord a v).pmu = s.pmu := rfl

/-! ### `State.hostWrites` changes `host` -/

@[simp] theorem hostWrites_pending (hw : Cells) : (s.hostWrites hw).pending = s.pending := rfl
@[simp] theorem hostWrites_g (hw : Cells) : (s.hostWrites hw).g = s.g := rfl
@[simp] theorem hostWrites_phase (hw : Cells) : (s.hostWrites hw).phase = s.phase := rfl
@[simp] theorem hostWrites_quick (hw : Cells) : (s.hostWrites hw).quick = s.quick := rfl
@[simp] theorem hostWrites_fence (hw : Cells) : (s.hostWrites hw).fence = s.fence := rfl
@[simp] theorem hostWrites_aon (hw : Cells) : (s.hostWrites hw).aon = s.aon := rfl
@[simp] theorem hostWrites_regs (hw : Cells) : (s.hostWrites hw).regs = s.regs := rfl
@[simp] theorem hostWrites_live (hw : Cells) : (s.hostWrites hw).live = s.live := rfl
@[simp] theorem hostWrites_latches (hw : Cells) : (s.hostWrites hw).latches = s.latches := rfl
@[simp] theorem hostWrites_answer (hw : Cells) : (s.hostWrites hw).answer = s.answer := rfl
@[simp] theorem hostWrites_cc (hw : Cells) : (s.hostWrites hw).cc = s.cc := rfl
@[simp] theorem hostWrites_free (hw : Cells) : (s.hostWrites hw).free = s.free := rfl
@[simp] theorem hostWrites_hbm (hw : Cells) : (s.hostWrites hw).hbm = s.hbm := rfl
@[simp] theorem hostWrites_flash (hw : Cells) : (s.hostWrites hw).flash = s.flash := rfl
@[simp] theorem hostWrites_tabLive (hw : Cells) : (s.hostWrites hw).tabLive = s.tabLive := rfl
@[simp] theorem hostWrites_tabStaged (hw : Cells) : (s.hostWrites hw).tabStaged = s.tabStaged := rfl
@[simp] theorem hostWrites_prot (hw : Cells) : (s.hostWrites hw).prot = s.prot := rfl
@[simp] theorem hostWrites_cfg (hw : Cells) : (s.hostWrites hw).cfg = s.cfg := rfl
@[simp] theorem hostWrites_commits (hw : Cells) : (s.hostWrites hw).commits = s.commits := rfl
@[simp] theorem hostWrites_power (hw : Cells) : (s.hostWrites hw).power = s.power := rfl
@[simp] theorem hostWrites_hif (hw : Cells) : (s.hostWrites hw).hif = s.hif := rfl
@[simp] theorem hostWrites_chans (hw : Cells) : (s.hostWrites hw).chans = s.chans := rfl
@[simp] theorem hostWrites_cdc (hw : Cells) : (s.hostWrites hw).cdc = s.cdc := rfl
@[simp] theorem hostWrites_scans (hw : Cells) : (s.hostWrites hw).scans = s.scans := rfl
@[simp] theorem hostWrites_scanWait (hw : Cells) : (s.hostWrites hw).scanWait = s.scanWait := rfl
@[simp] theorem hostWrites_prs (hw : Cells) : (s.hostWrites hw).prs = s.prs := rfl
@[simp] theorem hostWrites_csm (hw : Cells) : (s.hostWrites hw).csm = s.csm := rfl
@[simp] theorem hostWrites_pec (hw : Cells) : (s.hostWrites hw).pec = s.pec := rfl
@[simp] theorem hostWrites_waiting (hw : Cells) : (s.hostWrites hw).waiting = s.waiting := rfl
@[simp] theorem hostWrites_stripe (hw : Cells) : (s.hostWrites hw).stripe = s.stripe := rfl
@[simp] theorem hostWrites_lastOutcome (hw : Cells) : (s.hostWrites hw).lastOutcome = s.lastOutcome := rfl
@[simp] theorem hostWrites_port (hw : Cells) : (s.hostWrites hw).port = s.port := rfl
@[simp] theorem hostWrites_shl (hw : Cells) : (s.hostWrites hw).shl = s.shl := rfl
@[simp] theorem hostWrites_nlk (hw : Cells) : (s.hostWrites hw).nlk = s.nlk := rfl
@[simp] theorem hostWrites_hmc (hw : Cells) : (s.hostWrites hw).hmc = s.hmc := rfl
@[simp] theorem hostWrites_cal (hw : Cells) : (s.hostWrites hw).cal = s.cal := rfl
@[simp] theorem hostWrites_bst (hw : Cells) : (s.hostWrites hw).bst = s.bst := rfl
@[simp] theorem hostWrites_pmu (hw : Cells) : (s.hostWrites hw).pmu = s.pmu := rfl

/-! ### `State.flashWrite` changes `flash` -/

@[simp] theorem flashWrite_pending (a : Nat) (bs : List Byte) : (s.flashWrite a bs).pending = s.pending := rfl
@[simp] theorem flashWrite_g (a : Nat) (bs : List Byte) : (s.flashWrite a bs).g = s.g := rfl
@[simp] theorem flashWrite_phase (a : Nat) (bs : List Byte) : (s.flashWrite a bs).phase = s.phase := rfl
@[simp] theorem flashWrite_quick (a : Nat) (bs : List Byte) : (s.flashWrite a bs).quick = s.quick := rfl
@[simp] theorem flashWrite_fence (a : Nat) (bs : List Byte) : (s.flashWrite a bs).fence = s.fence := rfl
@[simp] theorem flashWrite_aon (a : Nat) (bs : List Byte) : (s.flashWrite a bs).aon = s.aon := rfl
@[simp] theorem flashWrite_regs (a : Nat) (bs : List Byte) : (s.flashWrite a bs).regs = s.regs := rfl
@[simp] theorem flashWrite_live (a : Nat) (bs : List Byte) : (s.flashWrite a bs).live = s.live := rfl
@[simp] theorem flashWrite_latches (a : Nat) (bs : List Byte) : (s.flashWrite a bs).latches = s.latches := rfl
@[simp] theorem flashWrite_answer (a : Nat) (bs : List Byte) : (s.flashWrite a bs).answer = s.answer := rfl
@[simp] theorem flashWrite_cc (a : Nat) (bs : List Byte) : (s.flashWrite a bs).cc = s.cc := rfl
@[simp] theorem flashWrite_free (a : Nat) (bs : List Byte) : (s.flashWrite a bs).free = s.free := rfl
@[simp] theorem flashWrite_host (a : Nat) (bs : List Byte) : (s.flashWrite a bs).host = s.host := rfl
@[simp] theorem flashWrite_hbm (a : Nat) (bs : List Byte) : (s.flashWrite a bs).hbm = s.hbm := rfl
@[simp] theorem flashWrite_tabLive (a : Nat) (bs : List Byte) : (s.flashWrite a bs).tabLive = s.tabLive := rfl
@[simp] theorem flashWrite_tabStaged (a : Nat) (bs : List Byte) : (s.flashWrite a bs).tabStaged = s.tabStaged := rfl
@[simp] theorem flashWrite_prot (a : Nat) (bs : List Byte) : (s.flashWrite a bs).prot = s.prot := rfl
@[simp] theorem flashWrite_cfg (a : Nat) (bs : List Byte) : (s.flashWrite a bs).cfg = s.cfg := rfl
@[simp] theorem flashWrite_commits (a : Nat) (bs : List Byte) : (s.flashWrite a bs).commits = s.commits := rfl
@[simp] theorem flashWrite_power (a : Nat) (bs : List Byte) : (s.flashWrite a bs).power = s.power := rfl
@[simp] theorem flashWrite_hif (a : Nat) (bs : List Byte) : (s.flashWrite a bs).hif = s.hif := rfl
@[simp] theorem flashWrite_chans (a : Nat) (bs : List Byte) : (s.flashWrite a bs).chans = s.chans := rfl
@[simp] theorem flashWrite_cdc (a : Nat) (bs : List Byte) : (s.flashWrite a bs).cdc = s.cdc := rfl
@[simp] theorem flashWrite_scans (a : Nat) (bs : List Byte) : (s.flashWrite a bs).scans = s.scans := rfl
@[simp] theorem flashWrite_scanWait (a : Nat) (bs : List Byte) : (s.flashWrite a bs).scanWait = s.scanWait := rfl
@[simp] theorem flashWrite_prs (a : Nat) (bs : List Byte) : (s.flashWrite a bs).prs = s.prs := rfl
@[simp] theorem flashWrite_csm (a : Nat) (bs : List Byte) : (s.flashWrite a bs).csm = s.csm := rfl
@[simp] theorem flashWrite_pec (a : Nat) (bs : List Byte) : (s.flashWrite a bs).pec = s.pec := rfl
@[simp] theorem flashWrite_waiting (a : Nat) (bs : List Byte) : (s.flashWrite a bs).waiting = s.waiting := rfl
@[simp] theorem flashWrite_stripe (a : Nat) (bs : List Byte) : (s.flashWrite a bs).stripe = s.stripe := rfl
@[simp] theorem flashWrite_lastOutcome (a : Nat) (bs : List Byte) : (s.flashWrite a bs).lastOutcome = s.lastOutcome := rfl
@[simp] theorem flashWrite_port (a : Nat) (bs : List Byte) : (s.flashWrite a bs).port = s.port := rfl
@[simp] theorem flashWrite_shl (a : Nat) (bs : List Byte) : (s.flashWrite a bs).shl = s.shl := rfl
@[simp] theorem flashWrite_nlk (a : Nat) (bs : List Byte) : (s.flashWrite a bs).nlk = s.nlk := rfl
@[simp] theorem flashWrite_hmc (a : Nat) (bs : List Byte) : (s.flashWrite a bs).hmc = s.hmc := rfl
@[simp] theorem flashWrite_cal (a : Nat) (bs : List Byte) : (s.flashWrite a bs).cal = s.cal := rfl
@[simp] theorem flashWrite_bst (a : Nat) (bs : List Byte) : (s.flashWrite a bs).bst = s.bst := rfl
@[simp] theorem flashWrite_pmu (a : Nat) (bs : List Byte) : (s.flashWrite a bs).pmu = s.pmu := rfl

/-! ### `State.flashErase` changes `flash` -/

@[simp] theorem flashErase_pending (k : Nat) : (s.flashErase k).pending = s.pending := rfl
@[simp] theorem flashErase_g (k : Nat) : (s.flashErase k).g = s.g := rfl
@[simp] theorem flashErase_phase (k : Nat) : (s.flashErase k).phase = s.phase := rfl
@[simp] theorem flashErase_quick (k : Nat) : (s.flashErase k).quick = s.quick := rfl
@[simp] theorem flashErase_fence (k : Nat) : (s.flashErase k).fence = s.fence := rfl
@[simp] theorem flashErase_aon (k : Nat) : (s.flashErase k).aon = s.aon := rfl
@[simp] theorem flashErase_regs (k : Nat) : (s.flashErase k).regs = s.regs := rfl
@[simp] theorem flashErase_live (k : Nat) : (s.flashErase k).live = s.live := rfl
@[simp] theorem flashErase_latches (k : Nat) : (s.flashErase k).latches = s.latches := rfl
@[simp] theorem flashErase_answer (k : Nat) : (s.flashErase k).answer = s.answer := rfl
@[simp] theorem flashErase_cc (k : Nat) : (s.flashErase k).cc = s.cc := rfl
@[simp] theorem flashErase_free (k : Nat) : (s.flashErase k).free = s.free := rfl
@[simp] theorem flashErase_host (k : Nat) : (s.flashErase k).host = s.host := rfl
@[simp] theorem flashErase_hbm (k : Nat) : (s.flashErase k).hbm = s.hbm := rfl
@[simp] theorem flashErase_tabLive (k : Nat) : (s.flashErase k).tabLive = s.tabLive := rfl
@[simp] theorem flashErase_tabStaged (k : Nat) : (s.flashErase k).tabStaged = s.tabStaged := rfl
@[simp] theorem flashErase_prot (k : Nat) : (s.flashErase k).prot = s.prot := rfl
@[simp] theorem flashErase_cfg (k : Nat) : (s.flashErase k).cfg = s.cfg := rfl
@[simp] theorem flashErase_commits (k : Nat) : (s.flashErase k).commits = s.commits := rfl
@[simp] theorem flashErase_power (k : Nat) : (s.flashErase k).power = s.power := rfl
@[simp] theorem flashErase_hif (k : Nat) : (s.flashErase k).hif = s.hif := rfl
@[simp] theorem flashErase_chans (k : Nat) : (s.flashErase k).chans = s.chans := rfl
@[simp] theorem flashErase_cdc (k : Nat) : (s.flashErase k).cdc = s.cdc := rfl
@[simp] theorem flashErase_scans (k : Nat) : (s.flashErase k).scans = s.scans := rfl
@[simp] theorem flashErase_scanWait (k : Nat) : (s.flashErase k).scanWait = s.scanWait := rfl
@[simp] theorem flashErase_prs (k : Nat) : (s.flashErase k).prs = s.prs := rfl
@[simp] theorem flashErase_csm (k : Nat) : (s.flashErase k).csm = s.csm := rfl
@[simp] theorem flashErase_pec (k : Nat) : (s.flashErase k).pec = s.pec := rfl
@[simp] theorem flashErase_waiting (k : Nat) : (s.flashErase k).waiting = s.waiting := rfl
@[simp] theorem flashErase_stripe (k : Nat) : (s.flashErase k).stripe = s.stripe := rfl
@[simp] theorem flashErase_lastOutcome (k : Nat) : (s.flashErase k).lastOutcome = s.lastOutcome := rfl
@[simp] theorem flashErase_port (k : Nat) : (s.flashErase k).port = s.port := rfl
@[simp] theorem flashErase_shl (k : Nat) : (s.flashErase k).shl = s.shl := rfl
@[simp] theorem flashErase_nlk (k : Nat) : (s.flashErase k).nlk = s.nlk := rfl
@[simp] theorem flashErase_hmc (k : Nat) : (s.flashErase k).hmc = s.hmc := rfl
@[simp] theorem flashErase_cal (k : Nat) : (s.flashErase k).cal = s.cal := rfl
@[simp] theorem flashErase_bst (k : Nat) : (s.flashErase k).bst = s.bst := rfl
@[simp] theorem flashErase_pmu (k : Nat) : (s.flashErase k).pmu = s.pmu := rfl

/-! ### `State.setPwr` changes `power` -/

@[simp] theorem setPwr_pending (k : Nat) (p : PwrState) : (s.setPwr k p).pending = s.pending := rfl
@[simp] theorem setPwr_g (k : Nat) (p : PwrState) : (s.setPwr k p).g = s.g := rfl
@[simp] theorem setPwr_phase (k : Nat) (p : PwrState) : (s.setPwr k p).phase = s.phase := rfl
@[simp] theorem setPwr_quick (k : Nat) (p : PwrState) : (s.setPwr k p).quick = s.quick := rfl
@[simp] theorem setPwr_fence (k : Nat) (p : PwrState) : (s.setPwr k p).fence = s.fence := rfl
@[simp] theorem setPwr_aon (k : Nat) (p : PwrState) : (s.setPwr k p).aon = s.aon := rfl
@[simp] theorem setPwr_regs (k : Nat) (p : PwrState) : (s.setPwr k p).regs = s.regs := rfl
@[simp] theorem setPwr_live (k : Nat) (p : PwrState) : (s.setPwr k p).live = s.live := rfl
@[simp] theorem setPwr_latches (k : Nat) (p : PwrState) : (s.setPwr k p).latches = s.latches := rfl
@[simp] theorem setPwr_answer (k : Nat) (p : PwrState) : (s.setPwr k p).answer = s.answer := rfl
@[simp] theorem setPwr_cc (k : Nat) (p : PwrState) : (s.setPwr k p).cc = s.cc := rfl
@[simp] theorem setPwr_free (k : Nat) (p : PwrState) : (s.setPwr k p).free = s.free := rfl
@[simp] theorem setPwr_host (k : Nat) (p : PwrState) : (s.setPwr k p).host = s.host := rfl
@[simp] theorem setPwr_hbm (k : Nat) (p : PwrState) : (s.setPwr k p).hbm = s.hbm := rfl
@[simp] theorem setPwr_flash (k : Nat) (p : PwrState) : (s.setPwr k p).flash = s.flash := rfl
@[simp] theorem setPwr_tabLive (k : Nat) (p : PwrState) : (s.setPwr k p).tabLive = s.tabLive := rfl
@[simp] theorem setPwr_tabStaged (k : Nat) (p : PwrState) : (s.setPwr k p).tabStaged = s.tabStaged := rfl
@[simp] theorem setPwr_prot (k : Nat) (p : PwrState) : (s.setPwr k p).prot = s.prot := rfl
@[simp] theorem setPwr_cfg (k : Nat) (p : PwrState) : (s.setPwr k p).cfg = s.cfg := rfl
@[simp] theorem setPwr_commits (k : Nat) (p : PwrState) : (s.setPwr k p).commits = s.commits := rfl
@[simp] theorem setPwr_hif (k : Nat) (p : PwrState) : (s.setPwr k p).hif = s.hif := rfl
@[simp] theorem setPwr_chans (k : Nat) (p : PwrState) : (s.setPwr k p).chans = s.chans := rfl
@[simp] theorem setPwr_cdc (k : Nat) (p : PwrState) : (s.setPwr k p).cdc = s.cdc := rfl
@[simp] theorem setPwr_scans (k : Nat) (p : PwrState) : (s.setPwr k p).scans = s.scans := rfl
@[simp] theorem setPwr_scanWait (k : Nat) (p : PwrState) : (s.setPwr k p).scanWait = s.scanWait := rfl
@[simp] theorem setPwr_prs (k : Nat) (p : PwrState) : (s.setPwr k p).prs = s.prs := rfl
@[simp] theorem setPwr_csm (k : Nat) (p : PwrState) : (s.setPwr k p).csm = s.csm := rfl
@[simp] theorem setPwr_pec (k : Nat) (p : PwrState) : (s.setPwr k p).pec = s.pec := rfl
@[simp] theorem setPwr_waiting (k : Nat) (p : PwrState) : (s.setPwr k p).waiting = s.waiting := rfl
@[simp] theorem setPwr_stripe (k : Nat) (p : PwrState) : (s.setPwr k p).stripe = s.stripe := rfl
@[simp] theorem setPwr_lastOutcome (k : Nat) (p : PwrState) : (s.setPwr k p).lastOutcome = s.lastOutcome := rfl
@[simp] theorem setPwr_port (k : Nat) (p : PwrState) : (s.setPwr k p).port = s.port := rfl
@[simp] theorem setPwr_shl (k : Nat) (p : PwrState) : (s.setPwr k p).shl = s.shl := rfl
@[simp] theorem setPwr_nlk (k : Nat) (p : PwrState) : (s.setPwr k p).nlk = s.nlk := rfl
@[simp] theorem setPwr_hmc (k : Nat) (p : PwrState) : (s.setPwr k p).hmc = s.hmc := rfl
@[simp] theorem setPwr_cal (k : Nat) (p : PwrState) : (s.setPwr k p).cal = s.cal := rfl
@[simp] theorem setPwr_bst (k : Nat) (p : PwrState) : (s.setPwr k p).bst = s.bst := rfl
@[simp] theorem setPwr_pmu (k : Nat) (p : PwrState) : (s.setPwr k p).pmu = s.pmu := rfl

/-! ### `State.setFeed` changes `cdc` -/

@[simp] theorem setFeed_pending (f : Feed) : (s.setFeed f).pending = s.pending := rfl
@[simp] theorem setFeed_g (f : Feed) : (s.setFeed f).g = s.g := rfl
@[simp] theorem setFeed_phase (f : Feed) : (s.setFeed f).phase = s.phase := rfl
@[simp] theorem setFeed_quick (f : Feed) : (s.setFeed f).quick = s.quick := rfl
@[simp] theorem setFeed_fence (f : Feed) : (s.setFeed f).fence = s.fence := rfl
@[simp] theorem setFeed_aon (f : Feed) : (s.setFeed f).aon = s.aon := rfl
@[simp] theorem setFeed_regs (f : Feed) : (s.setFeed f).regs = s.regs := rfl
@[simp] theorem setFeed_live (f : Feed) : (s.setFeed f).live = s.live := rfl
@[simp] theorem setFeed_latches (f : Feed) : (s.setFeed f).latches = s.latches := rfl
@[simp] theorem setFeed_answer (f : Feed) : (s.setFeed f).answer = s.answer := rfl
@[simp] theorem setFeed_cc (f : Feed) : (s.setFeed f).cc = s.cc := rfl
@[simp] theorem setFeed_free (f : Feed) : (s.setFeed f).free = s.free := rfl
@[simp] theorem setFeed_host (f : Feed) : (s.setFeed f).host = s.host := rfl
@[simp] theorem setFeed_hbm (f : Feed) : (s.setFeed f).hbm = s.hbm := rfl
@[simp] theorem setFeed_flash (f : Feed) : (s.setFeed f).flash = s.flash := rfl
@[simp] theorem setFeed_tabLive (f : Feed) : (s.setFeed f).tabLive = s.tabLive := rfl
@[simp] theorem setFeed_tabStaged (f : Feed) : (s.setFeed f).tabStaged = s.tabStaged := rfl
@[simp] theorem setFeed_prot (f : Feed) : (s.setFeed f).prot = s.prot := rfl
@[simp] theorem setFeed_cfg (f : Feed) : (s.setFeed f).cfg = s.cfg := rfl
@[simp] theorem setFeed_commits (f : Feed) : (s.setFeed f).commits = s.commits := rfl
@[simp] theorem setFeed_power (f : Feed) : (s.setFeed f).power = s.power := rfl
@[simp] theorem setFeed_hif (f : Feed) : (s.setFeed f).hif = s.hif := rfl
@[simp] theorem setFeed_chans (f : Feed) : (s.setFeed f).chans = s.chans := rfl
@[simp] theorem setFeed_scans (f : Feed) : (s.setFeed f).scans = s.scans := rfl
@[simp] theorem setFeed_scanWait (f : Feed) : (s.setFeed f).scanWait = s.scanWait := rfl
@[simp] theorem setFeed_prs (f : Feed) : (s.setFeed f).prs = s.prs := rfl
@[simp] theorem setFeed_csm (f : Feed) : (s.setFeed f).csm = s.csm := rfl
@[simp] theorem setFeed_pec (f : Feed) : (s.setFeed f).pec = s.pec := rfl
@[simp] theorem setFeed_waiting (f : Feed) : (s.setFeed f).waiting = s.waiting := rfl
@[simp] theorem setFeed_stripe (f : Feed) : (s.setFeed f).stripe = s.stripe := rfl
@[simp] theorem setFeed_lastOutcome (f : Feed) : (s.setFeed f).lastOutcome = s.lastOutcome := rfl
@[simp] theorem setFeed_port (f : Feed) : (s.setFeed f).port = s.port := rfl
@[simp] theorem setFeed_shl (f : Feed) : (s.setFeed f).shl = s.shl := rfl
@[simp] theorem setFeed_nlk (f : Feed) : (s.setFeed f).nlk = s.nlk := rfl
@[simp] theorem setFeed_hmc (f : Feed) : (s.setFeed f).hmc = s.hmc := rfl
@[simp] theorem setFeed_cal (f : Feed) : (s.setFeed f).cal = s.cal := rfl
@[simp] theorem setFeed_bst (f : Feed) : (s.setFeed f).bst = s.bst := rfl
@[simp] theorem setFeed_pmu (f : Feed) : (s.setFeed f).pmu = s.pmu := rfl

/-! ### `State.setJob` changes `cdc` -/

@[simp] theorem setJob_pending (k : Nat) (j : Option CodecJob) : (s.setJob k j).pending = s.pending := rfl
@[simp] theorem setJob_g (k : Nat) (j : Option CodecJob) : (s.setJob k j).g = s.g := rfl
@[simp] theorem setJob_phase (k : Nat) (j : Option CodecJob) : (s.setJob k j).phase = s.phase := rfl
@[simp] theorem setJob_quick (k : Nat) (j : Option CodecJob) : (s.setJob k j).quick = s.quick := rfl
@[simp] theorem setJob_fence (k : Nat) (j : Option CodecJob) : (s.setJob k j).fence = s.fence := rfl
@[simp] theorem setJob_aon (k : Nat) (j : Option CodecJob) : (s.setJob k j).aon = s.aon := rfl
@[simp] theorem setJob_regs (k : Nat) (j : Option CodecJob) : (s.setJob k j).regs = s.regs := rfl
@[simp] theorem setJob_live (k : Nat) (j : Option CodecJob) : (s.setJob k j).live = s.live := rfl
@[simp] theorem setJob_latches (k : Nat) (j : Option CodecJob) : (s.setJob k j).latches = s.latches := rfl
@[simp] theorem setJob_answer (k : Nat) (j : Option CodecJob) : (s.setJob k j).answer = s.answer := rfl
@[simp] theorem setJob_cc (k : Nat) (j : Option CodecJob) : (s.setJob k j).cc = s.cc := rfl
@[simp] theorem setJob_free (k : Nat) (j : Option CodecJob) : (s.setJob k j).free = s.free := rfl
@[simp] theorem setJob_host (k : Nat) (j : Option CodecJob) : (s.setJob k j).host = s.host := rfl
@[simp] theorem setJob_hbm (k : Nat) (j : Option CodecJob) : (s.setJob k j).hbm = s.hbm := rfl
@[simp] theorem setJob_flash (k : Nat) (j : Option CodecJob) : (s.setJob k j).flash = s.flash := rfl
@[simp] theorem setJob_tabLive (k : Nat) (j : Option CodecJob) : (s.setJob k j).tabLive = s.tabLive := rfl
@[simp] theorem setJob_tabStaged (k : Nat) (j : Option CodecJob) : (s.setJob k j).tabStaged = s.tabStaged := rfl
@[simp] theorem setJob_prot (k : Nat) (j : Option CodecJob) : (s.setJob k j).prot = s.prot := rfl
@[simp] theorem setJob_cfg (k : Nat) (j : Option CodecJob) : (s.setJob k j).cfg = s.cfg := rfl
@[simp] theorem setJob_commits (k : Nat) (j : Option CodecJob) : (s.setJob k j).commits = s.commits := rfl
@[simp] theorem setJob_power (k : Nat) (j : Option CodecJob) : (s.setJob k j).power = s.power := rfl
@[simp] theorem setJob_hif (k : Nat) (j : Option CodecJob) : (s.setJob k j).hif = s.hif := rfl
@[simp] theorem setJob_chans (k : Nat) (j : Option CodecJob) : (s.setJob k j).chans = s.chans := rfl
@[simp] theorem setJob_scans (k : Nat) (j : Option CodecJob) : (s.setJob k j).scans = s.scans := rfl
@[simp] theorem setJob_scanWait (k : Nat) (j : Option CodecJob) : (s.setJob k j).scanWait = s.scanWait := rfl
@[simp] theorem setJob_prs (k : Nat) (j : Option CodecJob) : (s.setJob k j).prs = s.prs := rfl
@[simp] theorem setJob_csm (k : Nat) (j : Option CodecJob) : (s.setJob k j).csm = s.csm := rfl
@[simp] theorem setJob_pec (k : Nat) (j : Option CodecJob) : (s.setJob k j).pec = s.pec := rfl
@[simp] theorem setJob_waiting (k : Nat) (j : Option CodecJob) : (s.setJob k j).waiting = s.waiting := rfl
@[simp] theorem setJob_stripe (k : Nat) (j : Option CodecJob) : (s.setJob k j).stripe = s.stripe := rfl
@[simp] theorem setJob_lastOutcome (k : Nat) (j : Option CodecJob) : (s.setJob k j).lastOutcome = s.lastOutcome := rfl
@[simp] theorem setJob_port (k : Nat) (j : Option CodecJob) : (s.setJob k j).port = s.port := rfl
@[simp] theorem setJob_shl (k : Nat) (j : Option CodecJob) : (s.setJob k j).shl = s.shl := rfl
@[simp] theorem setJob_nlk (k : Nat) (j : Option CodecJob) : (s.setJob k j).nlk = s.nlk := rfl
@[simp] theorem setJob_hmc (k : Nat) (j : Option CodecJob) : (s.setJob k j).hmc = s.hmc := rfl
@[simp] theorem setJob_cal (k : Nat) (j : Option CodecJob) : (s.setJob k j).cal = s.cal := rfl
@[simp] theorem setJob_bst (k : Nat) (j : Option CodecJob) : (s.setJob k j).bst = s.bst := rfl
@[simp] theorem setJob_pmu (k : Nat) (j : Option CodecJob) : (s.setJob k j).pmu = s.pmu := rfl

/-! ### `State.smbAnswer` changes `prot` -/

@[simp] theorem smbAnswer_pending (bs : List Byte) : (s.smbAnswer bs).pending = s.pending := rfl
@[simp] theorem smbAnswer_g (bs : List Byte) : (s.smbAnswer bs).g = s.g := rfl
@[simp] theorem smbAnswer_phase (bs : List Byte) : (s.smbAnswer bs).phase = s.phase := rfl
@[simp] theorem smbAnswer_quick (bs : List Byte) : (s.smbAnswer bs).quick = s.quick := rfl
@[simp] theorem smbAnswer_fence (bs : List Byte) : (s.smbAnswer bs).fence = s.fence := rfl
@[simp] theorem smbAnswer_aon (bs : List Byte) : (s.smbAnswer bs).aon = s.aon := rfl
@[simp] theorem smbAnswer_regs (bs : List Byte) : (s.smbAnswer bs).regs = s.regs := rfl
@[simp] theorem smbAnswer_live (bs : List Byte) : (s.smbAnswer bs).live = s.live := rfl
@[simp] theorem smbAnswer_latches (bs : List Byte) : (s.smbAnswer bs).latches = s.latches := rfl
@[simp] theorem smbAnswer_answer (bs : List Byte) : (s.smbAnswer bs).answer = s.answer := rfl
@[simp] theorem smbAnswer_cc (bs : List Byte) : (s.smbAnswer bs).cc = s.cc := rfl
@[simp] theorem smbAnswer_free (bs : List Byte) : (s.smbAnswer bs).free = s.free := rfl
@[simp] theorem smbAnswer_host (bs : List Byte) : (s.smbAnswer bs).host = s.host := rfl
@[simp] theorem smbAnswer_hbm (bs : List Byte) : (s.smbAnswer bs).hbm = s.hbm := rfl
@[simp] theorem smbAnswer_flash (bs : List Byte) : (s.smbAnswer bs).flash = s.flash := rfl
@[simp] theorem smbAnswer_tabLive (bs : List Byte) : (s.smbAnswer bs).tabLive = s.tabLive := rfl
@[simp] theorem smbAnswer_tabStaged (bs : List Byte) : (s.smbAnswer bs).tabStaged = s.tabStaged := rfl
@[simp] theorem smbAnswer_commits (bs : List Byte) : (s.smbAnswer bs).commits = s.commits := rfl
@[simp] theorem smbAnswer_power (bs : List Byte) : (s.smbAnswer bs).power = s.power := rfl
@[simp] theorem smbAnswer_hif (bs : List Byte) : (s.smbAnswer bs).hif = s.hif := rfl
@[simp] theorem smbAnswer_chans (bs : List Byte) : (s.smbAnswer bs).chans = s.chans := rfl
@[simp] theorem smbAnswer_cdc (bs : List Byte) : (s.smbAnswer bs).cdc = s.cdc := rfl
@[simp] theorem smbAnswer_scans (bs : List Byte) : (s.smbAnswer bs).scans = s.scans := rfl
@[simp] theorem smbAnswer_scanWait (bs : List Byte) : (s.smbAnswer bs).scanWait = s.scanWait := rfl
@[simp] theorem smbAnswer_prs (bs : List Byte) : (s.smbAnswer bs).prs = s.prs := rfl
@[simp] theorem smbAnswer_csm (bs : List Byte) : (s.smbAnswer bs).csm = s.csm := rfl
@[simp] theorem smbAnswer_pec (bs : List Byte) : (s.smbAnswer bs).pec = s.pec := rfl
@[simp] theorem smbAnswer_waiting (bs : List Byte) : (s.smbAnswer bs).waiting = s.waiting := rfl
@[simp] theorem smbAnswer_stripe (bs : List Byte) : (s.smbAnswer bs).stripe = s.stripe := rfl
@[simp] theorem smbAnswer_lastOutcome (bs : List Byte) : (s.smbAnswer bs).lastOutcome = s.lastOutcome := rfl
@[simp] theorem smbAnswer_port (bs : List Byte) : (s.smbAnswer bs).port = s.port := rfl
@[simp] theorem smbAnswer_shl (bs : List Byte) : (s.smbAnswer bs).shl = s.shl := rfl
@[simp] theorem smbAnswer_nlk (bs : List Byte) : (s.smbAnswer bs).nlk = s.nlk := rfl
@[simp] theorem smbAnswer_hmc (bs : List Byte) : (s.smbAnswer bs).hmc = s.hmc := rfl
@[simp] theorem smbAnswer_cal (bs : List Byte) : (s.smbAnswer bs).cal = s.cal := rfl
@[simp] theorem smbAnswer_bst (bs : List Byte) : (s.smbAnswer bs).bst = s.bst := rfl
@[simp] theorem smbAnswer_pmu (bs : List Byte) : (s.smbAnswer bs).pmu = s.pmu := rfl

/-! ### `State.unprove` changes `shl` -/

@[simp] theorem unprove_pending : (s.unprove).pending = s.pending := rfl
@[simp] theorem unprove_g : (s.unprove).g = s.g := rfl
@[simp] theorem unprove_phase : (s.unprove).phase = s.phase := rfl
@[simp] theorem unprove_quick : (s.unprove).quick = s.quick := rfl
@[simp] theorem unprove_fence : (s.unprove).fence = s.fence := rfl
@[simp] theorem unprove_aon : (s.unprove).aon = s.aon := rfl
@[simp] theorem unprove_regs : (s.unprove).regs = s.regs := rfl
@[simp] theorem unprove_live : (s.unprove).live = s.live := rfl
@[simp] theorem unprove_latches : (s.unprove).latches = s.latches := rfl
@[simp] theorem unprove_answer : (s.unprove).answer = s.answer := rfl
@[simp] theorem unprove_cc : (s.unprove).cc = s.cc := rfl
@[simp] theorem unprove_free : (s.unprove).free = s.free := rfl
@[simp] theorem unprove_host : (s.unprove).host = s.host := rfl
@[simp] theorem unprove_hbm : (s.unprove).hbm = s.hbm := rfl
@[simp] theorem unprove_flash : (s.unprove).flash = s.flash := rfl
@[simp] theorem unprove_tabLive : (s.unprove).tabLive = s.tabLive := rfl
@[simp] theorem unprove_tabStaged : (s.unprove).tabStaged = s.tabStaged := rfl
@[simp] theorem unprove_prot : (s.unprove).prot = s.prot := rfl
@[simp] theorem unprove_cfg : (s.unprove).cfg = s.cfg := rfl
@[simp] theorem unprove_commits : (s.unprove).commits = s.commits := rfl
@[simp] theorem unprove_power : (s.unprove).power = s.power := rfl
@[simp] theorem unprove_hif : (s.unprove).hif = s.hif := rfl
@[simp] theorem unprove_chans : (s.unprove).chans = s.chans := rfl
@[simp] theorem unprove_cdc : (s.unprove).cdc = s.cdc := rfl
@[simp] theorem unprove_scans : (s.unprove).scans = s.scans := rfl
@[simp] theorem unprove_scanWait : (s.unprove).scanWait = s.scanWait := rfl
@[simp] theorem unprove_prs : (s.unprove).prs = s.prs := rfl
@[simp] theorem unprove_csm : (s.unprove).csm = s.csm := rfl
@[simp] theorem unprove_pec : (s.unprove).pec = s.pec := rfl
@[simp] theorem unprove_waiting : (s.unprove).waiting = s.waiting := rfl
@[simp] theorem unprove_stripe : (s.unprove).stripe = s.stripe := rfl
@[simp] theorem unprove_lastOutcome : (s.unprove).lastOutcome = s.lastOutcome := rfl
@[simp] theorem unprove_port : (s.unprove).port = s.port := rfl
@[simp] theorem unprove_nlk : (s.unprove).nlk = s.nlk := rfl
@[simp] theorem unprove_hmc : (s.unprove).hmc = s.hmc := rfl
@[simp] theorem unprove_cal : (s.unprove).cal = s.cal := rfl
@[simp] theorem unprove_bst : (s.unprove).bst = s.bst := rfl
@[simp] theorem unprove_pmu : (s.unprove).pmu = s.pmu := rfl

/-! ### `State.liftFence` changes `fence`, `nlk` -/

@[simp] theorem liftFence_pending : (s.liftFence).pending = s.pending := rfl
@[simp] theorem liftFence_g : (s.liftFence).g = s.g := rfl
@[simp] theorem liftFence_phase : (s.liftFence).phase = s.phase := rfl
@[simp] theorem liftFence_quick : (s.liftFence).quick = s.quick := rfl
@[simp] theorem liftFence_aon : (s.liftFence).aon = s.aon := rfl
@[simp] theorem liftFence_regs : (s.liftFence).regs = s.regs := rfl
@[simp] theorem liftFence_live : (s.liftFence).live = s.live := rfl
@[simp] theorem liftFence_latches : (s.liftFence).latches = s.latches := rfl
@[simp] theorem liftFence_answer : (s.liftFence).answer = s.answer := rfl
@[simp] theorem liftFence_cc : (s.liftFence).cc = s.cc := rfl
@[simp] theorem liftFence_free : (s.liftFence).free = s.free := rfl
@[simp] theorem liftFence_host : (s.liftFence).host = s.host := rfl
@[simp] theorem liftFence_hbm : (s.liftFence).hbm = s.hbm := rfl
@[simp] theorem liftFence_flash : (s.liftFence).flash = s.flash := rfl
@[simp] theorem liftFence_tabLive : (s.liftFence).tabLive = s.tabLive := rfl
@[simp] theorem liftFence_tabStaged : (s.liftFence).tabStaged = s.tabStaged := rfl
@[simp] theorem liftFence_prot : (s.liftFence).prot = s.prot := rfl
@[simp] theorem liftFence_cfg : (s.liftFence).cfg = s.cfg := rfl
@[simp] theorem liftFence_commits : (s.liftFence).commits = s.commits := rfl
@[simp] theorem liftFence_power : (s.liftFence).power = s.power := rfl
@[simp] theorem liftFence_hif : (s.liftFence).hif = s.hif := rfl
@[simp] theorem liftFence_chans : (s.liftFence).chans = s.chans := rfl
@[simp] theorem liftFence_cdc : (s.liftFence).cdc = s.cdc := rfl
@[simp] theorem liftFence_scans : (s.liftFence).scans = s.scans := rfl
@[simp] theorem liftFence_scanWait : (s.liftFence).scanWait = s.scanWait := rfl
@[simp] theorem liftFence_prs : (s.liftFence).prs = s.prs := rfl
@[simp] theorem liftFence_csm : (s.liftFence).csm = s.csm := rfl
@[simp] theorem liftFence_pec : (s.liftFence).pec = s.pec := rfl
@[simp] theorem liftFence_waiting : (s.liftFence).waiting = s.waiting := rfl
@[simp] theorem liftFence_stripe : (s.liftFence).stripe = s.stripe := rfl
@[simp] theorem liftFence_lastOutcome : (s.liftFence).lastOutcome = s.lastOutcome := rfl
@[simp] theorem liftFence_port : (s.liftFence).port = s.port := rfl
@[simp] theorem liftFence_shl : (s.liftFence).shl = s.shl := rfl
@[simp] theorem liftFence_hmc : (s.liftFence).hmc = s.hmc := rfl
@[simp] theorem liftFence_cal : (s.liftFence).cal = s.cal := rfl
@[simp] theorem liftFence_bst : (s.liftFence).bst = s.bst := rfl
@[simp] theorem liftFence_pmu : (s.liftFence).pmu = s.pmu := rfl

/-! ### `State.forgetPair` changes `nlk` -/

@[simp] theorem forgetPair_pending : (s.forgetPair).pending = s.pending := rfl
@[simp] theorem forgetPair_g : (s.forgetPair).g = s.g := rfl
@[simp] theorem forgetPair_phase : (s.forgetPair).phase = s.phase := rfl
@[simp] theorem forgetPair_quick : (s.forgetPair).quick = s.quick := rfl
@[simp] theorem forgetPair_fence : (s.forgetPair).fence = s.fence := rfl
@[simp] theorem forgetPair_aon : (s.forgetPair).aon = s.aon := rfl
@[simp] theorem forgetPair_regs : (s.forgetPair).regs = s.regs := rfl
@[simp] theorem forgetPair_live : (s.forgetPair).live = s.live := rfl
@[simp] theorem forgetPair_latches : (s.forgetPair).latches = s.latches := rfl
@[simp] theorem forgetPair_answer : (s.forgetPair).answer = s.answer := rfl
@[simp] theorem forgetPair_cc : (s.forgetPair).cc = s.cc := rfl
@[simp] theorem forgetPair_free : (s.forgetPair).free = s.free := rfl
@[simp] theorem forgetPair_host : (s.forgetPair).host = s.host := rfl
@[simp] theorem forgetPair_hbm : (s.forgetPair).hbm = s.hbm := rfl
@[simp] theorem forgetPair_flash : (s.forgetPair).flash = s.flash := rfl
@[simp] theorem forgetPair_tabLive : (s.forgetPair).tabLive = s.tabLive := rfl
@[simp] theorem forgetPair_tabStaged : (s.forgetPair).tabStaged = s.tabStaged := rfl
@[simp] theorem forgetPair_prot : (s.forgetPair).prot = s.prot := rfl
@[simp] theorem forgetPair_cfg : (s.forgetPair).cfg = s.cfg := rfl
@[simp] theorem forgetPair_commits : (s.forgetPair).commits = s.commits := rfl
@[simp] theorem forgetPair_power : (s.forgetPair).power = s.power := rfl
@[simp] theorem forgetPair_hif : (s.forgetPair).hif = s.hif := rfl
@[simp] theorem forgetPair_chans : (s.forgetPair).chans = s.chans := rfl
@[simp] theorem forgetPair_cdc : (s.forgetPair).cdc = s.cdc := rfl
@[simp] theorem forgetPair_scans : (s.forgetPair).scans = s.scans := rfl
@[simp] theorem forgetPair_scanWait : (s.forgetPair).scanWait = s.scanWait := rfl
@[simp] theorem forgetPair_prs : (s.forgetPair).prs = s.prs := rfl
@[simp] theorem forgetPair_csm : (s.forgetPair).csm = s.csm := rfl
@[simp] theorem forgetPair_pec : (s.forgetPair).pec = s.pec := rfl
@[simp] theorem forgetPair_waiting : (s.forgetPair).waiting = s.waiting := rfl
@[simp] theorem forgetPair_stripe : (s.forgetPair).stripe = s.stripe := rfl
@[simp] theorem forgetPair_lastOutcome : (s.forgetPair).lastOutcome = s.lastOutcome := rfl
@[simp] theorem forgetPair_port : (s.forgetPair).port = s.port := rfl
@[simp] theorem forgetPair_shl : (s.forgetPair).shl = s.shl := rfl
@[simp] theorem forgetPair_hmc : (s.forgetPair).hmc = s.hmc := rfl
@[simp] theorem forgetPair_cal : (s.forgetPair).cal = s.cal := rfl
@[simp] theorem forgetPair_bst : (s.forgetPair).bst = s.bst := rfl
@[simp] theorem forgetPair_pmu : (s.forgetPair).pmu = s.pmu := rfl

/-! ### `State.startUp` changes `g`, `phase`, `quick`, `regs`, `power`, `cal`, `bst` -/

@[simp] theorem startUp_pending (quick : Bool) : (s.startUp quick).pending = s.pending := by cases quick <;> rfl
@[simp] theorem startUp_fence (quick : Bool) : (s.startUp quick).fence = s.fence := by cases quick <;> rfl
@[simp] theorem startUp_aon (quick : Bool) : (s.startUp quick).aon = s.aon := by cases quick <;> rfl
@[simp] theorem startUp_live (quick : Bool) : (s.startUp quick).live = s.live := by cases quick <;> rfl
@[simp] theorem startUp_latches (quick : Bool) : (s.startUp quick).latches = s.latches := by cases quick <;> rfl
@[simp] theorem startUp_answer (quick : Bool) : (s.startUp quick).answer = s.answer := by cases quick <;> rfl
@[simp] theorem startUp_cc (quick : Bool) : (s.startUp quick).cc = s.cc := by cases quick <;> rfl
@[simp] theorem startUp_free (quick : Bool) : (s.startUp quick).free = s.free := by cases quick <;> rfl
@[simp] theorem startUp_host (quick : Bool) : (s.startUp quick).host = s.host := by cases quick <;> rfl
@[simp] theorem startUp_hbm (quick : Bool) : (s.startUp quick).hbm = s.hbm := by cases quick <;> rfl
@[simp] theorem startUp_flash (quick : Bool) : (s.startUp quick).flash = s.flash := by cases quick <;> rfl
@[simp] theorem startUp_tabLive (quick : Bool) : (s.startUp quick).tabLive = s.tabLive := by cases quick <;> rfl
@[simp] theorem startUp_tabStaged (quick : Bool) : (s.startUp quick).tabStaged = s.tabStaged := by cases quick <;> rfl
@[simp] theorem startUp_prot (quick : Bool) : (s.startUp quick).prot = s.prot := by cases quick <;> rfl
@[simp] theorem startUp_cfg (quick : Bool) : (s.startUp quick).cfg = s.cfg := by cases quick <;> rfl
@[simp] theorem startUp_commits (quick : Bool) : (s.startUp quick).commits = s.commits := by cases quick <;> rfl
@[simp] theorem startUp_hif (quick : Bool) : (s.startUp quick).hif = s.hif := by cases quick <;> rfl
@[simp] theorem startUp_chans (quick : Bool) : (s.startUp quick).chans = s.chans := by cases quick <;> rfl
@[simp] theorem startUp_cdc (quick : Bool) : (s.startUp quick).cdc = s.cdc := by cases quick <;> rfl
@[simp] theorem startUp_scans (quick : Bool) : (s.startUp quick).scans = s.scans := by cases quick <;> rfl
@[simp] theorem startUp_scanWait (quick : Bool) : (s.startUp quick).scanWait = s.scanWait := by cases quick <;> rfl
@[simp] theorem startUp_prs (quick : Bool) : (s.startUp quick).prs = s.prs := by cases quick <;> rfl
@[simp] theorem startUp_csm (quick : Bool) : (s.startUp quick).csm = s.csm := by cases quick <;> rfl
@[simp] theorem startUp_pec (quick : Bool) : (s.startUp quick).pec = s.pec := by cases quick <;> rfl
@[simp] theorem startUp_waiting (quick : Bool) : (s.startUp quick).waiting = s.waiting := by cases quick <;> rfl
@[simp] theorem startUp_stripe (quick : Bool) : (s.startUp quick).stripe = s.stripe := by cases quick <;> rfl
@[simp] theorem startUp_lastOutcome (quick : Bool) : (s.startUp quick).lastOutcome = s.lastOutcome := by cases quick <;> rfl
@[simp] theorem startUp_port (quick : Bool) : (s.startUp quick).port = s.port := by cases quick <;> rfl
@[simp] theorem startUp_shl (quick : Bool) : (s.startUp quick).shl = s.shl := by cases quick <;> rfl
@[simp] theorem startUp_nlk (quick : Bool) : (s.startUp quick).nlk = s.nlk := by cases quick <;> rfl
@[simp] theorem startUp_hmc (quick : Bool) : (s.startUp quick).hmc = s.hmc := by cases quick <;> rfl
@[simp] theorem startUp_pmu (quick : Bool) : (s.startUp quick).pmu = s.pmu := by cases quick <;> rfl

/-! ### `State.saveOver` changes `nlk` -/

@[simp] theorem saveOver_pending (q idx : Nat) : (s.saveOver q idx).pending = s.pending := rfl
@[simp] theorem saveOver_g (q idx : Nat) : (s.saveOver q idx).g = s.g := rfl
@[simp] theorem saveOver_phase (q idx : Nat) : (s.saveOver q idx).phase = s.phase := rfl
@[simp] theorem saveOver_quick (q idx : Nat) : (s.saveOver q idx).quick = s.quick := rfl
@[simp] theorem saveOver_fence (q idx : Nat) : (s.saveOver q idx).fence = s.fence := rfl
@[simp] theorem saveOver_aon (q idx : Nat) : (s.saveOver q idx).aon = s.aon := rfl
@[simp] theorem saveOver_regs (q idx : Nat) : (s.saveOver q idx).regs = s.regs := rfl
@[simp] theorem saveOver_live (q idx : Nat) : (s.saveOver q idx).live = s.live := rfl
@[simp] theorem saveOver_latches (q idx : Nat) : (s.saveOver q idx).latches = s.latches := rfl
@[simp] theorem saveOver_answer (q idx : Nat) : (s.saveOver q idx).answer = s.answer := rfl
@[simp] theorem saveOver_cc (q idx : Nat) : (s.saveOver q idx).cc = s.cc := rfl
@[simp] theorem saveOver_free (q idx : Nat) : (s.saveOver q idx).free = s.free := rfl
@[simp] theorem saveOver_host (q idx : Nat) : (s.saveOver q idx).host = s.host := rfl
@[simp] theorem saveOver_hbm (q idx : Nat) : (s.saveOver q idx).hbm = s.hbm := rfl
@[simp] theorem saveOver_flash (q idx : Nat) : (s.saveOver q idx).flash = s.flash := rfl
@[simp] theorem saveOver_tabLive (q idx : Nat) : (s.saveOver q idx).tabLive = s.tabLive := rfl
@[simp] theorem saveOver_tabStaged (q idx : Nat) : (s.saveOver q idx).tabStaged = s.tabStaged := rfl
@[simp] theorem saveOver_prot (q idx : Nat) : (s.saveOver q idx).prot = s.prot := rfl
@[simp] theorem saveOver_cfg (q idx : Nat) : (s.saveOver q idx).cfg = s.cfg := rfl
@[simp] theorem saveOver_commits (q idx : Nat) : (s.saveOver q idx).commits = s.commits := rfl
@[simp] theorem saveOver_power (q idx : Nat) : (s.saveOver q idx).power = s.power := rfl
@[simp] theorem saveOver_hif (q idx : Nat) : (s.saveOver q idx).hif = s.hif := rfl
@[simp] theorem saveOver_chans (q idx : Nat) : (s.saveOver q idx).chans = s.chans := rfl
@[simp] theorem saveOver_cdc (q idx : Nat) : (s.saveOver q idx).cdc = s.cdc := rfl
@[simp] theorem saveOver_scans (q idx : Nat) : (s.saveOver q idx).scans = s.scans := rfl
@[simp] theorem saveOver_scanWait (q idx : Nat) : (s.saveOver q idx).scanWait = s.scanWait := rfl
@[simp] theorem saveOver_prs (q idx : Nat) : (s.saveOver q idx).prs = s.prs := rfl
@[simp] theorem saveOver_csm (q idx : Nat) : (s.saveOver q idx).csm = s.csm := rfl
@[simp] theorem saveOver_pec (q idx : Nat) : (s.saveOver q idx).pec = s.pec := rfl
@[simp] theorem saveOver_waiting (q idx : Nat) : (s.saveOver q idx).waiting = s.waiting := rfl
@[simp] theorem saveOver_stripe (q idx : Nat) : (s.saveOver q idx).stripe = s.stripe := rfl
@[simp] theorem saveOver_lastOutcome (q idx : Nat) : (s.saveOver q idx).lastOutcome = s.lastOutcome := rfl
@[simp] theorem saveOver_port (q idx : Nat) : (s.saveOver q idx).port = s.port := rfl
@[simp] theorem saveOver_shl (q idx : Nat) : (s.saveOver q idx).shl = s.shl := rfl
@[simp] theorem saveOver_hmc (q idx : Nat) : (s.saveOver q idx).hmc = s.hmc := rfl
@[simp] theorem saveOver_cal (q idx : Nat) : (s.saveOver q idx).cal = s.cal := rfl
@[simp] theorem saveOver_bst (q idx : Nat) : (s.saveOver q idx).bst = s.bst := rfl
@[simp] theorem saveOver_pmu (q idx : Nat) : (s.saveOver q idx).pmu = s.pmu := rfl

/-! ### `State.dropMisses` changes `nlk` -/

@[simp] theorem dropMisses_pending : (s.dropMisses).pending = s.pending := rfl
@[simp] theorem dropMisses_g : (s.dropMisses).g = s.g := rfl
@[simp] theorem dropMisses_phase : (s.dropMisses).phase = s.phase := rfl
@[simp] theorem dropMisses_quick : (s.dropMisses).quick = s.quick := rfl
@[simp] theorem dropMisses_fence : (s.dropMisses).fence = s.fence := rfl
@[simp] theorem dropMisses_aon : (s.dropMisses).aon = s.aon := rfl
@[simp] theorem dropMisses_regs : (s.dropMisses).regs = s.regs := rfl
@[simp] theorem dropMisses_live : (s.dropMisses).live = s.live := rfl
@[simp] theorem dropMisses_latches : (s.dropMisses).latches = s.latches := rfl
@[simp] theorem dropMisses_answer : (s.dropMisses).answer = s.answer := rfl
@[simp] theorem dropMisses_cc : (s.dropMisses).cc = s.cc := rfl
@[simp] theorem dropMisses_free : (s.dropMisses).free = s.free := rfl
@[simp] theorem dropMisses_host : (s.dropMisses).host = s.host := rfl
@[simp] theorem dropMisses_hbm : (s.dropMisses).hbm = s.hbm := rfl
@[simp] theorem dropMisses_flash : (s.dropMisses).flash = s.flash := rfl
@[simp] theorem dropMisses_tabLive : (s.dropMisses).tabLive = s.tabLive := rfl
@[simp] theorem dropMisses_tabStaged : (s.dropMisses).tabStaged = s.tabStaged := rfl
@[simp] theorem dropMisses_prot : (s.dropMisses).prot = s.prot := rfl
@[simp] theorem dropMisses_cfg : (s.dropMisses).cfg = s.cfg := rfl
@[simp] theorem dropMisses_commits : (s.dropMisses).commits = s.commits := rfl
@[simp] theorem dropMisses_power : (s.dropMisses).power = s.power := rfl
@[simp] theorem dropMisses_hif : (s.dropMisses).hif = s.hif := rfl
@[simp] theorem dropMisses_chans : (s.dropMisses).chans = s.chans := rfl
@[simp] theorem dropMisses_cdc : (s.dropMisses).cdc = s.cdc := rfl
@[simp] theorem dropMisses_scans : (s.dropMisses).scans = s.scans := rfl
@[simp] theorem dropMisses_scanWait : (s.dropMisses).scanWait = s.scanWait := rfl
@[simp] theorem dropMisses_prs : (s.dropMisses).prs = s.prs := rfl
@[simp] theorem dropMisses_csm : (s.dropMisses).csm = s.csm := rfl
@[simp] theorem dropMisses_pec : (s.dropMisses).pec = s.pec := rfl
@[simp] theorem dropMisses_waiting : (s.dropMisses).waiting = s.waiting := rfl
@[simp] theorem dropMisses_stripe : (s.dropMisses).stripe = s.stripe := rfl
@[simp] theorem dropMisses_lastOutcome : (s.dropMisses).lastOutcome = s.lastOutcome := rfl
@[simp] theorem dropMisses_port : (s.dropMisses).port = s.port := rfl
@[simp] theorem dropMisses_shl : (s.dropMisses).shl = s.shl := rfl
@[simp] theorem dropMisses_hmc : (s.dropMisses).hmc = s.hmc := rfl
@[simp] theorem dropMisses_cal : (s.dropMisses).cal = s.cal := rfl
@[simp] theorem dropMisses_bst : (s.dropMisses).bst = s.bst := rfl
@[simp] theorem dropMisses_pmu : (s.dropMisses).pmu = s.pmu := rfl

/-! ### `State.addDiscard` changes `hif` -/

@[simp] theorem addDiscard_pending (r : ArmReq) : (s.addDiscard r).pending = s.pending := rfl
@[simp] theorem addDiscard_g (r : ArmReq) : (s.addDiscard r).g = s.g := rfl
@[simp] theorem addDiscard_phase (r : ArmReq) : (s.addDiscard r).phase = s.phase := rfl
@[simp] theorem addDiscard_quick (r : ArmReq) : (s.addDiscard r).quick = s.quick := rfl
@[simp] theorem addDiscard_fence (r : ArmReq) : (s.addDiscard r).fence = s.fence := rfl
@[simp] theorem addDiscard_aon (r : ArmReq) : (s.addDiscard r).aon = s.aon := rfl
@[simp] theorem addDiscard_regs (r : ArmReq) : (s.addDiscard r).regs = s.regs := rfl
@[simp] theorem addDiscard_live (r : ArmReq) : (s.addDiscard r).live = s.live := rfl
@[simp] theorem addDiscard_latches (r : ArmReq) : (s.addDiscard r).latches = s.latches := rfl
@[simp] theorem addDiscard_answer (r : ArmReq) : (s.addDiscard r).answer = s.answer := rfl
@[simp] theorem addDiscard_cc (r : ArmReq) : (s.addDiscard r).cc = s.cc := rfl
@[simp] theorem addDiscard_free (r : ArmReq) : (s.addDiscard r).free = s.free := rfl
@[simp] theorem addDiscard_host (r : ArmReq) : (s.addDiscard r).host = s.host := rfl
@[simp] theorem addDiscard_hbm (r : ArmReq) : (s.addDiscard r).hbm = s.hbm := rfl
@[simp] theorem addDiscard_flash (r : ArmReq) : (s.addDiscard r).flash = s.flash := rfl
@[simp] theorem addDiscard_tabLive (r : ArmReq) : (s.addDiscard r).tabLive = s.tabLive := rfl
@[simp] theorem addDiscard_tabStaged (r : ArmReq) : (s.addDiscard r).tabStaged = s.tabStaged := rfl
@[simp] theorem addDiscard_prot (r : ArmReq) : (s.addDiscard r).prot = s.prot := rfl
@[simp] theorem addDiscard_cfg (r : ArmReq) : (s.addDiscard r).cfg = s.cfg := rfl
@[simp] theorem addDiscard_commits (r : ArmReq) : (s.addDiscard r).commits = s.commits := rfl
@[simp] theorem addDiscard_power (r : ArmReq) : (s.addDiscard r).power = s.power := rfl
@[simp] theorem addDiscard_chans (r : ArmReq) : (s.addDiscard r).chans = s.chans := rfl
@[simp] theorem addDiscard_cdc (r : ArmReq) : (s.addDiscard r).cdc = s.cdc := rfl
@[simp] theorem addDiscard_scans (r : ArmReq) : (s.addDiscard r).scans = s.scans := rfl
@[simp] theorem addDiscard_scanWait (r : ArmReq) : (s.addDiscard r).scanWait = s.scanWait := rfl
@[simp] theorem addDiscard_prs (r : ArmReq) : (s.addDiscard r).prs = s.prs := rfl
@[simp] theorem addDiscard_csm (r : ArmReq) : (s.addDiscard r).csm = s.csm := rfl
@[simp] theorem addDiscard_pec (r : ArmReq) : (s.addDiscard r).pec = s.pec := rfl
@[simp] theorem addDiscard_waiting (r : ArmReq) : (s.addDiscard r).waiting = s.waiting := rfl
@[simp] theorem addDiscard_stripe (r : ArmReq) : (s.addDiscard r).stripe = s.stripe := rfl
@[simp] theorem addDiscard_lastOutcome (r : ArmReq) : (s.addDiscard r).lastOutcome = s.lastOutcome := rfl
@[simp] theorem addDiscard_port (r : ArmReq) : (s.addDiscard r).port = s.port := rfl
@[simp] theorem addDiscard_shl (r : ArmReq) : (s.addDiscard r).shl = s.shl := rfl
@[simp] theorem addDiscard_nlk (r : ArmReq) : (s.addDiscard r).nlk = s.nlk := rfl
@[simp] theorem addDiscard_hmc (r : ArmReq) : (s.addDiscard r).hmc = s.hmc := rfl
@[simp] theorem addDiscard_cal (r : ArmReq) : (s.addDiscard r).cal = s.cal := rfl
@[simp] theorem addDiscard_bst (r : ArmReq) : (s.addDiscard r).bst = s.bst := rfl
@[simp] theorem addDiscard_pmu (r : ArmReq) : (s.addDiscard r).pmu = s.pmu := rfl

/-! ### `State.discardOver` changes `hif` -/

@[simp] theorem discardOver_pending (q : Nat) : (s.discardOver q).pending = s.pending := rfl
@[simp] theorem discardOver_g (q : Nat) : (s.discardOver q).g = s.g := rfl
@[simp] theorem discardOver_phase (q : Nat) : (s.discardOver q).phase = s.phase := rfl
@[simp] theorem discardOver_quick (q : Nat) : (s.discardOver q).quick = s.quick := rfl
@[simp] theorem discardOver_fence (q : Nat) : (s.discardOver q).fence = s.fence := rfl
@[simp] theorem discardOver_aon (q : Nat) : (s.discardOver q).aon = s.aon := rfl
@[simp] theorem discardOver_regs (q : Nat) : (s.discardOver q).regs = s.regs := rfl
@[simp] theorem discardOver_live (q : Nat) : (s.discardOver q).live = s.live := rfl
@[simp] theorem discardOver_latches (q : Nat) : (s.discardOver q).latches = s.latches := rfl
@[simp] theorem discardOver_answer (q : Nat) : (s.discardOver q).answer = s.answer := rfl
@[simp] theorem discardOver_cc (q : Nat) : (s.discardOver q).cc = s.cc := rfl
@[simp] theorem discardOver_free (q : Nat) : (s.discardOver q).free = s.free := rfl
@[simp] theorem discardOver_host (q : Nat) : (s.discardOver q).host = s.host := rfl
@[simp] theorem discardOver_hbm (q : Nat) : (s.discardOver q).hbm = s.hbm := rfl
@[simp] theorem discardOver_flash (q : Nat) : (s.discardOver q).flash = s.flash := rfl
@[simp] theorem discardOver_tabLive (q : Nat) : (s.discardOver q).tabLive = s.tabLive := rfl
@[simp] theorem discardOver_tabStaged (q : Nat) : (s.discardOver q).tabStaged = s.tabStaged := rfl
@[simp] theorem discardOver_prot (q : Nat) : (s.discardOver q).prot = s.prot := rfl
@[simp] theorem discardOver_cfg (q : Nat) : (s.discardOver q).cfg = s.cfg := rfl
@[simp] theorem discardOver_commits (q : Nat) : (s.discardOver q).commits = s.commits := rfl
@[simp] theorem discardOver_power (q : Nat) : (s.discardOver q).power = s.power := rfl
@[simp] theorem discardOver_chans (q : Nat) : (s.discardOver q).chans = s.chans := rfl
@[simp] theorem discardOver_cdc (q : Nat) : (s.discardOver q).cdc = s.cdc := rfl
@[simp] theorem discardOver_scans (q : Nat) : (s.discardOver q).scans = s.scans := rfl
@[simp] theorem discardOver_scanWait (q : Nat) : (s.discardOver q).scanWait = s.scanWait := rfl
@[simp] theorem discardOver_prs (q : Nat) : (s.discardOver q).prs = s.prs := rfl
@[simp] theorem discardOver_csm (q : Nat) : (s.discardOver q).csm = s.csm := rfl
@[simp] theorem discardOver_pec (q : Nat) : (s.discardOver q).pec = s.pec := rfl
@[simp] theorem discardOver_waiting (q : Nat) : (s.discardOver q).waiting = s.waiting := rfl
@[simp] theorem discardOver_stripe (q : Nat) : (s.discardOver q).stripe = s.stripe := rfl
@[simp] theorem discardOver_lastOutcome (q : Nat) : (s.discardOver q).lastOutcome = s.lastOutcome := rfl
@[simp] theorem discardOver_port (q : Nat) : (s.discardOver q).port = s.port := rfl
@[simp] theorem discardOver_shl (q : Nat) : (s.discardOver q).shl = s.shl := rfl
@[simp] theorem discardOver_nlk (q : Nat) : (s.discardOver q).nlk = s.nlk := rfl
@[simp] theorem discardOver_hmc (q : Nat) : (s.discardOver q).hmc = s.hmc := rfl
@[simp] theorem discardOver_cal (q : Nat) : (s.discardOver q).cal = s.cal := rfl
@[simp] theorem discardOver_bst (q : Nat) : (s.discardOver q).bst = s.bst := rfl
@[simp] theorem discardOver_pmu (q : Nat) : (s.discardOver q).pmu = s.pmu := rfl

/-! ### `State.modNlk` changes `nlk` -/

@[simp] theorem modNlk_pending (f : Nlk → Nlk) : (s.modNlk f).pending = s.pending := rfl
@[simp] theorem modNlk_g (f : Nlk → Nlk) : (s.modNlk f).g = s.g := rfl
@[simp] theorem modNlk_phase (f : Nlk → Nlk) : (s.modNlk f).phase = s.phase := rfl
@[simp] theorem modNlk_quick (f : Nlk → Nlk) : (s.modNlk f).quick = s.quick := rfl
@[simp] theorem modNlk_fence (f : Nlk → Nlk) : (s.modNlk f).fence = s.fence := rfl
@[simp] theorem modNlk_aon (f : Nlk → Nlk) : (s.modNlk f).aon = s.aon := rfl
@[simp] theorem modNlk_regs (f : Nlk → Nlk) : (s.modNlk f).regs = s.regs := rfl
@[simp] theorem modNlk_live (f : Nlk → Nlk) : (s.modNlk f).live = s.live := rfl
@[simp] theorem modNlk_latches (f : Nlk → Nlk) : (s.modNlk f).latches = s.latches := rfl
@[simp] theorem modNlk_answer (f : Nlk → Nlk) : (s.modNlk f).answer = s.answer := rfl
@[simp] theorem modNlk_cc (f : Nlk → Nlk) : (s.modNlk f).cc = s.cc := rfl
@[simp] theorem modNlk_free (f : Nlk → Nlk) : (s.modNlk f).free = s.free := rfl
@[simp] theorem modNlk_host (f : Nlk → Nlk) : (s.modNlk f).host = s.host := rfl
@[simp] theorem modNlk_hbm (f : Nlk → Nlk) : (s.modNlk f).hbm = s.hbm := rfl
@[simp] theorem modNlk_flash (f : Nlk → Nlk) : (s.modNlk f).flash = s.flash := rfl
@[simp] theorem modNlk_tabLive (f : Nlk → Nlk) : (s.modNlk f).tabLive = s.tabLive := rfl
@[simp] theorem modNlk_tabStaged (f : Nlk → Nlk) : (s.modNlk f).tabStaged = s.tabStaged := rfl
@[simp] theorem modNlk_prot (f : Nlk → Nlk) : (s.modNlk f).prot = s.prot := rfl
@[simp] theorem modNlk_cfg (f : Nlk → Nlk) : (s.modNlk f).cfg = s.cfg := rfl
@[simp] theorem modNlk_commits (f : Nlk → Nlk) : (s.modNlk f).commits = s.commits := rfl
@[simp] theorem modNlk_power (f : Nlk → Nlk) : (s.modNlk f).power = s.power := rfl
@[simp] theorem modNlk_hif (f : Nlk → Nlk) : (s.modNlk f).hif = s.hif := rfl
@[simp] theorem modNlk_chans (f : Nlk → Nlk) : (s.modNlk f).chans = s.chans := rfl
@[simp] theorem modNlk_cdc (f : Nlk → Nlk) : (s.modNlk f).cdc = s.cdc := rfl
@[simp] theorem modNlk_scans (f : Nlk → Nlk) : (s.modNlk f).scans = s.scans := rfl
@[simp] theorem modNlk_scanWait (f : Nlk → Nlk) : (s.modNlk f).scanWait = s.scanWait := rfl
@[simp] theorem modNlk_prs (f : Nlk → Nlk) : (s.modNlk f).prs = s.prs := rfl
@[simp] theorem modNlk_csm (f : Nlk → Nlk) : (s.modNlk f).csm = s.csm := rfl
@[simp] theorem modNlk_pec (f : Nlk → Nlk) : (s.modNlk f).pec = s.pec := rfl
@[simp] theorem modNlk_waiting (f : Nlk → Nlk) : (s.modNlk f).waiting = s.waiting := rfl
@[simp] theorem modNlk_stripe (f : Nlk → Nlk) : (s.modNlk f).stripe = s.stripe := rfl
@[simp] theorem modNlk_lastOutcome (f : Nlk → Nlk) : (s.modNlk f).lastOutcome = s.lastOutcome := rfl
@[simp] theorem modNlk_port (f : Nlk → Nlk) : (s.modNlk f).port = s.port := rfl
@[simp] theorem modNlk_shl (f : Nlk → Nlk) : (s.modNlk f).shl = s.shl := rfl
@[simp] theorem modNlk_hmc (f : Nlk → Nlk) : (s.modNlk f).hmc = s.hmc := rfl
@[simp] theorem modNlk_cal (f : Nlk → Nlk) : (s.modNlk f).cal = s.cal := rfl
@[simp] theorem modNlk_bst (f : Nlk → Nlk) : (s.modNlk f).bst = s.bst := rfl
@[simp] theorem modNlk_pmu (f : Nlk → Nlk) : (s.modNlk f).pmu = s.pmu := rfl

/-! ### `State.hbmUse` changes `hmc` -/

@[simp] theorem hbmUse_pending (a n : Nat) : (s.hbmUse a n).pending = s.pending := rfl
@[simp] theorem hbmUse_g (a n : Nat) : (s.hbmUse a n).g = s.g := rfl
@[simp] theorem hbmUse_phase (a n : Nat) : (s.hbmUse a n).phase = s.phase := rfl
@[simp] theorem hbmUse_quick (a n : Nat) : (s.hbmUse a n).quick = s.quick := rfl
@[simp] theorem hbmUse_fence (a n : Nat) : (s.hbmUse a n).fence = s.fence := rfl
@[simp] theorem hbmUse_aon (a n : Nat) : (s.hbmUse a n).aon = s.aon := rfl
@[simp] theorem hbmUse_regs (a n : Nat) : (s.hbmUse a n).regs = s.regs := rfl
@[simp] theorem hbmUse_live (a n : Nat) : (s.hbmUse a n).live = s.live := rfl
@[simp] theorem hbmUse_latches (a n : Nat) : (s.hbmUse a n).latches = s.latches := rfl
@[simp] theorem hbmUse_answer (a n : Nat) : (s.hbmUse a n).answer = s.answer := rfl
@[simp] theorem hbmUse_cc (a n : Nat) : (s.hbmUse a n).cc = s.cc := rfl
@[simp] theorem hbmUse_free (a n : Nat) : (s.hbmUse a n).free = s.free := rfl
@[simp] theorem hbmUse_host (a n : Nat) : (s.hbmUse a n).host = s.host := rfl
@[simp] theorem hbmUse_hbm (a n : Nat) : (s.hbmUse a n).hbm = s.hbm := rfl
@[simp] theorem hbmUse_flash (a n : Nat) : (s.hbmUse a n).flash = s.flash := rfl
@[simp] theorem hbmUse_tabLive (a n : Nat) : (s.hbmUse a n).tabLive = s.tabLive := rfl
@[simp] theorem hbmUse_tabStaged (a n : Nat) : (s.hbmUse a n).tabStaged = s.tabStaged := rfl
@[simp] theorem hbmUse_prot (a n : Nat) : (s.hbmUse a n).prot = s.prot := rfl
@[simp] theorem hbmUse_cfg (a n : Nat) : (s.hbmUse a n).cfg = s.cfg := rfl
@[simp] theorem hbmUse_commits (a n : Nat) : (s.hbmUse a n).commits = s.commits := rfl
@[simp] theorem hbmUse_power (a n : Nat) : (s.hbmUse a n).power = s.power := rfl
@[simp] theorem hbmUse_hif (a n : Nat) : (s.hbmUse a n).hif = s.hif := rfl
@[simp] theorem hbmUse_chans (a n : Nat) : (s.hbmUse a n).chans = s.chans := rfl
@[simp] theorem hbmUse_cdc (a n : Nat) : (s.hbmUse a n).cdc = s.cdc := rfl
@[simp] theorem hbmUse_scans (a n : Nat) : (s.hbmUse a n).scans = s.scans := rfl
@[simp] theorem hbmUse_scanWait (a n : Nat) : (s.hbmUse a n).scanWait = s.scanWait := rfl
@[simp] theorem hbmUse_prs (a n : Nat) : (s.hbmUse a n).prs = s.prs := rfl
@[simp] theorem hbmUse_csm (a n : Nat) : (s.hbmUse a n).csm = s.csm := rfl
@[simp] theorem hbmUse_pec (a n : Nat) : (s.hbmUse a n).pec = s.pec := rfl
@[simp] theorem hbmUse_waiting (a n : Nat) : (s.hbmUse a n).waiting = s.waiting := rfl
@[simp] theorem hbmUse_stripe (a n : Nat) : (s.hbmUse a n).stripe = s.stripe := rfl
@[simp] theorem hbmUse_lastOutcome (a n : Nat) : (s.hbmUse a n).lastOutcome = s.lastOutcome := rfl
@[simp] theorem hbmUse_port (a n : Nat) : (s.hbmUse a n).port = s.port := rfl
@[simp] theorem hbmUse_shl (a n : Nat) : (s.hbmUse a n).shl = s.shl := rfl
@[simp] theorem hbmUse_nlk (a n : Nat) : (s.hbmUse a n).nlk = s.nlk := rfl
@[simp] theorem hbmUse_cal (a n : Nat) : (s.hbmUse a n).cal = s.cal := rfl
@[simp] theorem hbmUse_bst (a n : Nat) : (s.hbmUse a n).bst = s.bst := rfl
@[simp] theorem hbmUse_pmu (a n : Nat) : (s.hbmUse a n).pmu = s.pmu := rfl

/-! ### `State.send` changes `shl`, `free` -/

@[simp] theorem send_pending (x : Sent) : (s.send x).pending = s.pending := rfl
@[simp] theorem send_g (x : Sent) : (s.send x).g = s.g := rfl
@[simp] theorem send_phase (x : Sent) : (s.send x).phase = s.phase := rfl
@[simp] theorem send_quick (x : Sent) : (s.send x).quick = s.quick := rfl
@[simp] theorem send_fence (x : Sent) : (s.send x).fence = s.fence := rfl
@[simp] theorem send_aon (x : Sent) : (s.send x).aon = s.aon := rfl
@[simp] theorem send_regs (x : Sent) : (s.send x).regs = s.regs := rfl
@[simp] theorem send_live (x : Sent) : (s.send x).live = s.live := rfl
@[simp] theorem send_latches (x : Sent) : (s.send x).latches = s.latches := rfl
@[simp] theorem send_answer (x : Sent) : (s.send x).answer = s.answer := rfl
@[simp] theorem send_cc (x : Sent) : (s.send x).cc = s.cc := rfl
@[simp] theorem send_host (x : Sent) : (s.send x).host = s.host := rfl
@[simp] theorem send_hbm (x : Sent) : (s.send x).hbm = s.hbm := rfl
@[simp] theorem send_flash (x : Sent) : (s.send x).flash = s.flash := rfl
@[simp] theorem send_tabLive (x : Sent) : (s.send x).tabLive = s.tabLive := rfl
@[simp] theorem send_tabStaged (x : Sent) : (s.send x).tabStaged = s.tabStaged := rfl
@[simp] theorem send_prot (x : Sent) : (s.send x).prot = s.prot := rfl
@[simp] theorem send_cfg (x : Sent) : (s.send x).cfg = s.cfg := rfl
@[simp] theorem send_commits (x : Sent) : (s.send x).commits = s.commits := rfl
@[simp] theorem send_power (x : Sent) : (s.send x).power = s.power := rfl
@[simp] theorem send_hif (x : Sent) : (s.send x).hif = s.hif := rfl
@[simp] theorem send_chans (x : Sent) : (s.send x).chans = s.chans := rfl
@[simp] theorem send_cdc (x : Sent) : (s.send x).cdc = s.cdc := rfl
@[simp] theorem send_scans (x : Sent) : (s.send x).scans = s.scans := rfl
@[simp] theorem send_scanWait (x : Sent) : (s.send x).scanWait = s.scanWait := rfl
@[simp] theorem send_prs (x : Sent) : (s.send x).prs = s.prs := rfl
@[simp] theorem send_csm (x : Sent) : (s.send x).csm = s.csm := rfl
@[simp] theorem send_pec (x : Sent) : (s.send x).pec = s.pec := rfl
@[simp] theorem send_waiting (x : Sent) : (s.send x).waiting = s.waiting := rfl
@[simp] theorem send_stripe (x : Sent) : (s.send x).stripe = s.stripe := rfl
@[simp] theorem send_lastOutcome (x : Sent) : (s.send x).lastOutcome = s.lastOutcome := rfl
@[simp] theorem send_port (x : Sent) : (s.send x).port = s.port := rfl
@[simp] theorem send_nlk (x : Sent) : (s.send x).nlk = s.nlk := rfl
@[simp] theorem send_hmc (x : Sent) : (s.send x).hmc = s.hmc := rfl
@[simp] theorem send_cal (x : Sent) : (s.send x).cal = s.cal := rfl
@[simp] theorem send_bst (x : Sent) : (s.send x).bst = s.bst := rfl
@[simp] theorem send_pmu (x : Sent) : (s.send x).pmu = s.pmu := rfl

/-! ### `State.naluDown` changes `nlk`, `regs` -/

@[simp] theorem naluDown_pending : (s.naluDown).pending = s.pending := rfl
@[simp] theorem naluDown_g : (s.naluDown).g = s.g := rfl
@[simp] theorem naluDown_phase : (s.naluDown).phase = s.phase := rfl
@[simp] theorem naluDown_quick : (s.naluDown).quick = s.quick := rfl
@[simp] theorem naluDown_fence : (s.naluDown).fence = s.fence := rfl
@[simp] theorem naluDown_aon : (s.naluDown).aon = s.aon := rfl
@[simp] theorem naluDown_live : (s.naluDown).live = s.live := rfl
@[simp] theorem naluDown_latches : (s.naluDown).latches = s.latches := rfl
@[simp] theorem naluDown_answer : (s.naluDown).answer = s.answer := rfl
@[simp] theorem naluDown_cc : (s.naluDown).cc = s.cc := rfl
@[simp] theorem naluDown_free : (s.naluDown).free = s.free := rfl
@[simp] theorem naluDown_host : (s.naluDown).host = s.host := rfl
@[simp] theorem naluDown_hbm : (s.naluDown).hbm = s.hbm := rfl
@[simp] theorem naluDown_flash : (s.naluDown).flash = s.flash := rfl
@[simp] theorem naluDown_tabLive : (s.naluDown).tabLive = s.tabLive := rfl
@[simp] theorem naluDown_tabStaged : (s.naluDown).tabStaged = s.tabStaged := rfl
@[simp] theorem naluDown_prot : (s.naluDown).prot = s.prot := rfl
@[simp] theorem naluDown_cfg : (s.naluDown).cfg = s.cfg := rfl
@[simp] theorem naluDown_commits : (s.naluDown).commits = s.commits := rfl
@[simp] theorem naluDown_power : (s.naluDown).power = s.power := rfl
@[simp] theorem naluDown_hif : (s.naluDown).hif = s.hif := rfl
@[simp] theorem naluDown_chans : (s.naluDown).chans = s.chans := rfl
@[simp] theorem naluDown_cdc : (s.naluDown).cdc = s.cdc := rfl
@[simp] theorem naluDown_scans : (s.naluDown).scans = s.scans := rfl
@[simp] theorem naluDown_scanWait : (s.naluDown).scanWait = s.scanWait := rfl
@[simp] theorem naluDown_prs : (s.naluDown).prs = s.prs := rfl
@[simp] theorem naluDown_csm : (s.naluDown).csm = s.csm := rfl
@[simp] theorem naluDown_pec : (s.naluDown).pec = s.pec := rfl
@[simp] theorem naluDown_waiting : (s.naluDown).waiting = s.waiting := rfl
@[simp] theorem naluDown_stripe : (s.naluDown).stripe = s.stripe := rfl
@[simp] theorem naluDown_lastOutcome : (s.naluDown).lastOutcome = s.lastOutcome := rfl
@[simp] theorem naluDown_port : (s.naluDown).port = s.port := rfl
@[simp] theorem naluDown_shl : (s.naluDown).shl = s.shl := rfl
@[simp] theorem naluDown_hmc : (s.naluDown).hmc = s.hmc := rfl
@[simp] theorem naluDown_cal : (s.naluDown).cal = s.cal := rfl
@[simp] theorem naluDown_bst : (s.naluDown).bst = s.bst := rfl
@[simp] theorem naluDown_pmu : (s.naluDown).pmu = s.pmu := rfl

/-! ### `State.modPort` changes `port` -/

@[simp] theorem modPort_pending (f : Port → Port) : (s.modPort f).pending = s.pending := rfl
@[simp] theorem modPort_g (f : Port → Port) : (s.modPort f).g = s.g := rfl
@[simp] theorem modPort_phase (f : Port → Port) : (s.modPort f).phase = s.phase := rfl
@[simp] theorem modPort_quick (f : Port → Port) : (s.modPort f).quick = s.quick := rfl
@[simp] theorem modPort_fence (f : Port → Port) : (s.modPort f).fence = s.fence := rfl
@[simp] theorem modPort_aon (f : Port → Port) : (s.modPort f).aon = s.aon := rfl
@[simp] theorem modPort_regs (f : Port → Port) : (s.modPort f).regs = s.regs := rfl
@[simp] theorem modPort_live (f : Port → Port) : (s.modPort f).live = s.live := rfl
@[simp] theorem modPort_latches (f : Port → Port) : (s.modPort f).latches = s.latches := rfl
@[simp] theorem modPort_answer (f : Port → Port) : (s.modPort f).answer = s.answer := rfl
@[simp] theorem modPort_cc (f : Port → Port) : (s.modPort f).cc = s.cc := rfl
@[simp] theorem modPort_free (f : Port → Port) : (s.modPort f).free = s.free := rfl
@[simp] theorem modPort_host (f : Port → Port) : (s.modPort f).host = s.host := rfl
@[simp] theorem modPort_hbm (f : Port → Port) : (s.modPort f).hbm = s.hbm := rfl
@[simp] theorem modPort_flash (f : Port → Port) : (s.modPort f).flash = s.flash := rfl
@[simp] theorem modPort_tabLive (f : Port → Port) : (s.modPort f).tabLive = s.tabLive := rfl
@[simp] theorem modPort_tabStaged (f : Port → Port) : (s.modPort f).tabStaged = s.tabStaged := rfl
@[simp] theorem modPort_prot (f : Port → Port) : (s.modPort f).prot = s.prot := rfl
@[simp] theorem modPort_cfg (f : Port → Port) : (s.modPort f).cfg = s.cfg := rfl
@[simp] theorem modPort_commits (f : Port → Port) : (s.modPort f).commits = s.commits := rfl
@[simp] theorem modPort_power (f : Port → Port) : (s.modPort f).power = s.power := rfl
@[simp] theorem modPort_hif (f : Port → Port) : (s.modPort f).hif = s.hif := rfl
@[simp] theorem modPort_chans (f : Port → Port) : (s.modPort f).chans = s.chans := rfl
@[simp] theorem modPort_cdc (f : Port → Port) : (s.modPort f).cdc = s.cdc := rfl
@[simp] theorem modPort_scans (f : Port → Port) : (s.modPort f).scans = s.scans := rfl
@[simp] theorem modPort_scanWait (f : Port → Port) : (s.modPort f).scanWait = s.scanWait := rfl
@[simp] theorem modPort_prs (f : Port → Port) : (s.modPort f).prs = s.prs := rfl
@[simp] theorem modPort_csm (f : Port → Port) : (s.modPort f).csm = s.csm := rfl
@[simp] theorem modPort_pec (f : Port → Port) : (s.modPort f).pec = s.pec := rfl
@[simp] theorem modPort_waiting (f : Port → Port) : (s.modPort f).waiting = s.waiting := rfl
@[simp] theorem modPort_stripe (f : Port → Port) : (s.modPort f).stripe = s.stripe := rfl
@[simp] theorem modPort_lastOutcome (f : Port → Port) : (s.modPort f).lastOutcome = s.lastOutcome := rfl
@[simp] theorem modPort_shl (f : Port → Port) : (s.modPort f).shl = s.shl := rfl
@[simp] theorem modPort_nlk (f : Port → Port) : (s.modPort f).nlk = s.nlk := rfl
@[simp] theorem modPort_hmc (f : Port → Port) : (s.modPort f).hmc = s.hmc := rfl
@[simp] theorem modPort_cal (f : Port → Port) : (s.modPort f).cal = s.cal := rfl
@[simp] theorem modPort_bst (f : Port → Port) : (s.modPort f).bst = s.bst := rfl
@[simp] theorem modPort_pmu (f : Port → Port) : (s.modPort f).pmu = s.pmu := rfl

/-! ### `State.wakeSent` changes `nlk` -/

@[simp] theorem wakeSent_pending (n : Nat) : (s.wakeSent n).pending = s.pending := rfl
@[simp] theorem wakeSent_g (n : Nat) : (s.wakeSent n).g = s.g := rfl
@[simp] theorem wakeSent_phase (n : Nat) : (s.wakeSent n).phase = s.phase := rfl
@[simp] theorem wakeSent_quick (n : Nat) : (s.wakeSent n).quick = s.quick := rfl
@[simp] theorem wakeSent_fence (n : Nat) : (s.wakeSent n).fence = s.fence := rfl
@[simp] theorem wakeSent_aon (n : Nat) : (s.wakeSent n).aon = s.aon := rfl
@[simp] theorem wakeSent_regs (n : Nat) : (s.wakeSent n).regs = s.regs := rfl
@[simp] theorem wakeSent_live (n : Nat) : (s.wakeSent n).live = s.live := rfl
@[simp] theorem wakeSent_latches (n : Nat) : (s.wakeSent n).latches = s.latches := rfl
@[simp] theorem wakeSent_answer (n : Nat) : (s.wakeSent n).answer = s.answer := rfl
@[simp] theorem wakeSent_cc (n : Nat) : (s.wakeSent n).cc = s.cc := rfl
@[simp] theorem wakeSent_free (n : Nat) : (s.wakeSent n).free = s.free := rfl
@[simp] theorem wakeSent_host (n : Nat) : (s.wakeSent n).host = s.host := rfl
@[simp] theorem wakeSent_hbm (n : Nat) : (s.wakeSent n).hbm = s.hbm := rfl
@[simp] theorem wakeSent_flash (n : Nat) : (s.wakeSent n).flash = s.flash := rfl
@[simp] theorem wakeSent_tabLive (n : Nat) : (s.wakeSent n).tabLive = s.tabLive := rfl
@[simp] theorem wakeSent_tabStaged (n : Nat) : (s.wakeSent n).tabStaged = s.tabStaged := rfl
@[simp] theorem wakeSent_prot (n : Nat) : (s.wakeSent n).prot = s.prot := rfl
@[simp] theorem wakeSent_cfg (n : Nat) : (s.wakeSent n).cfg = s.cfg := rfl
@[simp] theorem wakeSent_commits (n : Nat) : (s.wakeSent n).commits = s.commits := rfl
@[simp] theorem wakeSent_power (n : Nat) : (s.wakeSent n).power = s.power := rfl
@[simp] theorem wakeSent_hif (n : Nat) : (s.wakeSent n).hif = s.hif := rfl
@[simp] theorem wakeSent_chans (n : Nat) : (s.wakeSent n).chans = s.chans := rfl
@[simp] theorem wakeSent_cdc (n : Nat) : (s.wakeSent n).cdc = s.cdc := rfl
@[simp] theorem wakeSent_scans (n : Nat) : (s.wakeSent n).scans = s.scans := rfl
@[simp] theorem wakeSent_scanWait (n : Nat) : (s.wakeSent n).scanWait = s.scanWait := rfl
@[simp] theorem wakeSent_prs (n : Nat) : (s.wakeSent n).prs = s.prs := rfl
@[simp] theorem wakeSent_csm (n : Nat) : (s.wakeSent n).csm = s.csm := rfl
@[simp] theorem wakeSent_pec (n : Nat) : (s.wakeSent n).pec = s.pec := rfl
@[simp] theorem wakeSent_waiting (n : Nat) : (s.wakeSent n).waiting = s.waiting := rfl
@[simp] theorem wakeSent_stripe (n : Nat) : (s.wakeSent n).stripe = s.stripe := rfl
@[simp] theorem wakeSent_lastOutcome (n : Nat) : (s.wakeSent n).lastOutcome = s.lastOutcome := rfl
@[simp] theorem wakeSent_port (n : Nat) : (s.wakeSent n).port = s.port := rfl
@[simp] theorem wakeSent_shl (n : Nat) : (s.wakeSent n).shl = s.shl := rfl
@[simp] theorem wakeSent_hmc (n : Nat) : (s.wakeSent n).hmc = s.hmc := rfl
@[simp] theorem wakeSent_cal (n : Nat) : (s.wakeSent n).cal = s.cal := rfl
@[simp] theorem wakeSent_bst (n : Nat) : (s.wakeSent n).bst = s.bst := rfl
@[simp] theorem wakeSent_pmu (n : Nat) : (s.wakeSent n).pmu = s.pmu := rfl

/-! ### `State.modPseudo` changes `hmc` -/

@[simp] theorem modPseudo_pending (pc : Nat) (f : PseudoChan → PseudoChan) : (s.modPseudo pc f).pending = s.pending := rfl
@[simp] theorem modPseudo_g (pc : Nat) (f : PseudoChan → PseudoChan) : (s.modPseudo pc f).g = s.g := rfl
@[simp] theorem modPseudo_phase (pc : Nat) (f : PseudoChan → PseudoChan) : (s.modPseudo pc f).phase = s.phase := rfl
@[simp] theorem modPseudo_quick (pc : Nat) (f : PseudoChan → PseudoChan) : (s.modPseudo pc f).quick = s.quick := rfl
@[simp] theorem modPseudo_fence (pc : Nat) (f : PseudoChan → PseudoChan) : (s.modPseudo pc f).fence = s.fence := rfl
@[simp] theorem modPseudo_aon (pc : Nat) (f : PseudoChan → PseudoChan) : (s.modPseudo pc f).aon = s.aon := rfl
@[simp] theorem modPseudo_regs (pc : Nat) (f : PseudoChan → PseudoChan) : (s.modPseudo pc f).regs = s.regs := rfl
@[simp] theorem modPseudo_live (pc : Nat) (f : PseudoChan → PseudoChan) : (s.modPseudo pc f).live = s.live := rfl
@[simp] theorem modPseudo_latches (pc : Nat) (f : PseudoChan → PseudoChan) : (s.modPseudo pc f).latches = s.latches := rfl
@[simp] theorem modPseudo_answer (pc : Nat) (f : PseudoChan → PseudoChan) : (s.modPseudo pc f).answer = s.answer := rfl
@[simp] theorem modPseudo_cc (pc : Nat) (f : PseudoChan → PseudoChan) : (s.modPseudo pc f).cc = s.cc := rfl
@[simp] theorem modPseudo_free (pc : Nat) (f : PseudoChan → PseudoChan) : (s.modPseudo pc f).free = s.free := rfl
@[simp] theorem modPseudo_host (pc : Nat) (f : PseudoChan → PseudoChan) : (s.modPseudo pc f).host = s.host := rfl
@[simp] theorem modPseudo_hbm (pc : Nat) (f : PseudoChan → PseudoChan) : (s.modPseudo pc f).hbm = s.hbm := rfl
@[simp] theorem modPseudo_flash (pc : Nat) (f : PseudoChan → PseudoChan) : (s.modPseudo pc f).flash = s.flash := rfl
@[simp] theorem modPseudo_tabLive (pc : Nat) (f : PseudoChan → PseudoChan) : (s.modPseudo pc f).tabLive = s.tabLive := rfl
@[simp] theorem modPseudo_tabStaged (pc : Nat) (f : PseudoChan → PseudoChan) : (s.modPseudo pc f).tabStaged = s.tabStaged := rfl
@[simp] theorem modPseudo_prot (pc : Nat) (f : PseudoChan → PseudoChan) : (s.modPseudo pc f).prot = s.prot := rfl
@[simp] theorem modPseudo_cfg (pc : Nat) (f : PseudoChan → PseudoChan) : (s.modPseudo pc f).cfg = s.cfg := rfl
@[simp] theorem modPseudo_commits (pc : Nat) (f : PseudoChan → PseudoChan) : (s.modPseudo pc f).commits = s.commits := rfl
@[simp] theorem modPseudo_power (pc : Nat) (f : PseudoChan → PseudoChan) : (s.modPseudo pc f).power = s.power := rfl
@[simp] theorem modPseudo_hif (pc : Nat) (f : PseudoChan → PseudoChan) : (s.modPseudo pc f).hif = s.hif := rfl
@[simp] theorem modPseudo_chans (pc : Nat) (f : PseudoChan → PseudoChan) : (s.modPseudo pc f).chans = s.chans := rfl
@[simp] theorem modPseudo_cdc (pc : Nat) (f : PseudoChan → PseudoChan) : (s.modPseudo pc f).cdc = s.cdc := rfl
@[simp] theorem modPseudo_scans (pc : Nat) (f : PseudoChan → PseudoChan) : (s.modPseudo pc f).scans = s.scans := rfl
@[simp] theorem modPseudo_scanWait (pc : Nat) (f : PseudoChan → PseudoChan) : (s.modPseudo pc f).scanWait = s.scanWait := rfl
@[simp] theorem modPseudo_prs (pc : Nat) (f : PseudoChan → PseudoChan) : (s.modPseudo pc f).prs = s.prs := rfl
@[simp] theorem modPseudo_csm (pc : Nat) (f : PseudoChan → PseudoChan) : (s.modPseudo pc f).csm = s.csm := rfl
@[simp] theorem modPseudo_pec (pc : Nat) (f : PseudoChan → PseudoChan) : (s.modPseudo pc f).pec = s.pec := rfl
@[simp] theorem modPseudo_waiting (pc : Nat) (f : PseudoChan → PseudoChan) : (s.modPseudo pc f).waiting = s.waiting := rfl
@[simp] theorem modPseudo_stripe (pc : Nat) (f : PseudoChan → PseudoChan) : (s.modPseudo pc f).stripe = s.stripe := rfl
@[simp] theorem modPseudo_lastOutcome (pc : Nat) (f : PseudoChan → PseudoChan) : (s.modPseudo pc f).lastOutcome = s.lastOutcome := rfl
@[simp] theorem modPseudo_port (pc : Nat) (f : PseudoChan → PseudoChan) : (s.modPseudo pc f).port = s.port := rfl
@[simp] theorem modPseudo_shl (pc : Nat) (f : PseudoChan → PseudoChan) : (s.modPseudo pc f).shl = s.shl := rfl
@[simp] theorem modPseudo_nlk (pc : Nat) (f : PseudoChan → PseudoChan) : (s.modPseudo pc f).nlk = s.nlk := rfl
@[simp] theorem modPseudo_cal (pc : Nat) (f : PseudoChan → PseudoChan) : (s.modPseudo pc f).cal = s.cal := rfl
@[simp] theorem modPseudo_bst (pc : Nat) (f : PseudoChan → PseudoChan) : (s.modPseudo pc f).bst = s.bst := rfl
@[simp] theorem modPseudo_pmu (pc : Nat) (f : PseudoChan → PseudoChan) : (s.modPseudo pc f).pmu = s.pmu := rfl

/-! ### What the updates write -/

@[simp] theorem modNlk_nlk (f : Nlk → Nlk) : (s.modNlk f).nlk = f s.nlk := rfl
@[simp] theorem modPort_port (f : Port → Port) : (s.modPort f).port = f s.port := rfl
@[simp] theorem naluDown_linkUp : s.naluDown.nlk.linkUp = false := rfl
@[simp] theorem modStripe_stripe (f : Stripe → Stripe) : (s.modStripe f).stripe = s.stripe.map f := rfl
@[simp] theorem hostWrites_host (hw : Cells) : (s.hostWrites hw).host = Memory.apply s.host hw := rfl
@[simp] theorem fresh_free (w : Nat) : (s.fresh w).2.free = s.free + 1 := rfl
@[simp] theorem startUp_g (quick : Bool) : (s.startUp quick).g = .start := by cases quick <;> rfl
@[simp] theorem startUp_phase (quick : Bool) : (s.startUp quick).phase = .boot := by cases quick <;> rfl
@[simp] theorem startUp_bst (quick : Bool) : (s.startUp quick).bst = { s.bst with wakeAsked := false } := by cases quick <;> rfl
@[simp] theorem send_free (x : Sent) : (s.send x).free = s.free + 1 := rfl
@[simp] theorem wakeSent_nlk (n : Nat) : (s.wakeSent n).nlk = { s.nlk with wakesSent := n } := rfl
@[simp] theorem startUp_quick (quick : Bool) : (s.startUp quick).quick = quick := by cases quick <;> rfl
@[simp] theorem liftFence_fence : s.liftFence.fence = none := rfl

/-! ### `State.fresh` changes `free` alone -/

@[simp] theorem fresh_pending (w : Nat) : (s.fresh w).2.pending = s.pending := rfl
@[simp] theorem fresh_g (w : Nat) : (s.fresh w).2.g = s.g := rfl
@[simp] theorem fresh_phase (w : Nat) : (s.fresh w).2.phase = s.phase := rfl
@[simp] theorem fresh_quick (w : Nat) : (s.fresh w).2.quick = s.quick := rfl
@[simp] theorem fresh_fence (w : Nat) : (s.fresh w).2.fence = s.fence := rfl
@[simp] theorem fresh_aon (w : Nat) : (s.fresh w).2.aon = s.aon := rfl
@[simp] theorem fresh_regs (w : Nat) : (s.fresh w).2.regs = s.regs := rfl
@[simp] theorem fresh_live (w : Nat) : (s.fresh w).2.live = s.live := rfl
@[simp] theorem fresh_latches (w : Nat) : (s.fresh w).2.latches = s.latches := rfl
@[simp] theorem fresh_answer (w : Nat) : (s.fresh w).2.answer = s.answer := rfl
@[simp] theorem fresh_cc (w : Nat) : (s.fresh w).2.cc = s.cc := rfl
@[simp] theorem fresh_host (w : Nat) : (s.fresh w).2.host = s.host := rfl
@[simp] theorem fresh_hbm (w : Nat) : (s.fresh w).2.hbm = s.hbm := rfl
@[simp] theorem fresh_flash (w : Nat) : (s.fresh w).2.flash = s.flash := rfl
@[simp] theorem fresh_tabLive (w : Nat) : (s.fresh w).2.tabLive = s.tabLive := rfl
@[simp] theorem fresh_tabStaged (w : Nat) : (s.fresh w).2.tabStaged = s.tabStaged := rfl
@[simp] theorem fresh_prot (w : Nat) : (s.fresh w).2.prot = s.prot := rfl
@[simp] theorem fresh_cfg (w : Nat) : (s.fresh w).2.cfg = s.cfg := rfl
@[simp] theorem fresh_commits (w : Nat) : (s.fresh w).2.commits = s.commits := rfl
@[simp] theorem fresh_power (w : Nat) : (s.fresh w).2.power = s.power := rfl
@[simp] theorem fresh_hif (w : Nat) : (s.fresh w).2.hif = s.hif := rfl
@[simp] theorem fresh_chans (w : Nat) : (s.fresh w).2.chans = s.chans := rfl
@[simp] theorem fresh_cdc (w : Nat) : (s.fresh w).2.cdc = s.cdc := rfl
@[simp] theorem fresh_scans (w : Nat) : (s.fresh w).2.scans = s.scans := rfl
@[simp] theorem fresh_scanWait (w : Nat) : (s.fresh w).2.scanWait = s.scanWait := rfl
@[simp] theorem fresh_prs (w : Nat) : (s.fresh w).2.prs = s.prs := rfl
@[simp] theorem fresh_csm (w : Nat) : (s.fresh w).2.csm = s.csm := rfl
@[simp] theorem fresh_pec (w : Nat) : (s.fresh w).2.pec = s.pec := rfl
@[simp] theorem fresh_waiting (w : Nat) : (s.fresh w).2.waiting = s.waiting := rfl
@[simp] theorem fresh_stripe (w : Nat) : (s.fresh w).2.stripe = s.stripe := rfl
@[simp] theorem fresh_lastOutcome (w : Nat) : (s.fresh w).2.lastOutcome = s.lastOutcome := rfl
@[simp] theorem fresh_port (w : Nat) : (s.fresh w).2.port = s.port := rfl
@[simp] theorem fresh_shl (w : Nat) : (s.fresh w).2.shl = s.shl := rfl
@[simp] theorem fresh_nlk (w : Nat) : (s.fresh w).2.nlk = s.nlk := rfl
@[simp] theorem fresh_hmc (w : Nat) : (s.fresh w).2.hmc = s.hmc := rfl
@[simp] theorem fresh_cal (w : Nat) : (s.fresh w).2.cal = s.cal := rfl
@[simp] theorem fresh_bst (w : Nat) : (s.fresh w).2.bst = s.bst := rfl
@[simp] theorem fresh_pmu (w : Nat) : (s.fresh w).2.pmu = s.pmu := rfl

end Sys2Proof.Machine
end

