-- ==== Sys2Proof/Laws/Regs.lean ====
section
/-! SUPPORT. Register fields: read after write, every other field unchanged; what counting, sending and posting leave.
-/

namespace Sys2Proof.Machine

variable (s : State)

/-! ## Fields -/

@[simp] theorem reg_setReg_same (f : Field) (v : Nat) : (s.setReg f v).reg f = v % 2 ^ f.width :=
  Sparse.get_set_same _ _ _ _

theorem reg_setReg_ne {f g : Field} (v : Nat) (h : f.key ≠ g.key) : (s.setReg f v).reg g = s.reg g := by
  exact Sparse.get_set_ne (fun _ => g.reset) (fun _ => f.reset) s.regs (v % 2 ^ f.width) h

@[simp] theorem lv_setReg (f g : Field) (v : Nat) : (s.setReg f v).lv g = s.lv g := rfl

@[simp] theorem reg_setLive (f g : Field) (v : Nat) : (s.setLive f v).reg g = s.reg g := rfl

@[simp] theorem lv_setLive_same (f : Field) (v : Nat) : (s.setLive f v).lv f = v % 2 ^ f.width :=
  Sparse.get_set_same _ _ _ _

theorem lv_setLive_ne {f g : Field} (v : Nat) (h : f.key ≠ g.key) : (s.setLive f v).lv g = s.lv g := by
  exact Sparse.get_set_ne (fun _ => g.reset) (fun _ => f.reset) s.live (v % 2 ^ f.width) h

theorem reg_addReg_ne {f g : Field} (n : Nat) (h : f.key ≠ g.key) : (s.addReg f n).reg g = s.reg g :=
  reg_setReg_ne s _ h

/-- A field of a block kept by `keepFields` keeps its value. -/
theorem keepFields_get (p : Nat → Bool) (d : Nat → Nat) (m : Sparse Nat) (k : Nat) (h : p k = true) :
    Sparse.get d (keepFields p m) k = Sparse.get d m k := by
  induction m with
  | nil => rfl
  | cons e m ih =>
    obtain ⟨a, b⟩ := e
    simp only [keepFields, List.filter_cons] at ih ⊢
    by_cases ha : a = k
    · subst ha; simp [h, Sparse.get]
    · by_cases hp : p a = true
      · simp [hp, Sparse.get, ha, ih]
      · simp [hp, Sparse.get, ha, ih]

/-- A field that `keepFields` drops holds its reset value. -/
theorem keepFields_get_dropped (p : Nat → Bool) (d : Nat → Nat) (m : Sparse Nat) (k : Nat) (h : p k = false) :
    Sparse.get d (keepFields p m) k = d k := by
  induction m with
  | nil => rfl
  | cons e m ih =>
    obtain ⟨a, b⟩ := e
    simp only [keepFields, List.filter_cons] at ih ⊢
    by_cases hp : p a = true
    · have ha : a ≠ k := fun ha => by simp [ha, h] at hp
      simp [hp, Sparse.get, ha, ih]
    · simp [hp, ih]

/-! ## What counting, sending and posting leave

`State.quiet` forgets what an event may change (register fields, host memory, the host interface, the Nalu link and the
power state of its block, the counters, the events held in PARK); two states with equal `quiet` agree in everything else. -/

@[simp] theorem setReg_quiet (f : Field) (v : Nat) : (s.setReg f v).quiet = s.quiet := rfl
@[simp] theorem addReg_quiet (f : Field) (n : Nat) : (s.addReg f n).quiet = s.quiet := rfl
@[simp] theorem withHost_quiet (h : Memory) : State.quiet { s with host := h } = s.quiet := rfl
@[simp] theorem modRing_quiet (q : Nat) (f : SubRing → SubRing) : (s.modRing q f).quiet = s.quiet := rfl
@[simp] theorem modEvRing_quiet (e : Nat) (f : EvRing → EvRing) : (s.modEvRing e f).quiet = s.quiet := rfl
@[simp] theorem dropEntry_quiet (q idx : Nat) : (s.dropEntry q idx).quiet = s.quiet := rfl
@[simp] theorem startEntry_quiet (q idx : Nat) : (s.startEntry q idx).quiet = s.quiet := rfl

@[simp] theorem count_quiet (b ev n : Nat) : (s.count b ev n).quiet = s.quiet := by
  unfold State.count
  split <;> rfl

@[simp] theorem slots_quiet (st c n : Nat) : (s.slots st c n).quiet = s.quiet := by
  unfold State.slots
  split <;> rfl

theorem setPwr_quiet (p : PwrState) : (s.setPwr 11 p).quiet = s.quiet := by
  simp only [State.quiet, State.setPwr, setAt, List.set_set]

theorem wakeBlock_quiet : (s.wakeBlock 11).quiet = s.quiet := by
  unfold State.wakeBlock
  split
  · rw [count_quiet, setPwr_quiet]
  · split
    · exact setPwr_quiet s .run
    · rfl

@[simp] theorem naluSend_quiet (m : NaluMsg) : (s.naluSend m).quiet = s.quiet := by
  unfold State.naluSend
  split
  · rw [wakeBlock_quiet, count_quiet]; rfl
  · rfl

@[simp] theorem raiseVector_quiet (v : Nat) : (s.raiseVector v).quiet = s.quiet := by
  unfold State.raiseVector
  split
  · rfl
  · rw [count_quiet]; rfl

@[simp] theorem raiseEq_quiet (e : Nat) : (s.raiseEq e).quiet = s.quiet := by
  unfold State.raiseEq
  rw [raiseVector_quiet, modEvRing_quiet]

@[simp] theorem writeEvent_quiet (e : Nat) (ev : Event) : (s.writeEvent e ev).quiet = s.quiet := by
  unfold State.writeEvent
  simp only []
  generalize (if ev.sq = 0xFF then 0 else (s.ring ev.sq).cons) = cons
  split
  · rw [raiseEq_quiet, count_quiet, count_quiet, modEvRing_quiet, withHost_quiet]
  · rw [count_quiet, count_quiet, modEvRing_quiet, withHost_quiet]

@[simp] theorem holdEvent_quiet (e : Nat) (ev : Event) : (s.holdEvent e ev).quiet = s.quiet := by
  unfold State.holdEvent
  split <;> rfl

@[simp] theorem putEvent_quiet (e : Nat) (ev : Event) : (s.putEvent e ev).quiet = s.quiet := by
  unfold State.putEvent
  split
  · exact writeEvent_quiet s e ev
  · exact holdEvent_quiet s e ev

@[simp] theorem postDev_quiet (code status info d0 d1 : Nat) : (s.postDev code status info d0 d1).quiet = s.quiet := by
  unfold State.postDev
  simp only []
  split
  · rfl
  · rfl
  · split
    · exact count_quiet s _ _ _
    · exact count_quiet s _ _ _
  · split
    · split
      · rw [naluSend_quiet, count_quiet]
      · rw [holdEvent_quiet, count_quiet]
    · rw [putEvent_quiet, count_quiet]

@[simp] theorem postOnce_quiet (code status info d0 d1 : Nat) : (s.postOnce code status info d0 d1).quiet = s.quiet := by
  unfold State.postOnce
  split
  · rfl
  · exact postDev_quiet s _ _ _ _ _

@[simp] theorem complete_quiet (q idx status info d0 d1 : Nat) :
    (s.complete q idx status info d0 d1).quiet = s.quiet := by
  unfold State.complete
  split
  · rfl
  · simp only []
    split
    · rw [putEvent_quiet, dropEntry_quiet]
    · rfl

/-! ### Every field that `State.count` leaves -/

@[simp] theorem count_pending (b ev n : Nat) : (s.count b ev n).pending = s.pending :=
  (congrArg State.pending (count_quiet s b ev n) :)
@[simp] theorem count_g (b ev n : Nat) : (s.count b ev n).g = s.g :=
  (congrArg State.g (count_quiet s b ev n) :)
@[simp] theorem count_phase (b ev n : Nat) : (s.count b ev n).phase = s.phase :=
  (congrArg State.phase (count_quiet s b ev n) :)
@[simp] theorem count_quick (b ev n : Nat) : (s.count b ev n).quick = s.quick :=
  (congrArg State.quick (count_quiet s b ev n) :)
@[simp] theorem count_fence (b ev n : Nat) : (s.count b ev n).fence = s.fence :=
  (congrArg State.fence (count_quiet s b ev n) :)
@[simp] theorem count_aon (b ev n : Nat) : (s.count b ev n).aon = s.aon :=
  (congrArg State.aon (count_quiet s b ev n) :)
@[simp] theorem count_live (b ev n : Nat) : (s.count b ev n).live = s.live :=
  (congrArg State.live (count_quiet s b ev n) :)
@[simp] theorem count_latches (b ev n : Nat) : (s.count b ev n).latches = s.latches :=
  (congrArg State.latches (count_quiet s b ev n) :)
@[simp] theorem count_answer (b ev n : Nat) : (s.count b ev n).answer = s.answer :=
  (congrArg State.answer (count_quiet s b ev n) :)
@[simp] theorem count_cc (b ev n : Nat) : (s.count b ev n).cc = s.cc :=
  (congrArg State.cc (count_quiet s b ev n) :)
@[simp] theorem count_free (b ev n : Nat) : (s.count b ev n).free = s.free :=
  (congrArg State.free (count_quiet s b ev n) :)
@[simp] theorem count_hbm (b ev n : Nat) : (s.count b ev n).hbm = s.hbm :=
  (congrArg State.hbm (count_quiet s b ev n) :)
@[simp] theorem count_flash (b ev n : Nat) : (s.count b ev n).flash = s.flash :=
  (congrArg State.flash (count_quiet s b ev n) :)
@[simp] theorem count_tabLive (b ev n : Nat) : (s.count b ev n).tabLive = s.tabLive :=
  (congrArg State.tabLive (count_quiet s b ev n) :)
@[simp] theorem count_tabStaged (b ev n : Nat) : (s.count b ev n).tabStaged = s.tabStaged :=
  (congrArg State.tabStaged (count_quiet s b ev n) :)
@[simp] theorem count_prot (b ev n : Nat) : (s.count b ev n).prot = s.prot :=
  (congrArg State.prot (count_quiet s b ev n) :)
@[simp] theorem count_commits (b ev n : Nat) : (s.count b ev n).commits = s.commits :=
  (congrArg State.commits (count_quiet s b ev n) :)
@[simp] theorem count_power (b ev n : Nat) : (s.count b ev n).power = s.power := by
  unfold State.count
  split <;> rfl
@[simp] theorem count_chans (b ev n : Nat) : (s.count b ev n).chans = s.chans :=
  (congrArg State.chans (count_quiet s b ev n) :)
@[simp] theorem count_cdc (b ev n : Nat) : (s.count b ev n).cdc = s.cdc :=
  (congrArg State.cdc (count_quiet s b ev n) :)
@[simp] theorem count_scans (b ev n : Nat) : (s.count b ev n).scans = s.scans :=
  (congrArg State.scans (count_quiet s b ev n) :)
@[simp] theorem count_scanWait (b ev n : Nat) : (s.count b ev n).scanWait = s.scanWait :=
  (congrArg State.scanWait (count_quiet s b ev n) :)
@[simp] theorem count_prs (b ev n : Nat) : (s.count b ev n).prs = s.prs :=
  (congrArg State.prs (count_quiet s b ev n) :)
@[simp] theorem count_csm (b ev n : Nat) : (s.count b ev n).csm = s.csm :=
  (congrArg State.csm (count_quiet s b ev n) :)
@[simp] theorem count_pec (b ev n : Nat) : (s.count b ev n).pec = s.pec :=
  (congrArg State.pec (count_quiet s b ev n) :)
@[simp] theorem count_waiting (b ev n : Nat) : (s.count b ev n).waiting = s.waiting :=
  (congrArg State.waiting (count_quiet s b ev n) :)
@[simp] theorem count_stripe (b ev n : Nat) : (s.count b ev n).stripe = s.stripe :=
  (congrArg State.stripe (count_quiet s b ev n) :)
@[simp] theorem count_lastOutcome (b ev n : Nat) : (s.count b ev n).lastOutcome = s.lastOutcome :=
  (congrArg State.lastOutcome (count_quiet s b ev n) :)
@[simp] theorem count_port (b ev n : Nat) : (s.count b ev n).port = s.port :=
  (congrArg State.port (count_quiet s b ev n) :)
@[simp] theorem count_shl (b ev n : Nat) : (s.count b ev n).shl = s.shl :=
  (congrArg State.shl (count_quiet s b ev n) :)
@[simp] theorem count_hmc (b ev n : Nat) : (s.count b ev n).hmc = s.hmc :=
  (congrArg State.hmc (count_quiet s b ev n) :)
@[simp] theorem count_cal (b ev n : Nat) : (s.count b ev n).cal = s.cal :=
  (congrArg State.cal (count_quiet s b ev n) :)

/-! ### Events leave the power states

Only a message of the Nalu link, which wakes its block, changes one. -/

@[simp] theorem raiseVector_power (v : Nat) : (s.raiseVector v).power = s.power := by
  unfold State.raiseVector
  split
  · rfl
  · rw [count_power]

@[simp] theorem raiseEq_power (e : Nat) : (s.raiseEq e).power = s.power := by
  unfold State.raiseEq
  rw [raiseVector_power, modEvRing_power]

@[simp] theorem putEvent_power (e : Nat) (ev : Event) : (s.putEvent e ev).power = s.power := by
  unfold State.putEvent
  split
  · unfold State.writeEvent
    simp only []
    generalize (if ev.sq = 0xFF then 0 else (s.ring ev.sq).cons) = cons
    split
    · rw [raiseEq_power, count_power, count_power, modEvRing_power]
    · rw [count_power, count_power, modEvRing_power]
  · unfold State.holdEvent
    split <;> rfl

/-! ### Every field that `State.naluSend` leaves -/

@[simp] theorem naluSend_pending (m : NaluMsg) : (s.naluSend m).pending = s.pending :=
  (congrArg State.pending (naluSend_quiet s m) :)
@[simp] theorem naluSend_g (m : NaluMsg) : (s.naluSend m).g = s.g :=
  (congrArg State.g (naluSend_quiet s m) :)
@[simp] theorem naluSend_phase (m : NaluMsg) : (s.naluSend m).phase = s.phase :=
  (congrArg State.phase (naluSend_quiet s m) :)
@[simp] theorem naluSend_quick (m : NaluMsg) : (s.naluSend m).quick = s.quick :=
  (congrArg State.quick (naluSend_quiet s m) :)
@[simp] theorem naluSend_fence (m : NaluMsg) : (s.naluSend m).fence = s.fence :=
  (congrArg State.fence (naluSend_quiet s m) :)
@[simp] theorem naluSend_aon (m : NaluMsg) : (s.naluSend m).aon = s.aon :=
  (congrArg State.aon (naluSend_quiet s m) :)
@[simp] theorem naluSend_live (m : NaluMsg) : (s.naluSend m).live = s.live :=
  (congrArg State.live (naluSend_quiet s m) :)
@[simp] theorem naluSend_latches (m : NaluMsg) : (s.naluSend m).latches = s.latches :=
  (congrArg State.latches (naluSend_quiet s m) :)
@[simp] theorem naluSend_answer (m : NaluMsg) : (s.naluSend m).answer = s.answer :=
  (congrArg State.answer (naluSend_quiet s m) :)
@[simp] theorem naluSend_cc (m : NaluMsg) : (s.naluSend m).cc = s.cc :=
  (congrArg State.cc (naluSend_quiet s m) :)
@[simp] theorem naluSend_free (m : NaluMsg) : (s.naluSend m).free = s.free :=
  (congrArg State.free (naluSend_quiet s m) :)
@[simp] theorem naluSend_hbm (m : NaluMsg) : (s.naluSend m).hbm = s.hbm :=
  (congrArg State.hbm (naluSend_quiet s m) :)
@[simp] theorem naluSend_flash (m : NaluMsg) : (s.naluSend m).flash = s.flash :=
  (congrArg State.flash (naluSend_quiet s m) :)
@[simp] theorem naluSend_tabLive (m : NaluMsg) : (s.naluSend m).tabLive = s.tabLive :=
  (congrArg State.tabLive (naluSend_quiet s m) :)
@[simp] theorem naluSend_tabStaged (m : NaluMsg) : (s.naluSend m).tabStaged = s.tabStaged :=
  (congrArg State.tabStaged (naluSend_quiet s m) :)
@[simp] theorem naluSend_prot (m : NaluMsg) : (s.naluSend m).prot = s.prot :=
  (congrArg State.prot (naluSend_quiet s m) :)
@[simp] theorem naluSend_commits (m : NaluMsg) : (s.naluSend m).commits = s.commits :=
  (congrArg State.commits (naluSend_quiet s m) :)
@[simp] theorem naluSend_chans (m : NaluMsg) : (s.naluSend m).chans = s.chans :=
  (congrArg State.chans (naluSend_quiet s m) :)
@[simp] theorem naluSend_cdc (m : NaluMsg) : (s.naluSend m).cdc = s.cdc :=
  (congrArg State.cdc (naluSend_quiet s m) :)
@[simp] theorem naluSend_scans (m : NaluMsg) : (s.naluSend m).scans = s.scans :=
  (congrArg State.scans (naluSend_quiet s m) :)
@[simp] theorem naluSend_scanWait (m : NaluMsg) : (s.naluSend m).scanWait = s.scanWait :=
  (congrArg State.scanWait (naluSend_quiet s m) :)
@[simp] theorem naluSend_prs (m : NaluMsg) : (s.naluSend m).prs = s.prs :=
  (congrArg State.prs (naluSend_quiet s m) :)
@[simp] theorem naluSend_csm (m : NaluMsg) : (s.naluSend m).csm = s.csm :=
  (congrArg State.csm (naluSend_quiet s m) :)
@[simp] theorem naluSend_pec (m : NaluMsg) : (s.naluSend m).pec = s.pec :=
  (congrArg State.pec (naluSend_quiet s m) :)
@[simp] theorem naluSend_waiting (m : NaluMsg) : (s.naluSend m).waiting = s.waiting :=
  (congrArg State.waiting (naluSend_quiet s m) :)
@[simp] theorem naluSend_stripe (m : NaluMsg) : (s.naluSend m).stripe = s.stripe :=
  (congrArg State.stripe (naluSend_quiet s m) :)
@[simp] theorem naluSend_lastOutcome (m : NaluMsg) : (s.naluSend m).lastOutcome = s.lastOutcome :=
  (congrArg State.lastOutcome (naluSend_quiet s m) :)
@[simp] theorem naluSend_port (m : NaluMsg) : (s.naluSend m).port = s.port :=
  (congrArg State.port (naluSend_quiet s m) :)
@[simp] theorem naluSend_shl (m : NaluMsg) : (s.naluSend m).shl = s.shl :=
  (congrArg State.shl (naluSend_quiet s m) :)
@[simp] theorem naluSend_hmc (m : NaluMsg) : (s.naluSend m).hmc = s.hmc :=
  (congrArg State.hmc (naluSend_quiet s m) :)
@[simp] theorem naluSend_cal (m : NaluMsg) : (s.naluSend m).cal = s.cal :=
  (congrArg State.cal (naluSend_quiet s m) :)

/-! ### Every field that `State.putEvent` leaves -/

@[simp] theorem putEvent_pending (e : Nat) (ev : Event) : (s.putEvent e ev).pending = s.pending :=
  (congrArg State.pending (putEvent_quiet s e ev) :)
@[simp] theorem putEvent_g (e : Nat) (ev : Event) : (s.putEvent e ev).g = s.g :=
  (congrArg State.g (putEvent_quiet s e ev) :)
@[simp] theorem putEvent_phase (e : Nat) (ev : Event) : (s.putEvent e ev).phase = s.phase :=
  (congrArg State.phase (putEvent_quiet s e ev) :)
@[simp] theorem putEvent_quick (e : Nat) (ev : Event) : (s.putEvent e ev).quick = s.quick :=
  (congrArg State.quick (putEvent_quiet s e ev) :)
@[simp] theorem putEvent_fence (e : Nat) (ev : Event) : (s.putEvent e ev).fence = s.fence :=
  (congrArg State.fence (putEvent_quiet s e ev) :)
@[simp] theorem putEvent_aon (e : Nat) (ev : Event) : (s.putEvent e ev).aon = s.aon :=
  (congrArg State.aon (putEvent_quiet s e ev) :)
@[simp] theorem putEvent_live (e : Nat) (ev : Event) : (s.putEvent e ev).live = s.live :=
  (congrArg State.live (putEvent_quiet s e ev) :)
@[simp] theorem putEvent_latches (e : Nat) (ev : Event) : (s.putEvent e ev).latches = s.latches :=
  (congrArg State.latches (putEvent_quiet s e ev) :)
@[simp] theorem putEvent_answer (e : Nat) (ev : Event) : (s.putEvent e ev).answer = s.answer :=
  (congrArg State.answer (putEvent_quiet s e ev) :)
@[simp] theorem putEvent_cc (e : Nat) (ev : Event) : (s.putEvent e ev).cc = s.cc :=
  (congrArg State.cc (putEvent_quiet s e ev) :)
@[simp] theorem putEvent_free (e : Nat) (ev : Event) : (s.putEvent e ev).free = s.free :=
  (congrArg State.free (putEvent_quiet s e ev) :)
@[simp] theorem putEvent_hbm (e : Nat) (ev : Event) : (s.putEvent e ev).hbm = s.hbm :=
  (congrArg State.hbm (putEvent_quiet s e ev) :)
@[simp] theorem putEvent_flash (e : Nat) (ev : Event) : (s.putEvent e ev).flash = s.flash :=
  (congrArg State.flash (putEvent_quiet s e ev) :)
@[simp] theorem putEvent_tabLive (e : Nat) (ev : Event) : (s.putEvent e ev).tabLive = s.tabLive :=
  (congrArg State.tabLive (putEvent_quiet s e ev) :)
@[simp] theorem putEvent_tabStaged (e : Nat) (ev : Event) : (s.putEvent e ev).tabStaged = s.tabStaged :=
  (congrArg State.tabStaged (putEvent_quiet s e ev) :)
@[simp] theorem putEvent_prot (e : Nat) (ev : Event) : (s.putEvent e ev).prot = s.prot :=
  (congrArg State.prot (putEvent_quiet s e ev) :)
@[simp] theorem putEvent_commits (e : Nat) (ev : Event) : (s.putEvent e ev).commits = s.commits :=
  (congrArg State.commits (putEvent_quiet s e ev) :)
@[simp] theorem putEvent_chans (e : Nat) (ev : Event) : (s.putEvent e ev).chans = s.chans :=
  (congrArg State.chans (putEvent_quiet s e ev) :)
@[simp] theorem putEvent_cdc (e : Nat) (ev : Event) : (s.putEvent e ev).cdc = s.cdc :=
  (congrArg State.cdc (putEvent_quiet s e ev) :)
@[simp] theorem putEvent_scans (e : Nat) (ev : Event) : (s.putEvent e ev).scans = s.scans :=
  (congrArg State.scans (putEvent_quiet s e ev) :)
@[simp] theorem putEvent_scanWait (e : Nat) (ev : Event) : (s.putEvent e ev).scanWait = s.scanWait :=
  (congrArg State.scanWait (putEvent_quiet s e ev) :)
@[simp] theorem putEvent_prs (e : Nat) (ev : Event) : (s.putEvent e ev).prs = s.prs :=
  (congrArg State.prs (putEvent_quiet s e ev) :)
@[simp] theorem putEvent_csm (e : Nat) (ev : Event) : (s.putEvent e ev).csm = s.csm :=
  (congrArg State.csm (putEvent_quiet s e ev) :)
@[simp] theorem putEvent_pec (e : Nat) (ev : Event) : (s.putEvent e ev).pec = s.pec :=
  (congrArg State.pec (putEvent_quiet s e ev) :)
@[simp] theorem putEvent_waiting (e : Nat) (ev : Event) : (s.putEvent e ev).waiting = s.waiting :=
  (congrArg State.waiting (putEvent_quiet s e ev) :)
@[simp] theorem putEvent_stripe (e : Nat) (ev : Event) : (s.putEvent e ev).stripe = s.stripe :=
  (congrArg State.stripe (putEvent_quiet s e ev) :)
@[simp] theorem putEvent_lastOutcome (e : Nat) (ev : Event) : (s.putEvent e ev).lastOutcome = s.lastOutcome :=
  (congrArg State.lastOutcome (putEvent_quiet s e ev) :)
@[simp] theorem putEvent_port (e : Nat) (ev : Event) : (s.putEvent e ev).port = s.port :=
  (congrArg State.port (putEvent_quiet s e ev) :)
@[simp] theorem putEvent_shl (e : Nat) (ev : Event) : (s.putEvent e ev).shl = s.shl :=
  (congrArg State.shl (putEvent_quiet s e ev) :)
@[simp] theorem putEvent_hmc (e : Nat) (ev : Event) : (s.putEvent e ev).hmc = s.hmc :=
  (congrArg State.hmc (putEvent_quiet s e ev) :)
@[simp] theorem putEvent_cal (e : Nat) (ev : Event) : (s.putEvent e ev).cal = s.cal :=
  (congrArg State.cal (putEvent_quiet s e ev) :)

/-! ### Every field that `State.postDev` leaves -/

@[simp] theorem postDev_pending (c st i x y : Nat) : (s.postDev c st i x y).pending = s.pending :=
  (congrArg State.pending (postDev_quiet s c st i x y) :)
@[simp] theorem postDev_g (c st i x y : Nat) : (s.postDev c st i x y).g = s.g :=
  (congrArg State.g (postDev_quiet s c st i x y) :)
@[simp] theorem postDev_phase (c st i x y : Nat) : (s.postDev c st i x y).phase = s.phase :=
  (congrArg State.phase (postDev_quiet s c st i x y) :)
@[simp] theorem postDev_quick (c st i x y : Nat) : (s.postDev c st i x y).quick = s.quick :=
  (congrArg State.quick (postDev_quiet s c st i x y) :)
@[simp] theorem postDev_fence (c st i x y : Nat) : (s.postDev c st i x y).fence = s.fence :=
  (congrArg State.fence (postDev_quiet s c st i x y) :)
@[simp] theorem postDev_aon (c st i x y : Nat) : (s.postDev c st i x y).aon = s.aon :=
  (congrArg State.aon (postDev_quiet s c st i x y) :)
@[simp] theorem postDev_live (c st i x y : Nat) : (s.postDev c st i x y).live = s.live :=
  (congrArg State.live (postDev_quiet s c st i x y) :)
@[simp] theorem postDev_latches (c st i x y : Nat) : (s.postDev c st i x y).latches = s.latches :=
  (congrArg State.latches (postDev_quiet s c st i x y) :)
@[simp] theorem postDev_answer (c st i x y : Nat) : (s.postDev c st i x y).answer = s.answer :=
  (congrArg State.answer (postDev_quiet s c st i x y) :)
@[simp] theorem postDev_cc (c st i x y : Nat) : (s.postDev c st i x y).cc = s.cc :=
  (congrArg State.cc (postDev_quiet s c st i x y) :)
@[simp] theorem postDev_free (c st i x y : Nat) : (s.postDev c st i x y).free = s.free :=
  (congrArg State.free (postDev_quiet s c st i x y) :)
@[simp] theorem postDev_hbm (c st i x y : Nat) : (s.postDev c st i x y).hbm = s.hbm :=
  (congrArg State.hbm (postDev_quiet s c st i x y) :)
@[simp] theorem postDev_flash (c st i x y : Nat) : (s.postDev c st i x y).flash = s.flash :=
  (congrArg State.flash (postDev_quiet s c st i x y) :)
@[simp] theorem postDev_tabLive (c st i x y : Nat) : (s.postDev c st i x y).tabLive = s.tabLive :=
  (congrArg State.tabLive (postDev_quiet s c st i x y) :)
@[simp] theorem postDev_tabStaged (c st i x y : Nat) : (s.postDev c st i x y).tabStaged = s.tabStaged :=
  (congrArg State.tabStaged (postDev_quiet s c st i x y) :)
@[simp] theorem postDev_prot (c st i x y : Nat) : (s.postDev c st i x y).prot = s.prot :=
  (congrArg State.prot (postDev_quiet s c st i x y) :)
@[simp] theorem postDev_commits (c st i x y : Nat) : (s.postDev c st i x y).commits = s.commits :=
  (congrArg State.commits (postDev_quiet s c st i x y) :)
@[simp] theorem postDev_chans (c st i x y : Nat) : (s.postDev c st i x y).chans = s.chans :=
  (congrArg State.chans (postDev_quiet s c st i x y) :)
@[simp] theorem postDev_cdc (c st i x y : Nat) : (s.postDev c st i x y).cdc = s.cdc :=
  (congrArg State.cdc (postDev_quiet s c st i x y) :)
@[simp] theorem postDev_scans (c st i x y : Nat) : (s.postDev c st i x y).scans = s.scans :=
  (congrArg State.scans (postDev_quiet s c st i x y) :)
@[simp] theorem postDev_scanWait (c st i x y : Nat) : (s.postDev c st i x y).scanWait = s.scanWait :=
  (congrArg State.scanWait (postDev_quiet s c st i x y) :)
@[simp] theorem postDev_prs (c st i x y : Nat) : (s.postDev c st i x y).prs = s.prs :=
  (congrArg State.prs (postDev_quiet s c st i x y) :)
@[simp] theorem postDev_csm (c st i x y : Nat) : (s.postDev c st i x y).csm = s.csm :=
  (congrArg State.csm (postDev_quiet s c st i x y) :)
@[simp] theorem postDev_pec (c st i x y : Nat) : (s.postDev c st i x y).pec = s.pec :=
  (congrArg State.pec (postDev_quiet s c st i x y) :)
@[simp] theorem postDev_waiting (c st i x y : Nat) : (s.postDev c st i x y).waiting = s.waiting :=
  (congrArg State.waiting (postDev_quiet s c st i x y) :)
@[simp] theorem postDev_stripe (c st i x y : Nat) : (s.postDev c st i x y).stripe = s.stripe :=
  (congrArg State.stripe (postDev_quiet s c st i x y) :)
@[simp] theorem postDev_lastOutcome (c st i x y : Nat) : (s.postDev c st i x y).lastOutcome = s.lastOutcome :=
  (congrArg State.lastOutcome (postDev_quiet s c st i x y) :)
@[simp] theorem postDev_port (c st i x y : Nat) : (s.postDev c st i x y).port = s.port :=
  (congrArg State.port (postDev_quiet s c st i x y) :)
@[simp] theorem postDev_shl (c st i x y : Nat) : (s.postDev c st i x y).shl = s.shl :=
  (congrArg State.shl (postDev_quiet s c st i x y) :)
@[simp] theorem postDev_hmc (c st i x y : Nat) : (s.postDev c st i x y).hmc = s.hmc :=
  (congrArg State.hmc (postDev_quiet s c st i x y) :)
@[simp] theorem postDev_cal (c st i x y : Nat) : (s.postDev c st i x y).cal = s.cal :=
  (congrArg State.cal (postDev_quiet s c st i x y) :)

/-! ### Every field that `State.postOnce` leaves -/

@[simp] theorem postOnce_pending (c st i x y : Nat) : (s.postOnce c st i x y).pending = s.pending :=
  (congrArg State.pending (postOnce_quiet s c st i x y) :)
@[simp] theorem postOnce_g (c st i x y : Nat) : (s.postOnce c st i x y).g = s.g :=
  (congrArg State.g (postOnce_quiet s c st i x y) :)
@[simp] theorem postOnce_phase (c st i x y : Nat) : (s.postOnce c st i x y).phase = s.phase :=
  (congrArg State.phase (postOnce_quiet s c st i x y) :)
@[simp] theorem postOnce_quick (c st i x y : Nat) : (s.postOnce c st i x y).quick = s.quick :=
  (congrArg State.quick (postOnce_quiet s c st i x y) :)
@[simp] theorem postOnce_fence (c st i x y : Nat) : (s.postOnce c st i x y).fence = s.fence :=
  (congrArg State.fence (postOnce_quiet s c st i x y) :)
@[simp] theorem postOnce_aon (c st i x y : Nat) : (s.postOnce c st i x y).aon = s.aon :=
  (congrArg State.aon (postOnce_quiet s c st i x y) :)
@[simp] theorem postOnce_live (c st i x y : Nat) : (s.postOnce c st i x y).live = s.live :=
  (congrArg State.live (postOnce_quiet s c st i x y) :)
@[simp] theorem postOnce_latches (c st i x y : Nat) : (s.postOnce c st i x y).latches = s.latches :=
  (congrArg State.latches (postOnce_quiet s c st i x y) :)
@[simp] theorem postOnce_answer (c st i x y : Nat) : (s.postOnce c st i x y).answer = s.answer :=
  (congrArg State.answer (postOnce_quiet s c st i x y) :)
@[simp] theorem postOnce_cc (c st i x y : Nat) : (s.postOnce c st i x y).cc = s.cc :=
  (congrArg State.cc (postOnce_quiet s c st i x y) :)
@[simp] theorem postOnce_free (c st i x y : Nat) : (s.postOnce c st i x y).free = s.free :=
  (congrArg State.free (postOnce_quiet s c st i x y) :)
@[simp] theorem postOnce_hbm (c st i x y : Nat) : (s.postOnce c st i x y).hbm = s.hbm :=
  (congrArg State.hbm (postOnce_quiet s c st i x y) :)
@[simp] theorem postOnce_flash (c st i x y : Nat) : (s.postOnce c st i x y).flash = s.flash :=
  (congrArg State.flash (postOnce_quiet s c st i x y) :)
@[simp] theorem postOnce_tabLive (c st i x y : Nat) : (s.postOnce c st i x y).tabLive = s.tabLive :=
  (congrArg State.tabLive (postOnce_quiet s c st i x y) :)
@[simp] theorem postOnce_tabStaged (c st i x y : Nat) : (s.postOnce c st i x y).tabStaged = s.tabStaged :=
  (congrArg State.tabStaged (postOnce_quiet s c st i x y) :)
@[simp] theorem postOnce_prot (c st i x y : Nat) : (s.postOnce c st i x y).prot = s.prot :=
  (congrArg State.prot (postOnce_quiet s c st i x y) :)
@[simp] theorem postOnce_commits (c st i x y : Nat) : (s.postOnce c st i x y).commits = s.commits :=
  (congrArg State.commits (postOnce_quiet s c st i x y) :)
@[simp] theorem postOnce_chans (c st i x y : Nat) : (s.postOnce c st i x y).chans = s.chans :=
  (congrArg State.chans (postOnce_quiet s c st i x y) :)
@[simp] theorem postOnce_cdc (c st i x y : Nat) : (s.postOnce c st i x y).cdc = s.cdc :=
  (congrArg State.cdc (postOnce_quiet s c st i x y) :)
@[simp] theorem postOnce_scans (c st i x y : Nat) : (s.postOnce c st i x y).scans = s.scans :=
  (congrArg State.scans (postOnce_quiet s c st i x y) :)
@[simp] theorem postOnce_scanWait (c st i x y : Nat) : (s.postOnce c st i x y).scanWait = s.scanWait :=
  (congrArg State.scanWait (postOnce_quiet s c st i x y) :)
@[simp] theorem postOnce_prs (c st i x y : Nat) : (s.postOnce c st i x y).prs = s.prs :=
  (congrArg State.prs (postOnce_quiet s c st i x y) :)
@[simp] theorem postOnce_csm (c st i x y : Nat) : (s.postOnce c st i x y).csm = s.csm :=
  (congrArg State.csm (postOnce_quiet s c st i x y) :)
@[simp] theorem postOnce_pec (c st i x y : Nat) : (s.postOnce c st i x y).pec = s.pec :=
  (congrArg State.pec (postOnce_quiet s c st i x y) :)
@[simp] theorem postOnce_waiting (c st i x y : Nat) : (s.postOnce c st i x y).waiting = s.waiting :=
  (congrArg State.waiting (postOnce_quiet s c st i x y) :)
@[simp] theorem postOnce_stripe (c st i x y : Nat) : (s.postOnce c st i x y).stripe = s.stripe :=
  (congrArg State.stripe (postOnce_quiet s c st i x y) :)
@[simp] theorem postOnce_lastOutcome (c st i x y : Nat) : (s.postOnce c st i x y).lastOutcome = s.lastOutcome :=
  (congrArg State.lastOutcome (postOnce_quiet s c st i x y) :)
@[simp] theorem postOnce_port (c st i x y : Nat) : (s.postOnce c st i x y).port = s.port :=
  (congrArg State.port (postOnce_quiet s c st i x y) :)
@[simp] theorem postOnce_shl (c st i x y : Nat) : (s.postOnce c st i x y).shl = s.shl :=
  (congrArg State.shl (postOnce_quiet s c st i x y) :)
@[simp] theorem postOnce_hmc (c st i x y : Nat) : (s.postOnce c st i x y).hmc = s.hmc :=
  (congrArg State.hmc (postOnce_quiet s c st i x y) :)
@[simp] theorem postOnce_cal (c st i x y : Nat) : (s.postOnce c st i x y).cal = s.cal :=
  (congrArg State.cal (postOnce_quiet s c st i x y) :)

/-! ### Every field that `State.complete` leaves -/

@[simp] theorem complete_pending (q idx st i x y : Nat) : (s.complete q idx st i x y).pending = s.pending :=
  (congrArg State.pending (complete_quiet s q idx st i x y) :)
@[simp] theorem complete_g (q idx st i x y : Nat) : (s.complete q idx st i x y).g = s.g :=
  (congrArg State.g (complete_quiet s q idx st i x y) :)
@[simp] theorem complete_phase (q idx st i x y : Nat) : (s.complete q idx st i x y).phase = s.phase :=
  (congrArg State.phase (complete_quiet s q idx st i x y) :)
@[simp] theorem complete_quick (q idx st i x y : Nat) : (s.complete q idx st i x y).quick = s.quick :=
  (congrArg State.quick (complete_quiet s q idx st i x y) :)
@[simp] theorem complete_fence (q idx st i x y : Nat) : (s.complete q idx st i x y).fence = s.fence :=
  (congrArg State.fence (complete_quiet s q idx st i x y) :)
@[simp] theorem complete_aon (q idx st i x y : Nat) : (s.complete q idx st i x y).aon = s.aon :=
  (congrArg State.aon (complete_quiet s q idx st i x y) :)
@[simp] theorem complete_live (q idx st i x y : Nat) : (s.complete q idx st i x y).live = s.live :=
  (congrArg State.live (complete_quiet s q idx st i x y) :)
@[simp] theorem complete_latches (q idx st i x y : Nat) : (s.complete q idx st i x y).latches = s.latches :=
  (congrArg State.latches (complete_quiet s q idx st i x y) :)
@[simp] theorem complete_answer (q idx st i x y : Nat) : (s.complete q idx st i x y).answer = s.answer :=
  (congrArg State.answer (complete_quiet s q idx st i x y) :)
@[simp] theorem complete_cc (q idx st i x y : Nat) : (s.complete q idx st i x y).cc = s.cc :=
  (congrArg State.cc (complete_quiet s q idx st i x y) :)
@[simp] theorem complete_free (q idx st i x y : Nat) : (s.complete q idx st i x y).free = s.free :=
  (congrArg State.free (complete_quiet s q idx st i x y) :)
@[simp] theorem complete_hbm (q idx st i x y : Nat) : (s.complete q idx st i x y).hbm = s.hbm :=
  (congrArg State.hbm (complete_quiet s q idx st i x y) :)
@[simp] theorem complete_flash (q idx st i x y : Nat) : (s.complete q idx st i x y).flash = s.flash :=
  (congrArg State.flash (complete_quiet s q idx st i x y) :)
@[simp] theorem complete_tabLive (q idx st i x y : Nat) : (s.complete q idx st i x y).tabLive = s.tabLive :=
  (congrArg State.tabLive (complete_quiet s q idx st i x y) :)
@[simp] theorem complete_tabStaged (q idx st i x y : Nat) : (s.complete q idx st i x y).tabStaged = s.tabStaged :=
  (congrArg State.tabStaged (complete_quiet s q idx st i x y) :)
@[simp] theorem complete_prot (q idx st i x y : Nat) : (s.complete q idx st i x y).prot = s.prot :=
  (congrArg State.prot (complete_quiet s q idx st i x y) :)
@[simp] theorem complete_commits (q idx st i x y : Nat) : (s.complete q idx st i x y).commits = s.commits :=
  (congrArg State.commits (complete_quiet s q idx st i x y) :)
@[simp] theorem complete_power (q idx st i x y : Nat) : (s.complete q idx st i x y).power = s.power := by
  unfold State.complete
  split
  · rfl
  · simp only []
    split
    · rw [putEvent_power, dropEntry_power]
    · rfl
@[simp] theorem complete_chans (q idx st i x y : Nat) : (s.complete q idx st i x y).chans = s.chans :=
  (congrArg State.chans (complete_quiet s q idx st i x y) :)
@[simp] theorem complete_cdc (q idx st i x y : Nat) : (s.complete q idx st i x y).cdc = s.cdc :=
  (congrArg State.cdc (complete_quiet s q idx st i x y) :)
@[simp] theorem complete_scans (q idx st i x y : Nat) : (s.complete q idx st i x y).scans = s.scans :=
  (congrArg State.scans (complete_quiet s q idx st i x y) :)
@[simp] theorem complete_scanWait (q idx st i x y : Nat) : (s.complete q idx st i x y).scanWait = s.scanWait :=
  (congrArg State.scanWait (complete_quiet s q idx st i x y) :)
@[simp] theorem complete_prs (q idx st i x y : Nat) : (s.complete q idx st i x y).prs = s.prs :=
  (congrArg State.prs (complete_quiet s q idx st i x y) :)
@[simp] theorem complete_csm (q idx st i x y : Nat) : (s.complete q idx st i x y).csm = s.csm :=
  (congrArg State.csm (complete_quiet s q idx st i x y) :)
@[simp] theorem complete_pec (q idx st i x y : Nat) : (s.complete q idx st i x y).pec = s.pec :=
  (congrArg State.pec (complete_quiet s q idx st i x y) :)
@[simp] theorem complete_waiting (q idx st i x y : Nat) : (s.complete q idx st i x y).waiting = s.waiting :=
  (congrArg State.waiting (complete_quiet s q idx st i x y) :)
@[simp] theorem complete_stripe (q idx st i x y : Nat) : (s.complete q idx st i x y).stripe = s.stripe :=
  (congrArg State.stripe (complete_quiet s q idx st i x y) :)
@[simp] theorem complete_lastOutcome (q idx st i x y : Nat) : (s.complete q idx st i x y).lastOutcome = s.lastOutcome :=
  (congrArg State.lastOutcome (complete_quiet s q idx st i x y) :)
@[simp] theorem complete_port (q idx st i x y : Nat) : (s.complete q idx st i x y).port = s.port :=
  (congrArg State.port (complete_quiet s q idx st i x y) :)
@[simp] theorem complete_shl (q idx st i x y : Nat) : (s.complete q idx st i x y).shl = s.shl :=
  (congrArg State.shl (complete_quiet s q idx st i x y) :)
@[simp] theorem complete_hmc (q idx st i x y : Nat) : (s.complete q idx st i x y).hmc = s.hmc :=
  (congrArg State.hmc (complete_quiet s q idx st i x y) :)
@[simp] theorem complete_cal (q idx st i x y : Nat) : (s.complete q idx st i x y).cal = s.cal :=
  (congrArg State.cal (complete_quiet s q idx st i x y) :)

/-! ## Host memory under events -/

/-- A written event changes host memory in the 32 bytes of its slot alone. -/
theorem writeEvent_host (e : Nat) (ev : Event) : ∃ bs : List Byte, bs.length = 32 ∧
    (s.writeEvent e ev).host = Memory.write s.host (s.evRing e).slot bs := by
  have hcount (t : State) (b k n : Nat) : (t.count b k n).host = t.host := by unfold State.count; split <;> rfl
  have hraise (t : State) (v : Nat) : (t.raiseVector v).host = t.host := by
    unfold State.raiseVector; split
    · rfl
    · rw [hcount]
  refine ⟨eventBytes ev (if ev.sq = 0xFF then 0 else (s.ring ev.sq).cons) s.timeUs (s.evRing e).phase, by simp [eventBytes], ?_⟩
  unfold State.writeEvent
  simp only []
  generalize (if ev.sq = 0xFF then 0 else (s.ring ev.sq).cons) = cons
  split
  · unfold State.raiseEq
    rw [hraise, modEvRing_host, hcount, hcount]
    rfl
  · rw [hcount, hcount]
    rfl

/-- An event that is posted changes host memory at most in the 32 bytes of the slot of its ring. -/
theorem putEvent_host (e : Nat) (ev : Event) (a : Nat) (h : a < (s.evRing e).slot ∨ (s.evRing e).slot + 32 ≤ a) :
    Memory.byte (s.putEvent e ev).host a = Memory.byte s.host a := by
  unfold State.putEvent
  split
  · obtain ⟨bs, hl, hh⟩ := writeEvent_host s e ev
    rw [hh, Memory.byte_write_outside _ _ _ _ (by omega)]
  · unfold State.holdEvent
    split <;> rfl

end Sys2Proof.Machine
end

