-- ==== Sys2Proof/Laws/Frames.lean ====
section
/-! SUPPORT. The frame of every shared operation: `Keeps s t` says that HBM3 is unchanged and that host memory and
serial flash keep their canonical form. One lemma per operation of Events.lean and Ops.lean; they compose by
`Keeps.trans`. -/

namespace Sys2Proof.Machine

/-- HBM3 is unchanged; host memory and serial flash keep their canonical form. -/
def Keeps (s t : State) : Prop :=
  t.hbm = s.hbm ∧ (Memory.wf s.host = true → Memory.wf t.host = true) ∧
  (Sparse.wf flashByte s.flash = true → Sparse.wf flashByte t.flash = true)

theorem Keeps.refl (s : State) : Keeps s s := ⟨rfl, id, id⟩

theorem Keeps.trans {s t u : State} (h : Keeps s t) (k : Keeps t u) : Keeps s u :=
  ⟨k.1.trans h.1, k.2.1 ∘ h.2.1, k.2.2 ∘ h.2.2⟩

/-- An operation that leaves the three memories as they are. -/
theorem Keeps.of_same {s t : State} (h : SameMemories s t) : Keeps s t :=
  ⟨h.2.1, by rw [h.1]; exact id, by rw [h.2.2]; exact id⟩

/-- A step that keeps HBM3 and the forms keeps the canonical memories. -/
theorem Keeps.memories {s t : State} (h : Keeps s t) (w : s.MemoriesWf) : t.MemoriesWf :=
  ⟨h.2.1 w.1, by rw [h.1]; exact w.2.1, h.2.2 w.2.2⟩

/-- One branch or the other. -/
theorem Keeps.ite {s t u : State} {c : Prop} [Decidable c] (h : c → Keeps s t) (k : ¬c → Keeps s u) :
    Keeps s (if c then t else u) := by
  split
  · next e => exact h e
  · next e => exact k e

/-- A fold of operations that keep. -/
theorem Keeps.foldl {α : Type} (f : State → α → State) (hf : ∀ s a, Keeps s (f s a)) (l : List α) :
    ∀ s, Keeps s (l.foldl f s) := by
  induction l with
  | nil => exact Keeps.refl
  | cons a l ih => intro s; exact (hf s a).trans (ih _)

variable (s : State)

theorem keeps_setReg (f : Field) (v : Nat) : Keeps s (s.setReg f v) := .of_same ⟨rfl, rfl, rfl⟩
theorem keeps_addReg (f : Field) (n : Nat) : Keeps s (s.addReg f n) := .of_same ⟨rfl, rfl, rfl⟩
theorem keeps_setLive (f : Field) (v : Nat) : Keeps s (s.setLive f v) := .of_same ⟨rfl, rfl, rfl⟩
theorem keeps_fresh (w : Nat) : Keeps s (s.fresh w).2 := .of_same ⟨rfl, rfl, rfl⟩
theorem keeps_modRing (q : Nat) (f : SubRing → SubRing) : Keeps s (s.modRing q f) := .of_same ⟨rfl, rfl, rfl⟩
theorem keeps_modEvRing (e : Nat) (f : EvRing → EvRing) : Keeps s (s.modEvRing e f) := .of_same ⟨rfl, rfl, rfl⟩
theorem keeps_modChan (ch : Nat) (f : Chan → Chan) : Keeps s (s.modChan ch f) := .of_same ⟨rfl, rfl, rfl⟩
theorem keeps_dropEntry (q idx : Nat) : Keeps s (s.dropEntry q idx) := .of_same ⟨rfl, rfl, rfl⟩
theorem keeps_startEntry (q idx : Nat) : Keeps s (s.startEntry q idx) := .of_same ⟨rfl, rfl, rfl⟩
theorem keeps_modStripe (f : Stripe → Stripe) : Keeps s (s.modStripe f) := .of_same ⟨rfl, rfl, rfl⟩

theorem keeps_count (b ev n : Nat) : Keeps s (s.count b ev n) := by
  unfold State.count
  exact .ite (fun _ => .of_same ⟨rfl, rfl, rfl⟩) (fun _ => .refl s)

theorem keeps_slots (st c n : Nat) : Keeps s (s.slots st c n) := by
  unfold State.slots
  exact .ite (fun _ => .of_same ⟨rfl, rfl, rfl⟩) (fun _ => .refl s)

theorem keeps_setPwr (k : Nat) (p : PwrState) : Keeps s (s.setPwr k p) := .of_same ⟨rfl, rfl, rfl⟩

theorem keeps_wakeBlock (k : Nat) : Keeps s (s.wakeBlock k) := by
  unfold State.wakeBlock
  exact .ite (fun _ => (keeps_setPwr _ _ _).trans (keeps_count _ _ _ _)) (fun _ => .ite (fun _ => keeps_setPwr _ _ _)
    (fun _ => .refl s))

theorem keeps_wakeBlocks (p : Nat → Bool) : Keeps s (s.wakeBlocks p) :=
  Keeps.foldl _ (fun s k => .ite (fun _ => keeps_wakeBlock s k) (fun _ => .refl s)) _ s

theorem keeps_naluSend (m : NaluMsg) : Keeps s (s.naluSend m) := by
  unfold State.naluSend
  refine .ite (fun _ => Keeps.trans ?_ (keeps_wakeBlock _ 11)) (fun _ => .refl s)
  exact Keeps.trans (.of_same ⟨rfl, rfl, rfl⟩) (keeps_count _ 11 0x10 1)

/-- A write into host memory. -/
theorem keeps_host (a : Nat) (bs : List Byte) : Keeps s { s with host := Memory.write s.host a bs } :=
  ⟨rfl, Memory.wf_write s.host a bs, id⟩

/-! ## Events and completions -/

theorem keeps_raiseVector (v : Nat) : Keeps s (s.raiseVector v) := by
  unfold State.raiseVector
  exact .ite (fun _ => keeps_setReg _ _ _) (fun _ => Keeps.trans (.of_same ⟨rfl, rfl, rfl⟩) (keeps_count _ _ _ _))

theorem keeps_raiseEq (e : Nat) : Keeps s (s.raiseEq e) := (keeps_modEvRing s e _).trans (keeps_raiseVector _ _)

theorem keeps_writeEvent (e : Nat) (ev : Event) : Keeps s (s.writeEvent e ev) := by
  unfold State.writeEvent
  have h := ((keeps_host s (s.evRing e).slot (eventBytes ev (if ev.sq = 0xFF then 0 else (s.ring ev.sq).cons) s.timeUs
    (s.evRing e).phase)).trans (keeps_modEvRing _ e (fun r => { r with prod := (r.prod + 1) % 2 ^ 32, uncovered := r.uncovered + 1 }))).trans
    (keeps_count _ 1 0x12 1)
  have h := h.trans (keeps_count _ 2 0x11 32)
  exact .ite (fun _ => h.trans (keeps_raiseEq _ _)) (fun _ => h)

theorem keeps_holdEvent (e : Nat) (ev : Event) : Keeps s (s.holdEvent e ev) := by
  unfold State.holdEvent
  exact .ite (fun _ => .of_same ⟨rfl, rfl, rfl⟩) (fun _ => .of_same ⟨rfl, rfl, rfl⟩)

theorem keeps_putEvent (e : Nat) (ev : Event) : Keeps s (s.putEvent e ev) := by
  unfold State.putEvent
  exact .ite (fun _ => keeps_writeEvent _ _ _) (fun _ => keeps_holdEvent _ _ _)

theorem keeps_drainHeld : Keeps s s.drainHeld := by
  have h := Keeps.trans (s := s) (.of_same ⟨rfl, rfl, rfl⟩)
    (Keeps.foldl (fun s h => s.putEvent h.ring h.ev) (fun s h => keeps_putEvent s _ _) s.hif.hold
      { s with hif := { s.hif with hold := [] } })
  unfold State.drainHeld
  dsimp only
  revert h
  generalize List.foldl _ _ _ = t
  intro h
  have k := h.trans (keeps_writeEvent t t.devEq ⟨0, 3, 0, 0xFF, 0, 0, t.hif.lostToPost, 0⟩)
  revert k
  generalize State.writeEvent t t.devEq _ = u
  exact fun k => .ite (fun _ => k.trans (.of_same ⟨rfl, rfl, rfl⟩)) (fun _ => h)

theorem keeps_postDev (code status info d0 d1 : Nat) : Keeps s (s.postDev code status info d0 d1) := by
  unfold State.postDev
  dsimp only
  have c := keeps_count s (eventBlock code) 0x06 1
  split
  · exact .refl s
  · exact .refl s
  · exact .ite (fun _ => c.trans (.of_same ⟨rfl, rfl, rfl⟩)) (fun _ => c.trans (.of_same ⟨rfl, rfl, rfl⟩))
  · exact .ite (fun _ => .ite (fun _ => c.trans (keeps_naluSend _ _)) (fun _ => c.trans (keeps_holdEvent _ _ _)))
      (fun _ => c.trans (keeps_putEvent _ _ _))

theorem keeps_postOnce (code status info d0 d1 : Nat) : Keeps s (s.postOnce code status info d0 d1) := by
  unfold State.postOnce
  exact .ite (fun _ => .refl s) (fun _ => keeps_postDev _ _ _ _ _ _)

theorem keeps_complete (q idx status info d0 d1 : Nat) : Keeps s (s.complete q idx status info d0 d1) := by
  unfold State.complete
  split
  · exact .refl s
  · exact .ite (fun _ => (keeps_dropEntry s q idx).trans (keeps_putEvent _ _ _)) (fun _ => keeps_dropEntry s q idx)

/-! ## Snapshots, channels -/

theorem keeps_writing (w : Option (Nat × List Byte × Nat)) : Keeps s { s with pmu := { s.pmu with writing := w } } :=
  .of_same ⟨rfl, rfl, rfl⟩

theorem keeps_bistResult (k status code kind sig count : Nat) : Keeps s (s.bistResult k status code kind sig count) := by
  unfold State.bistResult
  have h := (((((keeps_setReg s (BST_RESULT.STATUS k) status).trans (keeps_setReg _ (BST_RESULT.CODE k) code)).trans
    (keeps_setReg _ (BST_RESULT.KIND k) kind)).trans (keeps_addReg _ (BST_RESULT.RUNS k) 1)).trans
    (keeps_setReg _ (BST_SIG.SIG k) sig)).trans (keeps_setReg _ (BST_COUNT.COUNT k) count)
  have h := h.trans (keeps_count _ 14 0x10 1)
  exact .ite (fun _ => h.trans (keeps_count _ _ _ _)) (fun _ => h)

theorem keeps_bistNotRun (kind k : Nat) : Keeps s (s.bistNotRun kind k) :=
  ((keeps_fresh s 64).trans (keeps_fresh _ 32)).trans (keeps_bistResult _ _ _ _ _ _ _)

theorem keeps_bistOver (status ms : Nat) : Keeps s (s.bistOver status ms) := .of_same ⟨rfl, rfl, rfl⟩

theorem keeps_bistAbort : Keeps s s.bistAbort := by
  unfold State.bistAbort
  split
  · exact .refl s
  · exact ((keeps_fresh s 6).trans (keeps_bistNotRun _ _ _)).trans (keeps_bistOver _ _ _)

theorem keeps_bistYield (uses : Nat → Bool) : Keeps s (s.bistYield uses) := by
  unfold State.bistYield
  exact .ite (fun _ => keeps_bistAbort s) (fun _ => .refl s)

theorem keeps_snapTaken : Keeps s s.snapTaken := by
  unfold State.snapTaken
  dsimp only
  refine .ite (fun _ => ?_) (fun _ =>
    ((keeps_setReg _ _ _).trans (keeps_setReg _ _ _)).trans (keeps_postDev _ _ _ _ _ _))
  exact (((Keeps.trans (keeps_host s _ s.snapBody) (keeps_writing _ _)).trans (keeps_wakeBlock _ 2)).trans
    (keeps_wakeBlock _ 15)).trans (keeps_count _ 2 0x11 1216)

theorem keeps_due (b : Bool) : Keeps s { s with pmu := { s.pmu with due := b } } := .of_same ⟨rfl, rfl, rfl⟩

theorem keeps_snapshot : Keeps s s.snapshot := by
  unfold State.snapshot
  dsimp only
  exact .ite (fun _ => .refl s) (fun _ => .ite (fun _ => (keeps_addReg _ _ _).trans (keeps_count _ _ _ _)) (fun _ =>
    .ite (fun _ => keeps_due s true) (fun _ => (keeps_bistYield _ _).trans (keeps_snapTaken _))))

theorem keeps_stopRecord (ch status cause : Nat) (r : Request) : Keeps s (s.stopRecord ch status cause r) := by
  unfold State.stopRecord
  have h := (((((keeps_setReg s (DMA_CH_STATUS.LAST_STATUS ch) status).trans (keeps_setReg _ (DMA_CH_STATUS.CAUSE ch) cause)).trans
    (keeps_setReg _ (DMA_CH_DONE.DONE ch) r.delivered)).trans
    (keeps_setReg _ (DMA_CH_RESIDUE.RESIDUE ch) (r.named - r.delivered))).trans
    (keeps_setReg _ (DMA_CH_STATUS.HELD ch) 0)).trans (keeps_setReg _ (DMA_CH_STATUS.WAKE_WAIT ch) 0)
  exact Keeps.trans (Keeps.ite (fun _ => h.trans (keeps_setReg _ (DMA_CH_STATUS.HALTED ch) 1)) (fun _ => h))
    (keeps_modChan _ _ _)

theorem keeps_settle (ch : Nat) (r : Request) : Keeps s (s.settle ch r).2 := by
  unfold State.settle
  dsimp only
  split
  · exact .refl s
  · exact (keeps_fresh s 32).trans (keeps_count _ _ _ _)

theorem keeps_scanWriteBack (sc : Scan) (v : Nat) : Keeps s (s.scanWriteBack sc v) := by
  unfold State.scanWriteBack
  exact .ite (fun _ => keeps_host _ _ _) (fun _ => .refl s)

theorem keeps_freeScan (e v n : Nat) : Keeps s (s.freeScan e v n) := .of_same ⟨rfl, rfl, rfl⟩

theorem keeps_stopEvent (ch status cause residue : Nat) : Keeps s (s.stopEvent ch status cause residue) :=
  keeps_postDev _ _ _ _ _ _

theorem keeps_stopFinish (ch status cause : Nat) (r : Request) (d0 d1 : Nat) :
    Keeps s (s.stopFinish ch status cause r d0 d1) :=
  ((keeps_stopRecord s ch status cause r).trans (keeps_stopEvent _ _ _ _ _)).trans (keeps_complete _ _ _ _ _ _ _)

theorem keeps_stopChan (ch status cause : Nat) : Keeps s (s.stopChan ch status cause) := by
  unfold State.stopChan
  split
  · exact .refl s
  · next r _ =>
    have h := keeps_settle s ch r
    dsimp only
    revert h
    generalize s.settle ch r = a
    exact fun h => h.trans (keeps_stopFinish _ _ _ _ _ _ _)

theorem keeps_looseRecord (ch status cause : Nat) : Keeps s (s.looseRecord ch status cause) := by
  unfold State.looseRecord
  have h := (((((keeps_fresh s 32).trans (keeps_fresh _ 32)).trans (keeps_setReg _ (DMA_CH_STATUS.LAST_STATUS ch)
    status)).trans (keeps_setReg _ (DMA_CH_STATUS.CAUSE ch) cause)).trans (keeps_setReg _ (DMA_CH_DONE.DONE ch)
      (s.fresh 32).1)).trans (keeps_setReg _ (DMA_CH_RESIDUE.RESIDUE ch) ((s.fresh 32).2.fresh 32).1)
  have k := h.trans (keeps_setReg _ (DMA_CH_STATUS.HELD ch) 0)
  exact Keeps.trans (Keeps.ite (fun _ => k.trans (keeps_setReg _ (DMA_CH_STATUS.HALTED ch) 1)) (fun _ => k))
    (keeps_stopEvent _ _ _ _ _)

theorem keeps_feed (feed : Feed) : Keeps s { s with cdc := { s.cdc with feed } } := .of_same ⟨rfl, rfl, rfl⟩

theorem keeps_feedRecord (ch status cause : Nat) : Keeps s (s.feedRecord ch status cause) := by
  unfold State.feedRecord
  exact (Keeps.trans (Keeps.ite (fun _ => .refl s) (fun _ => (keeps_setReg _ _ _).trans (keeps_setReg _ _ _)))
    (keeps_feed _ _)).trans (keeps_looseRecord _ _ _ _)

/-! ## The shutter link's falls -/

theorem keeps_linkStop (st : LinkState) : Keeps s (s.linkStop st) := .of_same ⟨rfl, rfl, rfl⟩
theorem keeps_setLanes (f : Nat → LaneTx → LaneTx) : Keeps s (s.setLanes f) := .of_same ⟨rfl, rfl, rfl⟩

theorem keeps_posted (b : Bool) : Keeps s { s with shl := { s.shl with knockPosted := b } } := .of_same ⟨rfl, rfl, rfl⟩

theorem keeps_startKnock : Keeps s s.startKnock := by
  unfold State.startKnock
  exact (((((keeps_wakeBlock s 10).trans (keeps_linkStop _ .knock)).trans (keeps_setLanes _ _)).trans
    (keeps_posted _ false)).trans (keeps_setReg _ _ _)).trans (keeps_setReg _ _ _)

theorem keeps_startLatch : Keeps s s.startLatch := .of_same ⟨rfl, rfl, rfl⟩

theorem keeps_linkBoundary : Keeps s s.linkBoundary := by
  unfold State.linkBoundary
  exact .ite (fun _ => keeps_startKnock s) (fun _ => .ite (fun _ => keeps_startLatch s) (fun _ => .of_same ⟨rfl, rfl, rfl⟩))

theorem keeps_linkEvent (status : Nat) : Keeps s (s.linkEvent status) :=
  (keeps_setReg _ _ _).trans (keeps_postDev _ _ _ _ _ _)

/-! ## What a stripe boundary brings -/

theorem keeps_pageCheck : Keeps s s.pageCheck := by
  unfold State.pageCheck
  exact .ite (fun _ => keeps_postDev _ _ _ _ _ _) (fun _ => .refl s)

theorem keeps_itemLive (item : Nat) (bs : List Byte) : Keeps s (s.itemLive item bs) := by
  unfold State.itemLive
  split
  · exact Keeps.trans (.of_same ⟨rfl, rfl, rfl⟩) (keeps_pageCheck _)
  all_goals exact .of_same ⟨rfl, rfl, rfl⟩

theorem keeps_itemsLive : Keeps s s.itemsLive :=
  Keeps.trans (.of_same ⟨rfl, rfl, rfl⟩) (Keeps.foldl (fun (s : State) (i : Nat × List Byte) => s.itemLive i.1 i.2)
    (fun s i => keeps_itemLive s i.1 i.2) s.prot.waiting { s with prot := { s.prot with waiting := [] } })

theorem keeps_fieldsLive (fs : List (Nat × Nat)) : Keeps s (s.fieldsLive fs) := by
  refine Keeps.foldl (fun (s : State) (kv : Nat × Nat) => match commitField? kv.1 with
    | some f => s.setLive f kv.2 | none => s) (fun s kv => ?_) fs s
  cases commitField? kv.1 <;> simp only
  · exact .refl s
  · exact keeps_setLive _ _ _

theorem keeps_flashWrite (a : Nat) (bs : List Byte) : Keeps s (s.flashWrite a bs) :=
  ⟨rfl, id, Sparse.wf_setList flashByte bs s.flash a⟩

theorem keeps_flashErase (k : Nat) : Keeps s (s.flashErase k) := ⟨rfl, id, Sparse.wf_filter flashByte _ s.flash⟩

theorem keeps_trimsActive (st : Store) : Keeps s (s.trimsActive st) :=
  Keeps.trans (.of_same ⟨rfl, rfl, rfl⟩) (keeps_postDev _ _ _ _ _ _)

theorem keeps_commitEnds (q idx id status block reason : Nat) : Keeps s (s.commitEnds q idx id status block reason) := by
  unfold State.commitEnds
  refine Keeps.trans (.of_same ?_) (keeps_complete _ _ _ _ _ _ _)
  split <;> exact ⟨rfl, rfl, rfl⟩

theorem keeps_linkDue (knock relatch : Bool) : Keeps s (s.linkDue knock relatch) := .of_same ⟨rfl, rfl, rfl⟩

theorem keeps_factoryCodes : Keeps s s.factoryCodes :=
  Keeps.foldl _ (fun s _ => .ite (fun _ => .refl s) (fun _ => (keeps_setReg _ _ _).trans (keeps_setReg _ _ _))) _ s

theorem keeps_tablesLive (ts : List (Nat × Memory)) : Keeps s (s.tablesLive ts) := .of_same ⟨rfl, rfl, rfl⟩

theorem keeps_linkEnable (on : Bool) : Keeps s (s.linkEnable on) := by
  unfold State.linkEnable
  have h := (keeps_setReg s SHL_CTRL.LINK_EN 0).trans (keeps_linkStop _ .down)
  exact .ite (fun _ => .ite (fun _ => keeps_setReg _ _ _) (fun _ => (keeps_setReg _ _ _).trans (keeps_startKnock _)))
    (fun _ => .ite (fun _ => h.trans (.of_same ⟨rfl, rfl, rfl⟩)) (fun _ => h))

theorem keeps_linkFollow (fs : List (Nat × Nat)) : Keeps s (s.linkFollow fs) := by
  unfold State.linkFollow
  have h : Keeps s (match fs.lookup SHL_CTRL.LINK_EN.key with
      | some v => if s.reg SHL_CTRL.LINK_EN = v % 2 then s else s.linkEnable (v % 2 == 1)
      | none => s) := by
    split
    · exact .ite (fun _ => .refl s) (fun _ => keeps_linkEnable _ _)
    · exact .refl s
  exact .ite (fun _ => h.trans (.of_same ⟨rfl, rfl, rfl⟩)) (fun _ => h)

theorem keeps_setLiveAll (c : PendingCommit) : Keeps s (s.setLiveAll c) := by
  unfold State.setLiveAll
  refine Keeps.trans (Keeps.trans (Keeps.trans (Keeps.trans ?_ (keeps_linkFollow _ _)) (keeps_wakeBlocks _ _))
    (keeps_linkDue _ _ _)) (keeps_count _ 0 0x10 1)
  have h := (keeps_fieldsLive s c.fields).trans (keeps_tablesLive _ c.tables)
  refine .ite (fun _ => Keeps.trans ?_ (keeps_factoryCodes _)) (fun _ => ?_)
  all_goals exact .ite (fun _ => h.trans (keeps_setReg _ _ _)) (fun _ => h)

theorem keeps_sendTable (id offset : Nat) (bs : List Byte) : Keeps s (s.sendTable id offset bs) :=
  Keeps.foldl _ (fun s _ => keeps_naluSend s _) _ s

theorem keeps_sendTables (t : Tables) (ids : List Nat) : Keeps s (s.sendTables t ids) :=
  Keeps.foldl _ (fun s _ => keeps_sendTable s _ _ _) _ s

theorem keeps_sendAll : Keeps s s.sendAll :=
  ((keeps_sendTables s _ _).trans (keeps_naluSend _ _)).trans (keeps_sendTables _ _ _)

theorem keeps_storeTaken :
    Keeps s (State.setReg { s with cal := { s.cal with store := none } } CAL_STATUS.STORE_PENDING 0) := .of_same ⟨rfl, rfl, rfl⟩

/-! ## Fences -/

theorem keeps_setFence (cause : Nat) (hard : Bool) : Keeps s (s.setFence cause hard) := by
  unfold State.setFence
  refine Keeps.trans (Keeps.trans ?_ (keeps_naluSend _ _)) (keeps_postDev _ _ _ _ _ _)
  exact .ite (fun _ => .of_same ⟨rfl, rfl, rfl⟩) (fun _ => .of_same ⟨rfl, rfl, rfl⟩)

theorem keeps_mirrorApart : Keeps s s.mirrorApart := by
  unfold State.mirrorApart
  exact .ite (fun _ => .refl s) (fun _ => (keeps_fresh _ _).trans (keeps_setFence _ _ _))

theorem keeps_setFails (c : PendingCommit) : Keeps s (s.setFails c) := by
  unfold State.setFails
  exact .ite (fun _ => keeps_mirrorApart _) (fun _ => keeps_commitEnds _ _ _ _ _ _ _)

theorem keeps_applyCommit (c : PendingCommit) : Keeps s (s.applyCommit c) := by
  unfold State.applyCommit
  split
  · exact .ite (fun _ => keeps_linkFollow _ _) (fun _ => .ite (fun _ => keeps_setFails _ _)
      (fun _ => (keeps_setLiveAll _ _).trans (keeps_commitEnds _ _ _ _ _ _ _)))
  · next st _ =>
    have h := ((keeps_storeTaken s).trans (keeps_flashWrite _ (trimSlot st.slot + 4104) (le 4 0x56414C44))).trans
      (keeps_setLiveAll _ c)
    exact Keeps.ite (fun _ => ((Keeps.ite (fun _ => h.trans (keeps_flashErase _ _)) (fun _ => h)).trans
      (keeps_trimsActive _ st)).trans (keeps_commitEnds _ _ _ _ _ _ _))
      (fun _ => (keeps_storeTaken s).trans (keeps_setFails _ _))

theorem keeps_applyCommits : Keeps s s.applyCommits := by
  have h := Keeps.trans (s := s) (.of_same ⟨rfl, rfl, rfl⟩) (Keeps.foldl _ keeps_applyCommit s.setsDue
    { s with commits := { s.commits with waiting := s.commits.waiting.drop s.setsDue.length } })
  exact .ite (fun _ => h.trans (keeps_sendAll _)) (fun _ => h)

theorem keeps_naluDown : Keeps s s.naluDown := .of_same ⟨rfl, rfl, rfl⟩
theorem keeps_naluTrain : Keeps s s.naluTrain := .of_same ⟨rfl, rfl, rfl⟩

theorem keeps_relatch : Keeps s s.relatch := by
  unfold State.relatch
  exact .ite (fun _ => keeps_startLatch s) (fun _ => .refl s)

theorem keeps_startRejoin : Keeps s s.startRejoin := by
  unfold State.startRejoin
  have h : Keeps s { s with nlk := { s.nlk with rejoining := true, rejoinWanted := false } } := .of_same ⟨rfl, rfl, rfl⟩
  exact .ite (fun _ => .ite (fun _ => h.trans (keeps_relatch _)) (fun _ => h.trans (keeps_naluTrain _)))
    (fun _ => .of_same ⟨rfl, rfl, rfl⟩)

theorem keeps_unpair : Keeps s s.unpair := .of_same ⟨rfl, rfl, rfl⟩

theorem keeps_soloBoundary : Keeps s s.soloBoundary := by
  unfold State.soloBoundary
  have h := (keeps_naluDown s).trans (keeps_unpair _)
  exact .ite (fun _ => .ite (fun _ => h.trans (keeps_setFence _ _ _)) (fun _ => h)) (fun _ => .refl s)

/-! ## Host jobs and scans that waited -/

theorem keeps_chanRecord (ch status cause done residue : Nat) : Keeps s (s.chanRecord ch status cause done residue) :=
  .of_same ⟨rfl, rfl, rfl⟩

theorem keeps_tryEntry (act : State → Entry → State) (ha : ∀ s e, Keeps s (act s e)) (e : Entry) :
    Keeps s (s.tryEntry act e) := by
  unfold State.tryEntry
  split
  · exact .refl s
  · refine Keeps.trans ?_ (keeps_complete _ _ _ _ _ _ _)
    split
    · exact keeps_chanRecord _ _ _ _ _ _
    · exact .refl s
  · exact (keeps_bistYield s _).trans (ha _ e)

theorem keeps_pump (ty : Nat) (act : State → Entry → State) (ha : ∀ s e, Keeps s (act s e)) : Keeps s (s.pump ty act) := by
  unfold State.pump
  exact .ite (fun _ => Keeps.foldl _ (fun s e => .ite (fun _ => keeps_tryEntry s act ha e) (fun _ => .refl s)) _ s)
    (fun _ => .refl s)

theorem keeps_reach (ch : Nat) (raw : List Byte) : Keeps s (s.reach ch raw) := by
  unfold State.reach
  exact Keeps.trans (Keeps.foldl (fun (s : State) k => if s.pwr k == .idle then
    { s with power := setAt s.power k .run } else s)
    (fun s k => .ite (fun _ => .of_same ⟨rfl, rfl, rfl⟩) (fun _ => .refl s)) (targets raw) s) (keeps_setReg _ _ _)

theorem keeps_startReq (ch : Nat) (e : Entry) (addr len link : Nat) : Keeps s (s.startReq ch e addr len link) := by
  unfold State.startReq
  have h := keeps_reach s ch e.raw
  dsimp only
  revert h
  generalize s.reach ch e.raw = t
  intro h
  have k : ∀ req : Request, Keeps s (((t.startEntry e.q e.idx).modChan ch (fun c => { c with req := some req })).setReg
      (DMA_CH_STATUS.HELD ch) 0) := fun _ =>
    h.trans ((keeps_startEntry t e.q e.idx).trans ((keeps_modChan _ ch _).trans (keeps_setReg _ _ _)))
  exact Keeps.ite (fun _ => (k _).trans (keeps_stopChan _ _ _ _)) (fun _ => k _)

theorem keeps_areaRead (c : CodecOp) : Keeps s (s.areaRead c) := by
  unfold State.areaRead
  exact .ite (fun _ => keeps_count _ _ _ _) (fun _ => .refl s)

theorem keeps_takeEngine (k : Nat) (j : CodecJob) : Keeps s (s.takeEngine k j) := .of_same ⟨rfl, rfl, rfl⟩

theorem keeps_codecEntry (e : Entry) : Keeps s (s.codecEntry e) := by
  unfold State.codecEntry
  dsimp only
  refine .ite (fun _ => keeps_complete _ _ _ _ _ _ _) (fun _ => .ite (fun _ => keeps_complete _ _ _ _ _ _ _) (fun _ =>
    .ite (fun _ => (keeps_areaRead _ _).trans (keeps_complete _ _ _ _ _ _ _)) (fun _ => ?_)))
  split
  · exact (((keeps_areaRead s _).trans (keeps_modChan _ _ _)).trans (keeps_takeEngine _ _ _)).trans (keeps_startReq _ _ _ _ _ _)
  · exact .refl s

theorem keeps_scanRegs (e v n : Nat) : Keeps s (s.scanRegs e v n) := .of_same ⟨rfl, rfl, rfl⟩

theorem keeps_scanOn (e : Nat) (sc : Scan) : Keeps s (s.scanOn e sc) := by
  unfold State.scanOn
  refine Keeps.trans (Keeps.trans (Keeps.trans ?_ (keeps_setReg _ _ _)) (keeps_setReg _ _ _)) (keeps_scanRegs _ _ _ _)
  refine Keeps.trans (Keeps.trans ?_ (keeps_startEntry _ sc.q sc.idx)) (keeps_modChan _ _ _)
  exact .of_same ⟨rfl, rfl, rfl⟩

theorem keeps_scanEntry (e : Entry) : Keeps s (s.scanEntry e) := by
  unfold State.scanEntry
  dsimp only
  refine .ite (fun _ => keeps_complete _ _ _ _ _ _ _) (fun _ => .ite (fun _ => keeps_complete _ _ _ _ _ _ _) (fun _ => ?_))
  split
  · exact .refl s
  · exact (keeps_reach s _ _).trans (keeps_scanOn _ _ _)

theorem keeps_scanResume (n : Nat) : ∀ s : State, Keeps s (State.scanResume n s) := by
  induction n with
  | zero => exact Keeps.refl
  | succ n ih =>
    intro s
    unfold State.scanResume
    split
    · next rest _ _ _ =>
      have h : Keeps s { s with scanWait := rest } := .of_same ⟨rfl, rfl, rfl⟩
      dsimp only
      split
      · exact h.trans (ih _)
      · exact ((h.trans (keeps_reach _ _ _)).trans (keeps_scanOn _ _ _)).trans (ih _)
    · exact keeps_pump s 5 State.scanEntry keeps_scanEntry
    · exact .refl s

theorem keeps_jobsGo : Keeps s s.jobsGo :=
  (keeps_pump s 4 State.codecEntry keeps_codecEntry).trans (keeps_scanResume _ _)

theorem keeps_boundary : Keeps s s.boundary :=
  (((((keeps_itemsLive s).trans (keeps_applyCommits _)).trans (keeps_linkBoundary _)).trans (keeps_soloBoundary _)).trans
    (keeps_startRejoin _)).trans (keeps_jobsGo _)

/-! ## The end of a stripe -/

theorem keeps_openGap : Keeps s s.openGap := Keeps.trans (.of_same ⟨rfl, rfl, rfl⟩) (keeps_count _ _ _ _)

theorem keeps_putRecord (a : Nat) (bs : List Byte) : Keeps s (s.putRecord a bs) := by
  unfold State.putRecord
  exact .ite (fun _ => (keeps_host _ _ _).trans (keeps_count _ _ _ _)) (fun _ => .refl s)

theorem keeps_outcomeEvent (st : Stripe) : Keeps s (s.outcomeEvent st) := by
  unfold State.outcomeEvent
  exact .ite (fun _ => keeps_dropEntry _ _ _) (fun _ => (keeps_dropEntry _ _ _).trans (keeps_putEvent _ _ _))

theorem keeps_sendOutcome (st : Stripe) : Keeps s (s.sendOutcome st) :=
  (keeps_naluSend _ _).trans (Keeps.foldl _ (fun s _ => keeps_naluSend s _) _ _)

theorem keeps_writeOutcome (toHost : Bool) (st : Stripe) : Keeps s (s.writeOutcome toHost st) := by
  unfold State.writeOutcome
  have h : Keeps s { s with lastOutcome := st.record } := .of_same ⟨rfl, rfl, rfl⟩
  exact .ite
    (fun _ => .ite (fun _ => .ite (fun _ => h.trans (keeps_sendOutcome _ _)) (fun _ => h))
      (fun _ => .ite (fun _ => h.trans (keeps_putRecord _ _ _)) (fun _ => h)))
    (fun _ => Keeps.trans (.ite (fun _ => h.trans (keeps_putRecord _ _ _)) (fun _ => h)) (keeps_outcomeEvent _ _))

theorem keeps_endEvents (st : Stripe) : Keeps s (s.endEvents st) := by
  unfold State.endEvents
  have a : ∀ s : State, Keeps s (match st.missRun with | some r => s.missRunEvent st.req.id r | none => s) := by
    intro s
    split
    · exact keeps_postOnce _ _ _ _ _ _
    · exact .refl s
  have b : ∀ s : State, Keeps s (if s.reg PEC_CLAMPS.COUNT ≠ 0 then s.postOnce 0x38 0x00 0 (s.reg PEC_CLAMPS.COUNT)
      (st.req.id + st.req.pass * 2 ^ 32) else s) := fun s =>
    .ite (fun _ => keeps_postOnce _ _ _ _ _ _) (fun _ => .refl s)
  exact .ite (fun _ => ((a s).trans (b _)).trans (keeps_postOnce _ _ _ _ _ _)) (fun _ => (a s).trans (b _))

theorem keeps_dropWitnesses (id pass : Nat) : Keeps s (s.dropWitnesses id pass) :=
  Keeps.trans (.of_same ⟨rfl, rfl, rfl⟩) (Keeps.foldl _ (fun s _ => keeps_complete s _ _ _ _ _ _) _ _)

theorem keeps_stageDiscard (ch : Nat) : Keeps s (s.stageDiscard ch) := .of_same ⟨rfl, rfl, rfl⟩

theorem keeps_setRegs (fs : List Field) : Keeps s (fs.foldl (fun s f => s.setReg f 0) s) :=
  Keeps.foldl _ (fun s f => keeps_setReg s f 0) fs s

theorem keeps_quietPath : Keeps s s.quietPath := by
  unfold State.quietPath
  exact Keeps.trans (.ite (fun _ => .refl s) (fun _ => ((keeps_setReg _ _ _).trans (keeps_setReg _ _ _)).trans
    (keeps_setReg _ _ _))) (keeps_setRegs _ _)

theorem keeps_emptyPath : Keeps s s.emptyPath := .of_same ⟨rfl, rfl, rfl⟩

theorem keeps_closeStream (sq : Nat) : Keeps s (s.closeStream sq) := by
  unfold State.closeStream
  refine Keeps.trans (Keeps.trans (Keeps.trans ?_ (keeps_quietPath _)) (Keeps.foldl _ (fun s _ => keeps_setReg s _ 0) _ _))
    (keeps_emptyPath _)
  split
  · exact keeps_stageDiscard _ _
  · exact .refl s

theorem keeps_bookFired : Keeps s s.bookFired := keeps_slots _ _ _ _

/-- The stripe is gone. -/
theorem keeps_ready : Keeps s { s.forgetPair with stripe := none, g := .ready } := .of_same ⟨rfl, rfl, rfl⟩

theorem keeps_turn (b : Bool) : Keeps s { s with cal := { s.cal with turn := b } } := .of_same ⟨rfl, rfl, rfl⟩

theorem keeps_addDiscard (r : ArmReq) : Keeps s (s.addDiscard r) := keeps_modRing s _ _

theorem keeps_discardOver (q : Nat) : Keeps s (s.discardOver q) := keeps_modRing s _ _

theorem keeps_mirrorDiscard (q n : Nat) : ∀ s : State, Keeps s (State.mirrorDiscard q n s) := by
  induction n with
  | zero => exact Keeps.refl
  | succ n ih =>
    intro s
    unfold State.mirrorDiscard
    split
    · refine .ite (fun _ => (keeps_discardOver s q).trans (ih _)) (fun _ => ?_)
      exact ((keeps_dropEntry s _ _).trans (.ite (fun _ => keeps_discardOver _ _) (fun _ => .refl _))).trans (ih _)
    · exact .refl s

theorem keeps_mirrorDrops (q : Nat) : Keeps s (s.mirrorDrops q) := by
  unfold State.mirrorDrops
  exact .ite (fun _ => keeps_mirrorDiscard _ _ _) (fun _ => .refl s)

theorem keeps_mirrorDropsAll : Keeps s s.mirrorDropsAll := by
  unfold State.mirrorDropsAll
  exact .ite (fun _ => Keeps.foldl _ keeps_mirrorDrops _ s) (fun _ => .refl s)

theorem keeps_toIdle : Keeps s s.toIdle := by
  unfold State.toIdle
  have h := (((keeps_bookFired s).trans (keeps_ready _)).trans (keeps_mirrorDropsAll _)).trans (keeps_boundary _)
  dsimp only
  revert h
  generalize State.boundary _ = t
  intro h
  have h := h.trans (keeps_turn t t.waiting.isSome)
  exact .ite (fun _ => h.trans (keeps_openGap _)) (fun _ => h)

theorem keeps_stopStream (sq : Nat) : Keeps s (s.stopStream sq) := by
  unfold State.stopStream
  have h : Keeps s (match s.streamChan sq with | some ch => s.stopChan ch 0x04 2 | none => s) := by
    split
    · exact keeps_stopChan _ _ _ _
    · exact .refl s
  exact h.trans (Keeps.foldl _ (fun t _ => .ite (fun _ => keeps_feedRecord t _ _ _) (fun _ => .refl t)) _ _)

theorem keeps_startDiscard (st : Stripe) : Keeps s (s.startDiscard st) := by
  unfold State.startDiscard
  have h := Keeps.foldl (fun (s : State) (e : Entry) => (s.complete e.q e.idx 0x04 0 0 0).dropEntry e.q e.idx)
    (fun s e => (keeps_complete s _ _ _ _ _ _).trans (keeps_dropEntry _ _ _))
    (bufsOf st.req.id st.req.pass (s.bufsHeld st.req.streamSq st.req.id st.req.pass)) s
  exact .ite (fun _ => h) (fun _ => h.trans (keeps_addDiscard _ _))

/-- What an abort does up to its outcome. -/
theorem keeps_abortEnd (st : Stripe) (toHost : Bool) :
    Keeps s (State.writeOutcome (if (((((s.stopStream st.req.streamSq).startDiscard st).closeStream st.req.streamSq).dropWitnesses
      st.req.id st.req.pass).endEvents st).reg PMU_SNAP_CFG.ON_END = 1 then
        (((((s.stopStream st.req.streamSq).startDiscard st).closeStream st.req.streamSq).dropWitnesses
          st.req.id st.req.pass).endEvents st).snapshot
      else ((((s.stopStream st.req.streamSq).startDiscard st).closeStream st.req.streamSq).dropWitnesses
        st.req.id st.req.pass).endEvents st) toHost st) := by
  have h := ((((keeps_stopStream s st.req.streamSq).trans (keeps_startDiscard _ st)).trans
    (keeps_closeStream _ st.req.streamSq)).trans (keeps_dropWitnesses _ st.req.id st.req.pass)).trans (keeps_endEvents _ st)
  exact Keeps.trans (.ite (fun _ => h.trans (keeps_snapshot _)) (fun _ => h)) (keeps_writeOutcome _ _ _)

theorem keeps_aborting (st : Stripe) (cause : Nat) :
    Keeps s (State.setReg { s with stripe := some st, g := .run } EMS_STATE.CAUSE cause) := .of_same ⟨rfl, rfl, rfl⟩

theorem keeps_statusMissing (frame : Nat) : Keeps s (s.statusMissing frame) :=
  ((keeps_modStripe s _).trans (keeps_addReg _ _ _)).trans (keeps_slots _ _ _ _)

theorem keeps_overdueCounts : Keeps s s.overdueCounts := by
  unfold State.overdueCounts
  split
  · exact keeps_statusMissing s _
  · exact .refl s

theorem keeps_dropMisses : Keeps s s.dropMisses := .of_same ⟨rfl, rfl, rfl⟩

theorem keeps_abortWith (toHost : Bool) (cause : Nat) : Keeps s (s.abortWith toHost cause) := by
  unfold State.abortWith
  cases s.stripe with
  | none => exact .refl s
  | some st0 =>
    refine Keeps.ite (fun _ => .refl s) (fun _ => ?_)
    have g := (keeps_overdueCounts s).trans (keeps_dropMisses _)
    dsimp only
    revert g
    generalize s.overdueCounts.dropMisses = u
    intro g
    generalize u.stripe.getD st0 = st
    have h := g.trans ((keeps_aborting u { st with
      cause, endState := st.st.endCode, st := .aborted, fbHold := st0.st == .run || st0.st == .tail,
      outcomeDone := true, stepBusy := none, ledger := { st.ledger with writes := [] } } cause).trans (keeps_abortEnd _ { st with
      cause, endState := st.st.endCode, st := .aborted, fbHold := st0.st == .run || st0.st == .tail,
      outcomeDone := true, stepBusy := none, ledger := { st.ledger with writes := [] } } toHost))
    exact Keeps.ite (fun _ => h) (fun _ => h.trans (keeps_toIdle _))

theorem keeps_fenceChip (cause : Nat) : Keeps s (s.fenceChip cause) := by
  unfold State.fenceChip
  refine .ite (fun _ => .refl s) (fun _ => .ite (fun _ => keeps_setFence _ _ _) (fun _ => .ite
    (fun _ => (keeps_setFence _ _ _).trans (keeps_abortWith _ _ _)) (fun _ => .ite
      (fun _ => (keeps_setFence _ _ _).trans (keeps_boundary _)) (fun _ => keeps_setFence _ _ _))))

theorem keeps_holdSafe (safe : Nat) : Keeps s (s.holdSafe safe) := .of_same ⟨rfl, rfl, rfl⟩

end Sys2Proof.Machine
end

