-- ==== Sys2Proof/Machine/Pins.lean ====
section
/-! DEFINITION. The balls (R36 to R47): their groups, the boundary-scan chain and IDCODE, and what the engine drives
on its balls as its state has it. -/

namespace Sys2Proof.Machine

/-! ## Ball groups (R37, R38) -/

/-- The levels of R38. -/
inductive BallLevel where
  | pcie | hcsl | clock | cml | lvds | cmos18 | openDrain36 | analog
  deriving DecidableEq, Repr

/-- A row of R38: its first name, its balls, its level. -/
structure BallGroup where
  name : String
  balls : Nat
  level : BallLevel
  deriving DecidableEq, Repr

/-- The signal balls (R38). -/
def signalBalls : List BallGroup :=
  [⟨"PCIE", 64, .pcie⟩, ⟨"PCIE_REFCLK", 2, .hcsl⟩, ⟨"PERST_N", 1, .cmos18⟩, ⟨"REFCLK", 2, .clock⟩,
    ⟨"HEAD_REFCLK", 2, .lvds⟩, ⟨"SHL_TX", 68, .cml⟩, ⟨"SHL_BC", 4, .cml⟩, ⟨"NLK", 32, .cml⟩, ⟨"POS", 6, .lvds⟩,
    ⟨"TRK", 6, .lvds⟩, ⟨"SOS", 1, .cmos18⟩] ++
  [⟨"STAGE_OK", 1, .cmos18⟩, ⟨"BLANK_REQ", 1, .cmos18⟩, ⟨"FAULT_BLANK_N", 1, .openDrain36⟩, ⟨"SMB", 3, .cmos18⟩,
    ⟨"QSPI", 6, .cmos18⟩, ⟨"JTAG", 5, .cmos18⟩, ⟨"TWIN_ID", 1, .cmos18⟩, ⟨"PARK_REQ_N", 1, .cmos18⟩,
    ⟨"RESET_N", 1, .cmos18⟩, ⟨"RCAL", 1, .analog⟩, ⟨"THERM_N", 2, .openDrain36⟩]

/-- The other balls (R37): ground, rails, remote sense, and the locked test balls. -/
def otherBalls : List (String × Nat) :=
  [("VSS", 1000), ("VDD_CORE", 480), ("VDD_SRAM", 100), ("VDD_SERDES_085", 88), ("VDD_HBM", 72), ("VDD_SERDES_12", 32),
    ("VDD_IO", 26), ("SNS", 4), ("NC_T", 12)]

/-! ## JTAG (R40, R47) -/

/-- What IDCODE reads (R47). -/
def jtagIdcode : Nat := 0x11024F3B

/-- The boundary-scan chain covers the 1.8 V and the LVDS signal balls (R47). -/
def BallLevel.scanned : BallLevel → Bool
  | .cmos18 | .lvds => true
  | _ => false

/-- The groups of the boundary-scan chain. The locked test balls are no part of it (R40). -/
def scanChain : List BallGroup := signalBalls.filter (fun g => g.level.scanned)

/-! ## What the engine drives -/

/-- The QSPI balls, TDO and the SMBus data lines are high-impedance: RESET_N is low (R46). A programmer's writes to
the serial flash meanwhile come with RESET_N_RISE. -/
def State.flashBallsFree (s : State) : Bool := !s.aon.resetHigh

/-- HEAD_REFCLK runs (R47): the root is locked, fenced or in PARK as well. -/
def State.headRefclk (s : State) : Bool := s.aon.rails && s.aon.rootLock

/-- FAULT_BLANK_N is driven low (R41): not while the rails are out of range. -/
def State.faultBlankLow (s : State) : Bool := s.aon.rails && s.blanks

/-- SMB_ALERT_N is driven low (R95, R98). -/
def State.smbAlertLow (s : State) : Bool := s.aon.rails && s.aon.resetHigh && s.prot.smbAlert

/-- The tracking lanes send frames (R311, R364), in RUN and TAIL: otherwise they idle at 1. -/
def State.tracks (s : State) : Bool :=
  s.serviced && s.running.isSome && s.fence.isNone && s.lv EMS_CTRL.TRK_EN == 1

/-- TRK_CLK runs (R311): from root lock on. -/
def State.trkClock (s : State) : Bool := s.aon.rails && s.aon.rootLock

end Sys2Proof.Machine
end

