-- ==== Sys2Proof/Tests/Slice0.lean ====
section
/-! SUPPORT. Tests of the model, each a named theorem: ill-formed commands are refused, the manual's worked examples
come out, and each statement's hypotheses are met by a state shown here (`wit_…`, named after the statement). -/

namespace Sys2Proof.Tests

set_option Elab.async false

open Sys2Proof.Machine

/-! ## Well-formedness and decoding -/

/-- 32 bytes, 64 bytes of zeros. -/
def zeros (n : Nat) : List Byte := List.replicate n 0#8

/-- A body framed as a record (R330), as its symbols. -/
def framedRecord (type : Nat) (p : List Byte) : List Sym := framed (le 1 type ++ le 1 p.length ++ p)

/-- A record heard on lane BC0 alone. -/
def heard (type : Nat) (p : List Byte) : BackCopies := ⟨encodeSyms true (framedRecord type p), []⟩

/-- A code of 11 bits, which no lane brings. -/
def noCode (lane1 : Bool) : BackCopies := if lane1 then ⟨[], [2 ^ 10]⟩ else ⟨[2 ^ 10], []⟩

/-- No word read in error. -/
def clean : EccReads := ⟨[], none⟩

/-- A word in error at an address that is none of HBM3's 64-bit words. -/
def badEcc (a : Nat) (bad : Bool) : EccReads := if bad then ⟨[], some ⟨a, false⟩⟩ else ⟨[⟨a, false⟩], none⟩

/-- Ill-formed commands, one for each check of WellFormed.lean (part 1). -/
def illFormed1 : List Instr :=
  [.resetNRise 10 false 16 1 [], .resetNRise 10 false 1 32 [], .resetNRise 10 false 1 1 [(2 ^ 24, 0#8)], .railTrip 6 2,
   .hbmTraining [] 512 0, .hbmTraining [] 0 512, .parkRestore (some (2 ^ 16)) clean,
   .parkRestore none (badEcc 4 false), .fullSelfTest true [⟨16, 0, 0, 0⟩], .parkBistDone true [⟨16, 0, 0, 0⟩] 0 0, .perstNFall 16 1, .perstNFall 1 32, .functionLevelReset 16 1,
   .functionLevelReset 1 32, .d3hotEntry 16 1, .d3hotEntry 1 32, .doorbellPoll [(2 ^ 64, 0#8)], .nudge false [(2 ^ 64, 0#8)],
   .sqEnable 64 0, .sqDisable 64 0, .eqEnable 8 0, .eventQueueDrain [(2 ^ 64, 0#8)], .eqModTimer 8, .armStripe 64 false,
   .abortStripe 64 false, .streamBuf 64 [], .streamBuf 0 [(2 ^ 64, 0#8)], .loadTable 64 [], .loadTable 0 [(2 ^ 64, 0#8)],
   .saveTable 64, .compress 64 [], .compress 0 [(2 ^ 64, 0#8)], .decompress 64 [], .decompress 0 [(2 ^ 64, 0#8)],
   .codecJobComplete 6, .codecJobResume 6, .scan 64 [], .scan 0 [(2 ^ 64, 0#8)], .scanComplete 4 clean,
   .scanComplete 0 (badEcc 0x600000000 true), .witness 64, .witnessComplete 2 clean, .witnessComplete 0 (badEcc 1 true),
   .commit 64, .barrier 64, .park 64, .protStatus 128 true, .protRead 128 0 0 true, .protRead 0 256 0 true,
   .protRead 0 0 256 true, .protConfirm 128 8 0 0 true, .protConfirm 0 256 0 0 true, .protConfirm 0 8 (2 ^ 32) 0 true,
   .protConfirm 0 8 0 (2 ^ 32) true, .protRefuse 128 0 true, .protRefuse 0 256 true, .blockDrainedOff 16,
   .blockIdleTimer 16, .blockNapTimer 16, .blockWake 16 0, .blockWake 0 32, .blockLeaveOff 16 0, .blockLeaveOff 0 4]

/-- Ill-formed commands, one for each check of WellFormed.lean (part 2). -/
def illFormed2 : List Instr :=
  [.registerWrite 2 0, .registerWrite 0x101000 0, .registerWrite 0x201000 0, .latchedLoRead 1 false, .latchedLoRead 0x100FFC true,
   .latchedLoRead 0x1FFFFC false, .readClear 3, .readClear 0x101000, .dmaAbort 32, .dmaReleaseHalt 32, .dmaCplTimeout 32,
   .dmaCplError 32, .lateCompletion 32, .descriptorFetch 32 [], .descriptorFetch 0 [(2 ^ 64, 0#8)], .transferComplete 32,
   .azradBlock (badEcc 4 false), .azradBlock (badEcc 4 true), .templateLineFill 262144 clean,
   .templateLineFill 0 (badEcc 4 false), .paneSliceDone (badEcc 4 false), .entryStepComplete (badEcc 4 false),
   .repaymentWrite (badEcc 4 false), .refreshCredit 32, .refreshPay 32, .stackTempRead 256,
   .rfmIssue 32 0 (List.replicate 9 0), .rfmIssue 0 48 (List.replicate 9 0), .rfmIssue 0 0 [], .throttleExpire 9,
   .powerDownEntry 32, .sillFetchDone (badEcc 4 false), .knockReply (noCode false), .knockReply (noCode true),
   .laneStatus (noCode false), .authResponse (noCode true), .trimAck (noCode false), .frameStatus (noCode true),
   .sovisRecord (badEcc 4 true), .voteClose 0 (badEcc 4 true),
   .frameStatusMissing (2 ^ 48), .backchannelTimeout 2]

/-- Ill-formed commands, one for each check of WellFormed.lean (part 3). -/
def illFormed3 : List Instr :=
  [.naluHello (2 ^ 16) 0 0 0 0 1, .naluHello 0 256 0 0 0 1, .naluHello 0 0 256 0 0 1, .naluHello 0 0 0 (2 ^ 16) 0 1,
   .naluHello 0 0 0 0 (2 ^ 64) 1, .naluHello 0 0 0 0 0 256, .naluAck (2 ^ 16) 0 0, .naluAck 0 256 0, .naluAck 0 0 256,
   .naluResend (2 ^ 16), .naluLaneDrop 8, .naluEntry (2 ^ 16) 0 0 (zeros 64), .naluEntry 0 64 0 (zeros 64),
   .naluEntry 0 0 (2 ^ 32) (zeros 64), .naluEntry 0 0 0 [], .naluCommitSet (2 ^ 16) 0 0 [] [],
   .naluCommitSet 0 (2 ^ 32) 0 [] [], .naluCommitSet 0 0 (2 ^ 16) [] [], .naluCommitSet 0 0 0 [] [2 ^ 32],
   .naluTableChunk (2 ^ 16) 0 0 [], .naluTableChunk 0 (2 ^ 16) 0 [], .naluTableChunk 0 0 (2 ^ 32) [],
   .naluTableChunk 0 0 0 (zeros 2049), .naluFetched (2 ^ 16) 0 0, .naluFetched 0 64 0, .naluFetched 0 0 (2 ^ 32),
   .naluSig (2 ^ 16) 0 0 (List.replicate 64 0), .naluSig 0 0 (2 ^ 32) (List.replicate 64 0), .naluSig 0 0 0 [],
   .naluRecompute (2 ^ 16) 0 0 0 0, .naluRecompute 0 0 256 0 0, .naluRecompute 0 0 0 256 0, .naluRecompute 0 0 0 0 (2 ^ 64),
   .recomputeDone (badEcc 4 false), .naluResult (2 ^ 16) 0 0 0 (List.replicate 64 0) clean,
   .naluResult 0 0 256 0 (List.replicate 64 0) clean, .naluResult 0 0 0 (2 ^ 32) (List.replicate 64 0) clean,
   .naluResult 0 0 0 0 [] clean, .naluResult 0 0 0 0 (List.replicate 64 0) (badEcc 4 true),
   .naluVerdict (2 ^ 16) 0 0 (List.replicate 64 0), .naluVerdict 0 0 256 (List.replicate 64 0), .naluVerdict 0 0 0 [],
   .naluBlock (2 ^ 16) 0 0 [], .naluBlock 0 0 64 [], .naluBlock 0 0 0 (zeros 2049)]

/-- Ill-formed commands, one for each check of WellFormed.lean (part 4). -/
def illFormed4 : List Instr :=
  [.naluDecision (2 ^ 16) 0 0, .naluDecision 0 (2 ^ 48) 0, .naluDecision 0 0 256, .naluMissList (2 ^ 16) 0,
   .naluMissList 0 (2 ^ 48), .naluFinding (2 ^ 16) 0 0 0, .naluFinding 0 256 0 0, .naluFinding 0 0 (2 ^ 64) 0,
   .naluFinding 0 0 0 256, .naluFence (2 ^ 16) 0 0 0, .naluFence 0 256 0 0, .naluFence 0 0 2 0, .naluFence 0 0 0 (2 ^ 48),
   .naluEvent (2 ^ 16) (zeros 32), .naluEvent 0 [], .naluOutcome (2 ^ 16) (zeros 64) [], .naluOutcome 0 [] [],
   .naluOutcome 0 (zeros 64) (zeros 1), .naluHoles (2 ^ 16) 0 [], .naluHoles 0 (2 ^ 32) [], .naluHoles 0 0 (zeros 1),
   .sensorRead [], .calItemDone 6 (.ohms 0), .bistDone (2 ^ 64) 0 0 0, .bistDone 0 (2 ^ 32) 0 0, .bistDone 0 0 256 0,
   .bistWatchdog (2 ^ 64) 0, .bistWatchdog 0 (2 ^ 32), .counterConfig 16 0 0, .counterConfig 0 8 0]

/-- Every check of WellFormed.lean refuses its ill-formed command. -/
theorem test_illFormed_refused :
    (illFormed1 ++ illFormed2 ++ illFormed3 ++ illFormed4).all (fun c => !c.wf) = true := by decide +kernel

/-- Commands at the ends of their operands' ranges are well-formed. -/
theorem test_boundary_wf : (([.railTrip 5 2, .sqEnable 63 0, .scanComplete 3 (badEcc 0x5FFFFFFF8 true),
    .registerWrite 0x100FFC 0, .latchedLoRead 0x200FF8 true, .blockWake 15 31, .naluHello 65535 255 255 65535 (2 ^ 64 - 1) 255,
    .protConfirm 127 8 (2 ^ 32 - 1) 0 true, .knockReply ⟨[2 ^ 10 - 1], [0]⟩, .resetNRise 10 true 15 31 [(2 ^ 24 - 1, 0#8)], .naluOutcome 0 (zeros 64) (zeros 32)] : List Instr).all Instr.wf) = true := by decide +kernel

/-- No row of the table has bits, so no word spells a command. -/
theorem test_no_word_spells_a_command (n w : Nat) : decodeTableWord n w = none := rfl

/-- A word changes no state. -/
theorem test_no_word_is_fetched (s : State) (n w : Nat) : s.withFetchWord n w = s := rfl

/-! ## The manual's worked examples -/

/-- The ARM_STRIPE of the chapter on rings, bytes 0x00 to 0x3F. -/
def wicketArm : List Byte :=
  ([0x01, 0x01, 0x11, 0x00, 0, 0, 0, 0, 0x11, 0, 0, 0, 0, 0x01, 0x02, 0, 0x00, 0x7C, 0x92, 0x00, 0x00, 0x08, 0, 0,
    0x00, 0x48, 0xE8, 0x01, 0, 0, 0, 0, 0x00, 0x00, 0x10, 0x01, 0, 0, 0, 0, 0x00, 0x00, 0x00, 0x40, 0x08, 0, 0, 0,
    0x00, 0x00, 0x01, 0x00, 0, 0, 0, 0, 0, 0, 0, 0, 0, 0, 0, 0] : List Nat).map (BitVec.ofNat 8)

/-- The fields that the manual reads from these bytes (R78). -/
theorem test_wicket_arm_fields : armOf 0 17 wicketArm =
    ⟨0, 17, 0x11, 17, 0, 1, 2, 9600000, 2048, 32000000, 17825792, 0x840000000, 65536⟩ := by decide +kernel

/-- The entry is well-formed on a STRIPE ring (R76). -/
theorem test_wicket_arm_legal : malformed 1 wicketArm = false ∧ malformed 2 wicketArm = true := by decide +kernel

/-- The stripe needs 9,616,368 flashes: the last is 9,616,367, whose target is 647,447,488 pu. -/
theorem test_wicket_last_flash : (Stripe.fresh (armOf 0 17 wicketArm)).final = 9616367 ∧
    State.target State.reset (armOf 0 17 wicketArm) 9616367 = 647447488 := by decide +kernel

/-- Tracking frames of flash 7,639, and lane 0 of the missed flash 7,640. -/
theorem test_tracking_frames : trackWord 0 7639 false = 0xB5C0000A ∧ trackWord 9 7639 false = 0xB5C0009A ∧
    trackWord 0 7640 true = 0x7600000A := by decide +kernel

/-- Segments take 84 slots at rate 3 and 167 at rate 2 (R304, R326). -/
theorem test_segment_slots : segSlots 3 false = 84 ∧ segSlots 2 false = 167 := by decide +kernel

/-- The slat of R243's example contributes 15,990. -/
theorem test_contribution : contribution 2 3000 15800 9 = 15990 := by decide +kernel

/-- Louver 37 of the Wicket stripe: 20 of its slats, the first in offer order; slat 12 is weak and 7 and 56 are dead. -/
theorem test_louver_37 :
    (allocate ((List.range 64).map (fun d => ⟨if d = 7 ∨ d = 56 then 0 else if d = 12 then 2 else 1, 16384, 16384⟩))
      318 256 (dither 37 5000 0)).depths = [0, 1, 2, 3, 4, 5, 6, 8, 9, 10, 11, 13, 14, 15, 16, 17, 18, 19, 20, 21] := by
  decide +kernel

/-- The bit of pixel (37, 5,000) in frame 19,672, block 57; row 3,032 of the journal. -/
theorem test_frame_and_journal : blockAddr 19672 57 + 37 / 8 = ringBase + 0x99B1C804 ∧
    journalAddr 3032 = journalBase + 9666560 := by decide +kernel

/-- Half-widths of the box at 2, 5, 10 and 20 micrometres (R224). -/
theorem test_box_half : (boxHalf 2000, boxHalf 5000, boxHalf 10000, boxHalf 20000) = (8, 21, 43, 87) := by decide +kernel

/-- T of the seam's cell, and the doses of its five pixels (R227, R229, R230). -/
theorem test_seam_doses : denomT 512 171 43 = 214 ∧ rawDose 131072 5083 512 = 81328 ∧
    doseRow [0, 0, 81328, 81328, 0] = [0, 0, 318, 317, 0] := by decide +kernel

/-- The outlines of the ring resonator (R188, R206). -/
def ring : Shape := .contour [3, 1, 1, 3, 1, 1]
  [(52000, 812800), (52800, 813600), (52000, 814400), (51200, 813600), (52000, 812800),
   (52000, 813200), (51600, 813600), (52000, 814000), (52400, 813600), (52000, 813200)]

/-- Sample (i, j) of pixel (3,265, 50,819), with its louver's offset (3, −2), lies inside the ring. -/
def inRing (i j : Nat) : Bool :=
  sampleCovered 9600000 [ring.segs] (samplePos 3265 i 3) (samplePos 50819 j (-2))

/-- 2 samples of row 0, 8 of row 10 and 11 of row 15 are inside: the last of each is, the next is not. -/
theorem test_ring_samples : [inRing 1 0, inRing 2 0, inRing 7 10, inRing 8 10, inRing 10 15, inRing 11 15] =
    [true, false, true, false, true, false] := by decide +kernel

/-- The symbols of the match token of the codec chapter, and their values back (R166, R167). -/
theorem test_match_token : 256 + valueSym 4 36 = 274 ∧ valueSym 2 239 = 15 ∧ symValue 4 18 4 = 36 ∧
    symValue 2 15 47 = 239 ∧ extraBits 4 18 = 4 ∧ extraBits 2 15 = 6 := by decide +kernel

/-- The stack turns hot: P = 6 doubles to 8 with an excess of 4 forced refreshes (R276). -/
theorem test_hot_stack :
    let s : State := { State.reset with hmc := ⟨(List.range 32).map (fun k => ⟨if k = 9 then 6 else 0, false, []⟩), 0, 0, false, false⟩ }
    ((s.pcHot 9).1.pseudo 9).p = 8 ∧ (s.pcHot 9).2 = 4 := by decide +kernel

/-- The signal balls are 211 and the package has 2,025 (R37, R38); IDCODE holds part 0x1024 in version 1 (R47). -/
theorem test_balls : (signalBalls.map (·.balls)).sum = 211 ∧ 211 + (otherBalls.map (·.2)).sum = 2025 ∧
    jtagIdcode / 2 ^ 12 % 2 ^ 16 = 0x1024 ∧ jtagIdcode / 2 ^ 28 = 1 := by decide +kernel

/-- The segment of frame 19,672 on logical lane 28 of stripe 17, with bit 5 of payload byte 2,052. -/
def wicketSegment : Segment := ⟨32, 19672, 17, 0, 28, 2, [(2052, 0x20#8)]⟩

/-- Its lintel; the repayment bit stands in symbol 2,069. -/
theorem test_lintel : wicketSegment.lintel = ([0xD8, 0x4C, 0, 0, 0, 0, 0x11, 0, 0, 0, 0, 0x1C, 0x02, 0, 0, 0] : List Nat).map (BitVec.ofNat 8) ∧
    wicketSegment.bytes[2069 - 1]? = some 0x20#8 := by decide +kernel

/-- A segment has 4,118 symbols (R324). -/
theorem test_segment_symbols (g : Segment) : g.symbols.length = 4118 := by
  have h : ∀ (c : Memory) (l : List Byte), (c.foldl (fun l c => l.set c.1 c.2) l).length = l.length := by
    intro c
    induction c with
    | nil => intro l; rfl
    | cons x c ih => intro l; rw [List.foldl_cons, ih, List.length_set]
  simp only [Segment.symbols, dataSyms, Segment.bytes, Segment.lintel, List.length_cons, List.length_append,
    List.length_map, le_length, h, List.length_replicate, List.length_nil]

/-- The fire mark of flash 7,639: FCHK is 0xD7 ^ 0x1D ^ 0x00 ^ 0x5A (R327). -/
theorem test_fire_mark : fireMark 7639 = .ctl .k28_1 :: dataSyms [0xD7#8, 0x1D#8, 0x00#8, 0x90#8] := by decide +kernel

/-- Every symbol of the code. -/
def allSyms : List Sym :=
  (List.range 256).map (fun b => .data (BitVec.ofNat 8 b)) ++
    [.ctl .k28_5, .ctl .k28_2, .ctl .k28_1, .ctl .k28_4, .ctl .k27_7, .ctl .k29_7]

/-- A record heard as it was sent, and one with a code spoiled, which the other lane makes good (R320, R330). -/
theorem test_record_heard :
    let p := le 4 1 ++ le 4 7
    let cs := encodeSyms true (framedRecord 5 p)
    heardCopy (heard 5 p) = some (5, p) ∧ heardCopy ⟨cs.set 3 0x3FF, []⟩ = none ∧
    heardCopy ⟨cs.set 3 0x3FF, cs⟩ = some (5, p) ∧ goodCopies ⟨cs.set 3 0x3FF, cs⟩ = 2 ∧
    heardCopy ⟨cs.dropLast, []⟩ = none := by decide +kernel

/-- K28.5 and D0.0 at both disparities; no two symbols share a code (R320). -/
theorem test_line_code : encodeSym true (.ctl .k28_5) = (0b0011111010, false) ∧
    encodeSym false (.ctl .k28_5) = (0b1100000101, true) ∧ encodeSym true (.data 0#8) = (0b1001110100, true) ∧
    decodeSym false 0b1100000101 = some (.ctl .k28_5) ∧ decodeSym true 0b0000000000 = none ∧
    ((allSyms.map (fun y => (encodeSym true y).1)).Nodup ∧ (allSyms.map (fun y => (encodeSym false y).1)).Nodup) := by
  decide +kernel

/-! ## Small states -/

/-- READY, no ring enabled. -/
def ready : State := { State.reset with g := .ready }

/-- READY with one live window over the first 2^40 bytes of host memory. -/
def windowed : State := { ready with prot := { ready.prot with windows := [(0, 2 ^ 40)] } }

/-- The 64 bytes of an entry with these fields (offset, bytes, value). -/
def raw (fs : List (Nat × Nat × Nat)) : List Byte :=
  Memory.bytes (fs.foldl (fun m f => Memory.write m f.1 (le f.2.1 f.2.2)) []) 0 64

/-- An entry of ring `q` whose action has not begun. -/
def entry (q : Nat) (fs : List (Nat × Nat × Nat)) : Entry := ⟨q, 0, raw fs, false, 0⟩

/-- The state with these entries taken. -/
def taking (s : State) (es : List Entry) : State := { s with hif := { s.hif with entries := es } }

/-- A stripe of one band. -/
def oneBand : ArmReq := ⟨0, 0, 0, 1, 0, 1, 2, 256, 512, 0, 0, 0x100000, 4096⟩

/-- The same request as an entry (R78). -/
def oneBandRaw : List (Nat × Nat × Nat) :=
  [(0, 1, 1), (8, 4, 1), (13, 1, 1), (14, 1, 2), (16, 4, 256), (20, 2, 512), (40, 8, 0x100000), (48, 4, 4096)]

/-- The stripe just armed. -/
def fresh : Stripe := Stripe.fresh oneBand

/-- An engine that holds a stripe. -/
def holds (g : GState) (st : Stripe) : State := { ready with g := g, stripe := some st }

/-- ARMED. -/
def armed : State := holds .armed fresh

/-- RUN. -/
def running : State := holds .run { fresh with st := .run }

/-- The same engine, its Nalu lanes up and paired. -/
def paired (s : State) (mirror : Bool) : State :=
  { s with nlk := { s.nlk with paired := true, linkUp := true }, aon := { s.aon with mirror := mirror } }

/-- In START on the cold or the quick path. -/
def starting (p : StartPhase) (quick : Bool) : State := { State.reset with g := .start, phase := p, quick := quick }

/-! ## The hypotheses of the statements are met -/

theorem wit_IdleStepIsOneCycle : State.reset.pending = [] := rfl

theorem wit_StepKeepsMemoriesCanonical : State.reset.MemoriesWf ∧ step State.reset = .next (tick State.reset) :=
  ⟨⟨by decide, by decide, by decide⟩, rfl⟩

theorem wit_EventFrames :
    State.reset.g = .off ∧ (taking ready [entry 3 [(0, 1, 0x20)]]).entry? 3 0 = some (entry 3 [(0, 1, 0x20)]) ∧
    rawNotify (entry 3 [(0, 1, 0x20)]).raw = false ∧ ready.entry? 3 0 = none := by decide +kernel

theorem wit_ResetPinAndRails_fall :
    State.reset.aon.rails = true ∧
    (let s : State := { State.reset with g := .park, bst := { State.reset.bst with tag := some (1, 2) } };
      s.aon.rails = true ∧ s.g = .park ∧ s.bst.tag.isSome = true) ∧
    (ready.aon.rails = true ∧ ready.g ≠ .park ∧ ready.g ≠ .off) ∧
    ({ ready with aon := { ready.aon with rails := false } } : State).aon.rails = false := by decide +kernel

theorem wit_ResetPinAndRails_rise :
    State.reset.aon.resetHigh = false ∧ State.reset.g = .off ∧ State.reset.aon.rails = true ∧
    State.reset.aon.seenLow = true ∧ (10 ≤ 10 ∧ 9 < 10) := by decide

theorem wit_StartPhases :
    ((starting .boot false).g = .start ∧ (starting .boot false).phase = .boot) ∧
    ((starting .locked false).phase = .locked ∧ (starting .locked false).quick = false ∧
      chooseImage (some ⟨3, []⟩) (some ⟨3, []⟩) = some ⟨3, []⟩ ∧ chooseImage none (some ⟨65535, []⟩) = some ⟨65535, []⟩) ∧
    ((starting .locked true).quick = true ∧ (starting .locked true).phase = .locked) ∧
    ((starting .imaged false).quick = false ∧ (starting .imaged false).phase = .imaged ∧
      (∀ f ∈ [TrainFinding.lane 31 4 7 ⟨false, 30, 60⟩, .strobe 0 true], findingFails f = false)) ∧
    ((starting .stackUp false).phase = if (starting .stackUp false).quick then .restored else .stackUp) ∧
    ((starting .restored true).phase = if (starting .restored true).quick then .restored else .stackUp) := by
  decide +kernel

/-- The first bytes of a table of this die: MAGIC, VERSION and DIE_ID (R384). -/
def trimHead : List Byte := le 4 0x4D495254 ++ le 2 1 ++ le 2 0 ++ le 8 Config.dieId

/-- A table of this die. -/
def trimTable : List Byte := trimHead ++ List.replicate 4080 0#8

/-- Serial flash whose slot 0 holds a table with SEQ 7 and VALID. -/
def withSlot0 (t : List Byte) : State :=
  { State.reset with flash := Sparse.setList flashByte [] (trimSlot 0) (slotBytes t 7 ++ le 4 0x56414C44) }

theorem trimTable_length : trimTable.length = 4096 := by
  simp only [trimTable, trimHead, List.length_append, List.length_replicate, le_length]

theorem slotBytes_length {t : List Byte} (h : t.length = 4096) : (slotBytes t 7).length = 4104 := by
  simp only [slotBytes, List.length_append, le_length, h]

theorem slot0_part {t : List Byte} (h : t.length = 4096) (i n : Nat) (hi : i + n ≤ 4108) :
    Sparse.getList flashByte (withSlot0 t).flash (trimSlot 0 + i) n =
      ((slotBytes t 7 ++ le 4 0x56414C44).drop i).take n :=
  Sparse.getList_setList flashByte [] (trimSlot 0) i n _ (by rw [List.length_append, slotBytes_length h, le_length]; omega)

/-- A good table with SEQ, CRC and VALID makes its slot valid. -/
theorem slot0_valid {t : List Byte} (h : t.length = 4096) (hh : trimHeadOk (t.take 16) = true) :
    (withSlot0 t).slotValid 0 = true := by
  have l := slotBytes_length h
  have hm : (withSlot0 t).flashNum (trimSlot 0 + 4104) 4 = 0x56414C44 := by
    rw [State.flashNum, slot0_part h 4104 4 (by omega), List.drop_left' l]
    decide
  have hs : (withSlot0 t).flashNum (trimSlot 0 + 4096) 4 = 7 := by
    rw [State.flashNum, slot0_part h 4096 4 (by omega), slotBytes]
    simp only [List.append_assoc]
    rw [List.drop_left' h, List.take_left' (le_length 4 7)]
    decide
  have hb : Sparse.getList flashByte (withSlot0 t).flash (trimSlot 0) 4100 = t ++ le 4 7 := by
    have := slot0_part h 0 4100 (by omega)
    rw [Nat.add_zero] at this
    rw [this, List.drop_zero, slotBytes, List.append_assoc]
    exact List.take_left' (by simp only [List.length_append, le_length, h])
  have hc : (withSlot0 t).flashNum (trimSlot 0 + 4100) 4 = crc32c 0 (t ++ le 4 7) % 256 ^ 4 := by
    rw [State.flashNum, slot0_part h 4100 4 (by omega), slotBytes, List.append_assoc,
      List.drop_left' (by simp only [List.length_append, le_length, h]), List.take_left' (le_length 4 _), unle_le]
  have ht : Sparse.getList flashByte (withSlot0 t).flash (trimSlot 0) 16 = t.take 16 := by
    have := slot0_part h 0 16 (by omega)
    rw [Nat.add_zero] at this
    rw [this, List.drop_zero, slotBytes, List.append_assoc, List.append_assoc, List.take_append_of_le_length (by omega)]
  have hl : crc32c 0 (t ++ le 4 7) % 256 ^ 4 = crc32c 0 (t ++ le 4 7) :=
    Nat.mod_eq_of_lt (crc32c_lt (by norm_num) _)
  rw [State.slotValid, State.slotMarked, State.slotSeq, hm, hs, hb, hc, hl, ht, hh, beq_self_eq_true, beq_self_eq_true]
  rfl
theorem slot1_invalid {t : List Byte} (h : t.length = 4096) : (withSlot0 t).slotValid 1 = false := by
  have : (withSlot0 t).slotMarked 1 = false := by
    have e : ∀ i, i < 4 → Sparse.get flashByte (withSlot0 t).flash (trimSlot 1 + 4104 + i) = 0xFF#8 := by
      intro i hi
      rw [withSlot0, Sparse.get_setList_outside flashByte _ [] (trimSlot 0) _
        (.inr (by rw [List.length_append, slotBytes_length h, le_length, trimSlot, trimSlot]; omega))]
      rfl
    rw [State.slotMarked, State.flashNum, Sparse.getList, List.map_congr_left (g := fun _ => 0xFF#8)]
    · decide
    · intro i hi; exact e i (List.mem_range.mp hi)
  rw [State.slotValid, this]; rfl

theorem trimTable_head : trimHeadOk (trimTable.take 16) = true := by
  have l : trimHead.length = 16 := by simp only [trimHead, List.length_append, le_length]
  have d : num trimHead 8 8 = Config.dieId % 2 ^ 64 := by
    rw [num, trimHead, List.drop_left' (by simp only [List.length_append, le_length]),
      List.take_of_length_le (by rw [le_length]), unle_le]
    norm_num
  rw [trimTable, List.take_left' l, trimHeadOk, d, beq_self_eq_true, Bool.and_true]
  rfl

theorem wit_StartPhases_trims : State.reset.activeSlot = none ∧ (withSlot0 trimTable).activeSlot = some 0 :=
  ⟨by decide +kernel, by
    rw [State.activeSlot, slot0_valid trimTable_length trimTable_head, slot1_invalid trimTable_length]⟩

/-- A cold start whose image expects one test of block 4, items 0 to 3 run. -/
def testing (retried : Bool) : State :=
  { starting .trimsRead false with cal := { State.reset.cal with ran := 15 }, bst := { Bst.reset with expect := [⟨4, 1, 9, bistSignature 5 9 4 0xA5⟩], retried := retried } }

theorem wit_StartEnds_tests :
    (testing false).g = .start ∧ (testing false).phase = .trimsRead ∧ (testing false).quick = false ∧
    (testing false).startCalDone = true ∧ (starting .trimsRead false).startCalDone = false ∧
    (testing false).bistAllPass 1 [⟨4, 5, 9, 0xA5⟩] = true ∧ (testing false).bistAllPass 1 [⟨4, 5, 8, 0xA5⟩] = false ∧
    (testing false).bistAllPass 1 [] = false ∧ (testing false).bst.retried = false ∧ (testing true).bst.retried = true ∧
    (∀ e ∈ (testing false).bst.expect, e.block < 16 ∧ e.kind = 1) ∧
    (let s : State := { testing false with cal := { (testing false).cal with ran := 7 } }
     s.itemDue 3 = true ∧ s.pwr 13 ≠ .off ∧ s.startCalDone = true) := by decide +kernel

theorem wit_StartEnds_ready :
    (starting .tested false).phase = (if (starting .tested false).quick then .trimsRead else .tested) ∧
    (starting .trimsRead true).phase = (if (starting .trimsRead true).quick then .trimsRead else .tested) ∧
    ({ starting .trimsRead true with cal := { State.reset.cal with ran := 15 } } : State).startCalDone = true ∧
    (starting .tested false).aon.parkHigh = true ∧ (starting .tested false).reg SHL_CTRL.LINK_EN ≠ 1 ∧
    ((starting .tested false).setReg SHL_CTRL.LINK_EN 1).reg SHL_CTRL.LINK_EN = 1 ∧
    ({ starting .tested false with aon := { State.reset.aon with parkHigh := false } } : State).aon.parkHigh = false := by
  decide +kernel

theorem wit_RailTripEntersSafe : 2 ≤ 2 ∧ ready.g ≠ .off ∧ ready.bst.test.all (·.held.isEmpty) = true ∧
    State.reset.bst.test.all (·.held.isEmpty) = true := by decide

theorem wit_ClockLossEntersSafe :
    let s : State := { ready with aon := { ready.aon with rootLock := true } }
    s.aon.rootLock = true ∧ s.g ≠ .off ∧ s.bst.test.all (·.held.isEmpty) = true ∧ s.fence.any (·.hard) = false ∧ (starting .boot false).aon.refclk = true ∧ (1 < 2 ∨ ready.g = .off) ∧ State.reset.g = .off := by
  decide +kernel

theorem wit_ChipResetNeedsKey :
    (ready.writeLands 0x20 ∧ ready.stripeActive = false) ∧ (armed.writeLands 0x20 ∧ armed.stripeActive = true) ∧
    (0x3C3C0001#32).toNat / 2 ^ 16 = 0x3C3C ∧ (0x3C3D0001#32).toNat / 2 ^ 16 ≠ 0x3C3C := by decide +kernel

theorem wit_HostResets :
    ready.g ≠ .off ∧ ready.g ≠ .start ∧ armed.g ≠ .off ∧ armed.g ≠ .start ∧ ready.cfg.d3 = false ∧ ({ ready with g := .start } : State).g = .start := by decide

theorem wit_PollingIsGuarded :
    (ready.hif.pollAgain = false ∧ ready.hif.polling = false) ∧ State.reset.serviced = false ∧
    ready.inWindow ready.page 4096 = false ∧ ready.writeLands 0x10008 ∧ ready.isMirror = false := by decide +kernel

/-- READY, polling a page at 0; CONTROL ring 63 of 64 entries at 0x1000 has its index at the end of its range. -/
def polling : State :=
  let s : State := { windowed with hif := { windowed.hif with
    polling := true, sq := windowed.hif.sq.set 63 ⟨0x1000, 64, 0, 2 ^ 32 - 1, 5, 0, [], 1⟩ } }
  (s.setReg (HIF_SQ_CFG.ENABLE 63) 1).setReg (HIF_SQ_CFG.TYPE 63) 7

/-- What one new entry with OPC `opc` needs in host memory: the entry's first byte, as its last one of the ring. -/
def newEntry (opc : Nat) : Cells := [(0x1000 + 63 * 64, BitVec.ofNat 8 opc), (0x1000 + 63 * 64 + 9, 0x80#8)]

theorem wit_PollingIsGuarded_takes :
    let s := polling
    (s.serviced = true ∧ s.hif.polling = true ∧ s.isMirror = false ∧ s.bst.test = none ∧ s.hif.pollAgain = false ∧
      s.hif.hold = [] ∧ s.hif.lostToPost = 0 ∧ s.parkWaiting = false ∧ 63 < 64 ∧ 63 < s.hif.sq.length ∧ s.sqOn 63 = true ∧
      s.sqType 63 ≠ 2 ∧ s.reg (HIF_SQ_CFG.HALTED 63) = 0 ∧ 0 < (s.ring 63).size ∧ (∀ q', q' < 64 → q' ≠ 63 → s.sqOn q' = false)) ∧
    (let u := s.hostWrites (newEntry 0x60)
     u.inWindow u.page 4096 = true ∧ u.inWindow ((s.ring 63).base + (s.ring 63).cons % (s.ring 63).size * 64) 64 = true ∧
     u.hostWord (u.page + 4 * 63) = ((s.ring 63).cons + 1) % 2 ^ 32 ∧ (s.ring 63).written ≠ ((s.ring 63).cons + 1) % 2 ^ 32 ∧
     malformed (s.sqType 63) (u.nextRaw 63) = false ∧ u.orderLets 63 = true ∧ rawOpc (u.nextRaw 63) = 0x60 ∧
     num (u.nextRaw 63) 8 4 = 2 ^ 15) ∧
    (let s : State := { polling with g := .armed, stripe := some fresh }
     let raw := (s.hostWrites (newEntry 0x60)).nextRaw 63
     let c := s.takeSet 63 (s.nextIdx 63) (num raw 8 4) (num raw 12 4)
     s.gate raw = .go ∧ s.stripeActive = true ∧ s.refusing c = none ∧ c.storesTrims = false) ∧
    (∀ q, q < 64 → ready.sqOn q = true → ready.sqType q ≠ 7) := by decide +kernel

/-- Ring `q` with these bits of HIF_SQ_CFG, as the enable sees it. -/
def enabling (s : State) (q : Nat) (w : Word) : State :=
  let x := (w ||| 1#32).toNat
  ((s.setReg (HIF_SQ_CFG.TYPE q) (bits x 8 4)).setReg (HIF_SQ_CFG.LOG2SIZE q) (bits x 12 5)).setReg
    (HIF_SQ_CFG.EQ q) (bits x 17 3)

theorem wit_RingEnables_submission :
    (63 < 64 ∧ 63 < ready.hif.sq.length ∧ ready.writeLands (0x11008 + 16 * 63) ∧ ready.sqOn 63 = false) ∧
    ((enabling ready 63 0x6201#32).freeStreamChan = some 1 ∧ 1 < ready.chans.length) ∧
    (enabling ready 63 0x6201#32).sqMayEnable 63 = true ∧ (enabling ready 63 0x6001#32).sqMayEnable 63 = false ∧
    (enabling ready 63 0x5201#32).sqMayEnable 63 = false ∧ (ready.setReg (HIF_SQ_CFG.ENABLE 63) 1).sqOn 63 = true ∧
    (ready.setReg (HIF_SQ_CFG.ENABLE 63) 1).writeLands (0x11008 + 16 * 63) := by decide +kernel

theorem wit_RingEnables_event :
    7 < 8 ∧ 7 < ready.hif.eq.length ∧ ready.writeLands (0x12008 + 32 * 7) ∧ ready.eqOn 7 = false ∧
    6 ≤ bits (0x601#32 ||| 1#32).toNat 8 5 ∧ bits (0x1001#32 ||| 1#32).toNat 8 5 ≤ 16 ∧ ready.hif.hold = [] ∧
    ready.hif.lostToPost = 0 ∧ ready.hif.awaitDevEq = false := by decide +kernel

/-- A device event. -/
def anEvent : Event := ⟨0, 2, 0, 0xFF, 0x68, 0, 0, 0⟩

/-- READY with one event held; its ring 0 enabled with 64 entries if `on`. -/
def holdingOne (on : Bool) : State :=
  let s := { windowed with hif := { windowed.hif with hold := [⟨0, anEvent⟩], eq := windowed.hif.eq.set 0 ⟨4096, 64, 0, 0, 0, 1⟩ } }
  if on then s.setReg (HIF_EQ_CFG.ENABLE 0) 1 else s

theorem wit_EventsLeave :
    (let s := holdingOne true
     s.serviced = true ∧ s.hif.polling = false ∧ 0 < s.hif.eq.length ∧ s.hif.hold = [⟨0, anEvent⟩] ∧ s.hif.lostToPost = 0 ∧
     State.mayWrite { s.hostWrites [] with hif := { s.hif with hold := [] } } 0 anEvent = true) ∧
    (let s := holdingOne false
     State.mayWrite { s.hostWrites [] with hif := { s.hif with hold := [] } } 0 anEvent = false) ∧
    (let s := (holdingOne true).setReg (HIF_EQ_MOD.TIME_US 0) 1
     s.eqOn 0 = true ∧ s.reg (HIF_EQ_MOD.TIME_US 0) ≠ 0 ∧ (s.evRing 0).uncovered ≠ 0 ∧
     s.vectorOpen (s.reg (HIF_EQ_CFG.VECTOR 0) % 64) = false ∧
     ({ s.setReg (MSIX.MASK 0) 0 with cfg := { s.cfg with msixOn := true } } : State).vectorOpen 0 = true) ∧
    ready.reg (HIF_EQ_MOD.TIME_US 7) = 0 := by decide +kernel

/-- Event ring 0 with room for one entry and two events held for it, on a chip that polls if `p`. -/
def holdingTwo (p : Bool) : State :=
  let s := holdingOne true
  { s with hif := { s.hif with
      hold := [anEvent, anEvent].map (HeldEvent.mk 0), eq := s.hif.eq.set 0 ⟨4096, 64, 2 ^ 32 - 1, 0, 2 ^ 32 - 64, 0⟩, polling := p } }

theorem wit_EventsLeave_several :
    (let s := holdingTwo false
     s.serviced = true ∧ s.hif.awaitDevEq = false ∧ s.hif.polling = false ∧ s.eqOn 0 = true ∧ 0 < s.hif.eq.length ∧
     s.hif.hold = [anEvent, anEvent].map (HeldEvent.mk 0) ∧ s.hif.lostToPost = 0 ∧ 2 ≤ 4032 ∧ 0 < (s.evRing 0).size ∧
     (s.evRing 0).size ≤ 2 ^ 16 ∧ (s.evRing 0).prod < 2 ^ 32 ∧
     s.inWindow (s.evRing 0).base ((s.evRing 0).size * 32) = true ∧
     min 2 ((s.evRing 0).size - idxDiff (s.evRing 0).prod ((s.hostWrites []).evRing 0).consSeen) = 1) ∧
    (let s := holdingTwo true
     s.hif.polling = true ∧ s.inWindow s.page 4096 = true ∧
     min 2 ((s.evRing 0).size - idxDiff (s.evRing 0).prod
       ((s.hostWrites [(256, 255#8), (257, 255#8), (258, 255#8), (259, 255#8)]).readCons.evRing 0).consSeen) = 2) ∧
    (let s : State := { holdingOne true with hif := { (holdingOne true).hif with hold := [], lostToPost := 2 } }
     s.hif.hold = [] ∧ s.hif.lostToPost ≠ 0 ∧
     (s.hostWrites []).mayWrite s.devEq ⟨0, 3, 0, 0xFF, 0, 0, s.hif.lostToPost, 0⟩ = true ∧
     ((s.setReg (HIF_EQ_CFG.ENABLE 0) 0).hostWrites []).mayWrite s.devEq ⟨0, 3, 0, 0xFF, 0, 0, s.hif.lostToPost, 0⟩ = false) := by
  decide +kernel

/-! ### Entries -/

/-- READY with STREAM ring 2 enabled. -/
def streamOn : State := (windowed.setReg (HIF_SQ_CFG.ENABLE 2) 1).setReg (HIF_SQ_CFG.TYPE 2) 2

/-- The ARM_STRIPE of `oneBand`, taken with this answer. -/
def armOne (answer : Nat) : Entry := { entry 0 oneBandRaw with answer }

theorem wit_StripeEntries_arm :
    (rawOpc (raw oneBandRaw) = 0x01 ∧
      (let s := streamOn.setReg MGT_STATE.UNCAL 0
       s.armBreaks (armOf 0 0 (raw oneBandRaw)) = false ∧ s.reg MGT_STATE.UNCAL ≠ 1 ∧ s.heldEntry 0 0 (raw oneBandRaw) = armOne 0) ∧
      (let s := streamOn.setReg MGT_STATE.UNCAL 1
       s.reg MGT_STATE.UNCAL = 1 ∧ s.heldEntry 0 0 (raw oneBandRaw) = armOne 0x12) ∧
      windowed.armBreaks (armOf 0 0 (raw oneBandRaw)) = true ∧ windowed.heldEntry 0 0 (raw oneBandRaw) = armOne 0x09) ∧
    (∀ a ∈ [0, 0x09, 0x12], (taking ready [armOne a]).acts 0 0x01 (armOne a) ∧ (taking ready [armOne a]).waiting = none ∧
      (taking ready [armOne a]).joined = false) ∧
    (let s := taking (paired streamOn false) [armOne 0]
     s.acts 0 0x01 (armOne 0) ∧ s.waiting = none ∧ s.joined = true) := by decide +kernel

/-- ABORT_STRIPE of stripe 1. -/
def abortOne : Entry := entry 0 [(0, 1, 2), (8, 4, 1)]

theorem wit_StripeEntries_abort :
    (∀ s ∈ [ready, { ready with waiting := some { oneBand with idx := 1 } }],
      let s := taking s [abortOne]
      s.acts 0 0x02 abortOne ∧ (s.entriesBefore 0 0).all (fun x => rawOpc x.raw != 0x01 || x.started) = true ∧
      s.liveStripe.all (fun st => st.req.id != num abortOne.raw 8 4 || abortOne.before st.req) = true ∧
      s.waiting.all (fun r => r.id != num abortOne.raw 8 4 || abortOne.before r) = true) ∧
    (let s := taking { ready with waiting := some oneBand } [abortOne]
     s.acts 0 0x02 abortOne ∧ s.liveStripe = none ∧ s.waiting = some oneBand ∧ oneBand.id = num abortOne.raw 8 4 ∧
     abortOne.before oneBand = false) ∧
    (∀ x ∈ [StripeState.armed, .waitSos, .run, .tail],
      let st : Stripe := { fresh with st := x }
      let s := taking (holds .run st) [abortOne]
      s.acts 0 0x02 abortOne ∧ s.liveStripe = some st ∧ st.req.id = num abortOne.raw 8 4 ∧ abortOne.before st.req = false) := by
  decide +kernel

/-- A STREAM_BUF of stripe 1: 4,096 RAW bytes at 0x2000, the last. -/
def oneBuf : Entry := entry 2 [(0, 1, 0x10), (8, 4, 1), (13, 1, 3), (16, 8, 0x2000), (24, 4, 4096)]

/-- RUN with STREAM ring 2 bound to channel 1 and one buffer taken. -/
def streaming : State :=
  let s := { streamOn with g := .run, stripe := some { fresh with st := .run } }
  taking ((s.setReg (DMA_CH_STATUS.BOUND 1) 1).setReg (DMA_CH_STATUS.RING 1) 2) [oneBuf]

theorem wit_StreamBufStarts :
    streaming.serviced = true ∧ streaming.isMirror = false ∧ streaming.sqType 2 = 2 ∧
    (streaming.ring 2).discard = [] ∧ streaming.liveStripe = some { fresh with st := .run } ∧
    streaming.streamChan 2 = some 1 ∧ oneBand.streamSq = 2 ∧ streaming.cdc.feed.lastTaken = false ∧
    (streaming.chan 1).req = none ∧ streaming.reg (DMA_CH_STATUS.HALTED 1) = 0 ∧ 1 < streaming.chans.length ∧
    ((streaming.hostWrites []).nextBuf 2).2 = some oneBuf ∧ (streamOf oneBuf.raw).id = 1 ∧
    ((streaming.hostWrites []).nextBuf 2).1.cdc.feed.raw = none ∧ (streamOf oneBuf.raw).len ≠ 0 ∧
    ((streaming.hostWrites []).nextBuf 2).1.inWindow (streamOf oneBuf.raw).addr (streamOf oneBuf.raw).len = true := by
  decide +kernel

/-- LOAD_TABLE of `len` bytes from host 0x1000 to table `id` with this CHECK. -/
def loadOf (id len check : Nat) : Entry :=
  entry 3 [(0, 1, 0x20), (8, 2, id), (16, 8, 0x1000), (24, 4, len), (28, 4, check)]

/-- SAVE_TABLE of 4 bytes. -/
def saveOne : Entry := entry 3 [(0, 1, 0x21), (8, 2, 6), (16, 8, 0x1000), (24, 4, 4)]

/-- A TABLE request of four bytes in flight on channel 9 for this entry, `moved` of them read. -/
def loading (e : Entry) (moved : Nat) : State :=
  let s := taking windowed [{ e with started := true }]
  { s with chans := s.chans.set 9 ⟨some ⟨3, 0, ⟨0x1000, 4, 0, 0, moved⟩, 0, 0, 4, moved⟩, 0, 0, none⟩ }

/-- The same on both TABLE channels. -/
def bothLoading (e : Entry) : State :=
  let s := taking windowed [e]
  let c : Chan := ⟨some ⟨3, 1, ⟨0x1000, 4, 0, 0, 0⟩, 0, 0, 4, 0⟩, 0, 0, none⟩
  { s with chans := (s.chans.set 9 c).set 10 c }

theorem wit_TableTransfers_start :
    ((taking windowed [loadOf 6 0 0]).acts 3 0x20 (loadOf 6 0 0) ∧ (tableOf (loadOf 6 0 0).raw).len = 0) ∧
    ((taking windowed [loadOf 10 4 0]).acts 3 0x20 (loadOf 10 4 0) ∧ windowed.tableBad (tableOf (loadOf 10 4 0).raw) = true) ∧
    (let s := taking windowed [loadOf 6 4 0]
     s.acts 3 0x20 (loadOf 6 4 0) ∧ (s.hostWrites []).acts 3 0x20 (loadOf 6 4 0) ∧ s.tableBad (tableOf (loadOf 6 4 0).raw) = false ∧
     (s.hostWrites []).freeChan 3 = some 9 ∧ 9 < s.chans.length ∧ (s.hostWrites []).inWindow 0x1000 4 = true) ∧
    (let s := taking windowed [saveOne]
     s.acts 3 0x21 saveOne ∧ s.tableBad (tableOf saveOne.raw) = false ∧ (s.hostWrites []).freeChan 3 = some 9) ∧
    ((bothLoading (loadOf 6 4 0)).acts 3 0x20 (loadOf 6 4 0) ∧ (bothLoading saveOne).acts 3 0x21 saveOne ∧
      ((bothLoading saveOne).hostWrites []).freeChan 3 = none) := by decide +kernel

theorem wit_TableTransfers_complete :
    let good := loadOf 6 4 (crc32c 0 [0#8, 0#8, 0#8, 0#8])
    (∀ e ∈ [good, loadOf 6 4 0, saveOne], ∀ moved ∈ [0, 4],
      let s := loading e moved
      let r : Request := ⟨3, 0, ⟨0x1000, 4, 0, 0, moved⟩, 0, 0, 4, moved⟩
      s.serviced = true ∧ dmaClass 9 = 2 ∧ 9 < s.chans.length ∧ (s.chan 9).req = some r ∧
      s.reg (DMA_CH_STATUS.WAKE_WAIT 9) = 0 ∧ s.entry? r.q r.idx = some { e with started := true } ∧
      s.hif.entries = [{ e with started := true }] ∧ s.joined = false ∧ (tableOf e.raw).ofMirror = false ∧
      (tableOf e.raw).len = 4 ∧ s.sending (tableOf e.raw).id = false) ∧
    rawOpc good.raw = 0x20 ∧ rawOpc saveOne.raw = 0x21 ∧
    crc32c 0 (Memory.bytes (loading good 0).host 0x1000 4) = (tableOf good.raw).check ∧
    crc32c 0 (Memory.bytes (loading good 0).host 0x1000 4) ≠ (tableOf (loadOf 6 4 0).raw).check ∧
    (0x1003 < (loading saveOne 0).cplSlot 3 ∨ (loading saveOne 0).cplSlot 3 + 32 ≤ 0x1003) := by decide +kernel

/-- A STREAM request on channel 1 whose piece is moved and whose next descriptor stands at 0x2000. -/
def atDescriptor : State :=
  { windowed with chans := windowed.chans.set 1 ⟨some ⟨2, 0, ⟨0x1000, 8, 0, 0, 8⟩, 0x2000, 4095, 8, 8⟩, 0, 0, none⟩ }

theorem wit_DescriptorFetched :
    let r : Request := ⟨2, 0, ⟨0x1000, 8, 0, 0, 8⟩, 0x2000, 4095, 8, 8⟩
    let bytes := fun (b : Nat) => (List.range 8).map (fun i => (0x2000 + i, if i = 0 then BitVec.ofNat 8 b else 0#8)) ++ [(0x2008, 8#8)]
    atDescriptor.serviced = true ∧ dmaClass 1 = 1 ∧ 1 < atDescriptor.chans.length ∧ (atDescriptor.chan 1).req = some r ∧ r.piece.moved = r.piece.len ∧
    r.next ≠ 0 ∧ r.hops < 4096 ∧ atDescriptor.reg (DMA_CH_STATUS.WAKE_WAIT 1) = 0 ∧
    atDescriptor.inWindow r.next 32 = true ∧ atDescriptor.liveStripe = none ∧
    (let d := descOf (Memory.bytes (Memory.apply atDescriptor.host (bytes 0)) 0x2000 32)
     d.bad = false ∧ d.len = 8 ∧ atDescriptor.inWindow d.range.1 d.range.2 = true) ∧
    (descOf (Memory.bytes (Memory.apply atDescriptor.host []) 0x2000 32)).len = 0 ∧
    (descOf (Memory.bytes (Memory.apply atDescriptor.host [(0x200E, 1#8)]) 0x2000 32)).bad = true := by decide +kernel

/-- SCAN of `len` bytes at 0x1000 with this CTX and SEED_ADDR. -/
def scanEntry (ctx len seedAddr poly : Nat) : Entry :=
  entry 5 [(0, 1, 0x40), (8, 1, poly), (10, 1, ctx), (16, 8, 0x1000), (24, 8, len), (32, 8, 7), (40, 8, seedAddr)]

theorem wit_EmptyScan :
    (let e := scanEntry 0 0 0 0
     ((taking windowed [e]).hostWrites []).acts 5 0x40 e ∧ ((taking windowed [e]).hostWrites []).scanBad (scanOf e.raw) = false ∧
     (scanOf e.raw).len = 0 ∧ (scanOf e.raw).ctx ≠ 1) ∧
    (let e := scanEntry 1 0 0x2000 0
     ((taking windowed [e]).hostWrites []).acts 5 0x40 e ∧ ((taking windowed [e]).hostWrites []).scanBad (scanOf e.raw) = false ∧
     (scanOf e.raw).len = 0 ∧ (scanOf e.raw).ctx = 1) := by decide +kernel

theorem wit_ScanRuns_start :
    (let e := scanEntry 2 1 0 0
     ((taking ready [e]).hostWrites []).acts 5 0x40 e ∧ ((taking ready [e]).hostWrites []).scanBad (scanOf e.raw) = true) ∧
    (let e := scanEntry 0 1 0 1
     let s := taking windowed [e]
     (s.hostWrites []).acts 5 0x40 e ∧ (s.hostWrites []).scanBad (scanOf e.raw) = false ∧ (scanOf e.raw).len ≠ 0 ∧
     (s.hostWrites []).freeEngine = some 0 ∧ 0 < s.scans.length) := by decide +kernel

/-- A scan of one byte on engine 3 with this SEED_ADDR. -/
def scanning (seedAddr : Nat) : State :=
  let e := { scanEntry 0 1 seedAddr 0 with started := true }
  let s := taking windowed [e]
  { s with scans := [none, none, none, some ⟨5, 0, 0x1000, 1, 7, 0, 0, seedAddr, 0⟩],
           chans := s.chans.set 20 ⟨some ⟨5, 0, ⟨0x1000, 1, 0, 0, 0⟩, 0, 0, 1, 0⟩, 0, 0, none⟩ }

theorem wit_ScanRuns_end :
    let s := scanning 0x2000
    let sc : Scan := ⟨5, 0, 0x1000, 1, 7, 0, 0, 0x2000, 0⟩
    let r : Request := ⟨5, 0, ⟨0x1000, 1, 0, 0, 0⟩, 0, 0, 1, 0⟩
    let e := { scanEntry 0 1 0x2000 0 with started := true }
    3 < 4 ∧ s.reg (DMA_CH_STATUS.WAKE_WAIT (17 + 3)) = 0 ∧ s.scans.getD 3 none = some sc ∧ 3 < s.scans.length ∧
    (s.chan (17 + 3)).req = some r ∧ 17 + 3 < s.chans.length ∧ r.q = sc.q ∧ r.idx = sc.idx ∧
    s.entry? sc.q sc.idx = some e ∧ s.hif.entries = [e] ∧ s.scanWait = [] ∧ sc.seedAddr ≠ 0 ∧
    s.serviced = true ∧ clean.bad = none ∧ hbmUnheld 0 1 = false ∧ (s.cplSlot sc.q + 32 ≤ sc.seedAddr ∨ sc.seedAddr + 8 ≤ s.cplSlot sc.q) ∧
    (scanning 0).scans.getD 3 none = some { sc with seedAddr := 0 } := by decide +kernel

/-- COMPRESS or DECOMPRESS of 4 bytes from 0x1000 to 0x2000. -/
def codecEntry (opc srcLen : Nat) : Entry :=
  { entry 4 [(0, 1, opc), (8, 8, 0x1000), (16, 8, 0x2000), (24, 4, srcLen), (28, 4, 256)] with started := false }

theorem wit_CodecJobs_start :
    (let e := codecEntry 0x30 4
     let s := taking windowed [e]
     (s.hostWrites []).acts 4 0x30 e ∧ rawOpc e.raw = 0x30 ∧ (s.hostWrites []).codecBad 1 (codecOf e.raw) = false ∧
     (codecOf e.raw).resume = false ∧ (codecOf e.raw).srcLen ≠ 0 ∧ (s.hostWrites []).jobEngine 1 = some 4 ∧
     4 < s.cdc.engines.length ∧ (s.hostWrites []).freeChan 4 = some 11 ∧ 11 < s.chans.length) ∧
    (let e := codecEntry 0x31 4
     let s := taking windowed [e]
     (s.hostWrites []).acts 4 0x31 e ∧ (s.hostWrites []).codecBad 2 (codecOf e.raw) = false ∧
     (s.hostWrites []).jobEngine 2 = some 0) ∧
    (let e := codecEntry 0x30 4
     ((taking ready [e]).hostWrites []).acts 4 0x30 e ∧ ((taking ready [e]).hostWrites []).codecBad 1 (codecOf e.raw) = true) := by
  decide +kernel

/-- A job of one of the three kinds on engine `k`, its channel `ch`. -/
def working (e : Entry) (k kind ch : Nat) (preempted : Bool) : State :=
  let s := taking windowed [{ e with started := true }]
  { s with cdc := { s.cdc with engines := s.cdc.engines.set k (some ⟨e.q, 0, kind, ch, preempted, 0, 0⟩) },
           chans := s.chans.set ch ⟨some ⟨e.q, 0, ⟨0x1000, 4, 0, 0, 0⟩, 0, 0, 4, 0⟩, 0, 0, none⟩ }

theorem wit_CodecJobs_end :
    (let e := { codecEntry 0x31 4 with started := true }
     let s := working e 5 2 16 false
     let j : CodecJob := ⟨4, 0, 2, 16, false, 0, 0⟩
     let r : Request := ⟨4, 0, ⟨0x1000, 4, 0, 0, 0⟩, 0, 0, 4, 0⟩
     s.serviced = true ∧ 5 < s.cdc.engines.length ∧ s.cdc.engines.getD 5 none = some j ∧ (j.kind = 1 ∨ j.kind = 2) ∧ j.preempted = false ∧
     j.ch < s.chans.length ∧ s.reg (DMA_CH_STATUS.WAKE_WAIT j.ch) = 0 ∧ s.entry? j.q j.idx = some e ∧
     s.hif.entries = [e] ∧ (s.chan j.ch).req = some r ∧ r.q = j.q ∧ r.idx = j.idx ∧ s.pec.witnesses = [] ∧
     (codecOf e.raw).resume = false ∧ (codecOf e.raw).state = 0 ∧
     (decompressJob (AzState.fresh 2) (Memory.bytes s.host 0x1000 4) 256 false).status ≠ 0x02) := by decide +kernel

theorem wit_CodecJobs_resume :
    (let s := working (codecEntry 0x31 4) 2 2 11 true
     2 < 4 ∧ s.cdc.engines.length = 6 ∧ s.cdc.engines.getD 2 none = some ⟨4, 0, 2, 11, true, 0, 0⟩ ∧ s.hif.entries.all (·.started) = true ∧
     (s.setLive CDC_CTRL.HOST_SHARE 1).lv CDC_CTRL.HOST_SHARE = 1 ∧ s.cdc.engines.getD 3 none = none ∧
     s.lv CDC_CTRL.HOST_SHARE ≠ 1 ∧ s.stripeActive = false ∧ ({ s with g := .run } : State).stripeActive = true) := by
  decide +kernel

/-- RUN on a coded stream of STREAM ring 2 whose END block of an empty stream stands in its decompressor. -/
def decoding : State :=
  let s := { running with cdc := { running.cdc with feed := { running.cdc.feed with
    raw := some false, buf := azradHeader ++ endBlock 0 0 } } }
  (s.setReg (DMA_CH_STATUS.BOUND 1) 1).setReg (DMA_CH_STATUS.RING 1) 2

theorem wit_AzradBlockPasses :
    let s := decoding
    let st : Stripe := { fresh with st := .run }
    let f := s.cdc.feed
    s.liveStripe = some st ∧ s.streamChan st.req.streamSq = some 1 ∧ f.raw = some false ∧ s.working = true ∧
    s.reg (DMA_CH_STATUS.HALTED s.feedChan) = 0 ∧ s.inputFull = false ∧ s.stagedCount 1 = 0 ∧ f.dec.phase ≠ 3 ∧
    clean.bad = none ∧ (Dec.block ((bitsOf f.buf).length + 1) f.dec (bitsOf f.buf)).stop = .ended := by decide +kernel

/-- WITNESS of pane 15 of band 0 of a stripe. -/
def witnessEntry (id : Nat) : Entry :=
  entry 6 [(0, 1, 0x50), (8, 4, id), (13, 1, 15), (24, 8, 0x2000), (32, 4, 327784)]

theorem wit_Witnesses_refused :
    let e := witnessEntry 1
    let w := witnessOf e.raw
    let held : WitnessReq := ⟨6, 1, 1, 0, 15, 0, none⟩
    (∀ s ∈ [{ armed with pec := { armed.pec with witnesses := List.replicate 16 held } }, armed.setReg PEC_BAND_DOSE.BAND 0],
      (taking s [e]).acts 6 0x50 e ∧ (taking s [e]).namedStripe w.id w.pass = some oneBand ∧ w.band < bandsOf oneBand.rows ∧
      w.paneX ≤ 15 ∧ 327784 ≤ w.dstLen) ∧
    16 ≤ (taking { armed with pec := { armed.pec with witnesses := List.replicate 16 held } } [e]).witnessHeld ∧
    (let s := taking (armed.setReg PEC_BAND_DOSE.BAND 0) [e]
     s.witnessHeld < 16 ∧ s.stripe.any (fun st => st.req == oneBand) = true ∧ s.paneEntered w.band w.paneX = true) := by
  decide +kernel

theorem wit_Witnesses :
    ((taking armed [witnessEntry 2]).acts 6 0x50 (witnessEntry 2) ∧ (taking armed [witnessEntry 2]).namedStripe 2 0 = none) ∧
    (let e := witnessEntry 1
     let s := taking armed [e]
     let w := witnessOf e.raw
     s.acts 6 0x50 e ∧ s.namedStripe w.id w.pass = some oneBand ∧ w.band < bandsOf oneBand.rows ∧ w.paneX ≤ 15 ∧
     327784 ≤ w.dstLen ∧ s.witnessHeld < 16 ∧ s.paneEntered w.band w.paneX = false ∧ s.liveStripe.isSome = true) ∧
    (let e := { witnessEntry 1 with started := true }
     let s := working e 1 3 21 false
     let j : CodecJob := ⟨6, 0, 3, 21, false, 0, 0⟩
     s.serviced = true ∧ clean.bad = none ∧ s.inWindow (witnessOf e.raw).dst (witnessOf e.raw).dstLen = true ∧
     1 < s.cdc.engines.length ∧ s.cdc.engines.getD 1 none = some j ∧ j.kind = 3 ∧ j.ch < s.chans.length ∧
     s.reg (DMA_CH_STATUS.WAKE_WAIT j.ch) = 0 ∧ s.entry? j.q j.idx = some e ∧ s.hif.entries = [e] ∧
     (s.chan j.ch).req = some ⟨6, 0, ⟨0x1000, 4, 0, 0, 0⟩, 0, 0, 4, 0⟩ ∧ s.pec.witnesses = []) := by decide +kernel

/-! ### Commit sets, protection, power -/

/-- READY with a COMMIT of these blocks, COMMIT_ID 5, next on CONTROL ring 63. -/
def committing (mask : Nat) : State :=
  polling.hostWrites ((0x1000 + 63 * 64, 0x60#8) ::
    (List.range 8).map (fun i => (0x1000 + 63 * 64 + 8 + i, (le 4 mask ++ le 4 5).getD i 0#8)))

/-- The set that it brings. -/
def setOfNext (s : State) : PendingCommit :=
  s.takeSet 63 (s.nextIdx 63) (num (s.nextRaw 63) 8 4) (num (s.nextRaw 63) 12 4)

theorem wit_NaluCommitRefusals :
    ((ready.setReg NLK_CTRL.LOSS_LIMIT 0).takeSet 7 0 (2 ^ 11) 5).val NLK_CTRL.LOSS_LIMIT = 0 ∧
    (ready.takeSet 7 0 (2 ^ 11) 5).val NLK_CTRL.LOSS_LIMIT ≠ 0 ∧
    ((paired ready true).setReg NLK_CTRL.SOLO 1 |>.takeSet 7 0 (2 ^ 11) 5).val NLK_CTRL.SOLO = 1 ∧
    (paired ready true).isMirror = true := by decide +kernel

theorem wit_CommitOfPmuIsEmpty :
    let s := committing (2 ^ 15)
    s.mayCommit 63 ∧ num (s.nextRaw 63) 8 4 = 2 ^ 15 ∧ s.stripeActive = false ∧ s.commits.waiting = [] := by decide +kernel

theorem wit_CommitSets_refused :
    let s := (committing (2 ^ 11)).setReg NLK_CTRL.LOSS_LIMIT 0
    s.mayCommit 63 ∧ num (s.nextRaw 63) 8 4 ≠ 0 ∧ s.refusing (setOfNext s) = some (11, 1) := by decide +kernel

theorem wit_CommitSets_accepted :
    (let s : State := { committing (2 ^ 10) with g := .armed, stripe := some fresh }
     s.mayCommit 63 ∧ num (s.nextRaw 63) 8 4 ≠ 0 ∧ s.refusing (setOfNext s) = none ∧ (setOfNext s).storesTrims = false ∧
     s.stripeActive = true) ∧
    (let s := committing (2 ^ 10)
     s.mayCommit 63 ∧ s.stripeActive = false ∧ s.refusing (setOfNext s) = none ∧ (setOfNext s).storesTrims = false ∧
     s.commits.waiting = [] ∧ s.commits.behind = [] ∧ bit (num (s.nextRaw 63) 8 4) 10 = true ∧
     SHL_CTRL.MAX_RATE ∈ commitFields 10 ∧ bit (2 ^ 10) (tableBlock 7) = true ∧ bit (2 ^ 10) (tableBlock 1) = false) := by
  decide +kernel

theorem wit_CommitSets_waited :
    let st : Stripe := { fresh with st := .aborted, outcomeDone := true }
    let c := (ready.setReg SHL_CTRL.MAX_RATE 1).copySet 63 0 (2 ^ 10) 5
    let s : State := { holds .run st with commits := { ready.commits with waiting := [c] } }
    s.stripe = some st ∧ st.st = .aborted ∧ st.outcomeDone = true ∧ s.commits.waiting = [c] ∧ s.changesTrims c = false ∧
      SHL_CTRL.MAX_RATE ∈ commitFields 10 ∧ bit (2 ^ 10) 10 = true := by decide +kernel

/-- BARRIER. -/
def barrierEntry : Entry := entry 7 [(0, 1, 0x61)]

theorem wit_BarrierWaits :
    ((taking ready [barrierEntry]).serviced = true ∧
      (taking ready [barrierEntry]).nextControl 7 0x61 = some barrierEntry) ∧
    (let e := { barrierEntry with started := true }
     (taking ready [e]).hif.entries = e :: [] ∧ e.started = true ∧ rawOpc e.raw = 0x61) ∧
    rawOpc abortOne.raw ≠ 0x61 := by decide +kernel

/-- READY with item 5 staged as 1 and a sequence pending for an item. -/
def pendingItem (s : State) (item : Nat) (bs : List Byte) : State := { s with prot := { s.prot with pending := some (item, bs) } }

theorem wit_ProtectionStages :
    (ready.writeLands 0x110 ∧ ready.prot.pending = none) ∧
    (pendingItem ready 5 [1#8]).prot.pending.isSome = true ∧
    (let x := (0x10500#32 &&& ~~~3#32 ||| 1#32).toNat
     itemOk (bits x 8 3) (bits x 16 9) (ready.stageBytes (bits x 16 9)) = true ∧ ¬(bits x 8 3 = 4 ∧ ready.isMirror = true)) ∧
    (let x := (0x10000#32 &&& ~~~3#32 ||| 1#32).toNat
     itemOk (bits x 8 3) (bits x 16 9) (ready.stageBytes (bits x 16 9)) = false) ∧
    (let s := paired ready true
     s.writeLands 0x110 ∧ s.prot.pending = none ∧ bits (0x40400#32 ||| 1#32).toNat 8 3 = 4 ∧ s.isMirror = true) ∧
    ready.g ≠ .off := by decide +kernel

theorem wit_ProtectionEnds :
    (let s := pendingItem ready 5 [1#8]
     s.prot.pending.isSome = true ∧ s.g ≠ .off ∧ s.writeLands 0x110 ∧ s.smbTarget = 0x5A ∧
     ({ s with prot := { s.prot with lastItem := 3 } } : State).prot.lastItem = 3 ∧ ¬(1 = s.prot.lastCrc ∧ 0 = s.prot.lastNonce)) ∧
    (pendingItem ready 4 (zeros 4)).prot.pending = some (4, zeros 4) ∧
    ((pendingItem ready 1 []).prot.pending = some (1, []) ∧ (pendingItem ready 1 []).stripeActive = false) ∧
    ((pendingItem armed 3 (zeros 32)).prot.pending = some (3, zeros 32) ∧ (pendingItem armed 3 (zeros 32)).stripeActive = true) := by
  decide +kernel

/-- OFF requested for block 15. -/
def offAsked : State := ready.setReg MGT_PWR_REQ.REQ (2 * 4 ^ 15)

theorem wit_BlockStates_off :
    15 < 16 ∧ offAsked.power.length = 16 ∧ offAsked.pwrPending 15 = true ∧ offAsked.drained 15 = true ∧ offAsked.g ≠ .off ∧
    ready.pwrPending 15 = false ∧
    ({ offAsked with pmu := { offAsked.pmu with writing := some (0, [], 0) } } : State).drained 15 = false := by
  decide +kernel

theorem wit_BlockStates_nap :
    ((ready.pwr 15 = .run ∧ ready.pwrReq 15 ≠ 2 ∧ ready.hasWork 15 = false) ∧
      ((ready.setPwr 15 .idle).pwr 15 = .idle ∧ (ready.setPwr 15 .idle).mayNap 15 = true) ∧ ready.mayNap 0 = false ∧
      ready.pwr 0 ≠ .off ∧ 31 < 32) ∧
    (2 ≤ 15 ∧ offAsked.writeLands 0x40 ∧ offAsked.pwrReq 15 = 2 ∧ 1 < 2 ∧ offAsked.reg MGT_PWR_REQ.REQ < 2 ^ 32) ∧
    (ready.writeLands 0x40 ∧ ready.pwrReq 2 ≠ 2 ∧ ready.reg MGT_PWR_REQ.REQ < 2 ^ 32 ∧ ready.pwr 2 ≠ .off ∧
      ((List.range 16).all (fun j => j == 2 || bits (0x20#32).toNat (2 * j) 2 == ready.pwrReq j)) = true ∧
      bits (0x20#32).toNat (2 * 2) 2 = 2 ∧ ready.drained 2 = true ∧
      ({ armed with g := .run } : State).drained 2 = false) := by decide +kernel

/-! ### Registers, channels, counters -/

theorem wit_RegisterWriteIsStaged :
    ([PEC_CTRL.ETA, PEC_SCALE.SCALE, HMC_PD.PD_IDLE, EMS_XTOL.XTOL_PU, SCH_DWELL.DWELL_NS].all
      (fun f => ready.takesWrite f.addr && ready.pwr (f.addr / 0x10000) != .off && ready.bst.test.isNone)) = true ∧
    ready.writeLands EMS_XTOL.XTOL_PU.addr ∧ ready.bst.test = none ∧
    (starting .boot false).g = .start ∧ 0x1C / 4 * 4 ≠ 0x20 ∧ 0x24 / 4 * 4 ≠ 0x20 ∧ 0x1FFFFC < cfgBase := by decide +kernel

/-- READY with vector 63 pending and MSI-X enabled. -/
def vectorPending : State :=
  ({ ready with cfg := { ready.cfg with msixOn := true } }).setReg (MSIX.PENDING 63) 1

theorem wit_RegisterWriteIsStaged_others :
    (ready.writeLands 0x24 ∧ ready.writeLands 0x20000) ∧
    (63 < 64 ∧ ready.writeLands (0x200 + 4 * 63) ∧ ready.protPending = false ∧
      (pendingItem ready 5 [1#8]).writeLands 0x200 ∧ (pendingItem ready 5 [1#8]).protPending = true) ∧
    (ready.writeLands (0x11000 + 16 * 63) ∧ ready.sqOn 63 = false ∧ ready.reg (HIF_SQ_BASE.ADDR 63) < 2 ^ 64 ∧
      (ready.setReg (HIF_SQ_CFG.ENABLE 63) 1).sqOn 63 = true) ∧
    (vectorPending.writeLands (0x18000 + 16 * 63) ∧ ready.vectorOpen 63 = false ∧ vectorPending.cfg.msixOn = true ∧
      vectorPending.cfg.msixMask = false ∧ bit (2#32).toNat 0 = false ∧ vectorPending.reg (MSIX.PENDING 63) = 1) ∧
    (ready.g ≠ .off ∧ (vectorPending.setReg (MSIX.MASK 63) 0).vectorOpen 63 = true ∧ bit (0x80000000#32).toNat 31 = true) := by
  decide +kernel

theorem wit_ReadsHaveEffects :
    ready.serviced = true ∧ ready.pwr 9 ≠ .off ∧ ready.pwr (HIF_EVT_LOST.LOST.addr / 0x10000) ≠ .off ∧
    ready.pwr (EMS_SOS_IGN.COUNT.addr / 0x10000) ≠ .off ∧ ({ ready with g := .safe } : State).g = .safe ∧
    ({ ready with g := .park } : State).g = .park ∧ ready.g ≠ .off ∧ ready.reg MGT_REV.STEPPING < 2 ^ 8 ∧
    ready.underTest 9 = false ∧ ready.underTest 15 = false ∧ ready.pwr 15 ≠ .off ∧
    ({ ready with prot := { ready.prot with pmuUser := true } } : State).prot.pmuUser = true := by decide +kernel

theorem wit_ChannelStops :
    (let e := { loadOf 6 4 0 with started := true }
     let s := { taking windowed [e] with chans := ready.chans.set 9 ⟨some ⟨3, 0, ⟨0x1000, 4, 0, 0, 4⟩, 0, 0, 4, 4⟩, 0, 0, none⟩ }
     s.serviced = true ∧ dmaClass 9 = 2 ∧ 9 < s.chans.length ∧ (s.chan 9).req = some ⟨3, 0, ⟨0x1000, 4, 0, 0, 4⟩, 0, 0, 4, 4⟩ ∧
     s.reg (DMA_CH_STATUS.HALTED 9) = 0 ∧ s.reg (DMA_CH_STATUS.WAKE_WAIT 9) = 0 ∧ s.nothingWaits ∧ s.writeLands (0x21004 + 32 * 9)) ∧
    (31 < 32 ∧ ready.writeLands (0x21008 + 32 * 31) ∧ ready.nothingWaits ∧
      (ready.setReg (DMA_CH_STATUS.WAKE_WAIT 9) 1).reg (DMA_CH_STATUS.WAKE_WAIT 9) = 1 ∧ ready.g ≠ .off) := by
  decide +kernel

theorem wit_CounterEpochs :
    (ready.setReg PMU_CTRL.FREEZE 1).reg PMU_CTRL.FREEZE = 1 ∧ ready.writeLands 0xF0000 ∧ bit (1#32).toNat 1 = false ∧
    15 < 16 ∧ 7 < 8 ∧ ready.pmu.counters.length = 128 ∧ ready.writeLands (0xF1000 + 128 * 15 + 16 * 7) := by decide +kernel

/-- Snapshots enabled, one every 100 microseconds, into 2^0 slots at 4,096. -/
def snapping : State :=
  ((({ windowed with pmu := { windowed.pmu with base := 4096 } }).setReg PMU_SNAP_CFG.ENABLE 1).setReg
    PMU_SNAP_CFG.PERIOD_US 100)

theorem wit_Snapshots :
    (ready.writeLands 0xF0018 ∧ ready.reg PMU_SNAP_CFG.ENABLE = 0) ∧
    (snapping.writeLands 0xF001C ∧ snapping.serviced = true ∧ snapping.reg PMU_SNAP_CFG.PERIOD_US ≠ 0 ∧
      snapping.bst.test = none ∧ snapping.reg PMU_SNAP_CFG.ENABLE = 1 ∧ snapping.pwr 15 ≠ .off ∧
      snapping.pmu.writing = none ∧ snapping.pmu.due = false) ∧
    (let t0 : BlockTest := ⟨15, false, [], []⟩
     let s : State := { snapping with bst := { snapping.bst with test := some t0 } }
     s.serviced = true ∧ s.bistHolds (fun k => k == 2 || k == 15) = true ∧ t0.held = [] ∧
      ({ s with pmu := { s.pmu with due := true } } : State).pmu.due = true) ∧
    (let a := snapping.pmu.base + (snapping.reg PMU_SNAP_SEQ.SEQ + 1 - 1) % 2 ^ snapping.pmu.log2n * 1280
     snapping.inWindow a 1280 = true ∧ ({ snapping with prot := ready.prot } : State).inWindow a 1280 = false) ∧
    ({ snapping with pmu := { snapping.pmu with writing := some (0, [], 0) } } : State).pmu.writing.isSome = true := by
  decide +kernel

/-- READY with root lock. -/
def locked : State := { ready with aon := { ready.aon with rootLock := true } }

/-- A test of block 15 under way, whose image expects MISR 5 after 9 patterns. -/
def underWay : State :=
  { locked with bst := { Bst.reset with test := some ⟨15, true, [], [(0xF0000, 7)]⟩, expect := [⟨15, 3, 9, bistSignature 5 9 15 0xA5⟩] } }

theorem wit_BlockTests :
    (locked.takesWrite 0xE0000 = true ∧ locked.pwr 14 ≠ .off ∧ locked.bst.test.all (fun t => t.block != 14) = true) ∧
    untestable (bits (0x0E#32 ||| 0x100#32).toNat 0 4) = true ∧ untestable (bits (0x0F#32 ||| 0x100#32).toNat 0 4) = false ∧
    (armed.onDataPath 2 = true ∧ armed.stripeActive = true) ∧ underWay.bst.test.isSome = true ∧
    ((locked.onDataPath 15 && locked.stripeActive) = false ∧ locked.bst.test = none ∧ locked.pwr 15 ≠ .off ∧
      locked.pwrPending 15 = false ∧ locked.aon.rootLock = true ∧ (locked.setPwr 15 .off).pwr 15 = .off) ∧
    (underWay.bst.test = some ⟨15, true, [], [(0xF0000, 7)]⟩ ∧ underWay.g ≠ .off ∧ underWay.bistPasses 3 ⟨15, 5, 9, 0xA5⟩ = true ∧
      underWay.bistPasses 3 ⟨15, 5, 9, 0xA4⟩ = false ∧ underWay.bistPasses 3 ⟨15, 5, 8, 0xA5⟩ = false ∧
      underWay.pmu.due = false ∧ underWay.answers 15 = true ∧ underWay.pwr 15 ≠ .off ∧ underWay.busyBlock 15 = false ∧
      ({ underWay with pmu := { underWay.pmu with writing := some (0, [], 0) } } : State).busyBlock 15 = true ∧
      [(0xF0000, 7)].lookup (0xF0000 / 4 * 4) = some 7) := by decide +kernel

/-! ### Park -/

/-- PARK with this phase of BST_PARK. -/
def parkedAt (p : Nat) : State := ({ ready with g := .park }).setReg BST_PARK.PHASE p

/-- READY with a park requested by the strap. -/
def strapped : State := { ready with bst := { ready.bst with strapReq := true } }

/-- PARK of a CONTROL ring. -/
def parkEntry : Entry := entry 7 [(0, 1, 0x62)]

theorem wit_ParkBeginsAndEnds :
    ready.serviced = true ∧ (strapped.g ≠ .park ∧ strapped.bst.strapReq = true) ∧
    ((taking ready [parkEntry]).acts 7 0x62 parkEntry ∧
      ((taking ready [parkEntry]).entriesOf 7).any (fun x => !x.started && x.idx < parkEntry.idx) = false) ∧
    ((parkedAt 5).g = .park ∧ (parkedAt 5).reg BST_PARK.PHASE = 5) ∧ (parkedAt 0).reg BST_PARK.PHASE = 0 ∧
    ((paired (parkedAt 4) false).nlk.paired = true ∧ (paired (parkedAt 4) false).isMirror = false ∧
      (paired (parkedAt 5) false).g = .park) ∧
    ((parkedAt 4).reg BST_PARK.PHASE ≠ 0 ∧ (parkedAt 4).reg BST_PARK.PHASE ≠ 5) ∧ ready.g ≠ .park := by decide +kernel

/-- A park record of stepping and firmware at reset and of areas that hold nothing, without its CRC. -/
def recordHead : List Byte :=
  zeros 6 ++ le 2 (ready.reg MGT_REV.STEPPING) ++ le 2 (ready.reg MGT_REV.FW_VERSION) ++ zeros 14 ++
    le 4 State.reset.imageCrc ++ le 4 State.reset.fwCrc ++ zeros 476

/-- A quick start whose park record begins with `h` and matches the tag. -/
def restoring (h : List Byte) : State :=
  { starting .stackUp true with
      hbm := Memory.write [] parkRecordAddr (h ++ le 4 (crc32c 0 h))
      bst := { Bst.reset with tag := some (num h 12 4, crc32c 0 h) } }

/-- A park record leaves the bytes of an area that it does not overlap. -/
theorem savedBytes_record (rec : List Byte) (area : Nat × Nat) (hl : rec.length = 512)
    (h : area.1 + area.2 ≤ parkRecordAddr ∨ parkRecordAddr + 512 ≤ area.1) :
    Memory.bytes (Memory.write [] parkRecordAddr rec) area.1 area.2 = Memory.bytes [] area.1 area.2 := by
  refine List.map_congr_left (fun i hi => Memory.byte_write_outside [] _ _ rec ?_)
  have := List.mem_range.mp hi
  omega

/-- A field in the first part of a list. -/
theorem num_append (h x : List Byte) (o k : Nat) (hk : o + k ≤ h.length) : num (h ++ x) o k = num h o k := by
  rw [num, num, List.drop_append_of_le_length (by omega), List.take_append_of_le_length (by rw [List.length_drop]; omega)]

theorem restoring_record (h : List Byte) (hl : h.length = 508) (h6 : num h 6 1 = ready.reg MGT_REV.STEPPING)
    (h24 : num h 24 4 = State.reset.imageCrc) (h28 : num h 28 4 = State.reset.fwCrc) :
    (restoring h).recordOk (some (num h 8 2)) = true := by
  have l : (h ++ le 4 (crc32c 0 h)).length = 512 := by rw [List.length_append, hl, le_length]
  have r : Memory.bytes (restoring h).hbm parkRecordAddr 512 = h ++ le 4 (crc32c 0 h) := by
    have := Sparse.getList_setList ramByte [] parkRecordAddr 0 512 (h ++ le 4 (crc32c 0 h)) (by omega)
    rw [List.drop_zero, List.take_of_length_le (by omega)] at this
    exact this
  have c : num (h ++ le 4 (crc32c 0 h)) 508 4 = crc32c 0 h := by
    rw [num, List.drop_left' hl, List.take_of_length_le (by rw [le_length]), unle_le]
    exact Nat.mod_eq_of_lt (crc32c_lt (by norm_num) _)
  have a : (restoring h).reg MGT_REV.STEPPING = ready.reg MGT_REV.STEPPING := rfl
  have i : (restoring h).imageCrc = State.reset.imageCrc := congrArg (crc32c 0) (savedBytes_record _ sramArea l (by decide))
  have f : (restoring h).fwCrc = State.reset.fwCrc := congrArg (crc32c 0) (congrArg₂ (· ++ ·)
    (savedBytes_record _ firmwareArea l (by decide)) (savedBytes_record _ gatekeeperArea l (by decide)))
  have t : (restoring h).bst.tag = some (num h 12 4, crc32c 0 h) := rfl
  rw [State.recordOk, r, i, f, t]
  simp only [c, List.take_left' hl, num_append h _ 12 4 (by omega), num_append h _ 6 1 (by omega),
    num_append h _ 8 2 (by omega), num_append h _ 24 4 (by omega), num_append h _ 28 4 (by omega), h6, h24, h28, a,
    beq_self_eq_true, Bool.and_true]

theorem recordHead_length : recordHead.length = 508 := by
  simp only [recordHead, zeros, List.length_append, List.length_replicate, le_length]

/-- A CRC in its four bytes. -/
theorem num_crc (x y z : List Byte) (o : Nat) (hx : x.length = o) : num (x ++ le 4 (crc32c 0 y) ++ z) o 4 = crc32c 0 y := by
  rw [num, List.append_assoc, List.drop_left' hx, List.take_left' (le_length 4 _), unle_le]
  exact Nat.mod_eq_of_lt (crc32c_lt (by norm_num) _)

theorem recordHead_image : num recordHead 24 4 = State.reset.imageCrc := by
  rw [recordHead, List.append_assoc (_ ++ le 4 State.reset.imageCrc)]
  exact num_crc _ _ _ 24 (by simp only [zeros, List.length_append, List.length_replicate, le_length])

theorem recordHead_fw : num recordHead 28 4 = State.reset.fwCrc :=
  num_crc _ _ _ 28 (by simp only [zeros, List.length_append, List.length_replicate, le_length])

/-- What the runs of blocks 2 to 13 and 15 end with, block 4 with this CODE. -/
def parkRuns (code : Nat) : List BistRun :=
  ⟨0, 0, 0, 0⟩ :: parkBlocks.map (fun k => ⟨k, 5, 9, if k = 4 then code else 0xA5⟩)

theorem wit_ParkSteps :
    (strapped.parkWaiting = true ∧ strapped.parkReady = true) ∧ ready.parkWaiting = false ∧ armed.parkReady = false ∧
    ((parkedAt 2).g = .park ∧ (parkedAt 2).reg BST_PARK.PHASE = 2) ∧
    (let s : State := { parkedAt 4 with bst := { Bst.reset with
      expect := parkBlocks.map (fun k => ⟨k, 2, 9, bistSignature 5 9 k 0xA5⟩) } }
     s.g = .park ∧ s.reg BST_PARK.PHASE = 4 ∧ s.reg HMC_STATUS.SR_ENTRY = 0 ∧ s.reg BST_PARK.WAKE_HELD = 0 ∧
     s.bst.tag = none ∧ s.bistAllPass 2 ((parkRuns 0xA5).filter (fun r => parkBlocks.contains r.block)) = true ∧
     s.bistAllPass 2 ((parkRuns 0xA4).filter (fun r => parkBlocks.contains r.block)) = false) := by decide +kernel

theorem wit_ParkSteps_restore :
    let s := restoring recordHead
    (s.g = .start ∧ s.quick = true ∧ s.phase = .stackUp ∧ clean.bad = none ∧ s.recordOk (some (num recordHead 8 2)) = true) ∧
    (∀ image, (starting .stackUp true).recordOk image = false) ∧ s.recordOk none = false ∧
    eccWithin ⟨parkRecordAddr, false⟩ parkRecordAddr 0x8000000 = true :=
  ⟨⟨rfl, rfl, rfl, rfl, restoring_record recordHead recordHead_length (by decide +kernel)
      recordHead_image recordHead_fw⟩,
    fun image => by rw [State.recordOk]; simp [starting, State.reset, Bst.reset],
    by rw [State.recordOk]; simp, by decide +kernel⟩

/-! ### The data path -/

/-- RUN with a RAW stream whose next record is PAD (R151). -/
def reading (input : List Byte) : State :=
  { running with
      cdc := { running.cdc with feed := { running.cdc.feed with raw := some true } }
      prs := { running.prs with opened := true, input := input } }

/-- A PAD record. -/
def padRecord : List Byte := [0x7F#8, 0#8, 1#8, 0#8, 0#8, 0#8, 0#8, 0#8]

theorem wit_ParserCommands_records :
    (let s := reading padRecord
     let st : Stripe := { fresh with st := .run }
     s.liveStripe = some st ∧ s.cdc.feed.raw = some true ∧ s.working = true ∧
     (∀ ch, s.streamChan st.req.streamSq = some ch → s.stagedCount ch = 0) ∧ s.parsing = true ∧ s.prs.endSeen = false ∧
     s.prs.read st.req (s.inputEnded st) = .whole padRecord) ∧
    (let s := reading (0x55#8 :: zeros 7)
     let st : Stripe := { fresh with st := .run }
     s.parsing = true ∧ s.prs.read st.req (s.inputEnded st) = .fault 1 ∧ s.covered = false ∧ st.st = .run ∧ s.g = .run) := by
  decide +kernel

theorem wit_ParserCommands_bands :
    (let s : State := { running with prs := { running.prs with needLine := some 262143 } }
     s.prs.needLine = some 262143 ∧ s.prs.needLine ≠ some 0 ∧ s.serviced = true ∧ s.fence = none ∧
     eccWithin ⟨spillBase + 4096 * 262143 + 4088, false⟩ (spillBase + 4096 * 262143) 4096 = true) ∧
    (running.tooFarAhead = false ∧ running.prs.todo = []) ∧
    (let s : State := { running with prs := { running.prs with finished := true } }
     s.mayRelease { fresh with st := .run } = true ∧ s.working = true) ∧
    running.mayRelease { fresh with st := .run } = false ∧
    (let s : State := { running with csm := { running.csm with band := 1 } }
     s.prs.retired < s.csmSkip.csm.band) := by decide +kernel

/-- RUN with one primitive in the only band. -/
def onePlaced : State :=
  { running with prs := { running.prs with released := 1, placed := [⟨⟨0, .polygon [(0, 0), (16, 0), (16, 16)]⟩, 0, 0, 0, 0⟩] } }

/-- A class plane of band 0. -/
def onePlane : Plane := ⟨0, 0, 0, 0, []⟩

theorem wit_BandsAreRasterised :
    (onePlaced.liveStripe = some { fresh with st := .run } ∧ onePlaced.working = true ∧ onePlaced.csm.recompute = none ∧
      onePlaced.csmSkip.csm.band < onePlaced.prs.released) ∧
    (let c := onePlaced.csmSkip.csm
     let ps := onePlaced.slicePlanes 256 c.band (c.unit / 16) (c.unit % 16)
     onePlaced.csm.planes.length + ps.length ≤ planeRoom ∧ planeRoom < 448 + ps.length) ∧
    (let s : State := { running with csm := { running.csm with planes := [onePlane] } }
     s.nextPlane = some onePlane ∧ s.dosed ≤ onePlane.band ∧
     (s.setReg PEC_BAND_DOSE.BAND 0).nextPlane = some onePlane ∧ onePlane.band < (s.setReg PEC_BAND_DOSE.BAND 0).dosed) := by
  decide +kernel

/-- The vote of step −512 with a dose recompute called. -/
def doseCalled : Vote := ⟨-512, none, none, 0, 1, 0, [], [], [], [], [], [], false⟩

theorem wit_BandsAreRasterised_recompute :
    let s : State := { paired running false with nlk := { (paired running false).nlk with votes := [doseCalled] } }
    s.csm.recompute = none ∧ s.doseVote { fresh with st := .run } = some doseCalled ∧
    (fresh.bandsOfStep doseCalled.step).find? (fun b => !doseCalled.redone.contains b) = some 0 := by decide +kernel

/-- RUN with the only band released, rasterised, and its B and density complete. -/
def corrected : State :=
  (({ running with prs := { running.prs with released := 1 }, csm := { running.csm with band := 1 } }).setReg
    PEC_BAND_DENS.BAND 0).setReg PEC_BAND_B.BAND 0

theorem wit_DensityAndDose :
    (onePlaced.densed < onePlaced.prs.released ∧ onePlaced.waitGrid = false) ∧
    (running.setReg PEC_BAND_DENS.BAND 0).mayBlur { fresh with st := .run } (running.setReg PEC_BAND_DENS.BAND 0).blurred = true ∧
    (corrected.liveStripe = some { fresh with st := .run } ∧ corrected.working = true ∧ corrected.csm.recompute = none ∧
      corrected.dosed < bandsOf oneBand.rows ∧ corrected.csmSkip.coverageIn corrected.dosed = true ∧
      corrected.dosed < corrected.blurred ∧ corrected.slotFree corrected.dosed = true) := by decide +kernel

theorem wit_EntrySteps :
    (let s := { corrected.setReg PEC_BAND_DOSE.BAND 0 with g := .armed, stripe := some fresh }
     s.liveStripe = some fresh ∧ s.working = true ∧ fresh.stepBusy = none ∧ fresh.stepDue fresh.stepNext = true ∧
     fresh.bandAt fresh.stepNext = some 0 ∧ s.lateStage fresh 0 = 0) ∧
    (armed.lateStage fresh 0 ≠ 0 ∧ fresh.stepNext < 0) ∧
    (let st : Stripe := { Stripe.fresh { oneBand with rows := 16384 } with st := .run, stepNext := 0, nextFlash := 1 }
     let s := holds .run st
     s.liveStripe = some st ∧ st.stepBusy = none ∧ st.stepDue st.stepNext = true ∧ st.bandAt st.stepNext = some 2 ∧
     s.lateStage st 2 ≠ 0 ∧ 0 ≤ st.stepNext ∧ s.covered = false ∧ s.g = .run) ∧
    ({ fresh with stepBusy := some (-512) } : Stripe).stepBusy = some (-512) ∧
    ({ fresh with ledger := { fresh.ledger with writes := [⟨0, 63, 16383⟩] } } : Stripe).ledger.writes = ⟨0, 63, 16383⟩ :: [] := by
  decide +kernel

/-! ### The HBM3 controller -/

/-- READY with the stack trained, pseudo-channel 31 owing `p`. -/
def stacked (p : Int) : State :=
  ({ locked with hmc := { ready.hmc with pcs := ready.hmc.pcs.set 31 ⟨p, false, []⟩ } }).setReg HMC_STATUS.TRAINED 1

theorem wit_RefreshCredits :
    31 < 32 ∧ (stacked 7).hmc.pcs.length = 32 ∧ (stacked 7).stackLive = true ∧ ((stacked 7).pseudo 31).p < 8 ∧
    8 ≤ ((stacked 8).pseudo 31).p ∧ -8 < ((stacked (-7)).pseudo 31).p ∧ ((stacked (-8)).pseudo 31).p ≤ -8 ∧
    ((stacked 0).setLive HMC_CTRL.PD_EN 1).lv HMC_CTRL.PD_EN = 1 ∧
    ((stacked 0).setLive HMC_CTRL.PD_EN 0).lv HMC_CTRL.PD_EN ≠ 1 := by decide +kernel

theorem wit_StackTemperature :
    ready.aon.rootLock = false ∧ (stacked 6).aon.rootLock = true ∧ (stacked 6).g ≠ .off ∧ (stacked 6).hmc.pcs.length = 32 ∧ 104 < 105 ∧ (stacked 6).stackLive = true ∧
    (stacked 6).reg HMC_STATUS.HOT = 0 ∧ 85 ≤ 85 ∧ ((stacked 6).setReg HMC_STATUS.HOT 1).reg HMC_STATUS.HOT = 1 ∧ 81 ≤ 81 ∧
    ((stacked 6).reg HMC_STATUS.HOT = 0 → 84 < 85) ∧
    (((stacked 6).setReg HMC_STATUS.HOT 1).reg HMC_STATUS.HOT = 1 → 81 < 82) ∧ 105 ≤ 105 ∧
    (stacked 6).aon.therm1 = false := by decide +kernel

/-- The stack with RAAMMT 40, RAAIMT 20 and bank 47 of pseudo-channel 31 at RAA `n`. -/
def hammered (n : Nat) : State :=
  ((({ stacked 0 with hmc := { (stacked 0).hmc with pcs := (stacked 0).hmc.pcs.set 31 ⟨0, false, [(47, n, [])]⟩ } }).setReg
    HMC_RH.RAAIMT 20).setReg HMC_RH.RAAMMT 40)

theorem wit_StackDefences :
    (31 < 32 ∧ (hammered 31).hmc.pcs.length = 32 ∧ (hammered 31).stackLive = true ∧
      (let acts := [0, 9, 0, 0, 0, 0, 0, 0, 0]
       let raa := fun (n : Nat) => min 40 (n + acts.sum)
       raa 30 < (hammered 30).reg HMC_RH.RAAMMT ∧ (hammered 31).reg HMC_RH.RAAMMT ≤ raa 31 ∧
       31 < (hammered 31).reg HMC_RH.RAAMMT ∧ (hammered 40).reg HMC_RH.RAAMMT ≤ 40)) ∧
    (8 < 9 ∧ (locked.setReg (HMC_PORT.THROTTLED 8) 1).reg (HMC_PORT.THROTTLED 8) = 1 ∧ locked.aon.rootLock = true ∧
      ready.reg (HMC_PORT.THROTTLED 8) ≠ 1) ∧
    (ready.setReg HMC_STATUS.SR_ENTRY 1).reg HMC_STATUS.SR_ENTRY = 1 ∧
    (let s : State := { parkedAt 3 with hmc := { ready.hmc with srCancelled := true } }
     s.hmc.srCancelled = true ∧ s.g = .park) ∧ ready.hmc.srCancelled = false ∧
    (ready.setReg HMC_ECC_CE.COUNT 1).hmc.ceReported < (ready.setReg HMC_ECC_CE.COUNT 1).reg HMC_ECC_CE.COUNT ∧
    ready.reg HMC_ECC_CE.COUNT ≤ ready.hmc.ceReported := by decide +kernel

/-! ### A stripe from arming to IDLE -/

/-- SHA-256 of "abc" (FIPS 180-4, appendix B.1) begins ba 78 16 bf. -/
theorem test_sha256_abc : (sha256 [0x61#8, 0x62#8, 0x63#8]).take 4 = [0xBA#8, 0x78#8, 0x16#8, 0xBF#8] := by decide +kernel

/-- READY with the link OPEN, head 7 proved and asked for, a stripe waiting. -/
def arming (r : ArmReq) : State :=
  let s : State := { ready with
    waiting := some r
    shl := { ready.shl with st := .opened, proved := some 7, freshEnded := true }
    prot := { ready.prot with headKey := some (zeros 32) } }
  (s.setLive SCH_HEAD_ID.ID 7).setReg SHL_STATE.GEN 3

theorem wit_StripeArms :
    (let s : State := { arming oneBand with shl := { (arming oneBand).shl with freshEnded := false } }
     s.waiting = some oneBand ∧ s.mayArm = true ∧ s.fence = none ∧ s.shl.st = .opened ∧ s.shl.freshEnded = false ∧
     s.shl.freshAsked = false ∧ s.prot.headKey.isSome = true ∧ s.shl.challenge = none ∧
     ({ s with shl := { s.shl with challenge := some 4 } } : State).shl.challenge = some 4) ∧
    (let s := arming oneBand
     s.waiting = some oneBand ∧ s.mayArm = true ∧ s.shl.freshEnded = true ∧ (s.gen = 1 → s.unfitBeam = none) ∧
     s.headWrong = false ∧ s.outOfRange oneBand = false) ∧
    ((arming oneBand).setLive SCH_HEAD_ID.ID 8).headWrong = true ∧
    (let r := { oneBand with originY := 2 ^ 40 - 1 }
     (arming r).headWrong = false ∧ (arming r).outOfRange r = true) ∧
    ready.waiting = none ∧ armed.mayArm = false ∧ (arming oneBand).covered = false ∧
    (let s := paired ((arming oneBand).setLive SCH_HEAD_ID.ID 8) false
     s.mayArm = true ∧ s.covered = true ∧ s.nlk.theirFindings = [] ∧ s.nlk.leadArmed = false ∧ s.headWrong = true) ∧
    (ready.isMirror = false ∧ (paired ready true).setsDue = [] ∧ (paired armed true).g ≠ .ready) := by decide +kernel

/-- ARMED with every entry step before flash 0 complete and the sill full. -/
def loaded : Stripe :=
  { Stripe.fresh { oneBand with originY := 64 } with
      stepNext := 0, stepsDone := 0, sill := List.range 32, trimAcked := true }

/-- The engine that holds it, port locked and link OPEN. -/
def loadedIn (g : GState) (st : StripeState) : State :=
  { holds g { loaded with st := st } with
      port := { Port.reset with locked := true }, shl := { Shl.reset with st := .opened } }

theorem wit_StripeStarts :
    (let st : Stripe := { fresh with sillWanted := [0, 1], stepsDone := 0 }
     let s := holds .armed st
     s.stripe = some st ∧ s.liveStripe = some st ∧ st.sillWanted = 0 :: [1] ∧ s.mayFetch st 0 = true ∧ s.fence = none ∧
     s.serviced = true ∧ eccWithin ⟨blockAddr 0 0, true⟩ (blockAddr 0 0) (sillBytes 0) = true) ∧
    ((loadedIn .armed .armed).sosReady { loaded with st := .armed } = true ∧ loaded.sosLatched = false) ∧
    armed.sosReady fresh = false ∧ (armed.serviced = true ∧ fresh.st = .armed) ∧
    (let s := loadedIn .armed .waitSos
     let st : Stripe := { loaded with st := .waitSos }
     s.serviced = true ∧ s.stripe = some st ∧ st.st = .waitSos ∧ s.working = true ∧
     (s.port.yf : Int) < s.target st.req 0 ∧ s.port.locked = true ∧ ({ s with port := .reset } : State).port.locked = false) := by
  decide +kernel

theorem wit_StripeStarts_late :
    (let st : Stripe := { loaded with st := .armed, sosLatched := true }
     let s : State := { loadedIn .armed .armed with stripe := some st }
     s.sosReady st = true ∧ st.sosLatched = true ∧ (s.port.yf : Int) < s.target st.req 0 ∧ s.aon.stageOk = false ∧
     ({ s with aon := { s.aon with stageOk := true } } : State).aon.stageOk = true) ∧
    (let s : State := { loadedIn .armed .waitSos with port := { Port.reset with locked := true, yf := 64 } }
     s.target oneBand 0 ≤ (s.port.yf : Int) ∧ s.stripeActive = true ∧ s.covered = false ∧ s.working = true) ∧
    (ready.serviced = true ∧ ready.stripe = none) ∧
    (∀ x ∈ [StripeState.run, .tail, .done, .aborted], (holds .run { fresh with st := x }).serviced = true) := by
  decide +kernel

/-- RUN at flash 0 with its segment sent. -/
def firing : State :=
  let s := loadedIn .run .run
  { s with port := { s.port with slots := 1000 }, stripe := some { loaded with st := .run, seg := .sent 0 } }

theorem wit_PositionSlots_lock :
    State.reset.portRuns = false ∧ (ready.setPwr 9 .off).portRuns = false ∧ ready.aon.rails = true ∧
    (let s : State := { starting .boot false with aon := { State.reset.aon with rootLock := true } }
     s.g = .start ∧ s.aon.rootLock = true ∧ s.pwr 9 ≠ .off ∧ s.port.locked = false) ∧ (ready.serviced = true ∧ ready.pwr 9 ≠ .off ∧ ready.port.locked = false) ∧
    frameSync (frameOf 64 true) = true ∧ frameCheck (frameOf 64 true) = true ∧ frameValid (frameOf 64 true) = true ∧
    frameWord (frameOf 64 true) = 64 ∧ frameCheck (frameOf 64 true ^^^ 16#50) = false ∧ 62 < 63 ∧ 63 ≤ 63 := by decide +kernel

/-- The stripe of `firing`. -/
def firingStripe : Stripe := { loaded with st := .run, seg := .sent 0 }

/-- The engine that holds a stripe like it. -/
def deciding (st : Stripe) : State := { firing with stripe := some st }

theorem deciding_timesPast (st : Stripe) (a : Nat) (h : st.lastFire = none) (ha : a + (deciding st).reg EMS_EFF.SEG_SLOTS ≤ 1000) :
    (deciding st).timesPast st a := ⟨fun _ e => (by rw [h] at e; cases e), ha⟩

theorem wit_PositionSlots_fire :
    let st := firingStripe
    let s := deciding st
    let fx := frameOf 0 true
    (s.decides st (frameOf 64 true) fx ∧ st.seg = .sent 0 ∧ st.nextFlash ≤ st.final ∧
      ((frameWord fx : Int) - st.req.originX).natAbs ≤ s.lv EMS_XTOL.XTOL_PU ∧
      (st.recentOver.filter (fun f => st.nextFlash < f + 256)).length ≤ s.lv EMS_FLASH_CFG.OVS_LIMIT) ∧ s.timesPast st 0 :=
  ⟨by decide +kernel, deciding_timesPast _ 0 rfl (by decide +kernel)⟩

theorem wit_PositionSlots_over :
    let st : Stripe := { firingStripe with seg := .pending 1001, recentOver := [0] }
    let s := (deciding st).setLive EMS_FLASH_CFG.OVS_LIMIT 1
    s.decides st (frameOf 64 true) (frameOf 0 true) ∧ s.port.slots < 1001 ∧
    s.lv EMS_FLASH_CFG.OVS_LIMIT < ((st.nextFlash :: st.recentOver).filter (fun f => st.nextFlash < f + 256)).length ∧
    st.nextFlash ≤ st.final ∧ st.stageLow < 24 := by decide +kernel

theorem wit_PositionSlots_early :
    let st : Stripe := { firingStripe with seg := .sent 990 }
    (deciding st).decides st (frameOf 64 true) (frameOf 0 true) ∧
    (deciding st).port.slots < 990 + (deciding st).reg EMS_EFF.SEG_SLOTS := by decide +kernel

theorem wit_PositionSlots_miss :
    (∀ n ∈ [0, 255], let st : Stripe := { firingStripe with blankRun := n }
     (deciding st).decides st (frameOf 64 true) (frameOf 0 true) ∧ st.seg = .sent 0 ∧
     (st.recentOver.filter (fun f => st.nextFlash < f + 256)).length ≤ (deciding st).lv EMS_FLASH_CFG.OVS_LIMIT) ∧
    (let fx := frameOf (2 ^ 20) true
     (deciding firingStripe).decides firingStripe (frameOf 64 true) fx ∧
     (deciding firingStripe).lv EMS_XTOL.XTOL_PU < ((frameWord fx : Int) - firingStripe.req.originX).natAbs) ∧
    (let st : Stripe := { firingStripe with seg := .nosill }
     (deciding st).decides st (frameOf 64 true) (frameOf 0 true)) := by decide +kernel

theorem wit_PositionSlots_ends :
    (∀ x ∈ [StripeState.run, .tail],
      let st : Stripe := { firingStripe with st := x }
      let s : State := { deciding st with port := { (deciding st).port with bad := 7, yf := 2 ^ 20 } }
      s.serviced = true ∧ s.pwr 9 ≠ .off ∧ s.port.locked = true ∧ s.covered = false ∧ s.working = true ∧ s.g = .run ∧
      s.stripe = some st ∧ 7 ≤ s.port.bad ∧ s.glitch (frameWord (frameOf (2 ^ 20 - 4096) true)) = false ∧
      frameWord (frameOf (2 ^ 20 - 4096) true) + s.lv EMS_POS_CFG.JTOL_PU < s.port.yf) ∧
    frameCheck (frameOf 64 true ^^^ 16#50) = false := by decide +kernel

theorem wit_StripeEnds :
    (∀ x ∈ [StripeState.run, .tail],
     let st : Stripe := { fresh with st := x, stageLow := 25 }
     let s := (holds .run st).setLive EMS_TIMEOUT.STALL_MS 1
     s.stripe = some st ∧ s.g = .run ∧ s.working = true ∧ s.covered = false ∧ 25 ≤ st.stageLow ∧
     s.lv EMS_TIMEOUT.STALL_MS ≠ 0) ∧ fresh.stageLow < 25 ∧
    (armed.setLive EMS_TIMEOUT.STALL_MS 0).lv EMS_TIMEOUT.STALL_MS = 0 ∧
    (let st : Stripe := { fresh with st := .tail, nextFlash := 16624 }
     let s := holds .run st
     st.st = .tail ∧ s.working = true ∧ st.final < st.nextFlash ∧ st.ledger.writes = [] ∧ s.nlk.pendingMiss = [] ∧ s.nlk.missTimed = []) ∧
    (let st : Stripe := { fresh with st := .done }
     st.st = .done ∧ st.awaiting = [] ∧ (holds .run st).fence = none) ∧
    (let st : Stripe := { fresh with st := .aborted, outcomeDone := true }
     st.st = .aborted ∧ st.outcomeDone = true) ∧ fresh.st ≠ .aborted ∧ ready.writeLands 0x90050 := by decide +kernel

/-! ### The shutter link -/

/-- READY with the link in this state and generation, `rate` as its rate. -/
def linked (st : LinkState) (gen rate : Nat) : State :=
  ((({ ready with shl := { ready.shl with st := st } }).setReg SHL_STATE.GEN gen).setReg SHL_STATE.RATE rate).setReg
    SHL_CTRL.LINK_EN 1

/-- The payload of a KNOCK_REPLY of version 1, generation 3 and maximum rate 3. -/
def knockBack : List Byte := le 1 1 ++ le 1 3 ++ le 1 3 ++ le 1 0 ++ le 8 (2 ^ 64 - 1) ++ le 8 0

theorem wit_LinkKnocks :
    (ready.writeLands 0xA0000 ∧ (paired ready true).isMirror = true ∧ ready.stripeActive = false ∧
      (ready.setReg SHL_CTRL.LINK_EN 0).reg SHL_CTRL.LINK_EN = 0 ∧ bit (1#32).toNat 1 = false) ∧
    (let s := linked .opened 3 3
     s.g = .ready ∧ s.reg SHL_CTRL.LINK_EN = 1 ∧ bit (3#32).toNat 0 = true ∧ s.shl.st = .opened ∧ s.shl.knockDue = false) ∧
    (let s := linked .knock 0 0
     s.shl.st = .knock ∧ s.gen = 0 ∧ s.mute = false ∧ s.shl.knockPosted = false ∧ s.hears (heard 1 knockBack) 1 knockBack ∧
     num knockBack 0 1 = 1 ∧ 1 ≤ num knockBack 1 1 ∧ num knockBack 1 1 ≤ 3 ∧ num knockBack 3 1 = 0 ∧
     ({ s with shl := { s.shl with knockPosted := true } } : State).shl.knockPosted = true) := by decide +kernel

theorem wit_LinkKnocks_bad :
    (ready.serviced = true ∧ heardCopy ⟨[], []⟩ = none ∧ heardCopy (heard 2 (zeros 8)) = some (2, zeros 8) ∧
      heardCopy (heard 1 (le 1 1 ++ le 1 4 ++ zeros 18)) = some (1, le 1 1 ++ le 1 4 ++ zeros 18) ∧
      3 < num (le 1 1 ++ le 1 4 ++ zeros 18) 1 1) := by decide +kernel

/-- LANE_STATUS of these locks. -/
def locks (lock : Nat) : List Byte := le 8 lock

/-- In LATCH, generation 3, either waiting for lock (`latching`) or with OPEN sent. -/
def latching (rate : Nat) (opening : Bool) : State :=
  let s := linked .latch 3 rate
  { s with shl := { s.shl with
      latching := !opening, openSent := opening, latchLock := 2 ^ 34 - 1,
      map := if opening then (List.range 32).map (fun k => (k, k)) else [] } }

theorem wit_LinkLatchesAndOpens :
    ((linked .knock 3 3).shl.st = .knock ∧ (linked .knock 3 3).gen ≠ 0 ∧ (linked .knock 3 3).shl.lanes.length = 34 ∧
      33 ∈ genUsed 3 ∧ 16 ∉ genUsed 1) ∧
    (let s := latching 3 false
     s.shl.st = .latch ∧ s.hears (heard 2 (locks (2 ^ 34 - 1))) 2 (locks (2 ^ 34 - 1)) ∧ num (locks (2 ^ 34 - 1)) 0 8 = 2 ^ 34 - 1 ∧
     s.shl.latching = true ∧ s.mute = false ∧
     (∀ l ∈ genUsed s.gen, bit (2 ^ 34 - 1) l = true) ∧
     (placeLanes s.shl.latchLock (List.range (genLanes s.gen)) []).isSome = true ∧
     placeLanes 0 (List.range (genLanes s.gen)) [] = none) ∧
    (let s := latching 3 true
     s.shl.st = .latch ∧ s.shl.latching = false ∧ s.shl.openSent = true ∧
     (∀ e ∈ s.shl.map, e.2 < 34 ∧ bit (2 ^ 34 - 1) e.2 = true) ∧ s.rate ≠ 0 ∧ s.rate < 4) ∧
    (latching 0 true).rate = 0 ∧
    (let s := (linked .opened 3 3).setReg SHL_STATE.LOSSES 2
     s.shl.st = .opened ∧ s.hears (heard 2 (locks (2 ^ 34 - 2))) 2 (locks (2 ^ 34 - 2)) ∧ s.fence = none ∧ s.g ≠ .off ∧ s.g ≠ .safe ∧ s.reg SHL_STATE.LOSSES = 2 ∧
     (genUsed s.gen).filter (fun l => !lockedLane (num (locks (2 ^ 34 - 2)) 0 8 % 2 ^ 34) l && !bit (s.reg SHL_LOST.LANES) l) = [0]) := by
  decide +kernel

theorem wit_LinkLatchesAndOpens_frame :
    let s := latching 3 true
    let p := zeros 14 ++ le 8 (2 ^ 34 - 1)
    s.shl.st = .latch ∧ s.hears (heard 6 p) 6 p ∧ s.nlk.silentCheck = false := by decide +kernel

/-- READY with CHALLENGE 0 outstanding and a head key. -/
def challenged : State :=
  let s := linked .opened 3 3
  { s with shl := { s.shl with challenge := some 0 }, prot := { s.prot with headKey := some (zeros 32) } }

/-- The right answer to it. -/
def rightMac : List Byte :=
  hmacSha256 (zeros 32) (authMessage (Config.authNonce 0).toNat 0 0 challenged.gen challenged.aon.dieId)

theorem wit_HeadReports_proof :
    (challenged.shl.challenge = some 0 ∧ challenged.hears (heard 4 (zeros 48)) 4 (zeros 48) ∧ num (zeros 48) 0 8 = 0 ∧
      num (zeros 48) 8 8 = 0 ∧ ((zeros 48).drop 16).take 32 = zeros 32) ∧ rightMac.length = 32 ∧
    challenged.authGood 0 0 0 rightMac = true ∧ challenged.authGood 0 1 0 rightMac = false ∧ ready.shl.challenge = none := by
  have hk : challenged.prot.headKey = some (zeros 32) := rfl
  have hv : challenged.reg SHL_HEAD_ID.VALUE = 0 := by decide +kernel
  have hp : challenged.shl.provedShots = [] := rfl
  refine ⟨by decide +kernel, hmacSha256_length _ _, ?_, ?_, rfl⟩
  · rw [State.authGood, hk, hv, hp]
    simp only [rightMac, beq_self_eq_true, List.any_nil, Bool.not_false, Bool.and_true]
  · rw [State.authGood, hk, hv, hp]
    simp only [Bool.and_eq_false_iff]
    exact .inl (.inr rfl)

/-- A stripe whose flash 9 awaits its FRAME_STATUS. -/
def awaiting (st : StripeState) : Stripe :=
  { fresh with st := st, awaiting := [9], lastFlash := some 9, lastFired := some 9, fired := 10 }

theorem wit_HeadReports_frames :
    (armed.stripe = some fresh ∧ armed.hears (heard 5 (le 4 1 ++ le 4 7)) 5 (le 4 1 ++ le 4 7) ∧ num (le 4 1 ++ le 4 7) 0 4 = 1 ∧
      num (le 4 1 ++ le 4 7) 4 4 = 7 ∧ (armed.setReg SHL_TRIM_CRC.CRC 7).reg SHL_TRIM_CRC.CRC = 7 ∧ fresh.st = .armed ∧ fresh.req.id = 1 ∧
      armed.reg SHL_TRIM_CRC.CRC ≠ 7 ∧ fresh.req.id ≠ 2 ∧ fresh.trimAcked = false ∧
      (loadedIn .armed .armed).shl.st = .opened) ∧
    (let s := { (linked .opened 3 3) with g := .run, stripe := some (awaiting .run) }
     let p := le 6 9 ++ zeros 8 ++ le 8 (2 ^ 34 - 1)
     s.hears (heard 6 p) 6 p ∧ num p 0 6 = 9 ∧ num p 6 4 = 0 ∧ num p 14 8 = 2 ^ 34 - 1 ∧ s.shl.st = .opened ∧ s.nlk.silentCheck = false ∧
     (∀ l ∈ genUsed s.gen, bit (2 ^ 34 - 1) l = true ∨ bit (s.reg SHL_LOST.LANES) l = true) ∧
     (awaiting .run).awaiting.contains 9 = true ∧ s.nlk.pendingMiss.contains 9 = false ∧ (awaiting .run).st ≠ .done ∧
     (awaiting .run).st ≠ .aborted ∧ (awaiting .run).lastFired = some 9 ∧ (awaiting .aborted).st = .aborted ∧
     ({ awaiting .run with lastFired := some 10 } : Stripe).lastFired ≠ some 9 ∧
     (awaiting .done).st = .done ∧ (awaiting .done).lastFired = some 9) ∧
    (let s := ({ ready with shl := { ready.shl with watching := true } }).setReg SHL_BC.GOOD 3
     1 < 2 ∧ s.shl.watching = true ∧ s.reg SHL_BC.GOOD = 3 ∧ (s.setReg SHL_BC.GOOD 2).reg SHL_BC.GOOD = 2 ^ 1 ∧
     s.stripeActive = false) := by decide +kernel

/-! ### The twin pair -/

theorem wit_NaluLink_hello :
    (starting .boot false).g = .start ∧ (starting .boot false).aon.rootLock = false ∧
    let s : State := { starting .locked false with aon := { State.reset.aon with rootLock := true } }
    s.g = .start ∧ s.aon.rootLock = true ∧ s.pwr 11 ≠ .off ∧ s.bst.test = none ∧ s.fence = none ∧ 1 ≠ b2n s.isMirror ∧ 0 = b2n s.isMirror ∧ s.nlk.rejoining = false ∧ 0 < 1 % 256 ∧
    s.nlk.linkUp = false ∧ (paired s true).isMirror = true := by decide +kernel

/-- A lead whose message 4 is unacknowledged after `n` resends. -/
def unacked (n : Nat) : State :=
  let s := paired ready false
  { s with nlk := { s.nlk with unacked := [⟨4, .missList 9, n, 0⟩] } }

theorem wit_NaluLink_messages :
    ((unacked 2).naluRuns = true ∧ (unacked 2).nlk.linkUp = true ∧ (unacked 2).bst.test = none ∧
      ({ unacked 2 with bst := { Bst.reset with test := some ⟨11, false, [], []⟩ } } : State).naluServes = false ∧ (unacked 2).isMirror = false ∧ (unacked 2).holding = false ∧
      (unacked 2).nlk.unacked.find? (fun m => m.seq == 4) = some ⟨4, .missList 9, 2, 0⟩ ∧ 2 < 3 ∧
      (unacked 3).nlk.unacked.find? (fun m => m.seq == 4) = some ⟨4, .missList 9, 3, 0⟩ ∧ 3 ≤ 3) ∧
    ((unacked 0).fence = none ∧ (paired ready true).isMirror = true ∧ (paired ready true).liveStripe = none ∧
      ready.nlk.linkUp = false) ∧
    (7 < 8 ∧ bit ((ready.setReg NLK_STATE.LANES_UP 255).reg NLK_STATE.LANES_UP) 7 = true ∧
      bit (ready.reg NLK_STATE.LANES_UP) 7 = false) := by decide +kernel

theorem wit_NaluForwards :
    (paired ready true).passesBy 1 ∧ ready.passesBy 0 ∧ (paired ready true).arrives 0 ∧ (paired armed true).arrives 0 ∧
    (let e := raw [(0, 1, 0x60), (8, 4, 2 ^ 10), (12, 4, 5)]
     rawOpc e = 0x60 ∧ num e 8 4 ≠ 0 ∧ malformed (opcType 0x60) e = false) ∧
    (let s := paired armed true
     let c := s.copySet 64 0 (2 ^ 10) 5
     let t : State := { s with commits := { s.commits with taken := some c } }
     t.commits.taken = some c ∧ c.id = 5 ∧ c.mask = 2 ^ 10 ∧ ((t.took 0).mirrorSet 5 (2 ^ 10) [] false).storesTrims = false) ∧
    (paired ready true).isMirror = true ∧ (paired ready false).isMirror = false ∧ rawOpc (raw oneBandRaw) = 0x01 ∧
    (paired armed true).stripeActive = true ∧ ((paired armed true).mirrorSet 5 (2 ^ 10) [] false).storesTrims = false ∧
    ((paired armed true).mirrorSet 5 (2 ^ 13) [] true).storesTrims = false ∧ (paired armed true).commits.storing = none ∧
    (paired armed true).nlk.rejoining = false ∧ malformed (opcType 1) (raw oneBandRaw) = false ∧
    (paired armed true).rejoinCrcs.length = 6 ∧
    (let e := { oneBuf with started := true }
     let s := taking (paired running false) [e]
     s.arrives 0 ∧ s.hif.entries = [e] ∧ rawOpc e.raw = 0x10 ∧ e.started = true ∧ (∀ c ∈ s.chans, c.req = none)) ∧
    0xFF < 0x100 ∧ (paired ready false).hif.entries.all (fun e => e.q != 2) = true := by decide +kernel

/-- A vote of step −512 with this chip's signature, in this round, with these results. -/
def vote (round : Nat) (mine : Option Sig) (my their : List Sig) : Vote :=
  ⟨-512, mine, none, 1, round, 0, [], [], [], my, their, [], false⟩

/-- A pair in RUN with this vote open. -/
def voting (mirror : Bool) (v : Vote) : State :=
  let s := paired running mirror
  { s with nlk := { s.nlk with votes := [v] } }

theorem wit_VotesAreHeld_results :
    (let v := vote 0 (some ⟨5, [1]⟩) [] []
     let s := voting false v
     s.liveStripe = some { fresh with st := .run } ∧ s.checked = true ∧ s.voteOf v.step = some v ∧ s.arrives 0 ∧
     v.mine = some ⟨5, [1]⟩ ∧ v.round = 0 ∧ s.nlk.myFindings = [] ∧ (⟨5, [1]⟩ : Sig).dose ≠ 6 ∧
     ({ fresh with st := .run } : Stripe).sigMask v.step ⟨5, [1]⟩ ⟨5, [1]⟩ = 0 ∧
     ({ fresh with st := .run } : Stripe).sigMask 0 ⟨5, []⟩ ⟨5, List.replicate 63 0 ++ [1]⟩ = 0 ∧
     ({ fresh with st := .run } : Stripe).sigMask v.step ⟨5, [1]⟩ ⟨5, [2]⟩ = 1 ∧ v.round < 1) ∧
    (let v := vote 1 none [] []
     let s := voting true v
     s.checked = true ∧ s.voteOf v.step = some v ∧ s.recomputed { fresh with st := .run } = some v ∧
     s.serviced = true ∧ clean.bad = none ∧ v.blocksSent = false ∧
     v.theirResults.length < v.round ∧ v.myResults.length < v.round ∧ s.arrives 0) := by decide +kernel

theorem wit_VotesAreHeld_closing :
    (let v := { vote 0 (some ⟨5, [1]⟩) [] [] with theirs := some ⟨5, [1]⟩ }
     let s := voting false v
     let st : Stripe := { fresh with st := .run }
     s.checked = true ∧ s.voteOf v.step = some v ∧ s.isMirror = false ∧ s.serviced = true ∧
     st.closingFlash v.step ≤ s.voteClock st ∧ v.undecided false st = []) ∧
    (let v := { vote 0 none [] [] with step := 0 }
     let st : Stripe := { fresh with st := .run, nextFlash := 600 }
     let s := { voting false v with stripe := some st }
     s.liveStripe = some st ∧ s.voteOf v.step = some v ∧ st.closingFlash v.step ≤ s.voteClock st ∧
     v.blocksSent = false ∧ v.theirBlocks = [] ∧ v.undecided s.isMirror st ≠ []) ∧
    (let v := { vote 0 (some ⟨5, [1]⟩) [] [] with step := 0, theirs := some ⟨5, [2]⟩ }
     let st : Stripe := { fresh with st := .run, nextFlash := 600 }
     let s := { voting false v with stripe := some st }
     s.serviced = true ∧ s.voteOf v.step = some v ∧ st.closingFlash v.step ≤ s.voteClock st ∧ v.blocksSent = false ∧
     v.undecided s.isMirror st = [0] ∧
     eccWithin ⟨blockAddr (st.frameOf v.step 0) 0 + 2040, false⟩ (blockAddr (st.frameOf v.step 0) 0) 2048 = true) ∧
    ({ vote 0 none [] [] with blocksSent := true } : Vote).blocksSent = true ∧
    (let v := vote 0 none [] []
     let s := voting true v
     let st : Stripe := { fresh with st := .run }
     s.isMirror = true ∧ s.arrives 0 ∧ s.voteOf v.step = some v ∧ v.closing true st ≠ (2, [])) ∧
    (let v := { vote 0 none [] [] with step := 3 }
     let st : Stripe := { fresh with st := .run }
     (voting false v).voteClock st < st.closingFlash v.step) := by decide +kernel

/-- A finding of kind 2, cause 0x0B. -/
def aFinding : Finding := ⟨2, 9, 0x0B, [], 0x0B⟩

theorem wit_PairDecides_flashes :
    (let s := paired running true
     s.arrives 0 ∧ s.checked = true ∧ s.nlk.myFindings = [] ∧ (∀ d ∈ s.nlk.decisions, d.1 ≠ 9) ∧ s.isMirror = true) ∧
    (let s := paired running true
     let t : State := { s with nlk := { s.nlk with decisions := [(9, 1)] } }
     t.arrives 0 ∧ t.nlk.decisions = [(9, 1)] ∧ t.nlk.theirDecisions = [] ∧
     t.running = some { fresh with st := .run } ∧ t.bookedIn 9 255 < 32) ∧
    (paired ready false).isMirror = false := by decide +kernel

theorem wit_PairDecides_findings :
    (let s := paired running false
     let t : State := { s with nlk := { s.nlk with myFindings := [aFinding] } }
     t.arrives 0 ∧ t.nlk.myFindings.find? (Finding.same ⟨2, 9, 0x0B, [], 0⟩) = some aFinding ∧ s.nlk.myFindings = [] ∧
     s.nlk.missTimed = [] ∧ t.stripe = some { fresh with st := .run } ∧ t.g = .run ∧ 1 ≤ aFinding.cause ∧ aFinding.cause < 256) ∧
    (let st : Stripe := { fresh with st := .run }
     let s : State := { paired running false with fence := some ⟨0x0C, false⟩ }
     let none' := zeros 64
     let two := zeros 40 ++ le 4 2 ++ zeros 20
     s.arrives 0 ∧ s.isMirror = false ∧ s.fence.isSome = true ∧ s.stripe = some st ∧
     ({ s with lastOutcome := two } : State).lastOutcome = two ∧
     (let w : State := { s with prot := windowed.prot }
      w.inWindow st.req.resultAddr 64 = true ∧ w.inWindow (st.req.resultAddr + 64 + 16) 16 = true) ∧ 16 * holesDue none' st ≤ 0 ∧
     16 < 16 * holesDue two st ∧ 16 * holesDue two st ≤ 32 ∧ 1 * 16 = (zeros 16).length) := by decide +kernel

theorem wit_FenceAndRejoin :
    (ready.writeLands 0xB0000 ∧ ready.fence = none ∧ bit (1#32).toNat 2 = false) ∧ armed.stripeActive = true ∧
    (let s : State := { ready with fence := some ⟨0x0C, false⟩ }
     s.writeLands 0xB0000 ∧ s.g = .ready ∧ s.softFenced = true) ∧
    ({ ready with nlk := { ready.nlk with rejoining := true } } : State).nlk.rejoining = true ∧
    ready.nlk.rejoining = false := by decide +kernel

/-! ### Calibration -/

theorem wit_SensorsAndGaps :
    (let temps : List Int := List.replicate 15 459 ++ [460]
     ready.g ≠ .off ∧ temps.length = 16 ∧ (∀ i < 16, ready.sensorOfs i = 0) ∧ ready.aon.therm1 = false ∧
     (∃ x ∈ temps, 460 ≤ x) ∧ (∀ x ∈ (List.replicate 16 459 : List Int), x < 460)) ∧ ready.writeLands 0xD0000 ∧
    (let s := ready.setReg CAL_STATUS.DUE 1
     s.waiting = none ∧ s.gapMayOpen = true ∧ (paired ready true).pairGapMayOpen = true) ∧
    (let s : State := { ready with cal := { ready.cal with gap := some (0, 0, [], 0, 0) } }
     s.cal.gap = some (0, 0, [], 0, 0) ∧ s.g ≠ .start ∧ s.itemReady 5 = false ∧ s.reg CAL_STATUS.DUE = 0 ∧ (s.setReg CAL_STATUS.DUE 32).reg CAL_STATUS.DUE ≠ 0) ∧
    (let s : State := { ready with cal := { ready.cal with overdueArmed := true } }
     s.cal.overdueArmed = true ∧ s.reg CAL_STATUS.OVERDUE = 0) ∧ ready.cal.overdueArmed = false := by decide +kernel

/-- READY in a gap with item `k` due. -/
def inGap (k : Nat) : State :=
  ({ ready with cal := { ready.cal with gap := some (0, 0, [], 0, 0) } }).setReg CAL_STATUS.DUE (2 ^ k)

theorem wit_CalibrationResults_items :
    ((inGap 0).itemRuns 0 = true ∧ 2280 ≤ 2280 ∧ 2520 ≤ 2520 ∧ 2279 < 2280 ∧ 2520 < 2521 ∧
      ((inGap 0).setReg CAL_STATUS.DUE 3).itemRuns 0 = true ∧ ((inGap 0).setReg CAL_STATUS.DUE 3).itemDue 1 = true) ∧
    (1 ≤ 1 ∧ (inGap 1).itemRuns 1 = true ∧ (inGap 1).reg CAL_STATUS.RCAL_FROZEN ≠ 1 ∧
      ((inGap 1).setReg CAL_STATUS.RCAL_FROZEN 1).itemRuns 1 = true ∧
      ((inGap 1).setReg CAL_STATUS.RCAL_FROZEN 1).reg CAL_STATUS.RCAL_FROZEN = 1 ∧
      (let s := (inGap 1).setReg (CAL_ITEM_STATUS.CODE 1) 32
       s.itemResult 1 (.taps [(32, 0)] 0 0) = some (32, 0, true) ∧
       s.itemResult 1 (.taps [(32, -9), (33, -1), (34, 4)] 0 0) = some (33, 0, true) ∧
       s.itemResult 1 (.taps ((List.range 7).map (fun i => (32 + i, 6 - (i : Int)))) 0 0) = some (38, 0, true) ∧
       s.itemResult 1 (.taps ((List.range 8).map (fun i => (32 + i, 7 - (i : Int)))) 0 0) = some (39, 0, false))) ∧
    (5 < 6 ∧ (paired (inGap 5) false).itemRuns 5 = true) := by decide +kernel

theorem wit_CalibrationResults_tables :
    ready.writeLands 0xD001C ∧ (ready.setReg CAL_DERIVE.BUSY 1).reg CAL_DERIVE.BUSY = 1 ∧ ready.reg CAL_DERIVE.BUSY ≠ 1 ∧
    (let c : PendingCommit := ⟨7, 0, 2 ^ 13, 5, [], [(8, [])], true, 0⟩
     let s : State := { armed with commits := ⟨none, [], some c, []⟩ }
     s.serviced = true ∧ s.commits.storing = some c ∧ s.commits.behind = [] ∧ s.reg CAL_STATUS.ACTIVE_SLOT < 2 ∧ s.isMirror = false ∧
     s.stripeActive = true) := by decide +kernel

end Sys2Proof.Tests
end

/-! ## The canonical form of the memories (R9, R267, R385)

`State.MemoriesWf.f` says that the operation `f` of the model carries the canonical form along. The proof of each is the
operation's own composition: where `f` is `(s.g a).h b`, its proof is `hs.g.h`. At the bottom
stand an update of fields other than the memories, a write into one of the three memories, and the operations for which
`Keeps` is known. A `let` of the operation becomes a `have` of the same place. -/

section

namespace Sys2Proof.Machine

/-- The state that an outcome answers, if it answers one, has canonical memories. -/
def CanonicalNext (o : Host.Outcome State Fault Refusal) : Prop := ∀ t, o = .next t → t.MemoriesWf

theorem CanonicalNext.next {s : State} (h : s.MemoriesWf) : CanonicalNext (.next s) := by
  rintro t ⟨⟩
  exact h

namespace State.MemoriesWf

variable {s t : State}

/-- The frames already proved for the shared operations. -/
theorem keeps (h : s.MemoriesWf) (k : Keeps s t) : t.MemoriesWf := k.memories h

theorem ite {c : Prop} [Decidable c] (h : s.MemoriesWf) (k : t.MemoriesWf) : (if c then s else t).MemoriesWf := by
  split
  · exact h
  · exact k

theorem foldl {α : Type} {f : State → α → State} {l : List α} (h : s.MemoriesWf)
    (hf : ∀ s a, s.MemoriesWf → (f s a).MemoriesWf) : (l.foldl f s).MemoriesWf := by
  induction l generalizing s with
  | nil => exact h
  | cons a l ih => exact ih (hf s a h)

variable (hs : s.MemoriesWf)
include hs

/-- An update of any fields but the three memories: every other field stands for itself. -/
theorem update
    {pending g phase quick fence aon regs live latches answer cc free tabLive tabStaged prot cfg commits power hif
    chans cdc scans scanWait prs csm pec waiting stripe lastOutcome port shl nlk hmc cal bst pmu} :
    State.MemoriesWf
      { pending, g, phase, quick, fence, aon, regs, live, latches, answer, cc, free, host := s.host, hbm := s.hbm,
        flash := s.flash, tabLive, tabStaged, prot, cfg, commits, power, hif, chans, cdc, scans, scanWait, prs, csm,
        pec, waiting, stripe, lastOutcome, port, shl, nlk, hmc, cal, bst, pmu } := hs

theorem writeHost {a : Nat} {bs : List Byte} : { s with host := Memory.write s.host a bs }.MemoriesWf :=
  hs.keeps (keeps_host ..)

theorem applyHost {hw : Cells} : { s with host := Memory.apply s.host hw }.MemoriesWf :=
  ⟨Memory.wf_apply hw _ hs.1, hs.2⟩

theorem writeHbm {a : Nat} {bs : List Byte} : { s with hbm := Memory.write s.hbm a bs }.MemoriesWf :=
  ⟨hs.1, Memory.wf_write _ a bs hs.2.1, hs.2.2⟩

theorem clearHbm : { s with hbm := [] }.MemoriesWf := ⟨hs.1, rfl, hs.2.2⟩

/-! ### The operations of Machine/Regs.lean -/

theorem setReg {f : Field} {v : Nat} : (s.setReg f v).MemoriesWf := hs.keeps (keeps_setReg ..)

theorem addReg {f : Field} {n : Nat} : (s.addReg f n).MemoriesWf := hs.keeps (keeps_addReg ..)

theorem resetWindow {k : Nat} : (s.resetWindow k).MemoriesWf := hs.update

theorem fresh {w : Nat} : (s.fresh w).2.MemoriesWf := hs.keeps (keeps_fresh ..)

/-! ### The operations of Machine/Events.lean -/

theorem count {b ev n : Nat} : (s.count b ev n).MemoriesWf := hs.keeps (keeps_count ..)

theorem slots {st c n : Nat} : (s.slots st c n).MemoriesWf := hs.keeps (keeps_slots ..)

theorem setPwr {k : Nat} {p : PwrState} : (s.setPwr k p).MemoriesWf := hs.keeps (keeps_setPwr ..)

theorem wakeBlock {k : Nat} : (s.wakeBlock k).MemoriesWf := hs.keeps (keeps_wakeBlock ..)

theorem wakeBlocks {p : Nat → Bool} : (s.wakeBlocks p).MemoriesWf := .foldl hs (fun _ _ h₁ => h₁.wakeBlock.ite h₁)

theorem naluSend {m : NaluMsg} : (s.naluSend m).MemoriesWf := hs.keeps (keeps_naluSend ..)

theorem modRing {q : Nat} {f : SubRing → SubRing} : (s.modRing q f).MemoriesWf := hs.update

theorem modEvRing {e : Nat} {f : EvRing → EvRing} : (s.modEvRing e f).MemoriesWf := hs.update

theorem raiseVector {v : Nat} : (s.raiseVector v).MemoriesWf := hs.keeps (keeps_raiseVector ..)

theorem raiseEq {e : Nat} : (s.raiseEq e).MemoriesWf := hs.keeps (keeps_raiseEq ..)

theorem holdEvent {e : Nat} {ev : Event} : (s.holdEvent e ev).MemoriesWf := hs.keeps (keeps_holdEvent ..)

theorem putEvent {e : Nat} {ev : Event} : (s.putEvent e ev).MemoriesWf := hs.keeps (keeps_putEvent ..)

theorem drainHeld : s.drainHeld.MemoriesWf := hs.keeps (keeps_drainHeld ..)

theorem postDev {code status info d0 d1 : Nat} : (s.postDev code status info d0 d1).MemoriesWf :=
  hs.keeps (keeps_postDev ..)

theorem postOnce {code status info d0 d1 : Nat} : (s.postOnce code status info d0 d1).MemoriesWf :=
  hs.keeps (keeps_postOnce ..)

theorem dropEntry {q idx : Nat} : (s.dropEntry q idx).MemoriesWf := hs.keeps (keeps_dropEntry ..)

theorem startEntry {q idx : Nat} : (s.startEntry q idx).MemoriesWf := hs.keeps (keeps_startEntry ..)

theorem complete {q idx status info d0 d1 : Nat} : (s.complete q idx status info d0 d1).MemoriesWf :=
  hs.keeps (keeps_complete ..)

/-! ### The operations of Machine/Ops.lean -/

theorem modStripe {f : Stripe → Stripe} : (s.modStripe f).MemoriesWf := hs.update

theorem bistResult {k status code kind sig count : Nat} : (s.bistResult k status code kind sig count).MemoriesWf :=
  hs.keeps (keeps_bistResult ..)

theorem bistNotRun {kind k : Nat} : (s.bistNotRun kind k).MemoriesWf := hs.keeps (keeps_bistNotRun ..)

theorem bistOver {status ms : Nat} : (s.bistOver status ms).MemoriesWf := hs.keeps (keeps_bistOver ..)

theorem bistAbort : s.bistAbort.MemoriesWf := hs.keeps (keeps_bistAbort ..)

theorem bistYield {uses : Nat → Bool} : (s.bistYield uses).MemoriesWf := hs.bistAbort.ite hs

theorem hbmUse {a n : Nat} : (s.hbmUse a n).MemoriesWf := hs.update

theorem hbmWrite {a : Nat} {bs : List Byte} : (s.hbmWrite a bs).MemoriesWf := by
  unfold State.hbmWrite
  exact hs.hbmUse.writeHbm.count

theorem laqWrite {n : Nat} : (s.laqWrite n).MemoriesWf := hs.fresh.hbmUse.count

theorem eccRecord {port ue : Nat} {w : EccWord} : (s.eccRecord port ue w).MemoriesWf :=
  hs.setReg.setReg.setReg.setReg.setReg

theorem corrected {port : Nat} {w : EccWord} : (s.corrected port w).MemoriesWf := by
  unfold State.corrected
  exact hs.addReg.eccRecord.update

theorem uncorrectable {port : Nat} {w : EccWord} {status : Nat} : (s.uncorrectable port w status).MemoriesWf :=
  hs.addReg.eccRecord.postDev

theorem eccRead {port lo n : Nat} {ecc : EccReads} : (s.eccRead port lo n ecc).1.MemoriesWf :=
  .foldl hs.hbmUse (fun _ _ h₁ => h₁.corrected)

theorem freeWord {lo n : Nat} : (s.freeWord lo n).2.MemoriesWf := by
  unfold State.freeWord
  exact (hs.fresh (w := 64)).fresh (w := 1)

theorem freeWords {lo n k : Nat} : (State.freeWords lo n k s).2.MemoriesWf := by
  induction k generalizing s with
  | zero => exact hs
  | succ k ih => exact ih hs.freeWord

theorem freeEcc {lo n : Nat} : (s.freeEcc lo n).2.MemoriesWf := by
  unfold State.freeEcc
  split
  · exact hs
  · extract_lets k ws bad w
    have hws : ws.2.MemoriesWf := (hs.fresh (w := 32)).freeWords
    have hbad : bad.2.MemoriesWf := hws.fresh (w := 1)
    exact hbad.freeWord (lo := lo) (n := n)

theorem snapshot : s.snapshot.MemoriesWf := hs.keeps (keeps_snapshot ..)

theorem snapDue : s.snapDue.MemoriesWf := by
  unfold State.snapDue
  extract_lets _ s1
  have hs1 : s1.MemoriesWf := hs.update
  exact hs1.snapshot.ite hs1

theorem modChan {ch : Nat} {f : Chan → Chan} : (s.modChan ch f).MemoriesWf := hs.update

theorem stagePut {ch : Nat} {bs : List Byte} : (s.stagePut ch bs).MemoriesWf := hs.hbmWrite.hbmWrite.modChan

theorem stageTake {ch n : Nat} : (s.stageTake ch n).MemoriesWf := hs.modChan

theorem stopRecord {ch status cause : Nat} {r : Request} : (s.stopRecord ch status cause r).MemoriesWf :=
  hs.keeps (keeps_stopRecord ..)

theorem stopEvent {ch status cause residue : Nat} : (s.stopEvent ch status cause residue).MemoriesWf :=
  hs.keeps (keeps_stopEvent ..)

theorem scanWriteBack {sc : Scan} {v : Nat} : (s.scanWriteBack sc v).MemoriesWf := hs.keeps (keeps_scanWriteBack ..)

theorem freeScan {e v n : Nat} : (s.freeScan e v n).MemoriesWf := hs.keeps (keeps_freeScan ..)

theorem settle {ch : Nat} {r : Request} : (s.settle ch r).2.MemoriesWf := hs.keeps (keeps_settle ..)

theorem stopChan {ch status cause : Nat} : (s.stopChan ch status cause).MemoriesWf := hs.keeps (keeps_stopChan ..)

theorem looseRecord {ch status cause : Nat} : (s.looseRecord ch status cause).MemoriesWf :=
  hs.keeps (keeps_looseRecord ..)

theorem feedRecord {ch status cause : Nat} : (s.feedRecord ch status cause).MemoriesWf :=
  hs.keeps (keeps_feedRecord ..)

theorem send {x : Sent} : (s.send x).MemoriesWf := by
  unfold State.send
  exact hs.fresh.update

theorem setLanes {f : Nat → LaneTx → LaneTx} : (s.setLanes f).MemoriesWf := hs.update

theorem linkStop {st : LinkState} : (s.linkStop st).MemoriesWf := hs.keeps (keeps_linkStop ..)

theorem startKnock : s.startKnock.MemoriesWf := hs.keeps (keeps_startKnock ..)

theorem startLatch : s.startLatch.MemoriesWf := hs.keeps (keeps_startLatch ..)

theorem linkBoundary : s.linkBoundary.MemoriesWf := hs.keeps (keeps_linkBoundary ..)

theorem liftFence : s.liftFence.MemoriesWf := hs.update

theorem linkEnable {on : Bool} : (s.linkEnable on).MemoriesWf := hs.keeps (keeps_linkEnable ..)

theorem linkEvent {status : Nat} : (s.linkEvent status).MemoriesWf := hs.keeps (keeps_linkEvent ..)

theorem pageCheck : s.pageCheck.MemoriesWf := hs.keeps (keeps_pageCheck ..)

theorem itemLive {item : Nat} {bs : List Byte} : (s.itemLive item bs).MemoriesWf := hs.keeps (keeps_itemLive ..)

theorem itemsLive : s.itemsLive.MemoriesWf := hs.keeps (keeps_itemsLive ..)

/-! ### The operations of Machine/Serve.lean -/

theorem hostWrites {hw : Cells} : (s.hostWrites hw).MemoriesWf := by
  unfold State.hostWrites
  exact hs.applyHost

theorem chanRecord {ch status cause done residue : Nat} : (s.chanRecord ch status cause done residue).MemoriesWf :=
  hs.keeps (keeps_chanRecord ..)

theorem endReq {ch status info d0 d1 : Nat} : (s.endReq ch status info d0 d1).MemoriesWf := by
  unfold State.endReq
  split
  · exact hs
  · exact hs.chanRecord.setReg.setReg.modChan.complete

theorem tryEntry {act : State → Entry → State} {e : Entry} (hact : ∀ s a, s.MemoriesWf → (act s a).MemoriesWf) :
    (s.tryEntry act e).MemoriesWf := by
  unfold State.tryEntry
  split
  · exact hs
  · extract_lets s1
    have hs1 : s1.MemoriesWf := by
      dsimp only [s1]
      split
      · exact hs.chanRecord
      · exact hs
    exact hs1.complete
  · exact hact _ _ hs.bistYield

theorem onEntry {q opc : Nat} {act : State → Entry → State} (hact : ∀ s a, s.MemoriesWf → (act s a).MemoriesWf) :
    (s.onEntry q opc act).MemoriesWf := by
  unfold State.onEntry
  split
  · exact hs
  · exact hs.tryEntry hact

theorem pump {ty : Nat} {act : State → Entry → State} (hact : ∀ s a, s.MemoriesWf → (act s a).MemoriesWf) :
    (s.pump ty act).MemoriesWf :=
  .ite (.foldl hs (fun _ _ h₁ => (h₁.tryEntry hact).ite h₁)) hs

theorem reach {ch : Nat} {raw : List Byte} : (s.reach ch raw).MemoriesWf := hs.keeps (keeps_reach ..)

theorem startReq {ch : Nat} {e : Entry} {addr len link : Nat} : (s.startReq ch e addr len link).MemoriesWf :=
  hs.keeps (keeps_startReq ..)

/-! ### The operations of Machine/Scan.lean -/

theorem scanResult {sc : Scan} {n : Nat} : (s.scanResult sc n).2.MemoriesWf := by
  unfold State.scanResult
  split
  · exact hs.fresh
  · exact hs

theorem scanRegs {e v n : Nat} : (s.scanRegs e v n).MemoriesWf := hs.keeps (keeps_scanRegs ..)

theorem scanSteps {e : Nat} {sc : Scan} {n : Nat} : (s.scanSteps e sc n).MemoriesWf :=
  hs.scanResult.update.modChan.scanRegs.count.count

theorem scanReads {e : Nat} {sc : Scan} {n : Nat} {ecc : EccReads} : (s.scanReads e sc n ecc).1.MemoriesWf := by
  unfold State.scanReads
  split
  · exact hs.scanSteps
  · dsimp only
    split
    · exact hs.count.eccRead.scanSteps
    · exact hs.count.eccRead.uncorrectable.scanSteps

theorem scanAdvance {e : Nat} : (s.scanAdvance e).1.MemoriesWf := by
  unfold State.scanAdvance
  split
  · exact hs
  · split
    · exact hs
    · extract_lets a n x
      have ha : a.2.MemoriesWf := hs.fresh (w := 64)
      have hx : x.2.MemoriesWf := by
        dsimp only [x]
        split
        · exact ha.freeEcc
        · exact ha
      exact hx.scanReads

theorem scanEntry {e : Entry} : (s.scanEntry e).MemoriesWf := hs.keeps (keeps_scanEntry ..)

theorem execScan {q : Nat} {hw : Cells} : CanonicalNext (execScan q hw s) :=
  .next (hs.hostWrites.onEntry (fun _ _ h₁ => h₁.scanEntry))

theorem scanResume {n : Nat} : (State.scanResume n s).MemoriesWf := hs.keeps (keeps_scanResume n s)

theorem scanNext : s.scanNext.MemoriesWf := hs.scanResume

theorem scanOver {e status : Nat} : (s.scanOver e status).MemoriesWf := by
  unfold State.scanOver
  split
  · exact hs
  · exact hs.scanWriteBack.freeScan.endReq.scanNext

theorem scanGoes {e : Nat} : (s.scanGoes e).MemoriesWf := hs.scanAdvance.scanOver.ite hs.scanAdvance

theorem scanLeaves {e : Nat} : (s.scanLeaves e).MemoriesWf := by
  unfold State.scanLeaves
  extract_lets s1
  have hs1 : s1.MemoriesWf := hs.scanGoes
  split
  · exact hs1
  · exact hs1.update.modChan.setReg

theorem scanMigrate : s.scanMigrate.MemoriesWf := .ite (.scanNext (.foldl hs (fun _ _ h₁ => h₁.scanLeaves))) hs

theorem execScanComplete {engine : Nat} {ecc : EccReads} : CanonicalNext (execScanComplete engine ecc s) := by
  unfold Machine.execScanComplete
  refine .next ?_
  split
  · exact hs
  · exact hs.scanReads.scanOver

/-! ### The operations of Machine/Jobs.lean -/

theorem engineEnds {k status reason : Nat} : (s.engineEnds k status reason).MemoriesWf := hs.setReg.setReg

theorem setJob {k : Nat} {j : Option CodecJob} : (s.setJob k j).MemoriesWf := hs.update

theorem freshInput {ch : Nat} : (s.freshInput ch).MemoriesWf := hs.modChan

theorem takeEngine {k : Nat} {j : CodecJob} : (s.takeEngine k j).MemoriesWf := hs.keeps (keeps_takeEngine ..)

theorem witnessNext : s.witnessNext.MemoriesWf := by
  unfold State.witnessNext
  split
  · split
    · exact hs
    · exact hs.update.freshInput.takeEngine.reach.modChan
  · exact hs

theorem witnessStart : s.witnessStart.MemoriesWf := hs.witnessNext.witnessNext

theorem codecEntry {e : Entry} : (s.codecEntry e).MemoriesWf := hs.keeps (keeps_codecEntry ..)

theorem execCompress {q : Nat} {hw : Cells} : CanonicalNext (execCompress q hw s) :=
  .next (hs.hostWrites.onEntry (fun _ _ h₁ => h₁.codecEntry))

theorem execDecompress {q : Nat} {hw : Cells} : CanonicalNext (execDecompress q hw s) :=
  .next (hs.hostWrites.onEntry (fun _ _ h₁ => h₁.codecEntry))

theorem freshBytes {n : Nat} : (s.freshBytes n).2.MemoriesWf := by
  induction n generalizing s with
  | zero => exact hs
  | succ n ih => exact ih hs.fresh

theorem compressed {resume : Bool} {n : Nat} {out : List Byte} : (s.compressed resume n out).MemoriesWf :=
  hs.count.count

theorem jobEnds {k : Nat} {j : CodecJob} {c : CodecOp} {r : JobEnd} : (s.jobEnds k j c r).MemoriesWf := by
  unfold State.jobEnds
  extract_lets o _ s1 s2 s3 _ s4 s5 s6
  have ho : o.2.MemoriesWf := by
    dsimp only [o]
    split
    · exact hs.freshBytes
    · exact hs
  have hs1 : s1.MemoriesWf := ⟨Memory.wf_write _ _ _ hs.1, ho.2⟩
  have hs2 : s2.MemoriesWf := by
    dsimp only [s2]
    split
    · exact hs1.ite hs1.writeHost.count
    · exact hs1
  have hs3 : s3.MemoriesWf := hs2.setReg.setReg
  have hs4 : s4.MemoriesWf := hs3.engineEnds.count.count
  have hs5 : s5.MemoriesWf := hs4.compressed.ite hs4
  exact hs5.setJob.modChan.endReq.witnessStart.pump (fun _ _ h₁ => h₁.codecEntry)

theorem execCodecJobComplete {engine : Nat} : CanonicalNext (execCodecJobComplete engine s) := by
  unfold Machine.execCodecJobComplete
  refine .next ?_
  split
  · exact hs
  · split
    · exact hs
    · exact hs.jobEnds

theorem codecPreempt : s.codecPreempt.MemoriesWf := .foldl hs.update (fun _ _ h₁ => h₁.setReg)

theorem execCodecJobResume {engine : Nat} : CanonicalNext (execCodecJobResume engine s) := by
  unfold Machine.execCodecJobResume
  refine .next ?_
  split
  · exact hs
  · extract_lets go
    have hgo (k : Nat) : (go k).MemoriesWf := hs.setJob.takeEngine.setReg.pump (fun _ _ h₁ => h₁.codecEntry)
    exact .ite (hgo _) (.ite hs (hgo _))

theorem witnessDone {k : Nat} : (s.witnessDone k).MemoriesWf :=
  hs.setJob.witnessStart.pump (fun _ _ h₁ => h₁.codecEntry)

theorem witnessEnds {k : Nat} {j : CodecJob} {w : WitnessOp} : (s.witnessEnds k j w).MemoriesWf := by
  unfold State.witnessEnds
  extract_lets _ _ _ s1 s2 s3
  have hs1 : s1.MemoriesWf := hs.writeHost.modChan
  have hs2 : s2.MemoriesWf := hs1.setReg.setReg
  have hs3 : s3.MemoriesWf := hs2.engineEnds.compressed
  exact hs.engineEnds.stopChan.witnessDone.ite hs3.count.endReq.witnessDone

/-! ### The operations of Machine/Boundary.lean -/

theorem flashWrite {a : Nat} {bs : List Byte} : (s.flashWrite a bs).MemoriesWf := hs.keeps (keeps_flashWrite ..)

theorem flashErase {k : Nat} : (s.flashErase k).MemoriesWf := hs.keeps (keeps_flashErase ..)

theorem commitEnds {q idx id status block reason : Nat} : (s.commitEnds q idx id status block reason).MemoriesWf :=
  hs.keeps (keeps_commitEnds ..)

theorem factoryCodes : s.factoryCodes.MemoriesWf := hs.keeps (keeps_factoryCodes ..)

theorem setFence {cause : Nat} {hard : Bool} : (s.setFence cause hard).MemoriesWf := hs.keeps (keeps_setFence ..)

theorem mirrorApart : s.mirrorApart.MemoriesWf := hs.keeps (keeps_mirrorApart ..)

theorem sendSet {id mask : Nat} {fields : List (Nat × Nat)} : (s.sendSet id mask fields).MemoriesWf :=
  hs.naluSend.ite hs

theorem sendTable {id offset : Nat} {bs : List Byte} : (s.sendTable id offset bs).MemoriesWf :=
  hs.keeps (keeps_sendTable ..)

theorem sendAll : s.sendAll.MemoriesWf := hs.keeps (keeps_sendAll ..)

theorem setFails {c : PendingCommit} : (s.setFails c).MemoriesWf := hs.keeps (keeps_setFails ..)

theorem applyCommits : s.applyCommits.MemoriesWf := hs.keeps (keeps_applyCommits ..)

theorem naluDown : s.naluDown.MemoriesWf := hs.keeps (keeps_naluDown ..)

theorem naluState {status : Nat} : (s.naluState status).MemoriesWf := hs.postDev

theorem freeBufs : s.freeBufs.MemoriesWf := .foldl hs (fun _ _ h₁ => h₁.complete)

theorem unpair : s.unpair.MemoriesWf := hs.keeps (keeps_unpair ..)

theorem naluTrain : s.naluTrain.MemoriesWf := hs.keeps (keeps_naluTrain ..)

theorem relatch : s.relatch.MemoriesWf := hs.keeps (keeps_relatch ..)

theorem startRejoin : s.startRejoin.MemoriesWf := hs.keeps (keeps_startRejoin ..)

theorem boundary : s.boundary.MemoriesWf := hs.keeps (keeps_boundary ..)

theorem openGap : s.openGap.MemoriesWf := hs.keeps (keeps_openGap ..)

theorem putRecord {a : Nat} {bs : List Byte} : (s.putRecord a bs).MemoriesWf := hs.keeps (keeps_putRecord ..)

theorem writeOutcome {toHost : Bool} {st : Stripe} : (s.writeOutcome toHost st).MemoriesWf :=
  hs.keeps (keeps_writeOutcome ..)

theorem missRunEvent {id : Nat} {run : Nat × Nat × Nat} : (s.missRunEvent id run).MemoriesWf := hs.postOnce

theorem endEvents {st : Stripe} : (s.endEvents st).MemoriesWf := hs.keeps (keeps_endEvents ..)

theorem dropWitnesses {id pass : Nat} : (s.dropWitnesses id pass).MemoriesWf := hs.keeps (keeps_dropWitnesses ..)

theorem quietPath : s.quietPath.MemoriesWf := hs.keeps (keeps_quietPath ..)

theorem emptyPath : s.emptyPath.MemoriesWf := hs.keeps (keeps_emptyPath ..)

theorem closeStream {sq : Nat} : (s.closeStream sq).MemoriesWf := hs.keeps (keeps_closeStream ..)

theorem bookFired : s.bookFired.MemoriesWf := hs.keeps (keeps_bookFired ..)

theorem addDiscard {r : ArmReq} : (s.addDiscard r).MemoriesWf := hs.keeps (keeps_addDiscard ..)

theorem startDiscard {st : Stripe} : (s.startDiscard st).MemoriesWf := hs.keeps (keeps_startDiscard ..)

theorem discardOver {q : Nat} : (s.discardOver q).MemoriesWf := hs.keeps (keeps_discardOver ..)

theorem mirrorDrops {q : Nat} : (s.mirrorDrops q).MemoriesWf := hs.keeps (keeps_mirrorDrops ..)

theorem toIdle : s.toIdle.MemoriesWf := hs.keeps (keeps_toIdle ..)

theorem stopStream {sq : Nat} : (s.stopStream sq).MemoriesWf := hs.keeps (keeps_stopStream ..)

theorem statusMissing {frame : Nat} : (s.statusMissing frame).MemoriesWf := hs.keeps (keeps_statusMissing ..)

theorem overdueCounts : s.overdueCounts.MemoriesWf := hs.keeps (keeps_overdueCounts ..)

theorem abortWith {toHost : Bool} {cause : Nat} : (s.abortWith toHost cause).MemoriesWf :=
  hs.keeps (keeps_abortWith ..)

theorem abortStripe {cause : Nat} : (s.abortStripe cause).MemoriesWf := hs.abortWith

theorem setsFollow : s.setsFollow.MemoriesWf := hs.applyCommits.ite hs

theorem endUnarmed {toHost : Bool} {r : ArmReq} {cause : Nat} : (s.endUnarmed toHost r cause).MemoriesWf := by
  unfold State.endUnarmed
  extract_lets _ _ _ _ s1 s2 s3 s4 s5
  have hs1 : s1.MemoriesWf := hs.update.setReg
  have hs2 : s2.MemoriesWf := hs1.setReg.ite hs1
  have hs3 : s3.MemoriesWf := hs2.addDiscard.mirrorDrops.dropWitnesses
  have hs4 : s4.MemoriesWf := hs3.update.snapshot
  have hs5 : s5.MemoriesWf := hs4.update.ite hs3
  exact hs5.writeOutcome.setsFollow

theorem fenceChip {cause : Nat} : (s.fenceChip cause).MemoriesWf := hs.keeps (keeps_fenceChip ..)

theorem enterSafe {safe cause : Nat} {send : Bool} : (s.enterSafe safe cause send).MemoriesWf := by
  unfold State.enterSafe
  refine .ite hs ?_
  extract_lets s1 _ s2 s3 s4
  have hs1 : s1.MemoriesWf := (hs.setReg.ite hs).bookFired
  have hs2 : s2.MemoriesWf := hs1.update
  have hs3 : s3.MemoriesWf := hs2.update.setReg
  have hs4 : s4.MemoriesWf := (hs3.ite hs3.setFence).naluDown
  exact hs4.update.quietPath.emptyPath.itemsLive

theorem holdSafe {safe : Nat} : (s.holdSafe safe).MemoriesWf := hs.keeps (keeps_holdSafe ..)

/-! ### The operations of Machine/Cal.lean -/

theorem trimsLive {bs : List Byte} : (s.trimsLive bs).MemoriesWf := by
  unfold State.trimsLive
  exact hs.update.factoryCodes

theorem readTrims : s.readTrims.MemoriesWf := by
  unfold State.readTrims
  split
  · exact hs.trimsLive.setReg.setReg.setReg
  · exact hs.trimsLive.setReg.setReg

theorem execDeviceTrimRead : CanonicalNext (execDeviceTrimRead s) := by
  unfold Machine.execDeviceTrimRead
  refine .next (.ite ?_ hs)
  extract_lets s1 s2
  have hs1 : s1.MemoriesWf := hs.readTrims
  have hs2 : s2.MemoriesWf := hs1.update
  exact hs2.postDev.ite hs2

theorem setDue {k : Nat} {d : Bool} : (s.setDue k d).MemoriesWf := hs.setReg

theorem allDue : s.allDue.MemoriesWf := hs.setReg

theorem itemEnds {item status : Nat} : (s.itemEnds item status).MemoriesWf :=
  hs.setReg.setDue.ite hs.setReg.addReg.setDue.count.update

theorem itemApplied {item code elem : Nat} : (s.itemApplied item code elem).MemoriesWf :=
  hs.setReg.setReg.update.itemEnds

theorem rcalDone {x10 : Nat} : (s.rcalDone x10).MemoriesWf := by
  unfold State.rcalDone
  extract_lets _ _ s1 s2 s3
  have hs1 : s1.MemoriesWf := hs.setReg.setReg
  have hs2 : s2.MemoriesWf := hs1.setReg.itemEnds
  have hs3 : s3.MemoriesWf := .foldl hs2 (fun _ _ h₁ => h₁.itemEnds.ite h₁)
  exact hs1.setReg.itemEnds.ite hs3.postDev

theorem itemDone {item : Nat} {m : CalMeas} : (s.itemDone item m).MemoriesWf := by
  unfold State.itemDone
  refine .ite hs.itemEnds ?_
  split
  · exact hs
  · exact hs.itemApplied
  · exact hs.itemEnds

theorem startCalEnds : s.startCalEnds.MemoriesWf := hs.itemEnds.ite hs

theorem setDrift : s.setDrift.MemoriesWf := hs.setReg.setReg

theorem driftActs : s.driftActs.MemoriesWf := by
  unfold State.driftActs
  extract_lets s1 _ _ _ s2 _ s3
  have hs1 : s1.MemoriesWf := hs.setDrift
  have hs2 : s2.MemoriesWf := hs1.allDue.ite hs1
  have hs3 : s3.MemoriesWf := hs2.update
  exact hs3.update.setReg.ite (hs3.update.ite hs3)

theorem thermTrip : s.thermTrip.MemoriesWf := hs.ite hs.update.enterSafe

theorem thermWarn : s.thermWarn.MemoriesWf := hs.update

theorem execSensorRead {temps : List Int} : CanonicalNext (execSensorRead temps s) := by
  unfold Machine.execSensorRead
  refine .next (.ite hs ?_)
  extract_lets _ _ s1 _ s2 s3
  have hs1 : s1.MemoriesWf := hs.update
  have hs2 : s2.MemoriesWf := hs1.setReg.setReg
  have hs3 : s3.MemoriesWf := hs2.thermWarn
  exact hs3.thermTrip.ite (hs3.driftActs.ite hs3)

theorem execCalGapOpen : CanonicalNext (execCalGapOpen s) := .next ((hs.openGap.ite hs).ite (hs.openGap.ite hs))

theorem unmetEnd : s.unmetEnd.MemoriesWf := .foldl hs (fun _ _ h₁ => h₁.itemEnds.ite h₁)

theorem execCalGapEnd : CanonicalNext (execCalGapEnd s) := by
  unfold Machine.execCalGapEnd
  refine .next ?_
  rcases s.cal.gap with _ | ⟨run, bad, temps, drift, sensor⟩
  · exact hs
  · dsimp only
    have hu : s.unmetEnd.MemoriesWf := hs.unmetEnd
    generalize s.unmetEnd = u at hu ⊢
    exact .ite hu.update.setReg.setDrift.postDev hu.update

theorem execCalOverdue : CanonicalNext (execCalOverdue s) := .next (hs.update.setReg.setReg.postDev.ite hs)

theorem calReady : s.calReady.MemoriesWf := hs.update.setReg.setDrift

theorem deriveGo : s.deriveGo.MemoriesWf := hs.setReg.ite hs.wakeBlock.setReg

theorem execDeriveDone : CanonicalNext (execDeriveDone s) := .next (hs.update.setReg.setReg.setReg.ite hs)

theorem commitWaits {c : PendingCommit} : (s.commitWaits c).MemoriesWf := by
  unfold State.commitWaits
  extract_lets s1 _ s2
  have hs1 : s1.MemoriesWf := hs.sendSet
  have hs2 : s2.MemoriesWf := hs1.update
  exact hs2.boundary.ite (hs2.applyCommits.ite hs2)

theorem mirrorWaits {c : PendingCommit} : (s.mirrorWaits c).MemoriesWf := by
  unfold State.mirrorWaits
  exact .ite hs.update ((hs.update.ite hs.mirrorApart).ite hs.commitWaits)

theorem behindFollow : s.behindFollow.MemoriesWf := .foldl hs.update (fun _ _ h₁ => h₁.mirrorWaits)

theorem storeFails {c : PendingCommit} : (s.storeFails c).MemoriesWf := hs.setReg.setFails

theorem execTrimStore {eraseOk programOk validOk : Bool} :
    CanonicalNext (execTrimStore eraseOk programOk validOk s) := by
  unfold Machine.execTrimStore
  refine .next ?_
  split
  · exact hs
  · extract_lets _ _ _ _ s1 s2 _ s3 _ s4
    have hs1 : s1.MemoriesWf := hs.update
    have hs2 : s2.MemoriesWf := hs1.flashErase.ite hs1
    have hs3 : s3.MemoriesWf := hs2.flashWrite
    have hs4 : s4.MemoriesWf := hs3.update.setReg
    exact hs4.commitWaits.behindFollow.ite hs2.storeFails.behindFollow

/-! ### The operations of Machine/Hmc.lean -/

theorem modPseudo {pc : Nat} {f : PseudoChan → PseudoChan} : (s.modPseudo pc f).MemoriesWf := hs.update

theorem notePeak {pc : Nat} : (s.notePeak pc).MemoriesWf := hs.setReg

theorem forced {pc n : Nat} : (s.forced pc n).MemoriesWf := hs.modPseudo.addReg.count

theorem execRefreshCredit {pc : Nat} : CanonicalNext (execRefreshCredit pc s) :=
  .next (hs.ite (hs.forced.ite hs.modPseudo.notePeak))

theorem execRefreshPay {pc : Nat} : CanonicalNext (execRefreshPay pc s) := .next (hs.modPseudo.ite hs)

theorem pcHot {pc : Nat} : (s.pcHot pc).1.MemoriesWf := hs.modPseudo.notePeak.ite hs.modPseudo.notePeak.forced

theorem pcCool {pc : Nat} : (s.pcCool pc).MemoriesWf := hs.modPseudo

theorem becomeHot : s.becomeHot.1.MemoriesWf := by
  have heat (l : List Nat) (a : State × Nat) (ha : a.1.MemoriesWf) :
      (l.foldl (fun a pc => ((a.1.pcHot pc).1, a.2 + (a.1.pcHot pc).2)) a).1.MemoriesWf := by
    induction l generalizing a with
    | nil => exact ha
    | cons pc l ih => exact ih _ ha.pcHot
  exact heat _ (s, 0) hs

theorem stackHeat {tempC : Nat} : (s.stackHeat tempC).MemoriesWf := by
  unfold State.stackHeat
  exact .ite hs.setReg.becomeHot.postDev (.ite (.postDev (.foldl hs.setReg (fun _ _ h₁ => h₁.pcCool))) hs)

theorem execStackTempRead {tempC : Nat} : CanonicalNext (execStackTempRead tempC s) := by
  unfold Machine.execStackTempRead
  refine .next (.ite hs ?_)
  extract_lets s1 s2
  have hs1 : s1.MemoriesWf := hs.setReg.setReg
  have hs2 : s2.MemoriesWf := hs1.stackHeat.thermWarn
  exact hs2.thermTrip.ite hs2

theorem throttle {p pc bank raa : Nat} : (s.throttle p pc bank raa).MemoriesWf :=
  hs.ite hs.setReg.setReg.addReg.postDev

theorem execRfmIssue {pc bank : Nat} {acts : List Nat} : CanonicalNext (execRfmIssue pc bank acts s) :=
  .next (hs.ite (hs.modPseudo.throttle.ite hs.modPseudo))

theorem execThrottleExpire {port : Nat} : CanonicalNext (execThrottleExpire port s) := .next (hs.setReg.setReg.ite hs)

theorem hmcArmed : s.hmcArmed.MemoriesWf := by
  unfold State.hmcArmed
  extract_lets
  exact .foldl (.foldl hs (fun _ _ h₁ => h₁.setReg.setReg)) (fun _ _ h₁ => h₁.setReg)

theorem execPowerDownEntry {pc : Nat} : CanonicalNext (execPowerDownEntry pc s) := .next (hs.modPseudo.ite hs)

theorem srEnter : s.srEnter.MemoriesWf := by
  unfold State.srEnter
  exact hs.setReg.setReg.update

theorem srCommit : s.srCommit.MemoriesWf := hs.setReg.setReg.setReg.ite hs

theorem execSelfRefreshRequest : CanonicalNext (execSelfRefreshRequest s) := by
  unfold Machine.execSelfRefreshRequest
  exact .next (.ite hs.update.setReg (hs.update.setReg.setReg.ite hs))

theorem execSelfRefreshReentry : CanonicalNext (execSelfRefreshReentry s) := .next (hs.update.srEnter.ite hs)

theorem eccFence {port : Nat} {w : EccWord} : (s.eccFence port w).MemoriesWf := hs.uncorrectable.fenceChip

theorem readBy {units port lo n : Nat} {ecc : EccReads} {k : State → State}
    (hk : ∀ s, s.MemoriesWf → (k s).MemoriesWf) : (s.readBy units port lo n ecc k).MemoriesWf := by
  unfold State.readBy
  extract_lets
  split
  · exact hk _ hs.count.eccRead
  · exact hs.count.eccRead.eccFence

theorem portRead {port lo n : Nat} {ecc : EccReads} {k : State → State} (hk : ∀ s, s.MemoriesWf → (k s).MemoriesWf) :
    (s.portRead port lo n ecc k).MemoriesWf :=
  hs.readBy hk

theorem regionRead {port lo n : Nat} {ecc : EccReads} {k : State → State}
    (hk : ∀ s, s.MemoriesWf → (k s).MemoriesWf) : (s.regionRead port lo n ecc k).MemoriesWf :=
  hs.fresh.readBy hk

theorem execEccCeReport : CanonicalNext (execEccCeReport s) := .next (hs.update.postDev.ite hs)

/-! ### The operations of Machine/Bist.lean -/

theorem bistJudge {kind : Nat} {r : BistRun} : (s.bistJudge kind r).MemoriesWf := hs.bistResult

theorem execFullSelfTest {ran : Bool} {runs : List BistRun} : CanonicalNext (execFullSelfTest ran runs s) := by
  unfold Machine.execFullSelfTest
  refine .next (.ite ?_ hs)
  extract_lets s1 s2 s3
  have hs1 : s1.MemoriesWf := hs.startCalEnds
  have hs2 : s2.MemoriesWf := .foldl hs1 (fun _ _ h₁ => h₁.bistJudge)
  have hs3 : s3.MemoriesWf := .foldl hs1 (fun _ _ h₁ => h₁.bistNotRun)
  exact (hs2.update.ite hs2.holdSafe).ite (hs3.holdSafe.ite hs3.update)

theorem saveArea {area : Nat × Nat} : (s.saveArea area).MemoriesWf := hs.update.hbmWrite

theorem itemStarts {item : Nat} : (s.itemStarts item).MemoriesWf := hs.bistYield.wakeBlocks

theorem execCalItemDone {item : Nat} {m : CalMeas} : CanonicalNext (execCalItemDone item m s) := by
  unfold Machine.execCalItemDone
  refine .next (.ite hs ?_)
  split
  · exact hs.itemStarts.rcalDone
  · exact hs
  · exact hs.itemStarts.itemDone

/-! ### The operations of Machine/Commit.lean -/

theorem reserveAuth {c : PendingCommit} : (s.reserveAuth c).MemoriesWf := hs.update.ite hs

theorem commitValid {c : PendingCommit} : (s.commitValid c).MemoriesWf := by
  unfold State.commitValid
  extract_lets s1
  have hs1 : s1.MemoriesWf := hs.reserveAuth.startEntry
  exact hs1.update.ite hs1.commitWaits

theorem takeCommit {e : Entry} : (s.takeCommit e).MemoriesWf := by
  unfold State.takeCommit
  extract_lets _ _ s1
  have hs1 : s1.MemoriesWf := hs.bistYield
  refine .ite hs.commitEnds ?_
  split
  · exact hs.commitEnds
  · split
    · exact hs1.commitEnds
    · exact hs1.commitValid

/-! ### The operations of Machine/Rings.lean -/

theorem bindChan {ch q : Nat} : (s.bindChan ch q).MemoriesWf := hs.modChan.setReg.setReg

theorem sqEnable {q : Nat} : (s.sqEnable q).MemoriesWf := by
  unfold State.sqEnable
  refine .ite ?_ hs.setReg
  extract_lets s1
  have hs1 : s1.MemoriesWf := by
    dsimp only [s1]
    split
    · exact hs.bindChan
    · exact hs
  exact hs1.modRing.setReg.setReg

theorem sqDisable {q : Nat} : (s.sqDisable q).MemoriesWf := by
  unfold State.sqDisable
  extract_lets s1
  have hs1 : s1.MemoriesWf := hs.setReg
  exact .ite (.foldl hs1 (fun _ _ h₁ => h₁.setReg.ite h₁)) hs1

theorem sqCfgWrite {q w : Nat} : (s.sqCfgWrite q w).MemoriesWf := by
  unfold State.sqCfgWrite
  extract_lets s1 s2 s3
  have hs1 : s1.MemoriesWf := hs.setReg.ite hs
  have hs2 : s2.MemoriesWf := hs1.setReg.setReg
  have hs3 : s3.MemoriesWf := hs2.setReg
  exact (hs1.ite hs1.sqDisable).ite (hs3.sqEnable.ite hs3)

theorem releaseKept : s.releaseKept.MemoriesWf := hs.update.drainHeld.ite hs

theorem eqCfgWrite {e w : Nat} : (s.eqCfgWrite e w).MemoriesWf := by
  unfold State.eqCfgWrite
  extract_lets s1 _ s2
  have hs1 : s1.MemoriesWf := hs.setReg
  have hs2 : s2.MemoriesWf := hs1.setReg
  exact (hs1.ite hs1.setReg).ite (hs2.modEvRing.setReg.releaseKept.drainHeld.ite hs2)

theorem hifCtrlWrite {w : Nat} : (s.hifCtrlWrite w).MemoriesWf := by
  unfold State.hifCtrlWrite
  extract_lets _ s1 s2 _ s3
  have hs1 : s1.MemoriesWf := hs.setReg.setReg
  have hs2 : s2.MemoriesWf := hs1.setReg
  have hs3 : s3.MemoriesWf := hs2.update
  exact (hs3.pageCheck.ite hs3).releaseKept

theorem hostWriteWord {a v : Nat} : (s.hostWriteWord a v).MemoriesWf := by
  unfold State.hostWriteWord
  exact hs.writeHost

theorem readCons : s.readCons.MemoriesWf := .foldl hs (fun _ _ h₁ => h₁.modEvRing.ite h₁)

theorem readProd {q : Nat} : (s.readProd q).MemoriesWf := (hs.setReg.postDev.ite hs.modRing).ite hs

theorem writeBack : s.writeBack.MemoriesWf := by
  unfold State.writeBack
  extract_lets sq eq
  have hsq (s : State) (q : Nat) (h₁ : s.MemoriesWf) : (sq s q).MemoriesWf := h₁.hostWriteWord.modRing.count.ite h₁
  have heq (s : State) (e : Nat) (h₁ : s.MemoriesWf) : (eq s e).MemoriesWf := h₁.hostWriteWord.modEvRing.count.ite h₁
  exact .foldl (.foldl hs hsq) heq

theorem malformedEnds {e : Entry} : (s.malformedEnds e).MemoriesWf := hs.commitEnds.ite hs.complete

theorem takeEntry {q : Nat} : (s.takeEntry q).MemoriesWf := by
  unfold State.takeEntry
  extract_lets _ _ _ s1 _ s2 s3
  have hs1 : s1.MemoriesWf := hs.modRing
  have hs2 : s2.MemoriesWf := hs1.update.count.count
  have hs3 : s3.MemoriesWf := hs2.naluSend.ite hs2
  exact hs3.malformedEnds.ite (hs3.takeCommit.ite hs3.bistYield)

theorem takeEntries {q n : Nat} : (State.takeEntries q n s).MemoriesWf := by
  induction n generalizing s with
  | zero => exact hs
  | succ n ih => exact .ite (ih hs.takeEntry) hs

theorem discardBufs {q n : Nat} : (State.discardBufs q n s).MemoriesWf := by
  induction n generalizing s with
  | zero => exact hs
  | succ n ih =>
    unfold State.discardBufs
    split
    · exact hs
    · refine .ite ?_ hs
      refine .ite (ih hs.discardOver) (ih ?_)
      have hd := hs.takeEntry (q := q)
      exact .ite (State.MemoriesWf.discardOver (.ite hd hd.complete)) (.ite hd hd.complete)

theorem pollRing {q : Nat} : (s.pollRing q).MemoriesWf := hs.discardBufs.ite hs.takeEntries

theorem poll : s.poll.MemoriesWf := by
  unfold State.poll
  refine .ite ?_ hs
  extract_lets s1 s2
  have hs1 : s1.MemoriesWf := hs.wakeBlock.wakeBlock.count.count.readCons
  have hs2 : s2.MemoriesWf := .drainHeld (.foldl hs1 (fun _ _ h₁ => h₁.readProd))
  exact .writeBack (.foldl (.foldl hs2 (fun _ _ h₁ => h₁.pollRing)) (fun _ _ h₁ => h₁.pollRing))

theorem execDoorbellPoll {hw : Cells} : CanonicalNext (execDoorbellPoll hw s) :=
  .next (hs.hostWrites.poll.update.poll.ite hs.hostWrites.poll)

theorem execNudge {underWay : Bool} {hw : Cells} : CanonicalNext (execNudge underWay hw s) :=
  .next (hs.hostWrites.update.ite hs.hostWrites.poll)

theorem execEventQueueDrain {hw : Cells} : CanonicalNext (execEventQueueDrain hw s) := by
  unfold Machine.execEventQueueDrain
  refine .next ?_
  extract_lets s1
  have hs1 : s1.MemoriesWf := hs.hostWrites
  exact ((hs1.readCons.ite hs1).drainHeld).ite hs1

theorem execEqModTimer {e : Nat} : CanonicalNext (execEqModTimer e s) := .next (hs.raiseEq.ite hs)

theorem execCommit {q : Nat} : CanonicalNext (execCommit q s) := .next (hs.takeEntry.ite hs)

theorem execBarrier {q : Nat} : CanonicalNext (execBarrier q s) := by
  unfold Machine.execBarrier
  refine .next ?_
  split
  · exact hs
  · exact hs.startEntry

theorem execBarrierDone : CanonicalNext (execBarrierDone s) := by
  unfold Machine.execBarrierDone
  refine .next ?_
  split
  · exact hs
  · exact hs.complete.ite hs

/-! ### The operations of Machine/Start.lean -/

theorem cold : s.cold.MemoriesWf := hs.update

theorem toOff : s.toOff.MemoriesWf := hs.update

theorem hifCold : s.hifCold.MemoriesWf := by
  unfold State.hifCold
  extract_lets s1 s2
  have hs1 : s1.MemoriesWf := .foldl hs (fun _ _ h₁ => h₁.setReg)
  have hs2 : s2.MemoriesWf := hs1.resetWindow
  exact hs2.update

theorem protForget : s.protForget.MemoriesWf := .foldl hs.update (fun _ _ h₁ => h₁.setReg)

theorem execResetNFall : CanonicalNext (execResetNFall s) := by
  unfold Machine.execResetNFall
  refine .next (.ite hs.update ?_)
  extract_lets s1 s2
  have hs1 : s1.MemoriesWf := hs.cold
  have hs2 : s2.MemoriesWf := hs.hifCold.protForget.ite (hs.cold.ite (hs.ite hs1.clearHbm))
  exact hs2.toOff.setReg

theorem domainsOn : s.domainsOn.MemoriesWf := hs.update

theorem domainsOff : s.domainsOff.MemoriesWf := hs.update

theorem startUp {quick : Bool} : (s.startUp quick).MemoriesWf := by
  unfold State.startUp
  extract_lets s1 _ _ s2 s3
  have hs1 : s1.MemoriesWf := hs.domainsOn
  have hs2 : s2.MemoriesWf := hs1.update
  have hs3 : s3.MemoriesWf := hs2.setReg.ite hs2
  exact .foldl hs3.setReg (fun _ _ h₁ => h₁.setReg)

theorem programmed {prog : Cells} : (s.programmed prog).MemoriesWf := by
  have fold (l : Cells) (m : Sparse Byte) (hm : Sparse.wf flashByte m = true) :
      Sparse.wf flashByte (l.foldl (fun m c => Sparse.set flashByte m c.1 c.2) m) = true := by
    induction l generalizing m with
    | nil => exact hm
    | cons c l ih => exact ih _ (Sparse.wf_set flashByte m c.1 c.2 hm)
  exact ⟨hs.1, hs.2.1, fold prog _ hs.2.2⟩

theorem execResetNRise {lowUs : Nat} {twinId : Bool} {speed width : Nat} {prog : Cells} :
    CanonicalNext (execResetNRise lowUs twinId speed width prog s) := by
  unfold Machine.execResetNRise
  refine .next (.ite hs ?_)
  extract_lets s1 _ s2
  have hs1 : s1.MemoriesWf := hs.programmed.ite hs
  have hs2 : s2.MemoriesWf := hs1.update
  exact hs2.update.startUp.ite hs2

theorem execPowerLoss : CanonicalNext (execPowerLoss s) := by
  unfold Machine.execPowerLoss
  refine .next ?_
  extract_lets s1 s2
  have hs1 : s1.MemoriesWf := hs.cold.toOff
  have hs2 : s2.MemoriesWf := hs1.clearHbm.update.setReg
  exact hs2.update

theorem execRailsUp {resetHigh : Bool} : CanonicalNext (execRailsUp resetHigh s) := .next (hs.ite hs.update.setReg)

theorem chipReset : s.chipReset.MemoriesWf := hs.setReg.ite (hs.ite hs.cold.update.startUp.setReg)

theorem mgtResetWrite {w : Nat} : (s.mgtResetWrite w).MemoriesWf := by
  unfold State.mgtResetWrite
  exact .ite hs (((hs.setReg.ite hs).chipReset).ite (hs.setReg.ite hs))

theorem execRootPllLock : CanonicalNext (execRootPllLock s) := .next (hs.update.naluTrain.ite hs)

theorem execFirmwareImageCheck {slot0 slot1 : Option FwImage} :
    CanonicalNext (execFirmwareImageCheck slot0 slot1 s) := by
  unfold Machine.execFirmwareImageCheck
  refine .next (.ite ?_ hs)
  split
  · exact hs.update.setReg
  · exact hs.holdSafe

theorem repair {l : Nat × Nat × Nat} : (s.repair l).MemoriesWf := by
  unfold State.repair
  extract_lets
  split <;> exact hs.setReg

theorem coldFromHbm : s.coldFromHbm.MemoriesWf := hs.cold.update.naluTrain.setReg

theorem stackTrained {raaimt raammt : Nat} : (s.stackTrained raaimt raammt).MemoriesWf := by
  unfold State.stackTrained
  exact hs.setReg.setReg.setReg.setReg.update

theorem execHbmTraining {found : List TrainFinding} {raaimt raammt : Nat} :
    CanonicalNext (execHbmTraining found raaimt raammt s) := by
  unfold Machine.execHbmTraining
  refine .next (.ite hs (.ite (hs.coldFromHbm.ite hs.stackTrained) (.ite ?_ hs)))
  extract_lets _ s1 s2
  have hs1 : s1.MemoriesWf := .foldl hs (fun _ _ h₁ => h₁.repair)
  have hs2 : s2.MemoriesWf := hs1.setReg
  split
  · exact hs2.setReg.stackTrained
  · exact hs2.setReg.setReg.setReg.fresh.enterSafe

theorem saveAreas : s.saveAreas.MemoriesWf := hs.saveArea.saveArea.saveArea

theorem writeParkRecord {count bistPass : Nat} : (s.writeParkRecord count bistPass).MemoriesWf := hs.hbmWrite

theorem execParkRestore {image : Option Nat} {ecc : EccReads} : CanonicalNext (execParkRestore image ecc s) := by
  unfold Machine.execParkRestore
  refine .next (.ite ?_ hs)
  extract_lets _ s1
  have hs1 : s1.MemoriesWf := hs.eccRead
  split
  · exact hs.eccRead.coldFromHbm.uncorrectable
  · exact hs1.update.ite hs.eccRead.coldFromHbm

theorem enterPark : s.enterPark.MemoriesWf := by
  unfold State.enterPark
  extract_lets s1 s2 s3
  have hs1 : s1.MemoriesWf := by
    dsimp only [s1]
    split
    · exact hs.complete
    · exact hs
  have hs2 : s2.MemoriesWf := hs1.writeBack.ite hs1
  have hs3 : s3.MemoriesWf := hs2.linkStop.naluDown
  exact hs3.update.setReg

theorem execParkEnter : CanonicalNext (execParkEnter s) := .next (hs.enterPark.ite hs)

theorem execParkSaveDone : CanonicalNext (execParkSaveDone s) :=
  .next (hs.update.setReg.saveAreas.writeParkRecord.srEnter.ite hs)

theorem quickStart : s.quickStart.MemoriesWf := hs.setReg.setReg.startUp

theorem coldStart : s.coldStart.MemoriesWf := hs.cold.startUp

theorem wakeSent {n : Nat} : (s.wakeSent n).MemoriesWf := hs.update

theorem wakeNow : s.wakeNow.MemoriesWf := hs.quickStart.ite (hs.coldStart.ite hs.setReg)

theorem wake : s.wake.MemoriesWf := hs.ite (hs.wakeNow.wakeSent.ite hs.wakeNow)

theorem wakeWrite : s.wakeWrite.MemoriesWf := hs.update.wake

theorem parkNotRun : s.parkNotRun.MemoriesWf := .setReg (.setReg (.foldl hs (fun _ _ h₁ => h₁.bistNotRun)))

theorem execParkBistDone {ran : Bool} {runs : List BistRun} {entryMs bistMs : Nat} :
    CanonicalNext (execParkBistDone ran runs entryMs bistMs s) := by
  unfold Machine.execParkBistDone
  refine .next ?_
  extract_lets s1 s2 _ _ s3 _ s4 _ s5 _ s6 s7 s8
  have hs1 : s1.MemoriesWf := hs.srCommit
  have hs2 : s2.MemoriesWf := hs1.setReg
  have hs3 : s3.MemoriesWf := .foldl hs2 (fun _ _ h₁ => h₁.bistJudge)
  have hs5 : s5.MemoriesWf := hs3.writeParkRecord.domainsOff
  have hs6 : s6.MemoriesWf := hs5.update
  have hs8 : s8.MemoriesWf := hs6.setReg.setReg.setReg
  refine .ite (.ite (hs2.parkNotRun.coldStart.ite hs2.parkNotRun) ?_) hs1
  exact (hs8.quickStart.ite hs8).ite hs3.setReg.setReg.holdSafe

theorem execParkWake : CanonicalNext (execParkWake s) := .next hs.wakeWrite

theorem strapPark : s.strapPark.MemoriesWf := hs.update.setReg

theorem execParkReqFall : CanonicalNext (execParkReqFall s) := by
  unfold Machine.execParkReqFall
  refine .next ?_
  extract_lets _ s1
  have hs1 : s1.MemoriesWf := hs.update
  exact hs1.strapPark.ite hs1

theorem execParkReqRise : CanonicalNext (execParkReqRise s) := by
  unfold Machine.execParkReqRise
  refine .next ?_
  extract_lets _ s1 _ s2
  have hs1 : s1.MemoriesWf := hs.update
  have hs2 : s2.MemoriesWf := hs1.update
  exact (hs1.ite hs1.wake).ite ((hs2.setReg.ite hs2).ite hs1)

theorem execPark {q : Nat} : CanonicalNext (execPark q s) := by
  unfold Machine.execPark
  exact .next (hs.onEntry (fun _ _ h₁ => h₁.ite h₁.startEntry.update.setReg))

theorem postHeld {ev : Event} : (s.postHeld ev).MemoriesWf := hs.putEvent.ite (hs.naluSend.ite hs.holdEvent)

theorem execReadyReached {ms : Nat} : CanonicalNext (execReadyReached ms s) := by
  unfold Machine.execReadyReached
  refine .next (.ite ?_ hs)
  extract_lets s1 _ _ _ _ _ s2 s3 s4 s5 s6 s7 s8
  have hs1 : s1.MemoriesWf := hs.startCalEnds
  have hs2 : s2.MemoriesWf := hs1.update
  have hs3 : s3.MemoriesWf := hs2.setReg.setReg.setReg
  have hs4 : s4.MemoriesWf := hs3.setReg
  have hs5 : s5.MemoriesWf := hs4.setReg.calReady
  have hs6 : s6.MemoriesWf := .foldl hs5 (fun _ _ h₁ => h₁.postHeld)
  have hs7 : s7.MemoriesWf := hs6.startKnock.ite hs6
  have hs8 : s8.MemoriesWf := hs7.strapPark
  exact hs7.ite (hs8.enterPark.ite hs8)

/-! ### The operations of Machine/Power.lean -/

theorem loseBlock {k : Nat} : (s.loseBlock k).MemoriesWf := by
  unfold State.loseBlock
  extract_lets s1
  have hs1 : s1.MemoriesWf := hs.update.resetWindow
  split
  · exact hs1.update
  · exact hs1.update
  · exact hs1.update
  · exact hs1.update
  · exact hs1.update
  · exact hs1.update
  · exact hs1.update
  · exact hs1.update
  · exact hs1.update
  · exact hs1.update.readTrims
  · exact hs1.update
  · exact hs1

theorem linkOff : s.linkOff.MemoriesWf := hs.naluState.freeBufs.fenceChip.ite hs.naluState.freeBufs

theorem goOff {k : Nat} : (s.goOff k).MemoriesWf := by
  unfold State.goOff
  exact .ite hs.update.setPwr (hs.loseBlock.setPwr.linkOff.ite hs.loseBlock.setPwr)

theorem pwrFieldWrite {k v : Nat} : (s.pwrFieldWrite k v).MemoriesWf := by
  unfold State.pwrFieldWrite
  extract_lets _ _ s1
  have hs1 : s1.MemoriesWf := hs.setReg
  exact (hs1.ite (hs1.goOff.ite hs1.postDev)).ite (hs1.setPwr.ite hs1)

theorem pwrReqWrite {w : Nat} : (s.pwrReqWrite w).MemoriesWf := .foldl hs (fun _ _ h₁ => h₁.ite h₁.pwrFieldWrite)

theorem execBlockDrainedOff {k : Nat} : CanonicalNext (execBlockDrainedOff k s) := .next (hs.goOff.ite hs)

theorem execBlockIdleTimer {k : Nat} : CanonicalNext (execBlockIdleTimer k s) := .next (hs.setPwr.ite hs)

theorem execBlockNapTimer {k : Nat} : CanonicalNext (execBlockNapTimer k s) := .next (hs.setPwr.ite hs)

theorem execBlockWake {k ch : Nat} : CanonicalNext (execBlockWake k ch s) := .next hs.wakeBlock.setReg

/-! ### The operations of Machine/Protect.lean -/

theorem keyForget : s.keyForget.MemoriesWf := .ite (.foldl hs (fun _ _ h₁ => h₁.setReg)) hs

theorem protEnd {status : Nat} : (s.protEnd status).MemoriesWf := hs.keyForget.update.setReg.setReg.count.postDev

theorem protAccept {item : Nat} {bs : List Byte} : (s.protAccept item bs).MemoriesWf := by
  unfold State.protAccept
  exact .ite hs.update (hs.update.ite hs.itemLive)

theorem protStage : s.protStage.MemoriesWf := by
  unfold State.protStage
  extract_lets _ _ _ _ _ s1 s2
  have hs1 : s1.MemoriesWf := hs.setReg.setReg.setReg
  have hs2 : s2.MemoriesWf := hs1.setReg
  exact hs.setReg.ite (hs.setReg.setReg.ite hs2.update)

theorem protCtrlWrite {w : Nat} : (s.protCtrlWrite w).MemoriesWf := by
  unfold State.protCtrlWrite
  extract_lets s1
  have hs1 : s1.MemoriesWf := hs.setReg.setReg
  split
  · exact hs1.protStage
  · exact hs1.protEnd.ite hs1
  · exact hs1

theorem smbAnswer {bs : List Byte} : (s.smbAnswer bs).MemoriesWf := hs.update

theorem execProtStatus {target : Nat} {pecOk : Bool} : CanonicalNext (execProtStatus target pecOk s) :=
  .next (hs.smbAnswer.ite hs)

theorem execProtRead {target count offset32 : Nat} {pecOk : Bool} :
    CanonicalNext (execProtRead target count offset32 pecOk s) :=
  .next (hs.smbAnswer.ite hs)

theorem execProtConfirm {target count crc nonce : Nat} {pecOk : Bool} :
    CanonicalNext (execProtConfirm target count crc nonce pecOk s) := by
  unfold Machine.execProtConfirm
  refine .next ?_
  split
  · exact hs
  · exact (hs.protAccept.protEnd.ite hs.protEnd).ite hs

theorem execProtRefuse {target count : Nat} {pecOk : Bool} : CanonicalNext (execProtRefuse target count pecOk s) :=
  .next (hs.protEnd.ite hs)

theorem execProtTimeout : CanonicalNext (execProtTimeout s) := .next (hs.protEnd.ite hs)

/-! ### The operations of Machine/Finding.lean -/

theorem postEvents {evs : List Event} : (s.postEvents evs).MemoriesWf := .foldl hs (fun _ _ h₁ => h₁.postOnce)

theorem endFor {f : Finding} : (s.endFor f).MemoriesWf := hs.update.postEvents.abortStripe

theorem finding {f : Finding} : (s.finding f).MemoriesWf := by
  unfold State.finding
  refine .ite hs (.ite hs.endFor (.ite hs ?_))
  extract_lets s1
  have hs1 : s1.MemoriesWf := hs.naluSend
  exact hs1.endFor.ite (hs1.fenceChip.ite hs1.update)

theorem streamFault {offset reason : Nat} {evs : List Event} : (s.streamFault offset reason evs).MemoriesWf :=
  hs.finding

theorem channelLost : s.channelLost.MemoriesWf := hs.ite (hs.fenceChip.ite hs.abortStripe)

theorem stopRequest {ch status cause : Nat} : (s.stopRequest ch status cause).MemoriesWf :=
  hs.stopChan.channelLost.ite hs.stopChan

/-! ### The operations of Machine/Entries.lean -/

theorem armEntry {partnerOff : Bool} {e : Entry} : (s.armEntry partnerOff e).MemoriesWf := by
  unfold State.armEntry
  exact .ite hs (hs.complete.ite (hs.complete.ite hs.startEntry.update))

theorem execArmStripe {q : Nat} {partnerOff : Bool} : CanonicalNext (execArmStripe q partnerOff s) :=
  .next (hs.onEntry (fun _ _ h₁ => h₁.armEntry))

theorem armTaken {partnerOff : Bool} {es : List Entry} : (s.armTaken partnerOff es).MemoriesWf :=
  .foldl hs (fun _ _ h₁ => h₁.armEntry)

theorem abortEntry {partnerOff : Bool} {e : Entry} : (s.abortEntry partnerOff e).MemoriesWf := by
  unfold State.abortEntry
  extract_lets _ s1
  have hs1 : s1.MemoriesWf := hs.armTaken
  refine .ite hs1.abortStripe.complete ?_
  split
  · exact hs1.endUnarmed.complete
  · exact hs1.complete

theorem execAbortStripe {q : Nat} {partnerOff : Bool} : CanonicalNext (execAbortStripe q partnerOff s) :=
  .next (hs.onEntry (fun _ _ h₁ => h₁.abortEntry))

/-! ### The operations of Machine/Dma.lean -/

theorem move {ch : Nat} {r : Request} : (s.move ch r).MemoriesWf := hs.modChan.stagePut.update.setReg.count

theorem bufDone {ch : Nat} {r : Request} : (s.bufDone ch r).MemoriesWf := by
  unfold State.bufDone
  extract_lets s1 s2
  have hs1 : s1.MemoriesWf := hs.chanRecord
  have hs2 : s2.MemoriesWf := hs1.modChan.setReg
  exact hs2.naluSend.dropEntry.ite (hs2.ite hs2.update.complete)

theorem streamTransfer {ch : Nat} : (s.streamTransfer ch).MemoriesWf := by
  unfold State.streamTransfer
  split
  · exact hs
  · refine .ite hs ?_
    extract_lets s1
    have hs1 : s1.MemoriesWf := hs.move
    split
    · exact hs1
    · exact hs1.ite (hs1.bufDone.ite (hs1.stopRequest.ite hs1))

theorem feedEnds {status : Nat} : (s.feedEnds status).MemoriesWf := hs.engineEnds.ite hs

theorem bufForeign {e : Entry} : (s.bufForeign e).MemoriesWf := hs.feedEnds.complete.streamFault

theorem bufMixed {ch : Nat} {st : Stripe} {e : Entry} : (s.bufMixed ch st e).MemoriesWf :=
  hs.engineEnds.complete.streamFault

theorem feedBegins {raw : Bool} : (s.feedBegins raw).MemoriesWf :=
  .ite hs (.foldl hs (fun _ _ h₁ => h₁.setReg.setReg))

theorem bufStart {ch : Nat} {st : Stripe} {e : Entry} : (s.bufStart ch st e).MemoriesWf := by
  unfold State.bufStart
  extract_lets _ _ _ s1 _ s2 s3 s4
  have hs1 : s1.MemoriesWf := hs.feedBegins
  have hs2 : s2.MemoriesWf := hs1.update
  have hs3 : s3.MemoriesWf := hs2.dropEntry.ite hs2
  have hs4 : s4.MemoriesWf := hs2.startReq
  exact hs.bufForeign.ite (hs.bufMixed.ite (hs3.complete.ite (hs4.channelLost.ite hs4)))

theorem nextBuf {q : Nat} : (s.nextBuf q).1.MemoriesWf := hs.takeEntry.ite hs

theorem execStreamBuf {q : Nat} {hw : Cells} : CanonicalNext (execStreamBuf q hw s) := by
  unfold Machine.execStreamBuf
  refine .next ?_
  extract_lets s1 _ s2
  have hs1 : s1.MemoriesWf := hs.applyHost
  have hs2 : s2.MemoriesWf := hs1.mirrorDrops.ite hs1.discardBufs
  refine .ite hs1 ?_
  split
  · refine .ite ?_ hs2
    have hb := hs2.nextBuf (q := q)
    split
    · next e =>
      rw [e] at hb
      exact hb.bufStart
    · next e =>
      rw [e] at hb
      exact hb
  · exact hs2

theorem descriptor {ch : Nat} {r : Request} : (s.descriptor ch r).MemoriesWf := by
  unfold State.descriptor
  refine .ite hs.stopRequest ?_
  extract_lets _ _ _ _ s1
  have hs1 : s1.MemoriesWf := hs.count.count
  exact hs1.modChan.stopRequest.ite (hs1.modChan.stopRequest.ite hs1.modChan)

theorem execDescriptorFetch {ch : Nat} {hw : Cells} : CanonicalNext (execDescriptorFetch ch hw s) := by
  unfold Machine.execDescriptorFetch
  refine .next ?_
  extract_lets s1 s2
  have hs1 : s1.MemoriesWf := hs.hostWrites
  have hs2 : s2.MemoriesWf := hs1.streamTransfer.ite hs1
  split
  · exact hs2
  · exact hs2.ite hs2.descriptor

theorem tableEntry {e : Entry} : (s.tableEntry e).MemoriesWf := by
  unfold State.tableEntry
  extract_lets
  refine .ite hs.complete (.ite hs.complete ?_)
  split
  · exact hs
  · exact hs.startReq

theorem saveOver {q idx : Nat} : (s.saveOver q idx).MemoriesWf := hs.update

theorem mirrorGone {ch : Nat} : (s.mirrorGone ch).MemoriesWf := by
  unfold State.mirrorGone
  split
  · exact hs
  · exact hs.endReq.saveOver

theorem loadArrives {ch : Nat} {r : Request} {t : TableOp} : (s.loadArrives ch r t).MemoriesWf := by
  unfold State.loadArrives
  extract_lets _ _ _ _ s1 s2
  have hs1 : s1.MemoriesWf := hs.modChan.count
  have hs2 : s2.MemoriesWf := hs1.ite hs1.update
  exact hs.mirrorGone.ite ((hs.ite hs.endReq).ite (hs1.endReq.ite (hs2.endReq.ite hs2.sendTable)))

theorem saveRuns {ch : Nat} {r : Request} {t : TableOp} : (s.saveRuns ch r t).MemoriesWf := by
  unfold State.saveRuns
  extract_lets _ s1 _ s2
  have hs1 : s1.MemoriesWf := hs.writeHost.count
  have hs2 : s2.MemoriesWf := hs1.saveOver.modChan
  exact hs.mirrorGone.ite (hs.ite hs2.endReq)

theorem tableTransfer {ch : Nat} : (s.tableTransfer ch).MemoriesWf := by
  unfold State.tableTransfer
  split
  · exact hs
  · split
    · exact hs
    · extract_lets s1
      have hs1 : s1.MemoriesWf := hs.loadArrives.ite hs.saveRuns
      exact hs1.pump (fun _ _ h₁ => h₁.tableEntry)

theorem execLoadTable {q : Nat} {hw : Cells} : CanonicalNext (execLoadTable q hw s) :=
  .next (hs.hostWrites.onEntry (fun _ _ h₁ => h₁.tableEntry))

theorem execSaveTable {q : Nat} : CanonicalNext (execSaveTable q s) :=
  .next (hs.onEntry (fun _ _ h₁ => h₁.tableEntry))

theorem snapshotDone : s.snapshotDone.MemoriesWf := by
  unfold State.snapshotDone
  split
  · exact hs
  · exact hs.writeHost.update.setReg.setReg.count.count

/-! ### The operations of Machine/Codec.lean -/

theorem setFeed {f : Feed} : (s.setFeed f).MemoriesWf := hs.update

theorem stagingRead {ch n : Nat} : (s.stagingRead ch n).MemoriesWf := hs.stageTake.setReg.ite hs.stageTake

theorem feedRead {ch n : Nat} {ecc : EccReads} {next : State → List Byte → State}
    (hnext : ∀ s a, s.MemoriesWf → (next s a).MemoriesWf) : (s.feedRead ch n ecc next).MemoriesWf := by
  unfold State.feedRead
  extract_lets _ _ _ rest
  have hrest (s : State) (h₁ : s.MemoriesWf) : (rest s).MemoriesWf :=
    .ite (hnext _ _ h₁.stagingRead) (h₁.portRead (fun _ h₂ => hnext _ _ h₂.stagingRead))
  exact .ite (hnext _ _ hs) (hs.portRead hrest)

theorem feedMarks {ch : Nat} : (s.feedMarks ch).MemoriesWf := .foldl hs (fun _ _ h₁ => h₁.setReg)

theorem feedFill {ch : Nat} {ecc : EccReads} {next : State → State}
    (hnext : ∀ s, s.MemoriesWf → (next s).MemoriesWf) : (s.feedFill ch ecc next).MemoriesWf :=
  hs.feedRead (fun _ _ h₁ => hnext _ h₁.setFeed.feedMarks)

theorem toParser {bs : List Byte} : (s.toParser bs).MemoriesWf := hs.update.setReg.count

theorem passOn {bs : List Byte} : (s.passOn bs).MemoriesWf := hs.setFeed.toParser.ite hs.setFeed.toParser

theorem azradFault {st : Stripe} {reason offset block : Nat} : (s.azradFault st reason offset block).MemoriesWf :=
  hs.engineEnds.streamFault

theorem azradPassed {ch : Nat} {ecc : EccReads} {r : DecRun} : (s.azradPassed ch ecc r).MemoriesWf := by
  unfold State.azradPassed
  extract_lets
  refine hs.feedRead (fun s _ h₁ => ?_)
  extract_lets _ _ s1 s2 s3 s4
  have hs3 : s3.MemoriesWf := h₁.setFeed.setReg.setReg.setReg
  have hs4 : s4.MemoriesWf := hs3.count.slots.passOn.wakeBlock.feedMarks
  exact hs4.engineEnds.ite hs4

theorem blockFails {ch : Nat} {ecc : EccReads} {r : DecRun} {next : State → State}
    (hnext : ∀ s, s.MemoriesWf → (next s).MemoriesWf) : (s.blockFails ch ecc r next).MemoriesWf :=
  hs.feedRead (fun _ _ h₁ => hnext _ h₁.setFeed.slots)

theorem azradBlock {st : Stripe} {ch : Nat} {ecc : EccReads} : (s.azradBlock st ch ecc).MemoriesWf := by
  unfold State.azradBlock
  extract_lets
  refine .ite (hs.ite hs.azradFault) ?_
  split
  · exact hs.blockFails (fun _ h₁ => h₁.azradFault)
  · exact hs.azradPassed
  · exact .ite (hs.blockFails (fun _ h₁ => h₁.azradFault)) hs

theorem execAzradBlock {ecc : EccReads} : CanonicalNext (execAzradBlock ecc s) := by
  unfold Machine.execAzradBlock
  refine .next ?_
  split
  · exact hs
  · split
    · exact hs
    · extract_lets
      exact .ite hs (hs.wakeBlock.feedFill (fun _ h₁ => h₁.ite h₁.azradBlock))

theorem execWitnessComplete {compressor : Nat} {ecc : EccReads} :
    CanonicalNext (execWitnessComplete compressor ecc s) := by
  unfold Machine.execWitnessComplete
  refine .next ?_
  split
  · exact hs
  · split
    · exact hs
    · exact hs.portRead (fun _ h₁ => h₁.witnessEnds)

theorem jobShows {k : Nat} {j : CodecJob} {e : Entry} {used : Nat} : (s.jobShows k j e used).MemoriesWf :=
  hs.fresh.setJob.setReg.setReg

theorem codecMove {ch : Nat} : (s.codecMove ch).MemoriesWf := by
  unfold State.codecMove
  split
  · exact hs
  · extract_lets _ _ _ s1 s2 _ _ _ s3
    have hs1 : s1.MemoriesWf := hs.fresh.modChan
    have hs2 : s2.MemoriesWf := by
      dsimp only [s2]
      split
      · exact hs1.jobShows
      · exact hs1
    have hs3 : s3.MemoriesWf := hs2.modChan
    exact hs3.setReg.count

theorem execTransferComplete {ch : Nat} : CanonicalNext (execTransferComplete ch s) := by
  unfold Machine.execTransferComplete
  refine .next (.ite hs ?_)
  split
  · exact hs.snapshotDone
  · exact hs.streamTransfer
  · exact hs.tableTransfer
  · exact hs.codecMove
  · exact hs

/-! ### The operations of Machine/Parser.lean -/

theorem setPrs {p : Prs} : (s.setPrs p).MemoriesWf := hs.update

theorem emit {st : Stripe} {x : Prim} (e : s.emit st x = some t) : t.MemoriesWf := by
  unfold State.emit at e
  dsimp only at e
  split at e
  · cases e
    exact hs.count.slots
  · split at e
    · cases e
    · cases e
      exact hs.setPrs.laqWrite.count.slots

theorem showLocks {ls : List Nat} : (s.showLocks ls).MemoriesWf := hs.setReg

theorem expandSteps {st : Stripe} {xs : List XStep} : (s.expandSteps st xs).MemoriesWf := by
  induction xs generalizing s with
  | nil => exact hs.setPrs
  | cons x xs ih =>
    unfold State.expandSteps
    dsimp only
    split
    · refine .ite (ih hs.setPrs.showLocks.setPrs) ?_
      exact hs.setPrs.showLocks.ite hs.setPrs.showLocks.count
    · split
      · exact ih hs.setPrs
      · split
        · exact hs.setReg.showLocks
        · next e => exact ih (hs.emit e).showLocks.setPrs

theorem expand {st : Stripe} {n : Nat} : (State.expand st n s).MemoriesWf := by
  induction n generalizing s with
  | zero => exact hs
  | succ n ih => exact hs.ite (ih hs.expandSteps)

theorem expandAll {st : Stripe} : (s.expandAll st).MemoriesWf := hs.expand

theorem prsRegs : s.prsRegs.MemoriesWf := hs.setReg.setReg.ite hs.setReg

theorem spill {t : Template} : (s.spill t).MemoriesWf := hs.hbmWrite.hbmWrite.setPrs

theorem confirm {band : Option Nat} : (s.confirm band).MemoriesWf := by
  unfold State.confirm
  extract_lets _ _ _ _ s1
  have hs1 : s1.MemoriesWf := .foldl hs.update (fun _ _ h₁ => h₁.spill)
  split
  · exact hs1.setPrs
  · exact hs1.setPrs.setReg

theorem warpRegs {rows : Nat} {r : List Byte} : (s.warpRegs rows r).MemoriesWf := hs.setReg.setReg.setReg

theorem takeRecord {st : Stripe} {r : List Byte} : (s.takeRecord st r).MemoriesWf := by
  unfold State.takeRecord
  extract_lets _ s1 s2 s3
  have hs1 : s1.MemoriesWf := hs.confirm.ite hs
  have hs2 : s2.MemoriesWf := hs1.setPrs
  have hs3 : s3.MemoriesWf := (hs2.warpRegs.ite hs2).setReg
  exact hs3.setReg.expandAll.prsRegs

theorem sovisFault {st : Stripe} {reason : Nat} : (s.sovisFault st reason).MemoriesWf :=
  hs.setPrs.setReg.setReg.setReg.setReg.feedEnds.streamFault

theorem sovisEnd {st : Stripe} : (s.sovisEnd st).MemoriesWf := by
  unfold State.sovisEnd
  extract_lets s1 _ s2 s3
  have hs1 : s1.MemoriesWf := hs.confirm
  have hs2 : s2.MemoriesWf := hs1.setPrs
  have hs3 : s3.MemoriesWf := hs2.setReg.setReg.setReg
  exact hs3.setReg.expandAll.prsRegs

theorem rawFeed {st : Stripe} {ecc : EccReads} {next : State → State}
    (hnext : ∀ s, s.MemoriesWf → (next s).MemoriesWf) : (s.rawFeed st ecc next).MemoriesWf := by
  unfold State.rawFeed
  extract_lets
  split
  · exact hnext _ hs
  · exact hs.feedRead (fun _ _ h₁ => hnext _ (.toParser (.foldl h₁.setFeed.setReg (fun _ _ h₂ => h₂.setReg))))

theorem parseRecord {st : Stripe} : (s.parseRecord st).MemoriesWf := by
  unfold State.parseRecord
  extract_lets
  refine .ite (hs.sovisFault.ite (hs.sovisEnd.ite hs)) ?_
  split
  · exact hs.setReg
  · exact hs.sovisFault
  · exact hs.setReg.takeRecord

theorem execSovisRecord {ecc : EccReads} : CanonicalNext (execSovisRecord ecc s) := by
  unfold Machine.execSovisRecord
  refine .next ?_
  split
  · exact hs
  · exact .ite hs (hs.wakeBlock.rawFeed (fun _ h₁ => h₁.parseRecord.ite h₁))

theorem dirRead {id : Option Nat} {ecc : EccReads} {next : State → State}
    (hnext : ∀ s, s.MemoriesWf → (next s).MemoriesWf) : (s.dirRead id ecc next).MemoriesWf := by
  unfold State.dirRead
  split
  · exact hnext _ hs
  · exact hs.portRead (fun _ h₁ => hnext _ h₁.setPrs)

theorem execTemplateLineFill {line : Nat} {ecc : EccReads} : CanonicalNext (execTemplateLineFill line ecc s) := by
  unfold Machine.execTemplateLineFill
  refine .next ?_
  split
  · exact hs
  · refine .ite ?_ hs
    extract_lets s1
    have hs1 : s1.MemoriesWf := hs.wakeBlock
    exact hs1.dirRead (fun _ h₁ => h₁.portRead (fun _ h₂ => h₂.setPrs.expandAll.prsRegs))

theorem execBandRelease : CanonicalNext (execBandRelease s) := by
  unfold Machine.execBandRelease
  refine .next ?_
  split
  · exact hs
  · refine .ite ?_ hs
    extract_lets _ _ _ s1 _ s2 s3
    have hs1 : s1.MemoriesWf := .foldl hs (fun _ _ h₁ => h₁.laqWrite)
    have hs2 : s2.MemoriesWf := hs1.setPrs.setReg
    have hs3 : s3.MemoriesWf := hs2.setReg.count
    exact ((hs3.setReg.ite hs3).prsRegs).wakeBlock

theorem execParserResume : CanonicalNext (execParserResume s) := by
  unfold Machine.execParserResume
  refine .next ?_
  split
  · exact hs
  · exact (((hs.ite hs.setReg).setReg).expandAll).prsRegs

/-! ### The operations of Machine/Raster.lean -/

theorem csmSkip : s.csmSkip.MemoriesWf := hs.update

theorem recomputeSkip : s.recomputeSkip.MemoriesWf := by
  unfold State.recomputeSkip
  split
  · exact hs
  · exact hs.update

theorem slice {again : Bool} {rows b u : Nat} {next : State → State}
    (hnext : ∀ s, s.MemoriesWf → (next s).MemoriesWf) : (s.slice again rows b u next).MemoriesWf := by
  unfold State.slice
  extract_lets _ _ _ _ _ s1 s2 _ _ s3 s4
  have hs1 : s1.MemoriesWf := hs.update
  have hs2 : s2.MemoriesWf := hs1.setReg.count
  have hs3 : s3.MemoriesWf := hs2.update.setReg
  have hs4 : s4.MemoriesWf := hs3.setReg
  exact hs2.setReg.ite (hnext _ hs4.count.count.slots)

theorem sliceDone {rows : Nat} : (s.sliceDone rows).MemoriesWf := by
  unfold State.sliceDone
  extract_lets s1
  have hs1 : s1.MemoriesWf := hs.csmSkip.recomputeSkip
  split
  · exact hs1.slice (fun _ h₁ => h₁.update.recomputeSkip)
  · exact .ite (hs1.slice (fun _ h₁ => h₁.update.csmSkip)) hs1

theorem execPaneSliceDone {ecc : EccReads} : CanonicalNext (execPaneSliceDone ecc s) := by
  unfold Machine.execPaneSliceDone
  refine .next ?_
  split
  · exact hs
  · exact .ite (hs.wakeBlock.regionRead (fun _ h₁ => h₁.sliceDone)) hs

theorem takePlane {p : Plane} : (s.takePlane p).MemoriesWf := hs.wakeBlock.update.setReg

theorem execPaneBufferFree : CanonicalNext (execPaneBufferFree s) := by
  unfold Machine.execPaneBufferFree
  refine .next ?_
  split
  · exact hs.takePlane.ite hs
  · exact hs

theorem dropPlaced : s.dropPlaced.MemoriesWf := hs.setPrs

theorem execBandRetire : CanonicalNext (execBandRetire s) := by
  unfold Machine.execBandRetire
  refine .next ?_
  split
  · exact hs
  · exact hs.csmSkip.setPrs.setReg.dropPlaced.prsRegs.ite hs.csmSkip

theorem execRecomputeBand : CanonicalNext (execRecomputeBand s) := by
  unfold Machine.execRecomputeBand
  refine .next ?_
  split
  · exact hs
  · split
    · exact hs
    · split
      · exact hs.update.recomputeSkip
      · exact hs

/-! ### The operations of Machine/Pec.lean -/

theorem densityBand {rows k : Nat} : (s.densityBand rows k).MemoriesWf := hs.update.setReg

theorem execDensityBandDone : CanonicalNext (execDensityBandDone s) := by
  unfold Machine.execDensityBandDone
  refine .next ?_
  split
  · exact hs
  · exact hs.wakeBlock.densityBand.dropPlaced.ite hs

theorem execBlurBandDone : CanonicalNext (execBlurBandDone s) := by
  unfold Machine.execBlurBandDone
  refine .next ?_
  split
  · exact hs
  · exact hs.wakeBlock.update.setReg.ite hs

theorem writeDoses {b : Nat} {rows : List (List Nat)} : (s.writeDoses b rows).MemoriesWf := hs.hbmWrite

theorem captureOne {rows : List (List Nat)} {st : Stripe} {w : WitnessReq} : (s.captureOne rows st w).MemoriesWf := by
  unfold State.captureOne
  split
  · exact hs
  · exact hs.hbmWrite.update

theorem captureBand {st : Stripe} {b : Nat} {rows : List (List Nat)} : (s.captureBand st b rows).MemoriesWf :=
  .witnessStart (.foldl hs (fun _ _ h₁ => h₁.captureOne))

theorem witnessEntry {e : Entry} : (s.witnessEntry e).MemoriesWf := by
  unfold State.witnessEntry
  extract_lets _ _ _ s1
  have hs1 : s1.MemoriesWf := hs.startEntry
  split
  · exact hs.complete
  · exact hs.complete.ite (hs.complete.ite (hs.complete.ite (hs.complete.ite hs1.update)))

theorem execWitness {q : Nat} : CanonicalNext (execWitness q s) := .next (hs.onEntry (fun _ _ h₁ => h₁.witnessEntry))

theorem correctBand {st : Stripe} : (s.correctBand st).MemoriesWf := by
  unfold State.correctBand
  extract_lets _ _ _ _ s1 _ s2 s3
  have hs1 : s1.MemoriesWf := hs.writeDoses.captureBand
  have hs2 : s2.MemoriesWf := hs1.update
  have hs3 : s3.MemoriesWf := hs2.setReg.setReg
  exact hs3.count.count.slots

theorem correctAgain {st : Stripe} {b : Nat} : (s.correctAgain st b).MemoriesWf := hs.update.slots

theorem execBandCorrected : CanonicalNext (execBandCorrected s) := by
  unfold Machine.execBandCorrected
  refine .next ?_
  split
  · exact hs
  · extract_lets s1 s2
    have hs1 : s1.MemoriesWf := hs.csmSkip
    have hs2 : s2.MemoriesWf := hs1.wakeBlock
    refine .ite hs1 ?_
    split
    · exact hs2.correctAgain
    · exact hs2.correctBand.ite hs2

/-! ### The operations of Machine/Alloc.lean -/

theorem setFrameBit {n d x : Nat} : (s.setFrameBit n d x).MemoriesWf := hs.hbmWrite

theorem modLedger {f : Ledger → Ledger} : (s.modLedger f).MemoriesWf := hs.modStripe

theorem hole {cause reason n d x : Nat} : (s.hole cause reason n d x).MemoriesWf := hs.modLedger.setReg

theorem lose {cause n d x : Nat} : (s.lose cause n d x).MemoriesWf := by
  unfold State.lose
  extract_lets s1 s2
  have hs1 : s1.MemoriesWf := hs.setReg.count
  have hs2 : s2.MemoriesWf := hs1.modStripe
  split
  · exact hs2.modLedger
  · exact hs2.hole

theorem bookMiss {n : Nat} : (s.bookMiss n).MemoriesWf := by
  unfold State.bookMiss
  extract_lets _ s1 s2 s3
  have hs1 : s1.MemoriesWf := hs.modLedger
  have hs2 : s2.MemoriesWf := by
    refine .ite hs ?_
    split
    · exact hs
    · exact hs.postOnce
  have hs3 : s3.MemoriesWf := hs2.modLedger
  exact .ite (.foldl hs1 (fun _ _ h₁ => h₁.lose)) (.foldl hs3 (fun _ _ h₁ => h₁.hole))

theorem repay {r : Repay} : (s.repay r).MemoriesWf := hs.setFrameBit.modLedger.modStripe.setReg.count

theorem execRepaymentWrite {ecc : EccReads} : CanonicalNext (execRepaymentWrite ecc s) := by
  unfold Machine.execRepaymentWrite
  refine .next ?_
  split
  · exact hs
  · exact hs.wakeBlock.portRead (fun _ h₁ => h₁.repay)

/-! ### The operations of Machine/Vote.lean -/

theorem modVote {m : Int} {f : Vote → Vote} : (s.modVote m f).MemoriesWf := hs.update

theorem dropVote {m : Int} : (s.dropVote m).MemoriesWf := hs.update

theorem openVote {m : Int} : (s.openVote m).MemoriesWf := hs.ite hs.update

theorem startRound {m : Int} {k kind mask : Nat} : (s.startRound m k kind mask).MemoriesWf := hs.modVote.naluSend

theorem rewrite {st : Stripe} {m : Int} {ms : List Mask} {d : Nat} : (s.rewrite st m ms d).MemoriesWf := hs.hbmWrite

theorem withholdBit {n d x : Nat} {mine theirs repaid : Bool} : (s.withholdBit n d x mine theirs repaid).MemoriesWf :=
  hs.ite (hs.lose.ite (hs.hole.ite hs))

theorem partnerBits {v : Vote} {d : Nat} : (s.partnerBits v d).2.MemoriesWf := by
  unfold State.partnerBits
  split
  · exact hs
  · exact hs.freshBytes

theorem withhold {st : Stripe} {v : Vote} {d : Nat} : (s.withhold st v d).MemoriesWf := by
  unfold State.withhold
  extract_lets _ _ _ _ _ s1 s2 s3 s4
  have hs1 : s1.MemoriesWf := hs.partnerBits.hbmWrite
  have hs2 : s2.MemoriesWf := hs1.modLedger
  have hs3 : s3.MemoriesWf := hs2.modStripe
  have hs4 : s4.MemoriesWf := hs3.setReg.count
  exact .foldl hs4 (fun _ _ h₁ => h₁.withholdBit)

theorem voteEvents {v : Vote} {dose : Nat} {bv : List Nat} : (s.voteEvents v dose bv).MemoriesWf := by
  unfold State.voteEvents
  extract_lets _ s1
  have hs1 : s1.MemoriesWf := ((hs.postOnce.ite hs).postOnce).ite (hs.postOnce.ite hs)
  exact hs1.postOnce.ite hs1

theorem lostVote : s.lostVote.MemoriesWf := by
  unfold State.lostVote
  extract_lets _ _ _ s1
  have hs1 : s1.MemoriesWf := hs.update.addReg
  exact hs1.fenceChip.ite hs1

theorem rewriteAll {st : Stripe} {v : Vote} {ds : List Nat} : (s.rewriteAll st v ds).MemoriesWf := by
  unfold State.rewriteAll
  exact hs.foldl (fun _ _ h₁ => (.foldl h₁ (fun _ _ h₂ => h₂.rewrite)))

theorem applyVerdict {st : Stripe} {v : Vote} {dose : Nat} {bv : List Nat} :
    (s.applyVerdict st v dose bv).MemoriesWf := by
  unfold State.applyVerdict
  extract_lets _ _ _ _ s1 _ s2 s3 s4
  have hs1 : s1.MemoriesWf := hs.setReg
  have hs2 : s2.MemoriesWf := hs1.setReg
  have hs3 : s3.MemoriesWf := .foldl hs2.rewriteAll (fun _ _ h₁ => h₁.withhold)
  have hs4 : s4.MemoriesWf := hs3.voteEvents.dropVote
  exact hs4.lostVote.ite hs4

theorem closeVote {st : Stripe} {v : Vote} : (s.closeVote st v).MemoriesWf := hs.naluSend.applyVerdict

theorem compareSigs {m : Int} : (s.compareSigs m).MemoriesWf := by
  unfold State.compareSigs
  split
  · split
    · extract_lets _ s1
      have hs1 : s1.MemoriesWf := hs.setReg.count
      exact hs.ite ((hs.ite hs.closeVote).ite hs1.startRound)
    · exact hs
  · exact hs

theorem signStep {m : Int} {sig : Sig} {n : Nat} : (s.signStep m sig n).MemoriesWf :=
  hs.openVote.naluSend.modVote.count.compareSigs

theorem readBlocks {st : Stripe} {m : Int} {ecc : EccReads} {next : State → State} {ds : List Nat}
    (hnext : ∀ s, s.MemoriesWf → (next s).MemoriesWf) : (State.readBlocks st m ecc next ds s).MemoriesWf := by
  induction ds generalizing s with
  | nil => exact hnext _ hs
  | cons d ds ih => exact hs.portRead (fun _ h₁ => ih h₁)

theorem sendBlocks {st : Stripe} {v : Vote} {ecc : EccReads} {next : State → State}
    (hnext : ∀ s, s.MemoriesWf → (next s).MemoriesWf) : (s.sendBlocks st v ecc next).MemoriesWf := by
  unfold State.sendBlocks
  refine .ite (hnext _ hs) ?_
  extract_lets
  exact hs.readBlocks (fun _ h₁ => hnext _ (.modVote (.foldl h₁ (fun _ _ h₂ => h₂.naluSend))))

theorem judge {st : Stripe} {m : Int} {ecc : EccReads} : (s.judge st m ecc).MemoriesWf := by
  unfold State.judge
  split
  · exact hs
  · refine .ite hs ?_
    extract_lets
    exact .ite (hs.startRound.ite hs) (.ite (hs.sendBlocks (fun _ h₁ => h₁)) (hs.ite hs.closeVote))

theorem recomputeEnds {st : Stripe} {v : Vote} {ecc : EccReads} : (s.recomputeEnds st v ecc).MemoriesWf :=
  hs.modVote.naluSend.count.count.slots.judge

theorem execRecomputeDone {ecc : EccReads} : CanonicalNext (execRecomputeDone ecc s) := by
  unfold Machine.execRecomputeDone
  refine .next ?_
  split
  · exact hs
  · split
    · exact hs
    · exact .ite hs.wakeBlock.recomputeEnds (hs.wakeBlock.portRead (fun _ h₁ => h₁.recomputeEnds))

theorem closeDue {st : Stripe} {v : Vote} : (s.closeDue st v).MemoriesWf := hs.closeVote.ite hs

theorem execVoteClose {step : Int} {ecc : EccReads} : CanonicalNext (execVoteClose step ecc s) := by
  unfold Machine.execVoteClose
  refine .next ?_
  split
  · exact .ite hs (.ite (hs.ite hs.closeVote) (hs.sendBlocks (fun _ h₁ => h₁.closeDue)))
  · exact hs

/-! ### The operations of Machine/Sched.lean -/

theorem inputLate {st : Stripe} {m : Int} {b stage : Nat} : (s.inputLate st m b stage).MemoriesWf :=
  hs.setReg.setReg.setReg.finding

theorem execEntryStepBegin : CanonicalNext (execEntryStepBegin s) := by
  unfold Machine.execEntryStepBegin
  refine .next ?_
  split
  · exact hs
  · extract_lets
    refine .ite hs ?_
    split
    · exact hs.ite hs.inputLate
    · exact hs.modStripe

theorem stepEnds {st : Stripe} {m : Int} : (s.stepEnds st m).MemoriesWf := by
  unfold State.stepEnds
  extract_lets _ _ _ s1 s2 s3 s4 s5 s6
  have hs1 : s1.MemoriesWf := .foldl hs (fun _ _ h₁ => h₁.hbmWrite)
  have hs2 : s2.MemoriesWf := hs1.hbmWrite
  have hs3 : s3.MemoriesWf := hs2.modStripe
  have hs4 : s4.MemoriesWf := hs3.setReg.setReg
  have hs5 : s5.MemoriesWf := hs4.setReg
  have hs6 : s6.MemoriesWf := hs5.count.slots
  exact hs6.signStep.ite hs6

theorem execEntryStepComplete {ecc : EccReads} : CanonicalNext (execEntryStepComplete ecc s) := by
  unfold Machine.execEntryStepComplete
  refine .next ?_
  split
  · exact hs
  · split
    · exact hs
    · exact .ite (hs.wakeBlock.regionRead (fun _ h₁ => h₁.stepEnds)) hs

/-! ### The operations of Machine/Shl.lean -/

theorem sendList {xs : List Sent} : (s.sendList xs).MemoriesWf := .foldl hs (fun _ _ h₁ => h₁.send)

theorem backGood {bc : Nat} : (s.backGood bc).MemoriesWf := by
  unfold State.backGood
  extract_lets
  exact (((hs.setReg.postDev.ite hs).setReg).postDev).ite (hs.setReg.postDev.ite hs)

theorem record {h : BackCopies} {type : Nat} {ok : List Byte → Bool} {act : List Byte → State → State}
    (hact : ∀ a s, s.MemoriesWf → (act a s).MemoriesWf) : (s.record h type ok act).MemoriesWf := by
  unfold State.record
  extract_lets s1
  have hs1 : s1.MemoriesWf := hs.addReg.count
  refine .ite hs ?_
  split
  · exact hs1
  · exact (hact _ _ hs.backGood.count).ite hs1

theorem forward {r : FwdRecord} : (s.forward r).MemoriesWf := hs.ite hs.send

theorem linkEnWrite {on : Bool} : (s.linkEnWrite on).MemoriesWf := hs.ite hs.linkEnable

theorem relatchWrite : s.relatchWrite.MemoriesWf := by
  unfold State.relatchWrite
  extract_lets _ s1
  have hs1 : s1.MemoriesWf := hs.update
  exact hs1.linkBoundary.ite hs1

theorem execKnockSend : CanonicalNext (execKnockSend s) := .next (hs.forward.ite hs)

theorem execKnockTimeout : CanonicalNext (execKnockTimeout s) := .next (hs.update.linkEvent.ite hs)

theorem latchGo {r : Nat} : (s.latchGo r).MemoriesWf := hs.setReg.forward.forward.forward

theorem knockReply {gen maxRate headId : Nat} : (s.knockReply gen maxRate headId).MemoriesWf :=
  hs.setReg.setReg.setReg.update.latchGo.ite hs

theorem execKnockReply {h : BackCopies} : CanonicalNext (execKnockReply h s) :=
  .next (hs.record (fun _ _ h₁ => h₁.knockReply))

theorem latchLanes : s.latchLanes.MemoriesWf := hs.setLanes

theorem execLatchStart : CanonicalNext (execLatchStart s) :=
  .next ((((hs.startLatch.ite hs).update).latchLanes).ite hs)

theorem lowerRate : s.lowerRate.MemoriesWf := hs.linkStop.linkEvent.ite hs.startLatch.latchGo

theorem idleLanes : s.idleLanes.MemoriesWf := hs.fresh.setLanes

theorem latchEnds {lock : Nat} : (s.latchEnds lock).MemoriesWf := by
  unfold State.latchEnds
  split
  · exact hs.lowerRate
  · exact hs.setReg.setReg.update.idleLanes.forward

theorem authEnds {status headId shots : Nat} : (s.authEnds status headId shots).MemoriesWf := by
  unfold State.authEnds
  extract_lets _ _ _ s1 s2
  have hs1 : s1.MemoriesWf := hs.update
  have hs2 : s2.MemoriesWf := hs1.setReg.ite hs1
  exact hs2.postDev

theorem rejoinEnds {ok : Bool} : (s.rejoinEnds ok).MemoriesWf := by
  unfold State.rejoinEnds
  refine .ite ?_ hs
  extract_lets _ s1 s2
  have hs1 : s1.MemoriesWf := hs.update
  have hs2 : s2.MemoriesWf := hs1.liftFence.ite hs1
  exact hs2.postDev.ite hs2

theorem authTimesOut : s.authTimesOut.MemoriesWf := hs.fresh.authEnds.rejoinEnds

theorem startProof : s.startProof.MemoriesWf := by
  unfold State.startProof
  split
  · exact hs.authTimesOut
  · exact hs.update.forward

theorem linkOpens : s.linkOpens.MemoriesWf := hs.update.linkEvent.startProof

theorem linkFence : s.linkFence.MemoriesWf := hs.linkStop.linkEvent.fenceChip

theorem loseLane {p : Nat} : (s.loseLane p).MemoriesWf := by
  unfold State.loseLane
  extract_lets _ _ _ _ _ _ _ _ _ s1 s2
  have hs1 : s1.MemoriesWf := hs.update.setReg.setReg
  have hs2 : s2.MemoriesWf := hs1.postDev
  exact hs2.linkFence.ite hs2

theorem loseLanes {ps : List Nat} : (s.loseLanes ps).MemoriesWf := by
  induction ps generalizing s with
  | nil => exact hs
  | cons p ps ih => exact .ite (ih hs.loseLane) hs

theorem lockReport {lock : Nat} : (s.lockReport lock).MemoriesWf := hs.setReg.loseLanes.ite hs.setReg

theorem laneReport {lock : Nat} : (s.laneReport lock).MemoriesWf := by
  unfold State.laneReport
  extract_lets _ s1
  have hs1 : s1.MemoriesWf := hs.update.setReg
  exact (hs1.latchEnds.ite hs1).ite ((hs1.linkOpens.ite hs1).ite hs1.lockReport)

theorem execLaneStatus {h : BackCopies} : CanonicalNext (execLaneStatus h s) :=
  .next (hs.record (fun _ _ h₁ => h₁.laneReport))

theorem execLatchTimeout : CanonicalNext (execLatchTimeout s) := .next (hs.latchEnds.ite hs)

theorem execOpenTimeout : CanonicalNext (execOpenTimeout s) := .next (hs.lowerRate.ite hs)

theorem authResponse {headId shots : Nat} {mac : List Byte} : (s.authResponse headId shots mac).MemoriesWf := by
  unfold State.authResponse
  split
  · exact hs
  · exact hs.authEnds.rejoinEnds

theorem execAuthResponse {h : BackCopies} : CanonicalNext (execAuthResponse h s) :=
  .next (hs.record (fun _ _ h₁ => h₁.authResponse))

theorem execAuthTimeout : CanonicalNext (execAuthTimeout s) := .next (hs.authTimesOut.ite hs)

theorem sendArm {r : ArmReq} : (s.sendArm r).MemoriesWf := hs.forward.sendList.count.ite hs

theorem trimAck {stripe crc : Nat} : (s.trimAck stripe crc).MemoriesWf := hs.modStripe

theorem execTrimAck {h : BackCopies} : CanonicalNext (execTrimAck h s) := .next (hs.record (fun _ _ h₁ => h₁.trimAck))

theorem execTrimRetry : CanonicalNext (execTrimRetry s) := by
  unfold Machine.execTrimRetry
  refine .next ?_
  split
  · exact hs
  · exact ((hs.ite hs.postDev).modStripe).sendArm

theorem blankedLanes {frame mask : Nat} : (s.blankedLanes frame mask).MemoriesWf :=
  hs.ite (hs.setReg.postOnce.ite hs.setReg)

theorem switched {srcMask : Nat} : (s.switched srcMask).MemoriesWf := hs.ite hs.addReg.modStripe

theorem missGone {n : Nat} : (s.missGone n).MemoriesWf := hs.update

theorem bookTimed : s.bookTimed.MemoriesWf := .foldl hs (fun _ _ h₁ => h₁.missGone.bookMiss)

theorem frameSeen {frame blankMask : Nat} : (s.frameSeen frame blankMask).MemoriesWf :=
  hs.modStripe.missGone.slots.ite hs.modStripe.missGone

theorem silentLead {srcMask : Nat} : (s.silentLead srcMask).MemoriesWf := by
  unfold State.silentLead
  refine .ite ?_ hs
  extract_lets _ _ s1
  have hs1 : s1.MemoriesWf := hs.update
  exact hs1.bookTimed.ite hs1.fenceChip

theorem frameStatus {frame srcMask blankMask lock : Nat} : (s.frameStatus frame srcMask blankMask lock).MemoriesWf :=
  hs.frameSeen.switched.blankedLanes.silentLead.lockReport

theorem execFrameStatus {h : BackCopies} : CanonicalNext (execFrameStatus h s) :=
  .next (hs.record (fun _ _ h₁ => h₁.frameStatus))

theorem bookPair {n : Nat} : (s.bookPair n).MemoriesWf := by
  unfold State.bookPair
  extract_lets s1
  have hs1 : s1.MemoriesWf := hs.missGone
  exact hs1.naluSend.bookMiss.ite (hs1.update.ite hs1.bookMiss)

theorem execFrameStatusMissing {frame : Nat} : CanonicalNext (execFrameStatusMissing frame s) := by
  unfold Machine.execFrameStatusMissing
  refine .next ?_
  extract_lets s1
  have hs1 : s1.MemoriesWf := hs.bookPair.ite hs
  split
  · exact hs1
  · exact hs1.ite (hs1.statusMissing.ite (hs1.ite hs1.modStripe))

theorem execDoneStatusWaitExpire : CanonicalNext (execDoneStatusWaitExpire s) := by
  unfold Machine.execDoneStatusWaitExpire
  refine .next ?_
  split
  · exact hs
  · split
    · exact hs.statusMissing
    · exact hs

theorem execBackchannelTimeout {lane : Nat} : CanonicalNext (execBackchannelTimeout lane s) := by
  unfold Machine.execBackchannelTimeout
  refine .next ?_
  extract_lets _ s1
  have hs1 : s1.MemoriesWf := hs.setReg.postDev
  exact (hs1.ite (hs1.linkFence.ite hs1.startKnock)).ite hs

/-! ### The operations of Machine/Ems.lean -/

theorem noteNext : s.noteNext.MemoriesWf := by
  unfold State.noteNext
  split
  · exact hs
  · exact hs.setReg.setReg

theorem setRegs {l : List (Field × Nat)} : (s.setRegs l).MemoriesWf := .foldl hs (fun _ _ h₁ => h₁.setReg)

theorem startSegment {st : Stripe} {k : Nat} : (s.startSegment st k).MemoriesWf := by
  unfold State.startSegment
  extract_lets _ s1 s2
  have hs1 : s1.MemoriesWf := hs.modStripe
  have hs2 : s2.MemoriesWf := hs.modStripe
  exact hs1.sendList.count.ite (hs2.fenceChip.ite hs2)

theorem segmentSlot {k : Nat} : (s.segmentSlot k).MemoriesWf := by
  unfold State.segmentSlot
  split
  · exact hs
  · split
    · exact hs.startSegment.ite hs
    · exact hs

theorem panic : s.panic.MemoriesWf := by
  unfold State.panic
  split
  · exact hs
  · exact hs.setReg.ite (hs.setReg.ite hs)

theorem execSillFetchDone {ecc : EccReads} : CanonicalNext (execSillFetchDone ecc s) := by
  unfold Machine.execSillFetchDone
  refine .next ?_
  split
  · exact hs
  · split
    · exact hs
    · exact .ite hs (hs.portRead (fun _ h₁ => h₁.modStripe.panic))

theorem stripeCause {cause : Nat} : (s.stripeCause cause).MemoriesWf := hs.finding.ite hs

theorem execStageOkTimeout : CanonicalNext (execStageOkTimeout s) := .next (hs.stripeCause.ite hs)

theorem execStallTimeout : CanonicalNext (execStallTimeout s) := .next (hs.stripeCause.ite hs)

theorem tracking {ty tx : Int} {n : Nat} {miss : Bool} : (s.tracking ty tx n miss).MemoriesWf := hs.send.send.ite hs

theorem endRun {st : Stripe} {c : Nat} : (s.endRun st c).MemoriesWf := by
  unfold State.endRun
  split
  · exact hs.ite hs.missRunEvent
  · exact hs

theorem countFlash : s.countFlash.MemoriesWf := hs.setReg.setReg.ite hs.setReg

theorem fire {n : Nat} : (s.fire n).MemoriesWf := hs.countFlash.send.count.count

theorem miss {c : Nat} : (s.miss c).MemoriesWf := hs.addReg.count.slots

theorem compareDecision {n : Nat} : (s.compareDecision n).MemoriesWf := by
  unfold State.compareDecision
  split
  · extract_lets _ _ s1
    have hs1 : s1.MemoriesWf := hs.update
    exact hs1.fenceChip.ite hs1
  · exact hs

theorem shareDecision {n c : Nat} : (s.shareDecision n c).MemoriesWf :=
  (hs.naluSend.update.compareDecision.ite hs.naluSend).ite hs

theorem bookDecision {n : Nat} : (s.bookDecision n).MemoriesWf := hs.bookMiss.ite hs.update

theorem limits : s.limits.MemoriesWf := by
  unfold State.limits
  split
  · exact hs
  · exact hs.stripeCause.ite (hs.stripeCause.ite hs)

theorem decideFlash {st : Stripe} {k c : Nat} {ty tx : Int} : (s.decideFlash st k c ty tx).MemoriesWf := by
  unfold State.decideFlash
  extract_lets _ s1 s2 _ s3 s4 s5 s6
  have hs1 : s1.MemoriesWf := hs.overdueCounts.ite hs
  have hs2 : s2.MemoriesWf := hs1.endRun.modStripe
  have hs3 : s3.MemoriesWf := hs2.update
  have hs4 : s4.MemoriesWf := hs3.fire.ite hs3.miss
  have hs5 : s5.MemoriesWf := hs4.tracking.noteNext.panic
  have hs6 : s6.MemoriesWf := hs5.ite hs5.bookDecision
  exact hs6.shareDecision.segmentSlot.limits

theorem decideSlot {k : Nat} {blank : Bool} : (s.decideSlot k blank).MemoriesWf := by
  unfold State.decideSlot
  split
  · exact hs
  · exact hs.ite hs.decideFlash

theorem modPort {f : Port → Port} : (s.modPort f).MemoriesWf := hs.update

theorem acceptPair {k y x : Nat} {blank : Bool} : (s.acceptPair k y x blank).MemoriesWf := by
  unfold State.acceptPair
  extract_lets _ s1
  have hs1 : s1.MemoriesWf := hs.modPort.count
  exact hs1.modPort.ite (hs1.modPort.decideSlot.ite (hs1.count.decideSlot.ite hs1.stripeCause))

theorem loseLock {k : Nat} : (s.loseLock k).MemoriesWf := by
  unfold State.loseLock
  extract_lets s1 s2
  have hs1 : s1.MemoriesWf := hs.modPort.addReg
  have hs2 : s2.MemoriesWf := hs1.postOnce
  exact hs2.stripeCause.ite hs2

theorem failSlot {k : Nat} : (s.failSlot k).MemoriesWf := hs.modPort.loseLock.ite hs.modPort

theorem seekLock {k : Nat} {good : Bool} : (s.seekLock k good).MemoriesWf :=
  hs.modPort.ite (hs.modPort.ite hs.modPort.postOnce)

theorem levels {stageOk blank twinId : Bool} : (s.levels stageOk blank twinId).MemoriesWf := hs.update.ite hs

theorem readStage {stageOk : Bool} : (s.readStage stageOk).MemoriesWf := hs.modStripe

theorem takePair {k : Nat} {fy fx : BitVec 50} {blank : Bool} : (s.takePair k fy fx blank).MemoriesWf := by
  unfold State.takePair
  extract_lets _ _ s1
  have hs1 : s1.MemoriesWf := hs.ite hs.addReg
  exact hs1.seekLock.ite (hs1.failSlot.ite (hs1.modPort.ite (hs1.addReg.failSlot.ite hs1.acceptPair)))

theorem execPositionSlot {fy fx : BitVec 50} {stageOk blankReq twinId : Bool} :
    CanonicalNext (execPositionSlot fy fx stageOk blankReq twinId s) := by
  unfold Machine.execPositionSlot
  refine .next ?_
  extract_lets s1
  have hs1 : s1.MemoriesWf := hs.levels
  exact hs1.ite hs1.modPort.readStage.segmentSlot.takePair

theorem clearPath : s.clearPath.MemoriesWf := hs.update

theorem dropFindings : s.dropFindings.MemoriesWf := hs.update

theorem armStripe {r : ArmReq} : (s.armStripe r).MemoriesWf := by
  unfold State.armStripe
  extract_lets _ _ _ _ s1 _ _ s2
  have hs1 : s1.MemoriesWf := hs.setRegs.setReg.clearPath.dropFindings.wakeBlocks
  have hs2 : s2.MemoriesWf := hs1.update
  exact hs2.hmcArmed.scanMigrate.codecPreempt.noteNext.panic.sendArm

theorem holdForPartner {r : ArmReq} : (s.holdForPartner r).MemoriesWf := by
  unfold State.holdForPartner
  exact hs.setRegs.clearPath.update

theorem leaveToLead : s.leaveToLead.MemoriesWf := hs.update

theorem endsAtArming {r : ArmReq} {f : Finding} : (s.endsAtArming r f).MemoriesWf :=
  hs.postEvents.dropFindings.endUnarmed

theorem findingFails : s.findingFails.MemoriesWf := hs.dropFindings.fenceChip

theorem armFails {r : ArmReq} {cause : Nat} {posts : List Event} : (s.armFails r cause posts).MemoriesWf := by
  unfold State.armFails
  extract_lets _ s1
  have hs1 : s1.MemoriesWf := hs.naluSend
  exact hs.endsAtArming.ite (hs1.endsAtArming.ite (hs1.findingFails.ite hs1.update))

theorem armChecked {r : ArmReq} : (s.armChecked r).MemoriesWf := by
  unfold State.armChecked
  split
  · exact hs.postDev.armFails
  · exact hs.armFails.ite (hs.armFails.ite hs.armStripe)

theorem armWaits {r : ArmReq} : (s.armWaits r).MemoriesWf := by
  unfold State.armWaits
  split
  · exact hs
  · exact hs
  · exact hs.armChecked.ite (hs.ite hs.update.startProof)
  · exact hs.armChecked

theorem armTurn : s.armTurn.MemoriesWf := by
  unfold State.armTurn
  exact hs.bistYield.update

theorem execStripeArm : CanonicalNext (execStripeArm s) := by
  unfold Machine.execStripeArm
  refine .next ?_
  extract_lets s1 s2
  have hs1 : s1.MemoriesWf := hs.setsFollow
  have hs2 : s2.MemoriesWf := hs1.armTurn
  split
  · exact hs1
  · exact hs1.ite (hs2.armWaits.ite (hs2.endUnarmed.dropFindings.ite (hs2.leaveToLead.ite hs2.holdForPartner)))

theorem sosIgnored {st : Stripe} : (s.sosIgnored st).MemoriesWf := hs.addReg.postOnce

theorem takeSos {st : Stripe} : (s.takeSos st).MemoriesWf :=
  hs.stripeCause.ite (hs.sosIgnored.ite hs.modStripe.update)

theorem execSosRise {stageOk : Bool} : CanonicalNext (execSosRise stageOk s) := by
  unfold Machine.execSosRise
  refine .next ?_
  extract_lets _ s1
  have hs1 : s1.MemoriesWf := hs.update
  refine .ite hs1 ?_
  split
  · exact hs1.addReg
  · exact hs1.modStripe.ite ((hs1.takeSos.ite hs1).ite hs1.addReg)

theorem execEnterWaitSos : CanonicalNext (execEnterWaitSos s) := by
  unfold Machine.execEnterWaitSos
  refine .next ?_
  split
  · exact hs
  · refine .ite ?_ hs
    extract_lets _ s1
    have hs1 : s1.MemoriesWf := hs.update
    exact hs1.takeSos.ite hs1

theorem execStripeDone : CanonicalNext (execStripeDone s) := by
  unfold Machine.execStripeDone
  refine .next ?_
  split
  · exact hs
  · exact hs.modStripe.setReg.closeStream.ite hs

theorem outcomeNow {st : Stripe} : (s.outcomeNow st).MemoriesWf := by
  unfold State.outcomeNow
  extract_lets s1 s2
  have hs1 : s1.MemoriesWf := hs.dropWitnesses.endEvents
  have hs2 : s2.MemoriesWf := hs1.snapshot.ite hs1
  exact hs2.writeOutcome.toIdle

theorem execStripeOutcome : CanonicalNext (execStripeOutcome s) := by
  unfold Machine.execStripeOutcome
  refine .next ?_
  split
  · exact hs
  · exact hs.ite hs.outcomeNow

theorem execFbHoldExpire : CanonicalNext (execFbHoldExpire s) := .next (hs.toIdle.ite hs)

/-! ### The operations of Machine/Stops.lean -/

theorem pumpAll : s.pumpAll.MemoriesWf :=
  .scanNext (.pump (hs.witnessStart.pump (fun _ _ h₁ => h₁.tableEntry)) (fun _ _ h₁ => h₁.codecEntry))

theorem tableStops {ch : Nat} {r : Request} {e : Entry} : (s.tableStops ch r e).s.MemoriesWf := by
  unfold State.tableStops
  extract_lets _ _ a out
  have ha : a.2.MemoriesWf := hs.settle
  split
  · exact ha
  · have hw : State.MemoriesWf { a.2 with host := Memory.write s.host (tableOf e.raw).addr out } :=
      ⟨Memory.wf_write _ _ _ hs.1, ha.2⟩
    exact hw.saveOver

theorem engineFree {k status nIn nOut : Nat} : (s.engineFree k status nIn nOut).MemoriesWf :=
  hs.setJob.setReg.engineEnds.setReg.setReg

theorem freshUpTo {n : Nat} : (s.freshUpTo n).2.MemoriesWf := by
  unfold State.freshUpTo
  exact hs.fresh (w := 32)

theorem codecStops {k status : Nat} {r : Request} {j : CodecJob} {e : Entry} :
    (s.codecStops k status r j e).s.MemoriesWf := by
  unfold State.codecStops
  extract_lets c _ _ a nIn nOut out _ t1 t2
  have hout : out.2.MemoriesWf := by
    have h₁ : nOut.2.MemoriesWf := hs.settle.freshUpTo.freshUpTo
    dsimp only [out]
    split
    · exact h₁.freshBytes
    · exact h₁
  have ht1 : t1.MemoriesWf :=
    State.MemoriesWf.count (s := { out.2 with host := Memory.write s.host c.dst out.1 })
      ⟨Memory.wf_write _ _ _ hs.1, hout.2⟩
  have ht2 : t2.MemoriesWf := ht1.compressed.ite ht1
  exact ht2.engineFree

theorem witnessLeaves {k status nIn : Nat} {r : Request} {w : WitnessOp} {out : List Byte} :
    (s.witnessLeaves k status r w out nIn).s.MemoriesWf := hs.writeHost.count.compressed.engineFree

theorem witnessStops {k status : Nat} {r : Request} {j : CodecJob} {e : Entry} :
    (s.witnessStops k status r j e).s.MemoriesWf := by
  unfold State.witnessStops
  extract_lets _ _ nIn nOut x c
  have hc : c.1.MemoriesWf := hs.freshUpTo.freshUpTo.freeEcc.count.eccRead
  split
  · exact hs.witnessLeaves
  · split
    · exact hc.witnessLeaves
    · exact hc.eccFence.witnessLeaves

theorem scanStops {e : Nat} {sc : Scan} : (s.scanStops e sc).s.MemoriesWf :=
  hs.scanAdvance.scanWriteBack.freeScan

theorem stopDelivers {ch status : Nat} {r : Request} : (s.stopDelivers ch status r).s.MemoriesWf := by
  unfold State.stopDelivers
  extract_lets plain
  have hp : plain.s.MemoriesWf := hs.settle
  split
  · exact hp
  · split
    · exact hs.tableStops
    · exact hs.codecStops
    · split
      · exact hs.scanStops
      · exact hp
    · exact hs.witnessStops
    · exact hp

theorem stopLeaves {ch status cause : Nat} {d : Stopped} : (s.stopLeaves ch status cause d).MemoriesWf :=
  hs.chanRecord.modChan.setReg.ite hs.stopRecord.stopEvent

theorem stopOutside {ch status cause : Nat} : (s.stopOutside ch status cause).MemoriesWf := by
  unfold State.stopOutside
  split
  · exact hs
  · exact .ite hs.stopRequest hs.stopDelivers.stopLeaves.complete.pumpAll

theorem stopAny {ch status cause : Nat} : (s.stopAny ch status cause).MemoriesWf :=
  hs.ite ((hs.feedRecord.channelLost.ite hs).ite (hs.looseRecord.ite hs.stopOutside))

theorem dmaAbort {ch : Nat} : (s.dmaAbort ch).MemoriesWf := hs.ite hs.stopAny

theorem dmaRelease {ch : Nat} : (s.dmaRelease ch).MemoriesWf := hs.setReg.pumpAll

theorem execDmaCplTimeout {ch : Nat} : CanonicalNext (execDmaCplTimeout ch s) := .next (hs.ite hs.stopAny)

theorem execDmaCplError {ch : Nat} : CanonicalNext (execDmaCplError ch s) := .next hs.stopAny

/-! ### The operations of Machine/Pcie.lean -/

theorem stopAll : s.stopAll.MemoriesWf := by
  refine hs.foldl (fun _ _ h₁ => ?_)
  split
  · exact h₁
  · exact h₁.stopDelivers.stopLeaves

theorem dropWork : s.dropWork.MemoriesWf := by
  unfold State.dropWork
  extract_lets _ _ _ _ _ s1 s2 s3
  have hs1 : s1.MemoriesWf := hs.update
  have hs2 : s2.MemoriesWf := .foldl hs1 (fun _ _ h₁ => h₁.setReg)
  have hs3 : s3.MemoriesWf := hs2.setReg
  exact hs3.setReg.ite hs3

theorem endStripes : s.endStripes.MemoriesWf := by
  unfold State.endStripes
  extract_lets _ s1
  have hs1 : s1.MemoriesWf := hs.abortWith.ite hs
  split
  · exact hs1
  · exact hs1.endUnarmed.update.ite hs1.endUnarmed

theorem armOpen : s.armOpen.MemoriesWf := hs.fresh.armTaken.ite hs.armTaken

theorem hostReset {perst : Bool} {speed width : Nat} : (s.hostReset perst speed width).MemoriesWf := by
  unfold State.hostReset
  refine .ite hs ?_
  extract_lets s1 _ _ _ s2 _ s3 _ s4
  have hs1 : s1.MemoriesWf := hs.update.ite hs.armOpen
  have hs2 : s2.MemoriesWf := hs1.update.stopAll
  have hs3 : s3.MemoriesWf := hs2.update.dropWork.endStripes
  have hs4 : s4.MemoriesWf := hs3.hifCold
  exact hs4.update

theorem execPerstNFall {speed width : Nat} : CanonicalNext (execPerstNFall speed width s) :=
  .next (hs.ite hs.hostReset.setReg)

theorem execFunctionLevelReset {speed width : Nat} : CanonicalNext (execFunctionLevelReset speed width s) :=
  .next hs.hostReset

theorem enterD3 {speed width : Nat} : (s.enterD3 speed width).MemoriesWf := hs.ite hs.hostReset.update

theorem execD3hotEntry {speed width : Nat} : CanonicalNext (execD3hotEntry speed width s) := .next hs.enterD3

theorem execLateCompletion {_ch : Nat} : CanonicalNext (execLateCompletion _ch s) := .next (hs.ite hs.update)

theorem vectorsGo : s.vectorsGo.MemoriesWf := .foldl hs (fun _ _ h₁ => h₁.setReg.raiseVector.ite h₁)

theorem cfgWrite {o w : Nat} : (s.cfgWrite o w).MemoriesWf := by
  unfold State.cfgWrite
  extract_lets s1
  have hs1 : s1.MemoriesWf := hs.update
  exact (hs1.enterD3.ite (hs1.update.ite hs1)).ite ((hs1.hostReset.ite hs1).ite (hs1.vectorsGo.ite hs1))

/-! ### The operations of Machine/Nalu.lean -/

theorem modNlk {f : Nlk → Nlk} : (s.modNlk f).MemoriesWf := hs.update

theorem naluWork : s.naluWork.MemoriesWf := hs.bistYield.wakeBlock

theorem deliver {seq : Nat} {act : State → State} (hact : ∀ s, s.MemoriesWf → (act s).MemoriesWf) :
    (s.deliver seq act).MemoriesWf :=
  (hact _ hs.naluWork.modNlk).ite hs

theorem dropMirrorTables : s.dropMirrorTables.MemoriesWf := by
  unfold State.dropMirrorTables
  extract_lets one
  have hone (s : State) (ch : Nat) (h₁ : s.MemoriesWf) : (one s ch).MemoriesWf := by
    dsimp only [one]
    split
    · exact h₁
    · split
      · exact h₁
      · exact h₁.mirrorGone.ite h₁
  exact .pump (.foldl hs hone) (fun _ _ h₁ => h₁.tableEntry)

theorem findingEnds {f : Finding} : (s.findingEnds f).MemoriesWf := by
  unfold State.findingEnds
  refine .ite hs.endFor ?_
  split
  · exact hs.endsAtArming
  · exact hs.dropFindings

theorem alone : s.alone.MemoriesWf := by
  unfold State.alone
  extract_lets _ s1 s2
  have hs1 : s1.MemoriesWf := hs.modNlk.freeBufs
  have hs2 : s2.MemoriesWf := hs1.bookTimed.ite hs1
  split
  · exact hs2.findingEnds.ite hs2
  · exact hs2

theorem leadOutcome {st : Stripe} {record : List Byte} : (s.leadOutcome st record).MemoriesWf := by
  unfold State.leadOutcome
  extract_lets _ s1 s2 s3 s4
  have hs1 : s1.MemoriesWf := hs.setReg.modNlk
  have hs2 : s2.MemoriesWf := hs1.ite hs1.stopStream.startDiscard
  have hs3 : s3.MemoriesWf := hs2.closeStream.dropWitnesses.endEvents
  have hs4 : s4.MemoriesWf := hs3.snapshot.ite hs3
  exact hs4.dropEntry.putEvent.toIdle

theorem outcomeArrives : s.outcomeArrives.MemoriesWf := by
  unfold State.outcomeArrives
  split
  · exact hs.leadOutcome.ite hs
  · exact hs

theorem outcomeLost : s.outcomeLost.MemoriesWf := by
  unfold State.outcomeLost
  split
  · exact hs.leadOutcome
  · exact hs.abortStripe
  · exact hs

theorem loseLink : s.loseLink.MemoriesWf := by
  unfold State.loseLink
  refine .ite hs ?_
  extract_lets s1 _ s2
  have hs1 : s1.MemoriesWf := hs.naluDown.addReg.naluState.dropMirrorTables
  have hs2 : s2.MemoriesWf := hs1.modNlk.alone
  exact hs1.modNlk.alone.ite (hs1.alone.fenceChip.ite (hs2.outcomeLost.ite hs2))

theorem execNaluLinkLost : CanonicalNext (execNaluLinkLost s) := .next hs.loseLink

theorem naluMode {lane : Nat} {mode : TxMode} : (s.naluMode lane mode).MemoriesWf := hs.modNlk

theorem execNaluLaneDrop {lane : Nat} : CanonicalNext (execNaluLaneDrop lane s) :=
  .next (hs.naluMode.setReg.addReg.ite hs)

theorem execNaluAckTimer : CanonicalNext (execNaluAckTimer s) := .next (hs.naluWork.count.modNlk.ite hs)

theorem execNaluResend {seq : Nat} : CanonicalNext (execNaluResend seq s) := by
  unfold Machine.execNaluResend
  refine .next ?_
  split
  · exact hs
  · extract_lets s1 _ _ s2 s3
    have hs1 : s1.MemoriesWf := hs.naluWork
    have hs2 : s2.MemoriesWf := hs1.modNlk
    have hs3 : s3.MemoriesWf := hs2.addReg.count
    exact hs3.loseLink.ite hs3

theorem partnerRejoined : s.partnerRejoined.MemoriesWf := hs.modNlk.naluState.ite hs

theorem mirrorReleases : s.mirrorReleases.MemoriesWf := by
  unfold State.mirrorReleases
  split
  · exact hs
  · extract_lets s1
    have hs1 : s1.MemoriesWf := by
      dsimp only [s1]
      split
      · exact hs.modChan.setReg
      · exact hs
    exact hs1.startDiscard.closeStream.toIdle

theorem partnerArmed {old new : Nat} : (s.partnerArmed old new).MemoriesWf := hs.modNlk.findingFails.ite hs.modNlk

theorem execNaluAck {ackSeq state fenced : Nat} : CanonicalNext (execNaluAck ackSeq state fenced s) := by
  unfold Machine.execNaluAck
  refine .next (.ite ?_ hs)
  extract_lets _ s1
  have hs1 : s1.MemoriesWf := hs.naluWork.modNlk
  exact ((hs1.partnerRejoined.ite hs1).mirrorReleases).partnerArmed

theorem trained {seq die lanes : Nat} : (s.trained seq die lanes).MemoriesWf := hs.modNlk.setReg.setReg.naluSend

theorem clash {sameRole : Bool} : (s.clash sameRole).MemoriesWf := by
  unfold State.clash
  extract_lets s1 s2
  have hs1 : s1.MemoriesWf := hs.unpair.modNlk
  have hs2 : s2.MemoriesWf := hs1.fenceChip.ite hs1
  exact hs2.naluState.naluDown

theorem formed : s.formed.MemoriesWf := by
  unfold State.formed
  extract_lets _ s1 s2
  have hs1 : s1.MemoriesWf := hs.modNlk
  have hs2 : s2.MemoriesWf := hs1.ite hs1.sendAll
  exact (hs2.relatch.ite hs2).ite (hs2.modNlk.ite hs2.modNlk.naluState)

theorem execNaluHello {seq role stepping fw die lanes : Nat} :
    CanonicalNext (execNaluHello seq role stepping fw die lanes s) := by
  unfold Machine.execNaluHello
  refine .next (.ite hs ?_)
  extract_lets s1
  have hs1 : s1.MemoriesWf := hs.naluWork.trained
  exact hs1.clash.ite (hs1.clash.ite hs1.formed)

theorem execNaluSoloTimeout : CanonicalNext (execNaluSoloTimeout s) :=
  .next ((hs.naluDown.unpair.fenceChip.ite hs.naluDown.unpair).ite hs)

theorem rejoinFails : s.rejoinFails.MemoriesWf := hs.modNlk.naluState.ite hs.rejoinEnds

theorem execRejoinTimeout : CanonicalNext (execRejoinTimeout s) := .next (hs.naluDown.rejoinFails.ite hs.rejoinFails)

theorem bindStream {q : Nat} : (s.bindStream q).MemoriesWf := by
  unfold State.bindStream
  refine .ite hs ?_
  extract_lets
  split
  · exact hs.bindChan
  · exact hs

theorem mirrorEntry {q idx : Nat} {raw : List Byte} : (s.mirrorEntry q idx raw).MemoriesWf := by
  unfold State.mirrorEntry
  extract_lets
  refine .ite hs ?_
  split
  · exact hs.update
  · exact hs.update
  · exact hs.update
  · exact hs.bindStream.update.mirrorDrops
  · exact hs.ite hs.update
  · exact hs.sendTable.ite hs
  · exact hs

theorem execNaluEntry {seq ring index : Nat} {raw : List Byte} : CanonicalNext (execNaluEntry seq ring index raw s) :=
  .next (hs.deliver (fun _ h₁ => h₁.mirrorEntry.ite h₁))

theorem mirrorTakesSet {c : PendingCommit} : (s.mirrorTakesSet c).MemoriesWf := hs.mirrorApart.ite hs.mirrorWaits

theorem rejoinChecks {crcs : List Nat} : (s.rejoinChecks crcs).MemoriesWf :=
  (hs.rejoinFails.ite hs.mirrorApart).ite (hs.relatch.ite hs)

theorem setTaken {mask : Nat} {copy : Bool} : (s.setTaken mask copy).MemoriesWf := hs.ite hs.update

theorem execNaluCommitSet {seq commitId mask : Nat} {set : List (Nat × Nat)} {crcs : List Nat} :
    CanonicalNext (execNaluCommitSet seq commitId mask set crcs s) := by
  unfold Machine.execNaluCommitSet
  refine .next ?_
  exact hs.deliver (fun _ h₁ => h₁.ite (h₁.setTaken.mirrorTakesSet.rejoinChecks.ite h₁.setTaken.mirrorTakesSet))

theorem saveMore {q idx : Nat} {data : List Byte} : (s.saveMore q idx data).MemoriesWf := hs.saveOver.modNlk

theorem saveArrives {id offset : Nat} {data : List Byte} : (s.saveArrives id offset data).MemoriesWf := by
  unfold State.saveArrives
  extract_lets
  split
  · exact hs.saveMore
  · exact hs

theorem execNaluTableChunk {seq tableId offset : Nat} {data : List Byte} :
    CanonicalNext (execNaluTableChunk seq tableId offset data s) :=
  .next (hs.deliver (fun _ h₁ => h₁.saveArrives.ite h₁.update))

theorem execNaluFetched {seq ring index : Nat} : CanonicalNext (execNaluFetched seq ring index s) := by
  unfold Machine.execNaluFetched
  refine .next (hs.deliver (fun _ h₁ => ?_))
  extract_lets
  split
  · exact h₁.complete
  · exact h₁.modNlk

theorem findingPassed : s.findingPassed.MemoriesWf := hs.findingFails.ite hs

theorem leadSteps : s.leadSteps.MemoriesWf := hs.modNlk.ite hs

theorem execNaluSig {seq : Nat} {step : Int} {dose : Nat} {blocks : List Nat} :
    CanonicalNext (execNaluSig seq step dose blocks s) := by
  unfold Machine.execNaluSig
  refine .next ?_
  exact hs.deliver (fun _ h₁ => h₁.leadSteps.openVote.modVote.compareSigs.findingPassed.ite h₁.leadSteps)

theorem execNaluRecompute {seq : Nat} {step : Int} {round kind mask : Nat} :
    CanonicalNext (execNaluRecompute seq step round kind mask s) := by
  unfold Machine.execNaluRecompute
  refine .next (hs.deliver (fun _ h₁ => ?_))
  split
  · exact h₁
  · exact h₁.startRound.ite h₁

theorem execNaluResult {seq : Nat} {step : Int} {round dose : Nat} {blocks : List Nat} {ecc : EccReads} :
    CanonicalNext (execNaluResult seq step round dose blocks ecc s) := by
  unfold Machine.execNaluResult
  refine .next (hs.deliver (fun _ h₁ => ?_))
  split
  · exact h₁.modVote.judge.ite h₁
  · exact h₁

theorem execNaluVerdict {seq : Nat} {step : Int} {doseV : Nat} {blockV : List Nat} :
    CanonicalNext (execNaluVerdict seq step doseV blockV s) := by
  unfold Machine.execNaluVerdict
  refine .next (hs.deliver (fun _ h₁ => ?_))
  split
  · exact h₁.ite (h₁.applyVerdict.ite h₁.fenceChip)
  · exact h₁

theorem execNaluBlock {seq : Nat} {step : Int} {depth : Nat} {data : List Byte} :
    CanonicalNext (execNaluBlock seq step depth data s) := by
  unfold Machine.execNaluBlock
  refine .next (hs.deliver (fun _ h₁ => ?_))
  extract_lets s1
  have hs1 : s1.MemoriesWf := h₁.modVote
  split
  · exact hs1.closeDue.ite hs1
  · exact hs1

theorem execNaluDecision {seq flash outcome : Nat} : CanonicalNext (execNaluDecision seq flash outcome s) :=
  .next (hs.deliver (fun _ h₁ => h₁.modNlk.findingPassed.compareDecision.ite h₁))

theorem execNaluMissList {seq flash : Nat} : CanonicalNext (execNaluMissList seq flash s) :=
  .next (hs.deliver (fun _ h₁ => h₁.missGone.bookMiss.ite h₁))

theorem lateToo {kind point : Nat} : (s.lateToo kind point).MemoriesWf := by
  unfold State.lateToo
  split
  · exact hs
  · refine .ite ?_ hs
    split
    · exact hs.inputLate
    · exact hs

theorem execNaluFinding {seq kind point code : Nat} : CanonicalNext (execNaluFinding seq kind point code s) := by
  unfold Machine.execNaluFinding
  refine .next (hs.deliver (fun _ h₁ => ?_))
  extract_lets _ s1
  have hs1 : s1.MemoriesWf := h₁.modNlk
  split
  · exact h₁.findingEnds
  · exact hs1.lateToo.findingPassed

theorem execNaluFence {seq _cause hard _flash : Nat} : CanonicalNext (execNaluFence seq _cause hard _flash s) :=
  .next (hs.deliver (fun _ h₁ => h₁.modNlk.alone.dropMirrorTables))

theorem execNaluEvent {seq : Nat} {raw : List Byte} : CanonicalNext (execNaluEvent seq raw s) :=
  .next (hs.deliver (fun _ h₁ => h₁.ite h₁.putEvent))

theorem execNaluOutcome {seq : Nat} {record holes : List Byte} :
    CanonicalNext (execNaluOutcome seq record holes s) := by
  unfold Machine.execNaluOutcome
  refine .next (hs.deliver (fun _ h₁ => ?_))
  split
  · exact h₁
  · exact h₁.putRecord.update.modNlk.outcomeArrives

theorem execNaluHoles {seq first : Nat} {holes : List Byte} : CanonicalNext (execNaluHoles seq first holes s) := by
  unfold Machine.execNaluHoles
  refine .next (hs.deliver (fun _ h₁ => ?_))
  split
  · exact h₁.putRecord.modNlk.outcomeArrives.ite h₁
  · exact h₁

/-! ### The operations of Machine/Flags.lean -/

theorem readHeld {a : Nat} : (s.readHeld a).MemoriesWf := hs.update

theorem clearRead {a : Nat} : (s.clearRead a).MemoriesWf := .foldl hs (fun _ _ h₁ => h₁.setReg.ite h₁)

theorem engineStep {a : Nat} : (s.engineStep a).MemoriesWf := hs.scanGoes.ite hs

theorem readLive {a : Nat} : (s.readLive a).MemoriesWf := by
  unfold State.readLive
  extract_lets _ _ s1 s2
  have hs1 : s1.MemoriesWf := hs.engineStep
  have hs2 : s2.MemoriesWf := hs1.update
  split
  · exact hs.update
  · exact hs2.update.ite hs2.clearRead

theorem bar2Read {o : Nat} : (s.bar2Read o).MemoriesWf := by
  unfold State.bar2Read
  refine .ite hs.update ?_
  extract_lets
  exact hs.update.ite (hs.update.ite hs.update)

theorem busRead {a : Nat} : (s.busRead a).MemoriesWf := by
  unfold State.busRead
  extract_lets _ _ s1
  have hs1 : s1.MemoriesWf := hs.fresh
  exact hs.ite (hs.update.ite (hs.bar2Read.ite (hs.update.ite (hs1.update.ite (hs.readHeld.ite hs.readLive)))))

theorem busReadWide {a : Nat} : (s.busReadWide a).MemoriesWf := by
  unfold State.busReadWide
  extract_lets _ s1 s2
  have hs1 : s1.MemoriesWf := hs.busRead
  have hs2 : s2.MemoriesWf := hs1.busRead
  split
  · exact hs.update
  · exact hs2.update

theorem execLatchedLoRead {addr : Nat} {wide : Bool} : CanonicalNext (execLatchedLoRead addr wide s) :=
  .next (hs.busReadWide.ite hs.busRead)

theorem execReadClear {addr : Nat} : CanonicalNext (execReadClear addr s) := .next hs.busRead

/-! ### The operations of Machine/RegWrite.lean -/

theorem putField {a w : Nat} {f : Field} : (s.putField a w f).MemoriesWf := by
  unfold State.putField
  split
  · exact hs.setReg
  · exact hs.setReg.ite hs
  · exact hs

theorem putFields {a w : Nat} : (s.putFields a w).MemoriesWf := .foldl hs (fun _ _ h₁ => h₁.putField)

theorem bistGo {k : Nat} {yields : Bool} : (s.bistGo k yields).MemoriesWf := by
  unfold State.bistGo
  extract_lets _ _ s1 s2
  have hs1 : s1.MemoriesWf := hs.update.saveArea
  have hs2 : s2.MemoriesWf := hs1.wakeBlock.wakeBlock
  exact hs.setReg.ite (hs.setReg.ite (hs.setReg.ite (hs.setReg.ite (hs.bistNotRun.setReg.ite hs2.setReg.setReg))))

theorem mgtWrite {a w : Nat} : (s.mgtWrite a w).MemoriesWf :=
  hs.mgtResetWrite.ite (hs.setReg.thermWarn.ite (hs.pwrReqWrite.ite (hs.protCtrlWrite.ite (hs.ite hs.putFields))))

theorem baseWrite {on : Bool} {al a w : Nat} : (s.baseWrite on al a w).MemoriesWf := hs.ite hs.putFields

theorem eqModWrite {e a w : Nat} : (s.eqModWrite e a w).MemoriesWf := hs.putFields.raiseEq.ite hs.putFields

theorem msixWrite {v a w : Nat} : (s.msixWrite v a w).MemoriesWf := hs.putFields.setReg.raiseVector.ite hs.putFields

theorem hifWrite {a w : Nat} : (s.hifWrite a w).MemoriesWf := by
  unfold State.hifWrite
  extract_lets
  refine .ite hs.baseWrite (.ite hs.hifCtrlWrite (.ite hs.poll ?_))
  refine .ite (hs.sqCfgWrite.ite hs.baseWrite) ?_
  exact .ite (.ite hs.eqCfgWrite (hs.eqModWrite.ite hs.baseWrite)) (hs.msixWrite.ite hs.putFields)

theorem chanCfgWrite {ch w : Nat} : (s.chanCfgWrite ch w).MemoriesWf := by
  unfold State.chanCfgWrite
  extract_lets s1
  have hs1 : s1.MemoriesWf := hs.setReg.setReg.ite hs
  exact hs1.setReg.ite hs1

theorem dmaWrite {a w : Nat} : (s.dmaWrite a w).MemoriesWf := by
  unfold State.dmaWrite
  extract_lets
  exact hs.setReg.ite ((hs.chanCfgWrite.ite ((hs.dmaAbort.ite hs).ite ((hs.dmaRelease.ite hs).ite hs))).ite hs)

theorem flashEpoch : s.flashEpoch.MemoriesWf := hs.setReg.setReg.setReg

theorem linkCtrl {w : Nat} : (s.linkCtrl w).MemoriesWf := hs.linkEnWrite.relatchWrite.ite hs.linkEnWrite

theorem shlWrite {w : Nat} : (s.shlWrite w).MemoriesWf := (hs.setReg.ite hs.setReg.sendSet).linkCtrl

theorem nlkWrite {a w : Nat} : (s.nlkWrite a w).MemoriesWf := by
  unfold State.nlkWrite
  extract_lets s1 _ s2 s3
  have hs1 : s1.MemoriesWf := hs.putFields
  have hs2 : s2.MemoriesWf := hs1.update.ite hs1
  have hs3 : s3.MemoriesWf := hs2.startRejoin.ite hs2
  exact hs3.fenceChip.ite hs3

theorem calWrite {a w : Nat} : (s.calWrite a w).MemoriesWf := by
  unfold State.calWrite
  extract_lets s1
  have hs1 : s1.MemoriesWf := hs.putFields
  exact (hs1.allDue.ite hs1).ite ((hs1.deriveGo.ite hs1).ite (hs1.setReg.ite hs1))

theorem bstWrite {a w : Nat} : (s.bstWrite a w).MemoriesWf := by
  unfold State.bstWrite
  extract_lets s1
  have hs1 : s1.MemoriesWf := hs.putFields
  exact (hs1.bistGo.ite hs1).ite ((hs1.wakeWrite.ite hs1).ite hs1)

theorem pmuCtrlWrite {w : Nat} : (s.pmuCtrlWrite w).MemoriesWf := hs.setReg.update.ite hs.setReg

theorem snapCfgWrite {w : Nat} : (s.snapCfgWrite w).MemoriesWf := by
  unfold State.snapCfgWrite
  extract_lets _ _ s1 s2 s3
  have hs1 : s1.MemoriesWf := hs.ite hs.setReg
  have hs2 : s2.MemoriesWf := hs1.setReg.setReg
  have hs3 : s3.MemoriesWf := hs2.setReg
  exact hs3.update.ite hs3

theorem counterWrite {i w : Nat} : (s.counterWrite i w).MemoriesWf := by
  unfold State.counterWrite
  exact hs.setReg.update

theorem pmuWrite {a w : Nat} : (s.pmuWrite a w).MemoriesWf :=
  hs.pmuCtrlWrite.ite (hs.baseWrite.ite (hs.snapCfgWrite.ite ((hs.snapshot.ite hs).ite (hs.counterWrite.ite hs))))

theorem landed {a w : Nat} : (s.landed a w).MemoriesWf := by
  unfold State.landed
  split
  · exact hs.mgtWrite
  · exact hs.hifWrite
  · exact hs.dmaWrite
  · exact (hs.flashEpoch.ite hs).ite hs.putFields
  · exact hs.shlWrite.ite hs
  · exact hs.nlkWrite.ite hs
  · exact hs.calWrite
  · exact hs.bstWrite
  · exact hs.pmuWrite
  · exact hs.putFields

theorem holdWrite {a : Nat} {w : Word} : (s.holdWrite a w).MemoriesWf := hs.update

theorem busWrite {a : Nat} {w : Word} : (s.busWrite a w).MemoriesWf := by
  unfold State.busWrite
  extract_lets
  exact (hs.ite hs.cfgWrite).ite (hs.ite (hs.holdWrite.ite hs.bistYield.landed))

theorem execRegisterWrite {addr : Nat} {w : Word} : CanonicalNext (execRegisterWrite addr w s) := .next hs.busWrite

theorem execChipReset {w : Word} : CanonicalNext (execChipReset w s) := .next hs.busWrite

theorem execPwrReqWrite {w : Word} : CanonicalNext (execPwrReqWrite w s) := .next hs.busWrite

theorem execBlockLeaveOff {k req : Nat} : CanonicalNext (execBlockLeaveOff k req s) := .next hs.busWrite

theorem execProtStage {w : Word} : CanonicalNext (execProtStage w s) := .next hs.busWrite

theorem execProtCancel {w : Word} : CanonicalNext (execProtCancel w s) := .next hs.busWrite

theorem execDoorbellEnable {w : Word} : CanonicalNext (execDoorbellEnable w s) := .next hs.busWrite

theorem ringWrite {n q a : Nat} {w : Word} : (s.ringWrite n q a w).MemoriesWf := hs.busWrite.ite hs

theorem execSqEnable {q : Nat} {w : Word} : CanonicalNext (execSqEnable q w s) := .next hs.ringWrite

theorem execSqDisable {q : Nat} {w : Word} : CanonicalNext (execSqDisable q w s) := .next hs.ringWrite

theorem execEqEnable {e : Nat} {w : Word} : CanonicalNext (execEqEnable e w s) := .next hs.ringWrite

theorem execDmaAbort {ch : Nat} : CanonicalNext (execDmaAbort ch s) := .next hs.ringWrite

theorem execDmaReleaseHalt {ch : Nat} : CanonicalNext (execDmaReleaseHalt ch s) := .next hs.ringWrite

theorem execFlashCountClear : CanonicalNext (execFlashCountClear s) := .next hs.busWrite

theorem execLinkEnable {w : Word} : CanonicalNext (execLinkEnable w s) := .next hs.busWrite

theorem execLinkDisable {w : Word} : CanonicalNext (execLinkDisable w s) := .next hs.busWrite

theorem execRelatch {w : Word} : CanonicalNext (execRelatch w s) := .next hs.busWrite

theorem execNlkRejoin {w : Word} : CanonicalNext (execNlkRejoin w s) := .next hs.busWrite

theorem execNlkFence {w : Word} : CanonicalNext (execNlkFence w s) := .next hs.busWrite

theorem execCalRunNow {w : Word} : CanonicalNext (execCalRunNow w s) := .next hs.busWrite

theorem execDeriveGo {w : Word} : CanonicalNext (execDeriveGo w s) := .next hs.busWrite

theorem execBistRequest {w : Word} : CanonicalNext (execBistRequest w s) := .next hs.busWrite

theorem execCounterConfig {b k : Nat} {w : Word} : CanonicalNext (execCounterConfig b k w s) := .next hs.ringWrite

theorem execCounterFreeze {w : Word} : CanonicalNext (execCounterFreeze w s) := .next hs.busWrite

theorem execSlotClear {w : Word} : CanonicalNext (execSlotClear w s) := .next hs.busWrite

theorem execSnapshotEnable {w : Word} : CanonicalNext (execSnapshotEnable w s) := .next hs.busWrite

theorem execSnapshotGo : CanonicalNext (execSnapshotGo s) := .next hs.busWrite

theorem execSnapshotPeriod : CanonicalNext (execSnapshotPeriod s) := .next (hs.snapshot.ite hs)

theorem landHeld {held : List (Nat × Word)} : (s.landHeld held).MemoriesWf := .foldl hs (fun _ _ h₁ => h₁.busWrite)

theorem bistEnds {t : BlockTest} {misr count code ms : Nat} : (s.bistEnds t misr count code ms).MemoriesWf := by
  unfold State.bistEnds
  extract_lets _ _ s1
  have hs1 : s1.MemoriesWf := hs.bistJudge.bistOver
  exact hs1.landHeld.snapDue.ite hs1.fresh.enterSafe.snapDue

theorem execBistDone {misr count code ms : Nat} : CanonicalNext (execBistDone misr count code ms s) := by
  unfold Machine.execBistDone
  refine .next ?_
  split
  · exact hs
  · exact hs.ite hs.bistEnds

theorem execBistWatchdog {misr count : Nat} : CanonicalNext (execBistWatchdog misr count s) := by
  unfold Machine.execBistWatchdog
  refine .next ?_
  split
  · exact hs
  · exact hs.bistEnds

theorem testLost : s.testLost.MemoriesWf := by
  unfold State.testLost
  split
  · exact hs
  · exact hs.bistAbort.landHeld.snapDue

theorem execBistPreconditionLoss : CanonicalNext (execBistPreconditionLoss s) := .next hs.testLost

theorem preconditionLost : s.preconditionLost.MemoriesWf := hs.parkNotRun.ite hs.testLost

theorem execRailTrip {rail us : Nat} : CanonicalNext (execRailTrip rail us s) :=
  .next (hs.ite ((hs.preconditionLost.ite hs).enterSafe))

theorem execClockLoss {refclkLost : Bool} : CanonicalNext (execClockLoss refclkLost s) := by
  unfold Machine.execClockLoss
  refine .next ?_
  extract_lets _ s1
  have hs1 : s1.MemoriesWf := hs.update
  exact hs1.preconditionLost.enterSafe.ite hs1

/-! ### The operations of Machine/Tick.lean -/

theorem countPwr {b : Nat} : (s.countPwr b).MemoriesWf := by
  unfold State.countPwr
  split
  · exact hs.count
  · exact hs.count
  · exact hs.count
  · exact hs

theorem sramCorrected {b : Nat} : (s.sramCorrected b).MemoriesWf := hs.fresh.count.ite hs

theorem portFull : s.portFull.2.MemoriesWf := by
  unfold State.portFull
  split
  · exact hs.fresh (w := 1)
  · exact hs

/-- The counters that advance in every cycle of the root clock. -/
theorem cycleCounts :
    ((List.range 16).foldl State.sramCorrected ((List.range 16).foldl State.countPwr s)).MemoriesWf :=
  .foldl (.foldl hs (fun _ _ h₁ => h₁.countPwr)) (fun _ _ h₁ => h₁.sramCorrected)

theorem tick : (tick s).MemoriesWf := by
  unfold Machine.tick
  refine .ite ?_ (.srCommit (hs.cycleCounts.ite hs))
  extract_lets p s1 s2 s3
  have hs1 : s1.MemoriesWf := hs.update.portFull.cycleCounts
  have hs2 : s2.MemoriesWf := .foldl hs1 (fun _ _ h₁ => h₁.count.ite h₁)
  have hs3 : s3.MemoriesWf := .foldl hs2 (fun _ _ h₁ => h₁.slots)
  exact hs3.setReg.ite (hs3.setReg.ite hs3)

/-- Every command keeps the canonical memories: one arm per command, in the order of the table. -/
theorem exec : ∀ c : Instr, CanonicalNext (exec c s)
  | .resetNFall => hs.execResetNFall
  | .resetNRise .. => hs.execResetNRise
  | .railTrip .. => hs.execRailTrip
  | .clockLoss .. => hs.execClockLoss
  | .rootPllLock => hs.execRootPllLock
  | .firmwareImageCheck .. => hs.execFirmwareImageCheck
  | .hbmTraining .. => hs.execHbmTraining
  | .parkRestore .. => hs.execParkRestore
  | .deviceTrimRead => hs.execDeviceTrimRead
  | .fullSelfTest .. => hs.execFullSelfTest
  | .readyReached .. => hs.execReadyReached
  | .perstNFall .. => hs.execPerstNFall
  | .functionLevelReset .. => hs.execFunctionLevelReset
  | .d3hotEntry .. => hs.execD3hotEntry
  | .chipReset .. => hs.execChipReset
  | .parkReqFall => hs.execParkReqFall
  | .parkReqRise => hs.execParkReqRise
  | .sosRise .. => hs.execSosRise
  | .stageOkTimeout => hs.execStageOkTimeout
  | .doorbellPoll .. => hs.execDoorbellPoll
  | .nudge .. => hs.execNudge
  | .doorbellEnable .. => hs.execDoorbellEnable
  | .sqEnable .. => hs.execSqEnable
  | .sqDisable .. => hs.execSqDisable
  | .eqEnable .. => hs.execEqEnable
  | .eventQueueDrain .. => hs.execEventQueueDrain
  | .eqModTimer .. => hs.execEqModTimer
  | .armStripe .. => hs.execArmStripe
  | .abortStripe .. => hs.execAbortStripe
  | .streamBuf .. => hs.execStreamBuf
  | .loadTable .. => hs.execLoadTable
  | .saveTable .. => hs.execSaveTable
  | .compress .. => hs.execCompress
  | .decompress .. => hs.execDecompress
  | .codecJobComplete .. => hs.execCodecJobComplete
  | .codecJobResume .. => hs.execCodecJobResume
  | .scan .. => hs.execScan
  | .scanComplete .. => hs.execScanComplete
  | .witness .. => hs.execWitness
  | .witnessComplete .. => hs.execWitnessComplete
  | .commit .. => hs.execCommit
  | .barrier .. => hs.execBarrier
  | .barrierDone => hs.execBarrierDone
  | .park .. => hs.execPark
  | .protStage .. => hs.execProtStage
  | .protCancel .. => hs.execProtCancel
  | .protStatus .. => hs.execProtStatus
  | .protRead .. => hs.execProtRead
  | .protConfirm .. => hs.execProtConfirm
  | .protRefuse .. => hs.execProtRefuse
  | .protTimeout => hs.execProtTimeout
  | .pwrReqWrite .. => hs.execPwrReqWrite
  | .blockDrainedOff .. => hs.execBlockDrainedOff
  | .blockIdleTimer .. => hs.execBlockIdleTimer
  | .blockNapTimer .. => hs.execBlockNapTimer
  | .blockWake .. => hs.execBlockWake
  | .blockLeaveOff .. => hs.execBlockLeaveOff
  | .registerWrite .. => hs.execRegisterWrite
  | .latchedLoRead .. => hs.execLatchedLoRead
  | .readClear .. => hs.execReadClear
  | .dmaAbort .. => hs.execDmaAbort
  | .dmaReleaseHalt .. => hs.execDmaReleaseHalt
  | .dmaCplTimeout .. => hs.execDmaCplTimeout
  | .dmaCplError .. => hs.execDmaCplError
  | .lateCompletion ch => hs.execLateCompletion (_ch := ch)
  | .descriptorFetch .. => hs.execDescriptorFetch
  | .transferComplete .. => hs.execTransferComplete
  | .azradBlock .. => hs.execAzradBlock
  | .sovisRecord .. => hs.execSovisRecord
  | .templateLineFill .. => hs.execTemplateLineFill
  | .bandRelease => hs.execBandRelease
  | .parserResume => hs.execParserResume
  | .bandRetire => hs.execBandRetire
  | .densityBandDone => hs.execDensityBandDone
  | .blurBandDone => hs.execBlurBandDone
  | .paneSliceDone .. => hs.execPaneSliceDone
  | .paneBufferFree => hs.execPaneBufferFree
  | .recomputeBand => hs.execRecomputeBand
  | .bandCorrected => hs.execBandCorrected
  | .entryStepBegin => hs.execEntryStepBegin
  | .entryStepComplete .. => hs.execEntryStepComplete
  | .repaymentWrite .. => hs.execRepaymentWrite
  | .refreshCredit .. => hs.execRefreshCredit
  | .refreshPay .. => hs.execRefreshPay
  | .stackTempRead .. => hs.execStackTempRead
  | .rfmIssue .. => hs.execRfmIssue
  | .throttleExpire .. => hs.execThrottleExpire
  | .powerDownEntry .. => hs.execPowerDownEntry
  | .selfRefreshRequest => hs.execSelfRefreshRequest
  | .eccCeReport => hs.execEccCeReport
  | .sillFetchDone .. => hs.execSillFetchDone
  | .positionSlot .. => hs.execPositionSlot
  | .enterWaitSos => hs.execEnterWaitSos
  | .stripeArm => hs.execStripeArm
  | .stripeDone => hs.execStripeDone
  | .stripeOutcome => hs.execStripeOutcome
  | .stallTimeout => hs.execStallTimeout
  | .fbHoldExpire => hs.execFbHoldExpire
  | .flashCountClear => hs.execFlashCountClear
  | .linkEnable .. => hs.execLinkEnable
  | .linkDisable .. => hs.execLinkDisable
  | .relatch .. => hs.execRelatch
  | .knockSend => hs.execKnockSend
  | .knockTimeout => hs.execKnockTimeout
  | .knockReply .. => hs.execKnockReply
  | .latchStart => hs.execLatchStart
  | .laneStatus .. => hs.execLaneStatus
  | .latchTimeout => hs.execLatchTimeout
  | .openTimeout => hs.execOpenTimeout
  | .authResponse .. => hs.execAuthResponse
  | .authTimeout => hs.execAuthTimeout
  | .trimAck .. => hs.execTrimAck
  | .trimRetry => hs.execTrimRetry
  | .frameStatus .. => hs.execFrameStatus
  | .frameStatusMissing .. => hs.execFrameStatusMissing
  | .doneStatusWaitExpire => hs.execDoneStatusWaitExpire
  | .backchannelTimeout .. => hs.execBackchannelTimeout
  | .naluHello .. => hs.execNaluHello
  | .naluAck .. => hs.execNaluAck
  | .naluAckTimer => hs.execNaluAckTimer
  | .naluResend .. => hs.execNaluResend
  | .naluLinkLost => hs.execNaluLinkLost
  | .naluLaneDrop .. => hs.execNaluLaneDrop
  | .naluEntry .. => hs.execNaluEntry
  | .naluCommitSet .. => hs.execNaluCommitSet
  | .naluTableChunk .. => hs.execNaluTableChunk
  | .naluFetched .. => hs.execNaluFetched
  | .naluSig .. => hs.execNaluSig
  | .naluRecompute .. => hs.execNaluRecompute
  | .recomputeDone .. => hs.execRecomputeDone
  | .naluResult .. => hs.execNaluResult
  | .voteClose .. => hs.execVoteClose
  | .naluVerdict .. => hs.execNaluVerdict
  | .naluBlock .. => hs.execNaluBlock
  | .naluDecision .. => hs.execNaluDecision
  | .naluMissList .. => hs.execNaluMissList
  | .naluFinding .. => hs.execNaluFinding
  | .naluFence _ cause _ flash => hs.execNaluFence (_cause := cause) (_flash := flash)
  | .naluEvent .. => hs.execNaluEvent
  | .naluOutcome .. => hs.execNaluOutcome
  | .naluHoles .. => hs.execNaluHoles
  | .naluSoloTimeout => hs.execNaluSoloTimeout
  | .nlkRejoin .. => hs.execNlkRejoin
  | .nlkFence .. => hs.execNlkFence
  | .rejoinTimeout => hs.execRejoinTimeout
  | .sensorRead .. => hs.execSensorRead
  | .calRunNow .. => hs.execCalRunNow
  | .calGapOpen => hs.execCalGapOpen
  | .calItemDone .. => hs.execCalItemDone
  | .calGapEnd => hs.execCalGapEnd
  | .calOverdue => hs.execCalOverdue
  | .deriveGo .. => hs.execDeriveGo
  | .deriveDone => hs.execDeriveDone
  | .trimStore .. => hs.execTrimStore
  | .bistRequest .. => hs.execBistRequest
  | .bistDone .. => hs.execBistDone
  | .bistWatchdog .. => hs.execBistWatchdog
  | .bistPreconditionLoss => hs.execBistPreconditionLoss
  | .parkEnter => hs.execParkEnter
  | .parkSaveDone => hs.execParkSaveDone
  | .parkBistDone .. => hs.execParkBistDone
  | .parkWake => hs.execParkWake
  | .counterConfig .. => hs.execCounterConfig
  | .counterFreeze .. => hs.execCounterFreeze
  | .slotClear .. => hs.execSlotClear
  | .snapshotEnable .. => hs.execSnapshotEnable
  | .snapshotGo => hs.execSnapshotGo
  | .snapshotPeriod => hs.execSnapshotPeriod
  | .powerLoss => hs.execPowerLoss
  | .railsUp .. => hs.execRailsUp
  | .selfRefreshReentry => hs.execSelfRefreshReentry

theorem step : CanonicalNext (step s) := by
  unfold Machine.step
  split
  · exact .next hs.tick
  · next c rest _ => exact State.MemoriesWf.exec (s := { s with pending := rest }) hs.update c

end State.MemoriesWf

end Sys2Proof.Machine

end

/-- Settles O4: every operation of the model carries the canonical form along, down to the writes of the three
memories, and each command and the idle cycle is composed of those operations. -/
theorem stepKeepsMemoriesCanonical : Obligations.StepKeepsMemoriesCanonical :=
  fun _ t hs ht => hs.step t ht

/-! ## The state after reset (R10, R14, R54) -/

section

namespace Sys2Proof.Machine

theorem reg_reset (f : Field) : State.reset.reg f = f.reset := Sparse.get_nil _ _

theorem lv_reset (f : Field) : State.reset.lv f = f.reset := Sparse.get_nil _ _

theorem State.MemoriesWf.reset : State.reset.MemoriesWf := ⟨rfl, rfl, rfl⟩

end Sys2Proof.Machine

end

/-- Settles O3: the reset state holds nothing, and both its register files and its memories are empty. -/
theorem resetState : Obligations.ResetState :=
  ⟨rfl, rfl, rfl, rfl, rfl, rfl, rfl, rfl, rfl, rfl,
    fun f => ⟨Sys2Proof.Machine.reg_reset f, Sys2Proof.Machine.lv_reset f⟩, Sys2Proof.Machine.State.MemoriesWf.reset⟩

/-! ## REGISTER_WRITE (R10, R92)

A write that lands acts on the fields of its word (`State.putFields`), through the rules of its window
(`State.landed`). First what a write of one word's fields changes; then, for each register of O32, which fields its word
holds and which write of them its window makes; then the MSI-X vectors, which may send a message besides. -/

section

namespace Sys2Proof.Machine

/-! ### Which fields may differ -/

theorem RegsBut.refl (fs : List Field) (s : State) : RegsBut fs s s := fun _ _ => rfl

theorem RegsBut.trans {fs gs : List Field} {s t u : State} (h : RegsBut fs s t) (k : RegsBut gs t u) :
    RegsBut (fs ++ gs) s u := by
  intro f hf
  simp only [List.map_append, List.mem_append, not_or] at hf
  exact (k f hf.2).trans (h f hf.1)

theorem regsBut_setReg {fs : List Field} {f : Field} (hf : f ∈ fs) (s : State) (v : Nat) :
    RegsBut fs s (s.setReg f v) :=
  fun _ hg => reg_setReg_ne s v fun e => hg (e ▸ List.mem_map_of_mem hf)

theorem SameMemories.trans {s t u : State} (h : SameMemories s t) (k : SameMemories t u) : SameMemories s u :=
  ⟨k.1.trans h.1, k.2.1.trans h.2.1, k.2.2.trans h.2.2⟩

theorem sameMemories_setReg (s : State) (f : Field) (v : Nat) : SameMemories s (s.setReg f v) := ⟨rfl, rfl, rfl⟩

/-! ### A write of the fields of one word -/

variable (s : State)

/-- The one field of a word that stores what is written. -/
theorem putFields_eq_setReg {a : Nat} {f : Field} (h : fieldsAt a = [f]) (access : f.access = .rw) (w : Nat) :
    s.putFields a w = s.setReg f (f.merge a w (s.reg f)) := by
  simp [State.putFields, h, State.putField, access]

theorem putField_w1c {f : Field} (h : f.access = .w1c) (a w : Nat) :
    s.putField a w f = if bit w f.lo then s.setReg f 0 else s := by
  simp [State.putField, h]

theorem merge_of_lo_zero {f : Field} (h : f.lo = 0) (w old : Nat) :
    f.merge f.addr w old = old / 2 ^ min f.width 32 * 2 ^ min f.width 32 + w % 2 ^ min f.width 32 := by
  simp [Field.merge, h, bits]

/-- A field that lies within its word, from bit 0 on, takes the written word cut to its width. -/
theorem merge_mod_width {f : Field} (lo : f.lo = 0) (width : f.width ≤ 32) (w old : Nat) :
    f.merge f.addr w old % 2 ^ f.width = w % 2 ^ f.width := by
  rw [merge_of_lo_zero lo, Nat.min_eq_left width, Nat.mul_add_mod', Nat.mod_mod]

theorem putField_only (a w : Nat) (f : Field) :
    RegsBut [f] s (s.putField a w f) ∧ SameMemories s (s.putField a w f) := by
  have set (v : Nat) : RegsBut [f] s (s.setReg f v) ∧ SameMemories s (s.setReg f v) :=
    ⟨regsBut_setReg (List.mem_singleton_self f) s v, sameMemories_setReg s f v⟩
  have skip : RegsBut [f] s s ∧ SameMemories s s := ⟨.refl _ s, rfl, rfl, rfl⟩
  unfold State.putField
  split
  · exact set _
  · split
    · exact set 0
    · exact skip
  · exact skip

theorem foldl_putField_only (a w : Nat) (fs : List Field) :
    RegsBut fs s (fs.foldl (State.putField a w) s) ∧ SameMemories s (fs.foldl (State.putField a w) s) := by
  induction fs generalizing s with
  | nil => exact ⟨.refl _ s, rfl, rfl, rfl⟩
  | cons f fs ih =>
    obtain ⟨regs, mem⟩ := putField_only s a w f
    obtain ⟨regs', mem'⟩ := ih (s.putField a w f)
    exact ⟨regs.trans regs', mem.trans mem'⟩

/-- A 1 clears a w1c field and a 0 leaves it, each field of the word by its own bit. -/
theorem reg_foldl_putField_w1c (a w : Nat) (fs : List Field) (w1c : ∀ f ∈ fs, f.access = .w1c)
    (keys : (fs.map Field.key).Nodup) (f : Field) (hf : f ∈ fs) :
    (fs.foldl (State.putField a w) s).reg f = if bit w f.lo then 0 else s.reg f := by
  induction fs generalizing s with
  | nil => cases hf
  | cons g fs ih =>
    obtain ⟨hg, keys'⟩ := List.nodup_cons.mp keys
    obtain ⟨first, -⟩ := putField_only s a w g
    obtain rfl | hf := List.mem_cons.mp hf
    · obtain ⟨rest, -⟩ := foldl_putField_only (s.putField a w f) a w fs
      rw [List.foldl_cons, rest f hg, putField_w1c s (w1c f hf)]
      split
      · rw [reg_setReg_same, Nat.zero_mod]
      · rfl
    · have key : f.key ∉ [g].map Field.key := fun e => hg (List.mem_singleton.mp e ▸ List.mem_map_of_mem hf)
      rw [List.foldl_cons, ih _ (fun f h => w1c f (List.mem_cons_of_mem g h)) keys' hf, first f key]

/-! ### A write that lands -/

theorem exec_registerWrite (a : Nat) (w : Word) : exec (.registerWrite a w) s = .next (s.busWrite a w) := rfl

theorem bistYield_of_no_test (h : s.bst.test = none) (uses : Nat → Bool) : s.bistYield uses = s := by
  simp [State.bistYield, h]

/-- With no block under test, a write lands or is discarded. -/
theorem busWrite_of_no_test {a : Nat} (test : s.bst.test = none) (aligned : a % 4 = 0) (bar0 : a < 0x100000)
    (w : Word) : s.busWrite a w = if s.writeLands a then s.landed a w.toNat else s := by
  have word : a / 4 * 4 = a := by omega
  have cfg : ¬ cfgBase ≤ a := by unfold cfgBase; omega
  have holds (uses : Nat → Bool) : s.bistHolds uses = false := by simp [State.bistHolds, test]
  by_cases lands : s.writeLands a
  · rw [if_pos lands]
    obtain ⟨takes, on, -⟩ := lands
    have bar : ¬ 0x100000 ≤ a := Nat.not_le.mpr bar0
    simp [State.busWrite, word, cfg, bar, takes, on, holds, bistYield_of_no_test s test]
  · have discarded : s.takesWrite a = false ∨ s.pwr (a / 0x10000) = .off := by
      by_contra both
      simp only [not_or, Bool.not_eq_false] at both
      exact lands ⟨both.1, both.2, test⟩
    rw [if_neg lands]
    obtain takes | off := discarded
    · simp [State.busWrite, word, cfg, takes]
    · simp [State.busWrite, word, cfg, off]

variable {s} in
theorem busWrite_of_lands {a : Nat} (h : s.writeLands a) (aligned : a % 4 = 0) (bar0 : a < 0x100000) (w : Word) :
    s.busWrite a w = s.landed a w.toNat := by
  rw [busWrite_of_no_test s h.2.2 aligned bar0, if_pos h]

/-- A write that no word of BAR0 takes is discarded. -/
theorem busWrite_of_not_takes {a : Nat} (h : s.takesWrite (a / 4 * 4) = false) (bar : a < cfgBase) (w : Word) :
    s.busWrite a w = s := by
  have cfg : ¬ cfgBase ≤ a / 4 * 4 := by omega
  simp [State.busWrite, cfg, h]

/-- The chip's state takes the words of the HIF's window alike. -/
theorem takesWrite_hif {a : Nat} (lo : 0x10000 ≤ a) (hi : a < 0x20000) : s.takesWrite a = s.takesWrite 0x10000 := by
  have ne (c : Nat) (h : c < 0x10000 ∨ 0x20000 ≤ c) : (a == c) = false := beq_eq_false_iff_ne.mpr (by omega)
  have low : ¬ a < 0x300 := by omega
  have high : ¬ 0xD0000 ≤ a := by omega
  have mirror : mirrorTakes a = mirrorTakes 0x10000 := by
    simp [mirrorTakes, ne 0x20, ne 0x38, ne 0x40, ne 0xB0000, low, high]
  rw [State.takesWrite, State.takesWrite, mirror, ne 0x20 (by decide), ne 0xE0014 (by decide)]
  rfl

variable {s} in
/-- A write to one word of the HIF lands where a write to another does. -/
theorem writeLands_hif {a b : Nat} (ha : 0x10000 ≤ a ∧ a < 0x20000) (hb : 0x10000 ≤ b ∧ b < 0x20000)
    (h : s.writeLands a) : s.writeLands b := by
  obtain ⟨takes, on, test⟩ := h
  have window : b / 0x10000 = a / 0x10000 := by omega
  refine ⟨?_, window ▸ on, test⟩
  rw [takesWrite_hif s hb.1 hb.2, ← takesWrite_hif s ha.1 ha.2, takes]

/-! ### The five commit fields and the read-only word -/

/-- The commit fields that O32 names. -/
abbrev sampleCommitFields : List Field :=
  [PEC_CTRL.ETA, PEC_SCALE.SCALE, HMC_PD.PD_IDLE, EMS_XTOL.XTOL_PU, SCH_DWELL.DWELL_NS]

/-- Each stands alone in its word, from bit 0 on. -/
theorem sampleCommitFields_word : ∀ f ∈ sampleCommitFields,
    fieldsAt f.addr = [f] ∧ f.access = .rw ∧ f.lo = 0 ∧ f.width ≤ 32 ∧ f.addr % 4 = 0 ∧ f.addr < 0x100000 := by
  decide

/-- Their windows have no rule of their own for these words. -/
theorem landed_sampleCommitFields (w : Nat) : ∀ f ∈ sampleCommitFields, s.landed f.addr w = s.putFields f.addr w := by
  simp only [List.forall_mem_cons]
  exact ⟨rfl, rfl, rfl, rfl, rfl, nofun⟩

theorem registerWrite_commitField (w : Word) (f : Field) (hf : f ∈ sampleCommitFields) (lands : s.writeLands f.addr) :
    ∃ t, exec (.registerWrite f.addr w) s = .next t ∧ t.reg f = w.toNat % 2 ^ f.width ∧
      t.live = s.live ∧ RegsBut [f] s t ∧ SameMemories s t ∧ t.hif = s.hif ∧ t.stripe = s.stripe := by
  obtain ⟨word, access, lo, width, aligned, bar0⟩ := sampleCommitFields_word f hf
  refine ⟨s.setReg f (f.merge f.addr w.toNat (s.reg f)), ?_, ?_, rfl,
    regsBut_setReg (List.mem_singleton_self f) s _, sameMemories_setReg s f _, rfl, rfl⟩
  · rw [exec_registerWrite, busWrite_of_lands lands aligned bar0, landed_sampleCommitFields s _ f hf,
      putFields_eq_setReg s word access]
  · rw [reg_setReg_same, merge_mod_width lo width]

/-- No field of MGT_ID takes a write. -/
theorem registerWrite_mgtId (w : Word) (test : s.bst.test = none) :
    exec (.registerWrite MGT_ID.VENDOR.addr w) s = .next s := by
  have ro : s.landed MGT_ID.VENDOR.addr w.toNat = s := rfl
  rw [exec_registerWrite, busWrite_of_no_test s test rfl (by decide), ro, ite_self]

/-- START takes a write to MGT_RESET alone (R60). -/
theorem registerWrite_start (a : Nat) (w : Word) (start : s.g = .start) (other : a / 4 * 4 ≠ 0x20)
    (bar : a < cfgBase) : exec (.registerWrite a w) s = .next s := by
  have takes : s.takesWrite (a / 4 * 4) = false := by simp [State.takesWrite, start, other]
  rw [exec_registerWrite, busWrite_of_not_takes s takes bar]

/-! ### MGT_RESET_CAUSE, DMA_CTRL, MGT_PROT_STAGE, HIF_SQ_BASE -/

theorem registerWrite_resetCause (w : Word) (lands : s.writeLands 0x24) :
    ∃ t, exec (.registerWrite 0x24 w) s = .next t ∧
      (∀ f ∈ resetCauses, t.reg f = if bit w.toNat f.lo then 0 else s.reg f) ∧ RegsBut resetCauses s t ∧
      SameMemories s t := by
  refine ⟨s.putFields 0x24 w.toNat, ?_, ?_⟩
  · rw [exec_registerWrite, busWrite_of_lands lands rfl (by decide)]
    rfl
  · have word : fieldsAt 0x24 = resetCauses := rfl
    rw [State.putFields, word]
    exact ⟨reg_foldl_putField_w1c s 0x24 _ resetCauses (by decide) (by decide),
      foldl_putField_only s 0x24 _ resetCauses⟩

theorem registerWrite_cplTimeout (w : Word) (lands : s.writeLands 0x20000) :
    ∃ t, exec (.registerWrite 0x20000 w) s = .next t ∧
      t.reg DMA_CTRL.CPL_TO_MS = min 64 (max 1 (bits w.toNat 0 7)) ∧ RegsBut [DMA_CTRL.CPL_TO_MS] s t ∧
      SameMemories s t := by
  refine ⟨s.setReg DMA_CTRL.CPL_TO_MS (min 64 (max 1 (bits w.toNat 0 7))), ?_, ?_,
    regsBut_setReg (List.mem_singleton_self _) s _, sameMemories_setReg s _ _⟩
  · rw [exec_registerWrite, busWrite_of_lands lands rfl (by decide)]
    rfl
  · rw [reg_setReg_same]
    exact Nat.mod_eq_of_lt (Nat.lt_of_le_of_lt (Nat.min_le_left _ _) (by decide))

theorem fieldsAt_protStage : ∀ i < 64, fieldsAt (0x200 + 4 * i) = [MGT_PROT_STAGE.DATA i] := by decide

theorem landed_protStage {i : Nat} (hi : i < 64) (w : Nat) :
    s.landed (0x200 + 4 * i) w = if s.protPending then s else s.putFields (0x200 + 4 * i) w := by
  have window : (0x200 + 4 * i) / 0x10000 = 0 := by omega
  have ne (c : Nat) (h : c < 0x200) : 0x200 + 4 * i ≠ c := by omega
  simp [State.landed, window, State.mgtWrite, ne]

theorem registerWrite_protStage (i : Nat) (w : Word) (hi : i < 64) (lands : s.writeLands (0x200 + 4 * i)) :
    (s.protPending = true → exec (.registerWrite (0x200 + 4 * i) w) s = .next s) ∧
    (s.protPending = false → ∃ t, exec (.registerWrite (0x200 + 4 * i) w) s = .next t ∧
      t.reg (MGT_PROT_STAGE.DATA i) = w.toNat ∧ RegsBut [MGT_PROT_STAGE.DATA i] s t ∧ SameMemories s t ∧
      t.prot = s.prot) := by
  rw [exec_registerWrite, busWrite_of_lands lands (by omega) (by omega), landed_protStage s hi]
  refine ⟨fun pending => by rw [if_pos pending], fun idle => ?_⟩
  rw [if_neg (by simp [idle]), putFields_eq_setReg s (fieldsAt_protStage i hi) rfl]
  refine ⟨_, rfl, ?_, regsBut_setReg (List.mem_singleton_self _) s _, sameMemories_setReg s _ _, rfl⟩
  rw [reg_setReg_same]
  exact (merge_mod_width (f := MGT_PROT_STAGE.DATA i) rfl (Nat.le_refl 32) _ _).trans (Nat.mod_eq_of_lt w.isLt)

theorem fieldsAt_sqBase : ∀ q < 64, fieldsAt (0x11000 + 16 * q) = [HIF_SQ_BASE.ADDR q] := by decide

theorem landed_sqBase {q : Nat} (hq : q < 64) (w : Nat) :
    s.landed (0x11000 + 16 * q) w = if s.sqOn q then s else s.putFields (0x11000 + 16 * q) (w / 64 * 64) := by
  have window : (0x11000 + 16 * q) / 0x10000 = 1 := by omega
  have ne (c : Nat) (h : c < 0x11000) : 0x11000 + 16 * q ≠ c := by omega
  have first : ¬ 0x11000 + 16 * q < 0x10008 := by omega
  have last : 0x11000 + 16 * q < 0x11400 := by omega
  have word : (0x11000 + 16 * q) % 16 = 0 := by omega
  have low : (0x11000 + 16 * q) % 8 = 0 := by omega
  simp [State.landed, window, State.hifWrite, State.baseWrite, ne, first, last, word, low]

theorem registerWrite_sqBase (q : Nat) (w : Word) (hq : q < 64) (lands : s.writeLands (0x11000 + 16 * q)) :
    (s.sqOn q = true → exec (.registerWrite (0x11000 + 16 * q) w) s = .next s) ∧
    (s.sqOn q = false → s.reg (HIF_SQ_BASE.ADDR q) < 2 ^ 64 →
      ∃ t, exec (.registerWrite (0x11000 + 16 * q) w) s = .next t ∧
      t.reg (HIF_SQ_BASE.ADDR q) = s.reg (HIF_SQ_BASE.ADDR q) / 2 ^ 32 * 2 ^ 32 + w.toNat / 64 * 64 ∧
      RegsBut [HIF_SQ_BASE.ADDR q] s t ∧ SameMemories s t ∧ t.hif = s.hif) := by
  rw [exec_registerWrite, busWrite_of_lands lands (by omega) (by omega), landed_sqBase s hq]
  refine ⟨fun on => by rw [if_pos on], fun off wide => ?_⟩
  rw [if_neg (by simp [off]), putFields_eq_setReg s (fieldsAt_sqBase q hq) rfl]
  refine ⟨_, rfl, ?_, regsBut_setReg (List.mem_singleton_self _) s _, sameMemories_setReg s _ _, rfl⟩
  have merged : (HIF_SQ_BASE.ADDR q).merge (0x11000 + 16 * q) (w.toNat / 64 * 64) (s.reg (HIF_SQ_BASE.ADDR q)) =
      s.reg (HIF_SQ_BASE.ADDR q) / 2 ^ 32 * 2 ^ 32 + w.toNat / 64 * 64 % 2 ^ 32 := merge_of_lo_zero rfl _ _
  have hw := w.isLt
  rw [reg_setReg_same, merged, show (HIF_SQ_BASE.ADDR q).width = 64 from rfl]
  omega

/-! ### A vector sends the message it holds (R90)

That unmasking a vector sends is log entry 76 of the model. -/

/-- Vector `v` sends its message if it is pending and open. -/
def State.vectorGo (s : State) (v : Nat) : State :=
  if s.reg (MSIX.PENDING v) = 1 && s.vectorOpen v then (s.setReg (MSIX.PENDING v) 0).raiseVector v else s

theorem vectorsGo_eq : s.vectorsGo = (List.range 64).foldl State.vectorGo s := rfl

theorem msixWrite_eq (v a w : Nat) : s.msixWrite v a w = (s.putFields a w).vectorGo v := by
  simp only [State.msixWrite, State.vectorGo, Bool.and_comm]

theorem pendingKey_ne_maskKey (v u : Nat) : (MSIX.PENDING v).key ≠ (MSIX.MASK u).key := by
  simp only [Field.key, MSIX.PENDING, MSIX.MASK]
  omega

theorem pendingKey_inj {v u : Nat} (h : (MSIX.PENDING v).key = (MSIX.PENDING u).key) : v = u := by
  simp only [Field.key, MSIX.PENDING] at h
  omega

@[simp] theorem count_reg (b ev n : Nat) (f : Field) : (s.count b ev n).reg f = s.reg f := by
  unfold State.count
  split <;> rfl

@[simp] theorem count_hif (b ev n : Nat) : (s.count b ev n).hif = s.hif := by
  unfold State.count
  split <;> rfl

@[simp] theorem count_cfg (b ev n : Nat) : (s.count b ev n).cfg = s.cfg := by
  unfold State.count
  split <;> rfl

@[simp] theorem count_host (b ev n : Nat) : (s.count b ev n).host = s.host := by
  unfold State.count
  split <;> rfl

theorem vectorOpen_setReg_pending (v u k : Nat) : (s.setReg (MSIX.PENDING v) k).vectorOpen u = s.vectorOpen u := by
  simp only [State.vectorOpen, setReg_cfg, reg_setReg_ne s k (pendingKey_ne_maskKey v u)]

variable {s} in
/-- A pending vector that is open sends: its pending bit is cleared and the message goes out. -/
theorem vectorGo_of_open {v : Nat} (pending : s.reg (MSIX.PENDING v) = 1) (isOpen : s.vectorOpen v = true) :
    s.vectorGo v = { s.setReg (MSIX.PENDING v) 0 with hif := { s.hif with msi := v :: s.hif.msi } }.count 1 0x13 1 := by
  simp [State.vectorGo, State.raiseVector, pending, isOpen, vectorOpen_setReg_pending]

variable {s} in
theorem hif_vectorGo_of_open {v : Nat} (pending : s.reg (MSIX.PENDING v) = 1) (isOpen : s.vectorOpen v = true) :
    (s.vectorGo v).hif = { s.hif with msi := v :: s.hif.msi } := by
  rw [vectorGo_of_open pending isOpen, count_hif]

variable {s} in
theorem reg_vectorGo_of_open {v : Nat} (pending : s.reg (MSIX.PENDING v) = 1) (isOpen : s.vectorOpen v = true)
    (f : Field) : (s.vectorGo v).reg f = (s.setReg (MSIX.PENDING v) 0).reg f := by
  rw [vectorGo_of_open pending isOpen, count_reg]
  rfl

variable {s} in
theorem vectorGo_of_not {v : Nat} (h : ¬(s.vectorOpen v = true ∧ s.reg (MSIX.PENDING v) = 1)) : s.vectorGo v = s := by
  rw [and_comm] at h
  simp [State.vectorGo, h]

/-- The vectors `vs` may have sent, and but for counters nothing else has changed. -/
structure VectorsSend (vs : List Nat) (s t : State) : Prop where
  cfg : t.cfg = s.cfg
  memories : SameMemories s t
  regs : RegsBut (vs.map MSIX.PENDING) s t
  msi : s.hif.msi ⊆ t.hif.msi

theorem VectorsSend.refl (vs : List Nat) : VectorsSend vs s s := ⟨rfl, ⟨rfl, rfl, rfl⟩, .refl _ s, fun _ h => h⟩

namespace VectorsSend

variable {s} {t u : State} {vs ws : List Nat} {v : Nat}

theorem trans (h : VectorsSend vs s t) (k : VectorsSend ws t u) : VectorsSend (vs ++ ws) s u where
  cfg := k.cfg.trans h.cfg
  memories := h.memories.trans k.memories
  regs := List.map_append ▸ h.regs.trans k.regs
  msi := List.Subset.trans h.msi k.msi

theorem vectorOpen (h : VectorsSend vs s t) (v : Nat) : t.vectorOpen v = s.vectorOpen v := by
  have mask : (MSIX.MASK v).key ∉ (vs.map MSIX.PENDING).map Field.key := by
    simp only [List.map_map, List.mem_map, not_exists, not_and]
    exact fun u _ e => pendingKey_ne_maskKey u v e
  simp only [State.vectorOpen, h.cfg, h.regs _ mask]

theorem pending (h : VectorsSend vs s t) (hv : v ∉ vs) : t.reg (MSIX.PENDING v) = s.reg (MSIX.PENDING v) := by
  refine h.regs _ ?_
  simp only [List.map_map, List.mem_map, not_exists, not_and]
  exact fun u hu e => hv (pendingKey_inj e ▸ hu)

theorem vectorGo (s : State) (v : Nat) : VectorsSend [v] s (s.vectorGo v) := by
  by_cases h : s.vectorOpen v = true ∧ s.reg (MSIX.PENDING v) = 1
  · have sends := vectorGo_of_open h.2 h.1
    exact {
      cfg := sends ▸ count_cfg ..
      memories := sends ▸ ⟨count_host .., count_hbm .., count_flash ..⟩
      regs := fun f hf =>
        (reg_vectorGo_of_open h.2 h.1 f).trans (regsBut_setReg (List.mem_singleton_self _) s 0 f hf)
      msi := by rw [hif_vectorGo_of_open h.2 h.1]; exact List.subset_cons_self v s.hif.msi }
  · rw [vectorGo_of_not h]
    exact .refl s [v]

theorem foldl (vs : List Nat) (s : State) : VectorsSend vs s (vs.foldl State.vectorGo s) := by
  induction vs generalizing s with
  | nil => exact .refl s []
  | cons v vs ih => exact (vectorGo s v).trans (ih _)

end VectorsSend

/-- From `s` to `t` vector `v` has sent the message it held if it is open, and still holds it otherwise. -/
structure VectorSent (v : Nat) (s t : State) : Prop where
  sent : t.vectorOpen v = true ∧ s.reg (MSIX.PENDING v) = 1 → t.reg (MSIX.PENDING v) = 0 ∧ v ∈ t.hif.msi
  kept : ¬(t.vectorOpen v = true ∧ s.reg (MSIX.PENDING v) = 1) → t.reg (MSIX.PENDING v) = s.reg (MSIX.PENDING v)

theorem vectorSent_vectorGo (v : Nat) : VectorSent v s (s.vectorGo v) := by
  have isOpen := (VectorsSend.vectorGo s v).vectorOpen v
  constructor
  · rintro ⟨go, pending⟩
    rw [isOpen] at go
    rw [reg_vectorGo_of_open pending go, hif_vectorGo_of_open pending go]
    exact ⟨reg_setReg_same s _ 0, List.mem_cons_self⟩
  · intro h
    rw [isOpen] at h
    rw [vectorGo_of_not h]

/-- What other vectors send, before or after, does not take a vector's message back. -/
theorem VectorSent.of_send_after {v : Nat} {vs : List Nat} {s t u : State} (h : VectorSent v s t)
    (k : VectorsSend vs t u) (hv : v ∉ vs) : VectorSent v s u := by
  constructor <;> rw [k.vectorOpen, k.pending hv]
  · exact fun c => ⟨(h.sent c).1, k.msi (h.sent c).2⟩
  · exact h.kept

theorem VectorSent.of_send_before {v : Nat} {vs : List Nat} {s t u : State} (h : VectorSent v t u)
    (k : VectorsSend vs s t) (hv : v ∉ vs) : VectorSent v s u := by
  constructor <;> rw [← k.pending hv]
  · exact h.sent
  · exact h.kept

theorem vectorSent_foldl (vs : List Nat) (nodup : vs.Nodup) (v : Nat) (hv : v ∈ vs) :
    VectorSent v s (vs.foldl State.vectorGo s) := by
  induction vs generalizing s with
  | nil => cases hv
  | cons u vs ih =>
    obtain ⟨hu, nodup'⟩ := List.nodup_cons.mp nodup
    obtain rfl | hv := List.mem_cons.mp hv
    · exact (vectorSent_vectorGo s v).of_send_after (.foldl vs _) hu
    · have ne : v ∉ [u] := fun e => hu (List.mem_singleton.mp e ▸ hv)
      exact (ih _ nodup' hv).of_send_before (.vectorGo s u) ne

/-! ### The MSI-X table -/

theorem fieldsAt_msixData : ∀ v < 64, fieldsAt (0x18008 + 16 * v) = [MSIX.DATA v] := by decide

theorem fieldsAt_msixMask : ∀ v < 64, fieldsAt (0x1800C + 16 * v) = [MSIX.MASK v] := by decide

theorem landed_msix {v : Nat} (hv : v < 64) {o : Nat} (ho : o < 16) (w : Nat) :
    s.landed (0x18000 + o + 16 * v) w = (s.putFields (0x18000 + o + 16 * v) w).vectorGo v := by
  have window : (0x18000 + o + 16 * v) / 0x10000 = 1 := by omega
  have vector : (0x18000 + o + 16 * v - 0x18000) / 16 = v := by omega
  have table : 0x18000 ≤ 0x18000 + o + 16 * v ∧ 0x18000 + o + 16 * v < 0x18400 := by omega
  have lower : ¬ 0x18000 + o + 16 * v < 0x12100 := by omega
  have first : ¬ 0x18000 + o + 16 * v < 0x11400 := by omega
  have page : ¬ 0x18000 + o + 16 * v < 0x10008 := by omega
  have ne (c : Nat) (h : c < 0x18000) : 0x18000 + o + 16 * v ≠ c := by omega
  rw [← msixWrite_eq]
  simp only [State.landed, window, State.hifWrite, vector, table, lower, first, page, ne 0x10008 (by decide),
    ne 0x1000C (by decide), and_false, and_self, if_true, if_false]

/-- Word `o` of vector `v`'s entry of the MSI-X table holds the one field `f`: it is stored, and the vector sends if it
may. -/
theorem registerWrite_msix {v o : Nat} {f : Field} (hv : v < 64) (ho : o < 16) (aligned : o % 4 = 0)
    (word : fieldsAt (0x18000 + o + 16 * v) = [f]) (access : f.access = .rw) (w : Word)
    (lands : s.writeLands (0x18000 + 16 * v)) :
    exec (.registerWrite (0x18000 + o + 16 * v) w) s =
      .next ((s.setReg f (f.merge (0x18000 + o + 16 * v) w.toNat (s.reg f))).vectorGo v) := by
  have lands' : s.writeLands (0x18000 + o + 16 * v) := writeLands_hif (by omega) (by omega) lands
  rw [exec_registerWrite, busWrite_of_lands lands' (by omega) (by omega), landed_msix s hv ho,
    putFields_eq_setReg s word access]

theorem registerWrite_msixData (v : Nat) (w : Word) (hv : v < 64) (lands : s.writeLands (0x18000 + 16 * v))
    (quiet : s.vectorOpen v = false ∨ s.reg (MSIX.PENDING v) = 0) :
    ∃ t, exec (.registerWrite (0x18008 + 16 * v) w) s = .next t ∧ t.reg (MSIX.DATA v) = w.toNat ∧
      RegsBut [MSIX.DATA v] s t ∧ SameMemories s t ∧ t.hif = s.hif := by
  have masks : (MSIX.DATA v).key ≠ (MSIX.MASK v).key := by simp only [Field.key, MSIX.DATA, MSIX.MASK]; omega
  have pends : (MSIX.DATA v).key ≠ (MSIX.PENDING v).key := by simp only [Field.key, MSIX.DATA, MSIX.PENDING]; omega
  have sends (k : Nat) : (s.setReg (MSIX.DATA v) k).vectorGo v = s.setReg (MSIX.DATA v) k := by
    refine vectorGo_of_not ?_
    rw [State.vectorOpen, setReg_cfg, reg_setReg_ne s k masks, reg_setReg_ne s k pends]
    rintro ⟨isOpen, pending⟩
    obtain closed | idle := quiet
    · exact Bool.false_ne_true (closed.symm.trans isOpen)
    · exact absurd (idle.symm.trans pending) (by decide)
  refine ⟨s.setReg (MSIX.DATA v) ((MSIX.DATA v).merge (MSIX.DATA v).addr w.toNat (s.reg (MSIX.DATA v))), ?_, ?_,
    regsBut_setReg (List.mem_singleton_self _) s _, sameMemories_setReg s _ _, rfl⟩
  · rw [← sends]
    exact registerWrite_msix s hv (o := 8) (by decide) rfl (fieldsAt_msixData v hv) rfl w lands
  · rw [reg_setReg_same, merge_mod_width rfl (Nat.le_refl 32)]
    exact Nat.mod_eq_of_lt w.isLt

/-- A vector whose mask has just been written as bit 0 of `w` is open if that bit is 0 and the function lets it send. -/
theorem vectorOpen_of_mask {v w : Nat} (mask : s.reg (MSIX.MASK v) = bits w 0 1) :
    s.vectorOpen v = true ↔ s.cfg.msixOn = true ∧ s.cfg.msixMask = false ∧ bit w 0 = false := by
  have low : bits w 0 1 = 0 ↔ bit w 0 = false := by
    simp only [bits, bit, Nat.testBit_zero, decide_eq_false_iff_not, Nat.pow_zero, Nat.div_one, Nat.pow_one]
    omega
  simp only [State.vectorOpen, mask, Bool.and_eq_true, Bool.not_eq_true', beq_iff_eq, low, and_assoc]

theorem registerWrite_msixMask (v : Nat) (w : Word) (hv : v < 64) (lands : s.writeLands (0x18000 + 16 * v)) :
    ∃ t, exec (.registerWrite (0x1800C + 16 * v) w) s = .next t ∧ t.reg (MSIX.MASK v) = bits w.toNat 0 1 ∧
      RegsBut [MSIX.MASK v, MSIX.PENDING v] s t ∧ SameMemories s t ∧
      (if s.cfg.msixOn = true ∧ s.cfg.msixMask = false ∧ bit w.toNat 0 = false ∧ s.reg (MSIX.PENDING v) = 1
        then t.reg (MSIX.PENDING v) = 0 ∧ t.hif.msi = v :: s.hif.msi
        else t.reg (MSIX.PENDING v) = s.reg (MSIX.PENDING v) ∧ t.hif = s.hif) := by
  generalize hstored :
    s.setReg (MSIX.MASK v) ((MSIX.MASK v).merge (MSIX.MASK v).addr w.toNat (s.reg (MSIX.MASK v))) = stored
  have only : RegsBut [MSIX.MASK v] s stored := hstored ▸ regsBut_setReg (List.mem_singleton_self _) s _
  have mask : stored.reg (MSIX.MASK v) = bits w.toNat 0 1 := by
    rw [← hstored, reg_setReg_same, merge_mod_width rfl (by decide : 1 ≤ 32)]
    simp [bits, MSIX.MASK]
  have pending : stored.reg (MSIX.PENDING v) = s.reg (MSIX.PENDING v) := by
    rw [← hstored, reg_setReg_ne s _ (pendingKey_ne_maskKey v v).symm]
  have sends := VectorsSend.vectorGo stored v
  have isOpen :
      stored.vectorOpen v = true ↔ s.cfg.msixOn = true ∧ s.cfg.msixMask = false ∧ bit w.toNat 0 = false := by
    rw [vectorOpen_of_mask stored mask, ← hstored, setReg_cfg]
  refine ⟨stored.vectorGo v, ?_, ?_, only.trans sends.regs, ?_, ?_⟩
  · rw [← hstored]
    exact registerWrite_msix s hv (o := 12) (by decide) rfl (fieldsAt_msixMask v hv) rfl w lands
  · rw [← mask]
    exact sends.regs _ fun e => pendingKey_ne_maskKey v v (List.mem_singleton.mp e).symm
  · exact (hstored ▸ sameMemories_setReg s _ _ : SameMemories s stored).trans sends.memories
  · split
    · next h =>
      obtain ⟨on, unmasked, opened, held⟩ := h
      have go := isOpen.mpr ⟨on, unmasked, opened⟩
      rw [reg_vectorGo_of_open (pending.trans held) go, hif_vectorGo_of_open (pending.trans held) go, ← hstored]
      exact ⟨reg_setReg_same _ _ 0, rfl⟩
    · next h =>
      rw [vectorGo_of_not fun go => h (by simpa [and_assoc] using And.intro (isOpen.mp go.1) (pending ▸ go.2)), pending]
      exact ⟨rfl, hstored ▸ rfl⟩

/-! ### Configuration space -/

theorem registerWrite_cfg {o : Nat} (ho : o % 4 = 0) (w : Word) (on : s.g ≠ .off) :
    exec (.registerWrite (cfgBase + o) w) s = .next (s.cfgWrite o w.toNat) := by
  have word : (cfgBase + o) / 4 * 4 = cfgBase + o := by unfold cfgBase; omega
  rw [exec_registerWrite]
  simp [State.busWrite, word, on]

/-- The identity takes no write (R65). -/
theorem registerWrite_identity (w : Word) (on : s.g ≠ .off) : exec (.registerWrite cfgBase w) s = .next s :=
  registerWrite_cfg s (o := 0) rfl w on

theorem registerWrite_command (w : Word) (on : s.g ≠ .off) :
    exec (.registerWrite (cfgBase + 0x04) w) s =
      .next { s with cfg := { s.cfg with command := w.toNat &&& 0x546 } } :=
  registerWrite_cfg s rfl w on

theorem registerWrite_uncStatus (w : Word) (on : s.g ≠ .off) :
    ∃ t, exec (.registerWrite (cfgBase + 0x104) w) s = .next t ∧ { t with cfg := s.cfg } = s ∧
      { t.cfg with uncStatus := s.cfg.uncStatus } = s.cfg ∧
      ∀ j, bit t.cfg.uncStatus j = (bit s.cfg.uncStatus j && !bit w.toNat j) := by
  refine ⟨_, registerWrite_cfg s rfl w on, rfl, rfl, fun j => ?_⟩
  change (s.cfg.uncStatus ^^^ (s.cfg.uncStatus &&& w.toNat)).testBit j = _
  rw [Nat.testBit_xor, Nat.testBit_and, bit, bit]
  cases s.cfg.uncStatus.testBit j
  · rfl
  · rw [Bool.true_xor, Bool.true_and, Bool.true_and]

/-- MSI-X control is stored, and then every vector that may send does. -/
theorem cfgWrite_msixControl (w : Nat) : s.cfgWrite 0x90 w =
    (List.range 64).foldl State.vectorGo { s with cfg := { s.cfg with msixMask := bit w 30, msixOn := bit w 31 } } := by
  rw [← vectorsGo_eq]
  rfl

theorem registerWrite_msixControl (w : Word) (on : s.g ≠ .off) :
    ∃ t, exec (.registerWrite (cfgBase + 0x90) w) s = .next t ∧
      t.cfg = { s.cfg with msixMask := bit w.toNat 30, msixOn := bit w.toNat 31 } ∧
      RegsBut ((List.range 64).map MSIX.PENDING) s t ∧ SameMemories s t ∧
      ∀ v < 64, if t.vectorOpen v = true ∧ s.reg (MSIX.PENDING v) = 1
        then t.reg (MSIX.PENDING v) = 0 ∧ v ∈ t.hif.msi else t.reg (MSIX.PENDING v) = s.reg (MSIX.PENDING v) := by
  rw [registerWrite_cfg s rfl w on, cfgWrite_msixControl]
  generalize hctl : { s with cfg := { s.cfg with msixMask := bit w.toNat 30, msixOn := bit w.toNat 31 } } = ctl
  have sends := VectorsSend.foldl (List.range 64) ctl
  have sent (v : Nat) (hv : v < 64) := vectorSent_foldl ctl (List.range 64) List.nodup_range v (List.mem_range.mpr hv)
  generalize (List.range 64).foldl State.vectorGo ctl = t at sends sent ⊢
  subst hctl
  refine ⟨t, rfl, sends.cfg, sends.regs, sends.memories, fun v hv => ?_⟩
  split
  · next c => exact (sent v hv).sent c
  · next c => exact (sent v hv).kept c

end Sys2Proof.Machine

end

/-- Settles O32: each clause is the lemma about its register. -/
theorem registerWriteIsStaged : Obligations.RegisterWriteIsStaged :=
  ⟨Sys2Proof.Machine.registerWrite_commitField,
    Sys2Proof.Machine.registerWrite_mgtId,
    Sys2Proof.Machine.registerWrite_start,
    Sys2Proof.Machine.registerWrite_resetCause,
    Sys2Proof.Machine.registerWrite_cplTimeout,
    Sys2Proof.Machine.registerWrite_protStage,
    Sys2Proof.Machine.registerWrite_sqBase,
    fun s v w hv lands => ⟨Sys2Proof.Machine.registerWrite_msixData s v w hv lands,
      Sys2Proof.Machine.registerWrite_msixMask s v w hv lands⟩,
    fun s w on => ⟨Sys2Proof.Machine.registerWrite_identity s w on, Sys2Proof.Machine.registerWrite_command s w on,
      Sys2Proof.Machine.registerWrite_uncStatus s w on, Sys2Proof.Machine.registerWrite_msixControl s w on⟩⟩

/-! ## What events, requests and jobs leave (R76, R87 to R91, R112, R418)

`State.calm` forgets what an event, a completion, a request that starts or stops, a snapshot or a job may change: the
register fields, the three memories, the host interface, the Nalu link, the power states, the channels and engines, the
data path, the counters. `Calm s t` says that `t` differs from `s` in these alone, and that EMS_STATE.CAUSE stands. One
lemma per operation; they compose by `Calm.trans`. -/

section

namespace Sys2Proof.Machine

/-- The state without what events, requests and jobs may change. -/
def State.calm (s : State) : State :=
  { s with regs := [], free := 0, host := [], hbm := [], flash := [], hif := .reset, nlk := .reset, power := []
           chans := [], cdc := .reset, scans := [], scanWait := [], prs := .reset, csm := .reset, pec := .reset
           hmc := .reset, bst := .reset, pmu := .reset, lastOutcome := [] }

/-- `t` is `s` but for what events, requests and jobs may change; the cause of the last stripe stands. -/
structure Calm (s t : State) : Prop where
  calm : t.calm = s.calm
  cause : t.reg EMS_STATE.CAUSE = s.reg EMS_STATE.CAUSE

namespace Calm

variable {s t u : State}

theorem refl (s : State) : Calm s s := ⟨rfl, rfl⟩

theorem trans (h : Calm s t) (k : Calm t u) : Calm s u := ⟨k.calm.trans h.calm, k.cause.trans h.cause⟩

theorem ite {c : Prop} [Decidable c] (h : c → Calm s t) (k : ¬c → Calm s u) : Calm s (if c then t else u) := by
  split
  · next e => exact h e
  · next e => exact k e

theorem foldl {α : Type} {f : State → α → State} (hf : ∀ s a, Calm s (f s a)) (l : List α) :
    ∀ s, Calm s (l.foldl f s) := by
  induction l with
  | nil => exact refl
  | cons a l ih => exact fun s => (hf s a).trans (ih _)

/-- An event may change less than a job. -/
theorem of_quiet (h : t.quiet = s.quiet) (k : RegsButHif [] s t) : Calm s t :=
  ⟨(congrArg State.calm h :), k _ (List.not_mem_nil) (by decide)⟩

/-- An update of the fields that `State.calm` forgets, but for the register fields. -/
theorem update {free host hbm flash hif nlk power chans cdc scans scanWait prs csm pec hmc bst pmu lastOutcome} :
    Calm s { s with free, host, hbm, flash, hif, nlk, power, chans, cdc, scans, scanWait, prs, csm, pec, hmc, bst, pmu,
                    lastOutcome } :=
  ⟨rfl, rfl⟩

theorem g (h : Calm s t) : t.g = s.g := (congrArg State.g h.calm :)
theorem aon (h : Calm s t) : t.aon = s.aon := (congrArg State.aon h.calm :)
theorem fence (h : Calm s t) : t.fence = s.fence := (congrArg State.fence h.calm :)
theorem stripe (h : Calm s t) : t.stripe = s.stripe := (congrArg State.stripe h.calm :)
theorem live (h : Calm s t) : t.live = s.live := (congrArg State.live h.calm :)
theorem tabLive (h : Calm s t) : t.tabLive = s.tabLive := (congrArg State.tabLive h.calm :)
theorem tabStaged (h : Calm s t) : t.tabStaged = s.tabStaged := (congrArg State.tabStaged h.calm :)
theorem commits (h : Calm s t) : t.commits = s.commits := (congrArg State.commits h.calm :)

end Calm

variable (s : State)

/-! ### Events change registers of the HIF alone -/

theorem RegsButHif.refl (fs : List Field) : RegsButHif fs s s := fun _ _ _ => rfl

theorem RegsButHif.trans {fs : List Field} {s t u : State} (h : RegsButHif fs s t) (k : RegsButHif fs t u) :
    RegsButHif fs s u :=
  fun f hf hb => (k f hf hb).trans (h f hf hb)

theorem RegsButHif.ite {fs : List Field} {s t u : State} {c : Prop} [Decidable c] (h : RegsButHif fs s t)
    (k : RegsButHif fs s u) : RegsButHif fs s (if c then t else u) := by
  split
  · exact h
  · exact k

theorem RegsButHif.of_regs {fs : List Field} {s t : State} (h : t.regs = s.regs) : RegsButHif fs s t :=
  fun f _ _ => by rw [State.reg, State.reg, h]

/-- A field of the HIF's window is set. -/
theorem regsButHif_setReg {f : Field} (hf : keyBlock f.key = 1) (fs : List Field) (v : Nat) :
    RegsButHif fs s (s.setReg f v) :=
  fun _ _ hg => reg_setReg_ne s v fun e => hg (e ▸ hf)

theorem keyBlock_pending {v : Nat} (h : v < 64) : keyBlock (MSIX.PENDING v).key = 1 := by
  simp only [keyBlock, Field.key, MSIX.PENDING]
  omega

theorem regsButHif_count (fs : List Field) (b ev n : Nat) : RegsButHif fs s (s.count b ev n) :=
  fun f _ _ => count_reg s b ev n f

theorem regsButHif_raiseEq (fs : List Field) (e : Nat) : RegsButHif fs s (s.raiseEq e) := by
  have vector : s.reg (HIF_EQ_CFG.VECTOR e) % 64 < 64 := Nat.mod_lt _ (by decide)
  unfold State.raiseEq State.raiseVector
  exact .ite (regsButHif_setReg (s.modEvRing e _) (keyBlock_pending vector) fs 1) (regsButHif_count _ fs _ _ _)

theorem count_regs (b ev n : Nat) : (s.count b ev n).regs = s.regs := by
  unfold State.count
  split <;> rfl

theorem regsButHif_writeEvent (fs : List Field) (e : Nat) (ev : Event) : RegsButHif fs s (s.writeEvent e ev) := by
  unfold State.writeEvent
  simp only []
  generalize (if ev.sq = 0xFF then 0 else (s.ring ev.sq).cons) = cons
  split
  · refine RegsButHif.trans (.of_regs ?_) (regsButHif_raiseEq _ fs e)
    rw [count_regs, count_regs, modEvRing_regs]
  · refine .of_regs ?_
    rw [count_regs, count_regs, modEvRing_regs]

theorem regsButHif_holdEvent (fs : List Field) (e : Nat) (ev : Event) : RegsButHif fs s (s.holdEvent e ev) := by
  unfold State.holdEvent
  exact .ite (regsButHif_setReg s (by decide) fs _) (.refl s fs)

theorem regsButHif_putEvent (fs : List Field) (e : Nat) (ev : Event) : RegsButHif fs s (s.putEvent e ev) := by
  unfold State.putEvent
  exact .ite (regsButHif_writeEvent s fs e ev) (regsButHif_holdEvent s fs e ev)

@[simp] theorem wakeBlock_regs (k : Nat) : (s.wakeBlock k).regs = s.regs := by
  unfold State.wakeBlock
  split
  · rw [count_regs, setPwr_regs]
  · split <;> rfl

@[simp] theorem naluSend_regs (m : NaluMsg) : (s.naluSend m).regs = s.regs := by
  unfold State.naluSend
  split
  · rw [wakeBlock_regs, count_regs]
  · rfl

theorem regsButHif_postDev (fs : List Field) (code status info d0 d1 : Nat) :
    RegsButHif fs s (s.postDev code status info d0 d1) := by
  unfold State.postDev
  extract_lets ev c
  have counted : RegsButHif fs s c := regsButHif_count s fs _ _ _
  split
  · exact .refl s fs
  · exact .refl s fs
  · exact .ite (counted.trans (.refl c fs)) (counted.trans (regsButHif_setReg c (by decide) fs _))
  · exact .ite (.ite (counted.trans (.of_regs (naluSend_regs c _))) (counted.trans (regsButHif_holdEvent c fs _ _)))
      (counted.trans (regsButHif_putEvent c fs _ _))

theorem regsButHif_postOnce (fs : List Field) (code status info d0 d1 : Nat) :
    RegsButHif fs s (s.postOnce code status info d0 d1) := by
  unfold State.postOnce
  exact .ite (.refl s fs) (regsButHif_postDev s fs _ _ _ _ _)

theorem regsButHif_complete (fs : List Field) (q idx status info d0 d1 : Nat) :
    RegsButHif fs s (s.complete q idx status info d0 d1) := by
  unfold State.complete
  split
  · exact .refl s fs
  · exact .ite (regsButHif_putEvent (s.dropEntry q idx) fs _ _) (.refl s fs)

/-! ### Counting, waking, sending, posting -/

theorem calm_setReg {f : Field} (hf : f.key ≠ EMS_STATE.CAUSE.key) (v : Nat) : Calm s (s.setReg f v) :=
  ⟨rfl, reg_setReg_ne s v hf⟩

theorem calm_addReg {f : Field} (hf : f.key ≠ EMS_STATE.CAUSE.key) (n : Nat) : Calm s (s.addReg f n) :=
  calm_setReg s hf _

theorem calm_fresh (w : Nat) : Calm s (s.fresh w).2 := ⟨rfl, rfl⟩
theorem calm_modRing (q : Nat) (f : SubRing → SubRing) : Calm s (s.modRing q f) := ⟨rfl, rfl⟩
theorem calm_modEvRing (e : Nat) (f : EvRing → EvRing) : Calm s (s.modEvRing e f) := ⟨rfl, rfl⟩
theorem calm_modChan (ch : Nat) (f : Chan → Chan) : Calm s (s.modChan ch f) := ⟨rfl, rfl⟩
theorem calm_dropEntry (q idx : Nat) : Calm s (s.dropEntry q idx) := ⟨rfl, rfl⟩
theorem calm_startEntry (q idx : Nat) : Calm s (s.startEntry q idx) := ⟨rfl, rfl⟩
theorem calm_setPwr (k : Nat) (p : PwrState) : Calm s (s.setPwr k p) := ⟨rfl, rfl⟩

theorem calm_count (b ev n : Nat) : Calm s (s.count b ev n) := by
  unfold State.count
  exact .ite (fun _ => ⟨rfl, rfl⟩) (fun _ => .refl s)

theorem calm_slots (st c n : Nat) : Calm s (s.slots st c n) := by
  unfold State.slots
  exact .ite (fun _ => ⟨rfl, rfl⟩) (fun _ => .refl s)

theorem calm_wakeBlock (k : Nat) : Calm s (s.wakeBlock k) := by
  unfold State.wakeBlock
  exact .ite (fun _ => (calm_setPwr s k .run).trans (calm_count _ _ _ _))
    (fun _ => .ite (fun _ => calm_setPwr s k .run) (fun _ => .refl s))

theorem calm_wakeBlocks (p : Nat → Bool) : Calm s (s.wakeBlocks p) :=
  .foldl (fun s k => .ite (fun _ => calm_wakeBlock s k) (fun _ => .refl s)) _ s

theorem calm_naluSend (m : NaluMsg) : Calm s (s.naluSend m) :=
  .of_quiet (naluSend_quiet s m) (.of_regs (naluSend_regs s m))

theorem calm_raiseEq (e : Nat) : Calm s (s.raiseEq e) := .of_quiet (raiseEq_quiet s e) (regsButHif_raiseEq s [] e)

theorem calm_putEvent (e : Nat) (ev : Event) : Calm s (s.putEvent e ev) :=
  .of_quiet (putEvent_quiet s e ev) (regsButHif_putEvent s [] e ev)

theorem calm_writeEvent (e : Nat) (ev : Event) : Calm s (s.writeEvent e ev) :=
  .of_quiet (writeEvent_quiet s e ev) (regsButHif_writeEvent s [] e ev)

theorem calm_postDev (code status info d0 d1 : Nat) : Calm s (s.postDev code status info d0 d1) :=
  .of_quiet (postDev_quiet s code status info d0 d1) (regsButHif_postDev s [] code status info d0 d1)

theorem calm_postOnce (code status info d0 d1 : Nat) : Calm s (s.postOnce code status info d0 d1) :=
  .of_quiet (postOnce_quiet s code status info d0 d1) (regsButHif_postOnce s [] code status info d0 d1)

theorem calm_complete (q idx status info d0 d1 : Nat) : Calm s (s.complete q idx status info d0 d1) :=
  .of_quiet (complete_quiet s q idx status info d0 d1) (regsButHif_complete s [] q idx status info d0 d1)

/-! ### Tests, snapshots -/

theorem resultKey_ne_cause (k : Nat) :
    (BST_RESULT.STATUS k).key ≠ EMS_STATE.CAUSE.key ∧ (BST_RESULT.CODE k).key ≠ EMS_STATE.CAUSE.key ∧
    (BST_RESULT.KIND k).key ≠ EMS_STATE.CAUSE.key ∧ (BST_RESULT.RUNS k).key ≠ EMS_STATE.CAUSE.key ∧
    (BST_SIG.SIG k).key ≠ EMS_STATE.CAUSE.key ∧ (BST_COUNT.COUNT k).key ≠ EMS_STATE.CAUSE.key := by
  simp only [Field.key, BST_RESULT.STATUS, BST_RESULT.CODE, BST_RESULT.KIND, BST_RESULT.RUNS, BST_SIG.SIG,
    BST_COUNT.COUNT, EMS_STATE.CAUSE]
  omega

theorem calm_bistResult (k status code kind sig count : Nat) : Calm s (s.bistResult k status code kind sig count) := by
  obtain ⟨hstatus, hcode, hkind, hruns, hsig, hcount⟩ := resultKey_ne_cause k
  unfold State.bistResult
  extract_lets s1 s2 s3
  have h1 : Calm s s1 := (calm_setReg s hstatus _).trans (calm_setReg _ hcode _)
  have h2 : Calm s1 s2 := ((calm_setReg s1 hkind _).trans (calm_addReg _ hruns _)).trans (calm_setReg _ hsig _)
  have h3 : Calm s s3 := ((h1.trans h2).trans (calm_setReg _ hcount _)).trans (calm_count _ _ _ _)
  exact .ite (fun _ => h3.trans (calm_count _ _ _ _)) (fun _ => h3)

theorem calm_bistNotRun (kind k : Nat) : Calm s (s.bistNotRun kind k) :=
  ((calm_fresh s 64).trans (calm_fresh _ 32)).trans (calm_bistResult _ k 0x0A 0x3C kind _ _)

theorem calm_bistOver (status ms : Nat) : Calm s (s.bistOver status ms) := by
  unfold State.bistOver
  extract_lets _ s1
  have h : Calm s s1 := .update
  have k := h.trans (calm_setReg s1 (f := BST_STATUS.BUSY) (by decide) 0)
  exact (k.trans (calm_setReg _ (f := BST_STATUS.LAST_STATUS) (by decide) status)).trans
    (calm_setReg _ (f := BST_STATUS.LAST_MS) (by decide) _)

theorem calm_bistAbort : Calm s s.bistAbort := by
  unfold State.bistAbort
  split
  · exact .refl s
  · exact ((calm_fresh s 6).trans (calm_bistNotRun _ _ _)).trans (calm_bistOver _ _ _)

theorem calm_bistYield (uses : Nat → Bool) : Calm s (s.bistYield uses) := by
  unfold State.bistYield
  exact .ite (fun _ => calm_bistAbort s) (fun _ => .refl s)

theorem calm_snapTaken : Calm s s.snapTaken := by
  unfold State.snapTaken
  extract_lets seq a _ s1
  refine .ite (fun _ => ?_) (fun _ => ?_)
  · have h1 : Calm s s1 := .update
    exact ((h1.trans (calm_wakeBlock _ 2)).trans (calm_wakeBlock _ 15)).trans (calm_count _ _ _ _)
  · exact ((calm_setReg s (by decide) _).trans (calm_setReg _ (by decide) _)).trans (calm_postDev _ _ _ _ _ _)

theorem calm_snapshot : Calm s s.snapshot := by
  unfold State.snapshot
  extract_lets uses
  exact .ite (fun _ => .refl s) (fun _ => .ite (fun _ => (calm_addReg s (by decide) _).trans (calm_count _ _ _ _))
    (fun _ => .ite (fun _ => ⟨rfl, rfl⟩) (fun _ => (calm_bistYield s _).trans (calm_snapTaken _))))

theorem calm_snapDue : Calm s s.snapDue := by
  unfold State.snapDue
  extract_lets _ t
  have h : Calm s t := .update
  exact .ite (fun _ => h.trans (calm_snapshot t)) (fun _ => h)

/-! ### Requests that start and stop -/

theorem channelKey_ne_cause (ch : Nat) :
    (DMA_CH_STATUS.LAST_STATUS ch).key ≠ EMS_STATE.CAUSE.key ∧ (DMA_CH_STATUS.CAUSE ch).key ≠ EMS_STATE.CAUSE.key ∧
    (DMA_CH_DONE.DONE ch).key ≠ EMS_STATE.CAUSE.key ∧ (DMA_CH_RESIDUE.RESIDUE ch).key ≠ EMS_STATE.CAUSE.key ∧
    (DMA_CH_STATUS.HELD ch).key ≠ EMS_STATE.CAUSE.key ∧ (DMA_CH_STATUS.WAKE_WAIT ch).key ≠ EMS_STATE.CAUSE.key ∧
    (DMA_CH_STATUS.HALTED ch).key ≠ EMS_STATE.CAUSE.key := by
  simp only [Field.key, DMA_CH_STATUS.LAST_STATUS, DMA_CH_STATUS.CAUSE, DMA_CH_DONE.DONE, DMA_CH_RESIDUE.RESIDUE,
    DMA_CH_STATUS.HELD, DMA_CH_STATUS.WAKE_WAIT, DMA_CH_STATUS.HALTED, EMS_STATE.CAUSE]
  omega

theorem calm_setHeld (ch v : Nat) : Calm s (s.setReg (DMA_CH_STATUS.HELD ch) v) :=
  calm_setReg s (channelKey_ne_cause ch).2.2.2.2.1 v

theorem calm_setWakeWait (ch v : Nat) : Calm s (s.setReg (DMA_CH_STATUS.WAKE_WAIT ch) v) :=
  calm_setReg s (channelKey_ne_cause ch).2.2.2.2.2.1 v

theorem calm_setHalted (ch v : Nat) : Calm s (s.setReg (DMA_CH_STATUS.HALTED ch) v) :=
  calm_setReg s (channelKey_ne_cause ch).2.2.2.2.2.2 v

theorem calm_chanRecord (ch status cause done residue : Nat) : Calm s (s.chanRecord ch status cause done residue) := by
  obtain ⟨hstatus, hcause, hdone, hresidue, -⟩ := channelKey_ne_cause ch
  exact (((calm_setReg s hstatus _).trans (calm_setReg _ hcause _)).trans (calm_setReg _ hdone _)).trans
    (calm_setReg _ hresidue _)

theorem calm_stopRecord (ch status cause : Nat) (r : Request) : Calm s (s.stopRecord ch status cause r) := by
  have h := ((calm_chanRecord s ch status cause r.delivered (r.named - r.delivered)).trans
    (calm_setHeld _ ch 0)).trans (calm_setWakeWait _ ch 0)
  exact Calm.trans (Calm.ite (fun _ => h.trans (calm_setHalted _ ch 1)) (fun _ => h)) (calm_modChan _ _ _)

theorem calm_settle (ch : Nat) (r : Request) : Calm s (s.settle ch r).2 := by
  unfold State.settle
  extract_lets left a n saves
  split
  · exact .refl s
  · exact (calm_fresh s 32).trans (calm_count _ _ _ _)

theorem calm_stopFinish (ch status cause : Nat) (r : Request) (d0 d1 : Nat) :
    Calm s (s.stopFinish ch status cause r d0 d1) :=
  ((calm_stopRecord s ch status cause r).trans (calm_postDev _ _ _ _ _ _)).trans (calm_complete _ _ _ _ _ _ _)

theorem calm_stopChan (ch status cause : Nat) : Calm s (s.stopChan ch status cause) := by
  unfold State.stopChan
  split
  · exact .refl s
  · next r _ => exact (calm_settle s ch r).trans (calm_stopFinish _ _ _ _ _ _ _)

theorem calm_looseRecord (ch status cause : Nat) : Calm s (s.looseRecord ch status cause) := by
  unfold State.looseRecord
  extract_lets a b
  have h : Calm s b.2 := (calm_fresh s 32).trans (calm_fresh _ 32)
  have k := (h.trans (calm_chanRecord b.2 ch status cause a.1 b.1)).trans (calm_setHeld _ ch 0)
  exact Calm.trans (Calm.ite (fun _ => k.trans (calm_setHalted _ ch 1)) (fun _ => k)) (calm_postDev _ _ _ _ _ _)

theorem engineKey_ne_cause (k : Nat) :
    (CDC_ENG_STATUS.LAST_STATUS k).key ≠ EMS_STATE.CAUSE.key ∧
    (CDC_ENG_STATUS.LAST_REASON k).key ≠ EMS_STATE.CAUSE.key ∧ (CDC_ENG_STATUS.CHANNEL k).key ≠ EMS_STATE.CAUSE.key ∧
    (CDC_ENG_IN.IN k).key ≠ EMS_STATE.CAUSE.key ∧ (CDC_ENG_OUT.OUT k).key ≠ EMS_STATE.CAUSE.key := by
  simp only [Field.key, CDC_ENG_STATUS.LAST_STATUS, CDC_ENG_STATUS.LAST_REASON, CDC_ENG_STATUS.CHANNEL, CDC_ENG_IN.IN,
    CDC_ENG_OUT.OUT, EMS_STATE.CAUSE]
  omega

theorem calm_feedRecord (ch status cause : Nat) : Calm s (s.feedRecord ch status cause) := by
  obtain ⟨hstatus, hreason, -⟩ := engineKey_ne_cause (ch - 23)
  unfold State.feedRecord
  extract_lets s1 feed
  have h1 : Calm s s1 := .ite (fun _ => .refl s) (fun _ => (calm_setReg s hstatus _).trans (calm_setReg _ hreason _))
  exact (h1.trans .update).trans (calm_looseRecord _ _ _ _)

theorem calm_tryEntry {act : State → Entry → State} (ha : ∀ s e, Calm s (act s e)) (e : Entry) :
    Calm s (s.tryEntry act e) := by
  unfold State.tryEntry
  split
  · exact .refl s
  · refine Calm.trans ?_ (calm_complete _ _ _ _ _ _ _)
    split
    · exact calm_chanRecord _ _ _ _ _ _
    · exact .refl s
  · exact (calm_bistYield s _).trans (ha _ e)

theorem calm_pump (ty : Nat) {act : State → Entry → State} (ha : ∀ s e, Calm s (act s e)) : Calm s (s.pump ty act) := by
  unfold State.pump
  exact .ite (fun _ => .foldl (fun s e => .ite (fun _ => calm_tryEntry s ha e) (fun _ => .refl s)) _ s)
    (fun _ => .refl s)

theorem calm_reach (ch : Nat) (raw : List Byte) : Calm s (s.reach ch raw) :=
  Calm.trans (Calm.foldl (f := fun (s : State) k => if s.pwr k == .idle then
    { s with power := setAt s.power k .run } else s)
    (fun s _ => .ite (fun _ => ⟨rfl, rfl⟩) (fun _ => .refl s)) (targets raw) s) (calm_setWakeWait _ ch _)

theorem calm_startReq (ch : Nat) (e : Entry) (addr len link : Nat) : Calm s (s.startReq ch e addr len link) := by
  unfold State.startReq
  extract_lets s1 out piece req s2 s3
  have h : Calm s s3 := (calm_reach s ch e.raw).trans
    (((calm_startEntry s1 e.q e.idx).trans (calm_modChan _ ch _)).trans (calm_setHeld _ ch 0))
  exact .ite (fun _ => h.trans (calm_stopChan _ _ _ _)) (fun _ => h)

/-! ### Host jobs and scans that waited -/

theorem calm_takeEngine (k : Nat) (j : CodecJob) : Calm s (s.takeEngine k j) := by
  obtain ⟨-, -, hchannel, hin, hout⟩ := engineKey_ne_cause k
  have h : Calm s (s.setJob k (some j)) := ⟨rfl, rfl⟩
  exact ((h.trans (calm_setReg _ hchannel _)).trans (calm_setReg _ hin _)).trans (calm_setReg _ hout _)

theorem calm_areaRead (c : CodecOp) : Calm s (s.areaRead c) := by
  unfold State.areaRead
  exact .ite (fun _ => calm_count _ _ _ _) (fun _ => .refl s)

theorem calm_codecEntry (e : Entry) : Calm s (s.codecEntry e) := by
  unfold State.codecEntry
  extract_lets c kind
  refine .ite (fun _ => calm_complete _ _ _ _ _ _ _) (fun _ => .ite (fun _ => calm_complete _ _ _ _ _ _ _) (fun _ =>
    .ite (fun _ => (calm_areaRead _ _).trans (calm_complete _ _ _ _ _ _ _)) (fun _ => ?_)))
  split
  · exact (((calm_areaRead s c).trans (calm_modChan _ _ _)).trans (calm_takeEngine _ _ _)).trans
      (calm_startReq _ _ _ _ _ _)
  · exact .refl s

theorem checkKey_ne_cause (e : Nat) :
    (CHK_ENG_VAL.VAL e).key ≠ EMS_STATE.CAUSE.key ∧ (CHK_ENG_DONE.BYTES e).key ≠ EMS_STATE.CAUSE.key ∧
    (CHK_ENG_STATUS.POLY e).key ≠ EMS_STATE.CAUSE.key ∧ (CHK_ENG_STATUS.SPACE e).key ≠ EMS_STATE.CAUSE.key := by
  simp only [Field.key, CHK_ENG_VAL.VAL, CHK_ENG_DONE.BYTES, CHK_ENG_STATUS.POLY, CHK_ENG_STATUS.SPACE, EMS_STATE.CAUSE]
  omega

theorem calm_scanRegs (e v n : Nat) : Calm s (s.scanRegs e v n) := by
  obtain ⟨hval, hdone, -⟩ := checkKey_ne_cause e
  exact (calm_setReg s hval _).trans (calm_setReg _ hdone _)

theorem calm_scanOn (e : Nat) (sc : Scan) : Calm s (s.scanOn e sc) := by
  obtain ⟨-, -, hpoly, hspace⟩ := checkKey_ne_cause e
  unfold State.scanOn
  extract_lets piece req s1
  have h : Calm s s1 :=
    Calm.trans (t := { s with scans := setAt s.scans e (some sc) }) ⟨rfl, rfl⟩
      ((calm_startEntry _ sc.q sc.idx).trans (calm_modChan _ _ _))
  exact ((h.trans (calm_setReg _ hpoly _)).trans (calm_setReg _ hspace _)).trans (calm_scanRegs _ _ _ _)

theorem calm_scanEntry (e : Entry) : Calm s (s.scanEntry e) := by
  unfold State.scanEntry
  extract_lets p v
  refine .ite (fun _ => calm_complete _ _ _ _ _ _ _) (fun _ => .ite (fun _ => calm_complete _ _ _ _ _ _ _) (fun _ => ?_))
  split
  · exact .refl s
  · exact (calm_reach s _ _).trans (calm_scanOn _ _ _)

theorem calm_scanResume (n : Nat) : ∀ s : State, Calm s (State.scanResume n s) := by
  induction n with
  | zero => exact .refl
  | succ n ih =>
    intro s
    unfold State.scanResume
    split
    · next sc rest k _ _ =>
      extract_lets s1
      have h : Calm s s1 := ⟨rfl, rfl⟩
      split
      · exact h.trans (ih s1)
      · exact ((h.trans (calm_reach s1 _ _)).trans (calm_scanOn _ _ _)).trans (ih _)
    · exact calm_pump s 5 calm_scanEntry
    · exact .refl s

theorem calm_jobsGo : Calm s s.jobsGo := (calm_pump s 4 calm_codecEntry).trans (calm_scanResume _ _)

/-! ### The end of a stripe's stream and its outcome -/

theorem calm_putRecord (a : Nat) (bs : List Byte) : Calm s (s.putRecord a bs) := by
  unfold State.putRecord
  exact .ite (fun _ => Calm.trans .update (calm_count _ _ _ _)) (fun _ => .refl s)

theorem calm_outcomeEvent (st : Stripe) : Calm s (s.outcomeEvent st) := by
  unfold State.outcomeEvent
  exact .ite (fun _ => calm_dropEntry s _ _) (fun _ => (calm_dropEntry s _ _).trans (calm_putEvent _ _ _))

theorem calm_sendOutcome (st : Stripe) : Calm s (s.sendOutcome st) :=
  (calm_naluSend s _).trans (.foldl (fun s _ => calm_naluSend s _) _ _)

theorem calm_writeOutcome (toHost : Bool) (st : Stripe) : Calm s (s.writeOutcome toHost st) := by
  unfold State.writeOutcome
  extract_lets s1 bytes
  have h : Calm s s1 := .update
  exact .ite
    (fun _ => .ite (fun _ => .ite (fun _ => h.trans (calm_sendOutcome s1 st)) (fun _ => h))
      (fun _ => .ite (fun _ => h.trans (calm_putRecord s1 _ _)) (fun _ => h)))
    (fun _ => h.trans (Calm.trans (.ite (fun _ => calm_putRecord s1 _ _) (fun _ => .refl s1)) (calm_outcomeEvent _ st)))

theorem calm_endEvents (st : Stripe) : Calm s (s.endEvents st) := by
  unfold State.endEvents
  extract_lets who s1 clamps s2
  have h1 : Calm s s1 := by
    dsimp only [s1]
    split
    · exact calm_postOnce _ _ _ _ _ _
    · exact .refl s
  have h2 : Calm s s2 := .ite (fun _ => h1.trans (calm_postOnce s1 _ _ _ _ _)) (fun _ => h1)
  exact .ite (fun _ => h2.trans (calm_postOnce s2 _ _ _ _ _)) (fun _ => h2)

theorem calm_dropWitnesses (id pass : Nat) : Calm s (s.dropWitnesses id pass) :=
  Calm.trans .update (.foldl (fun s _ => calm_complete s _ _ _ _ _ _) _ _)

theorem calm_stageDiscard (ch : Nat) : Calm s (s.stageDiscard ch) := (calm_modChan s ch _).trans (calm_setHeld _ ch 0)

theorem calm_quietPath : Calm s s.quietPath := by
  have zero (t : State) (fs : List Field) (hfs : ∀ f ∈ fs, f.key ≠ EMS_STATE.CAUSE.key) :
      Calm t (fs.foldl (fun s f => s.setReg f 0) t) := by
    induction fs generalizing t with
    | nil => exact .refl t
    | cons f fs ih =>
      exact (calm_setReg t (hfs f List.mem_cons_self) 0).trans (ih _ fun f h => hfs f (List.mem_cons_of_mem _ h))
  refine Calm.trans ?_ (zero _ _ (by decide))
  exact .ite (fun _ => .refl s) (fun _ => ((calm_setReg s (by decide) _).trans (calm_setReg _ (by decide) _)).trans
    (calm_setReg _ (by decide) _))

theorem calm_emptyPath : Calm s s.emptyPath := ⟨rfl, rfl⟩

theorem calm_closeStream (sq : Nat) : Calm s (s.closeStream sq) := by
  refine Calm.trans (Calm.trans (Calm.trans ?_ (calm_quietPath _)) (.foldl (fun s ch => calm_setHeld s ch 0) _ _))
    (calm_emptyPath _)
  split
  · exact calm_stageDiscard _ _
  · exact .refl s

theorem calm_forgetPair : Calm s s.forgetPair := ⟨rfl, rfl⟩
theorem calm_bookFired : Calm s s.bookFired := calm_slots s _ _ _
theorem calm_addDiscard (r : ArmReq) : Calm s (s.addDiscard r) := calm_modRing s _ _
theorem calm_discardOver (q : Nat) : Calm s (s.discardOver q) := calm_modRing s _ _
theorem calm_dropMisses : Calm s s.dropMisses := ⟨rfl, rfl⟩

theorem calm_mirrorDiscard (q n : Nat) : ∀ s : State, Calm s (State.mirrorDiscard q n s) := by
  induction n with
  | zero => exact .refl
  | succ n ih =>
    intro s
    unfold State.mirrorDiscard
    split
    · refine .ite (fun _ => (calm_discardOver s q).trans (ih _)) (fun _ => ?_)
      exact ((calm_dropEntry s _ _).trans (.ite (fun _ => calm_discardOver _ _) (fun _ => .refl _))).trans (ih _)
    · exact .refl s

theorem calm_mirrorDrops (q : Nat) : Calm s (s.mirrorDrops q) := by
  unfold State.mirrorDrops
  exact .ite (fun _ => calm_mirrorDiscard _ _ _) (fun _ => .refl s)

theorem calm_mirrorDropsAll : Calm s s.mirrorDropsAll := by
  unfold State.mirrorDropsAll
  exact .ite (fun _ => .foldl calm_mirrorDrops _ s) (fun _ => .refl s)

theorem calm_stopStream (sq : Nat) : Calm s (s.stopStream sq) := by
  unfold State.stopStream
  extract_lets t
  have h : Calm s t := by
    dsimp only [t]
    split
    · exact calm_stopChan _ _ _ _
    · exact .refl s
  exact h.trans (.foldl (fun t _ => .ite (fun _ => calm_feedRecord t _ _ _) (fun _ => .refl t)) _ _)

theorem calm_startDiscard (st : Stripe) : Calm s (s.startDiscard st) := by
  unfold State.startDiscard
  extract_lets held gone ended s1
  have h : Calm s s1 := .foldl (fun s e => (calm_complete s _ _ _ _ _ _).trans (calm_dropEntry _ _ _)) _ s
  exact .ite (fun _ => h) (fun _ => h.trans (calm_addDiscard _ _))

end Sys2Proof.Machine

end

/-! ## What a stripe boundary leaves (R34, R35, R96, R334, R363, R371)

`Steady s t` says what the links, the fences and the protected items of a boundary leave: the global state, the balls and
the always-on domain, the stripe held, the commit sets and what is live of them, EMS_STATE.CAUSE; a fence stands unless
its cause is 0x08, which LINK_EN lifts (R340). `Bounded s t` says the same of a whole boundary, whose COMMITs change what
is live. -/

section

namespace Sys2Proof.Machine

/-- What a whole stripe boundary leaves. -/
structure Bounded (s t : State) : Prop where
  g : t.g = s.g
  aon : t.aon = s.aon
  stripe : t.stripe = s.stripe
  fence : ∀ f, s.fence = some f → f.cause ≠ 0x08 → t.fence = some f
  cause : t.reg EMS_STATE.CAUSE = s.reg EMS_STATE.CAUSE

/-- What a stripe boundary leaves beside its COMMITs. -/
structure Steady (s t : State) : Prop extends Bounded s t where
  live : t.live = s.live
  tabLive : t.tabLive = s.tabLive
  tabStaged : t.tabStaged = s.tabStaged
  commits : t.commits = s.commits

variable {s t u : State}

theorem Bounded.refl (s : State) : Bounded s s := ⟨rfl, rfl, rfl, fun _ h _ => h, rfl⟩

theorem Bounded.trans (h : Bounded s t) (k : Bounded t u) : Bounded s u where
  g := k.g.trans h.g
  aon := k.aon.trans h.aon
  stripe := k.stripe.trans h.stripe
  fence f hf hc := k.fence f (h.fence f hf hc) hc
  cause := k.cause.trans h.cause

theorem Bounded.ite {c : Prop} [Decidable c] (h : c → Bounded s t) (k : ¬c → Bounded s u) :
    Bounded s (if c then t else u) := by
  split
  · next e => exact h e
  · next e => exact k e

theorem Bounded.foldl {α : Type} {f : State → α → State} (hf : ∀ s a, Bounded s (f s a)) (l : List α) :
    ∀ s, Bounded s (l.foldl f s) := by
  induction l with
  | nil => exact refl
  | cons a l ih => exact fun s => (hf s a).trans (ih _)

/-- An update of fields that `Bounded` does not speak of. -/
theorem Bounded.update
    {pending phase quick live latches answer cc free host hbm flash tabLive tabStaged prot cfg commits power hif chans
      cdc scans scanWait prs csm pec waiting lastOutcome port shl nlk hmc cal bst pmu} :
    Bounded s { s with pending, phase, quick, live, latches, answer, cc, free, host, hbm, flash, tabLive, tabStaged, prot,
                       cfg, commits, power, hif, chans, cdc, scans, scanWait, prs, csm, pec, waiting, lastOutcome, port,
                       shl, nlk, hmc, cal, bst, pmu } :=
  ⟨rfl, rfl, rfl, fun _ h _ => h, rfl⟩

theorem Calm.steady (h : Calm s t) : Steady s t where
  g := h.g
  aon := h.aon
  stripe := h.stripe
  fence _ hf _ := h.fence.trans hf
  cause := h.cause
  live := h.live
  tabLive := h.tabLive
  tabStaged := h.tabStaged
  commits := h.commits

theorem Steady.refl (s : State) : Steady s s := (Calm.refl s).steady

theorem Steady.trans (h : Steady s t) (k : Steady t u) : Steady s u where
  toBounded := h.toBounded.trans k.toBounded
  live := k.live.trans h.live
  tabLive := k.tabLive.trans h.tabLive
  tabStaged := k.tabStaged.trans h.tabStaged
  commits := k.commits.trans h.commits

theorem Steady.ite {c : Prop} [Decidable c] (h : c → Steady s t) (k : ¬c → Steady s u) :
    Steady s (if c then t else u) := by
  split
  · next e => exact h e
  · next e => exact k e

theorem Steady.foldl {α : Type} {f : State → α → State} (hf : ∀ s a, Steady s (f s a)) (l : List α) :
    ∀ s, Steady s (l.foldl f s) := by
  induction l with
  | nil => exact refl
  | cons a l ih => exact fun s => (hf s a).trans (ih _)

/-- An update of fields that `Steady` does not speak of. -/
theorem Steady.update
    {pending phase quick latches answer cc free host hbm flash prot cfg power hif chans cdc scans scanWait prs csm pec
      waiting lastOutcome port shl nlk hmc cal bst pmu} :
    Steady s { s with pending, phase, quick, latches, answer, cc, free, host, hbm, flash, prot, cfg, power, hif, chans,
                      cdc, scans, scanWait, prs, csm, pec, waiting, lastOutcome, port, shl, nlk, hmc, cal, bst, pmu } :=
  ⟨.update, rfl, rfl, rfl, rfl⟩

/-- A chip that is not fenced takes a fence. -/
theorem Steady.fenced (h : s.fence = none) (f : Option Fence) : Steady s { s with fence := f } where
  g := rfl
  aon := rfl
  stripe := rfl
  fence _ hf := by simp [hf] at h
  cause := rfl
  live := rfl
  tabLive := rfl
  tabStaged := rfl
  commits := rfl

variable (s : State)

theorem steady_setReg {f : Field} (hf : f.key ≠ EMS_STATE.CAUSE.key) (v : Nat) : Steady s (s.setReg f v) :=
  (calm_setReg s hf v).steady

/-! ### Protected items -/

theorem steady_itemLive (item : Nat) (bs : List Byte) : Steady s (s.itemLive item bs) := by
  unfold State.itemLive State.pageCheck
  split
  · exact Steady.trans .update (.ite (fun _ => (calm_postDev _ _ _ _ _ _).steady) (fun _ => .refl _))
  all_goals exact .update

theorem steady_itemsLive : Steady s s.itemsLive :=
  Steady.trans .update (.foldl (fun s (i : Nat × List Byte) => steady_itemLive s i.1 i.2) s.prot.waiting _)

/-! ### The shutter link -/

theorem steady_linkStop (st : LinkState) : Steady s (s.linkStop st) :=
  Steady.trans .update (steady_setReg _ (by decide) 0)

theorem steady_setLanes (f : Nat → LaneTx → LaneTx) : Steady s (s.setLanes f) := .update

theorem steady_startKnock : Steady s s.startKnock := by
  have knocks := ((calm_wakeBlock s 10).steady.trans (steady_linkStop _ .knock)).trans
    (steady_setLanes _ (fun n l => if n < 4 then (((s.wakeBlock 10).linkStop .knock).laneStart .idleSets 0 n l) else l))
  exact (knocks.trans .update).trans ((steady_setReg _ (by decide) 0).trans (steady_setReg _ (by decide) 0))

theorem steady_startLatch : Steady s s.startLatch :=
  Steady.trans .update ((steady_setReg _ (by decide) 0).trans (steady_setReg _ (by decide) 0))

theorem steady_linkBoundary : Steady s s.linkBoundary := by
  unfold State.linkBoundary
  exact .ite (fun _ => steady_startKnock s) (fun _ => .ite (fun _ => steady_startLatch s) (fun _ => .update))

theorem steady_linkDue (knock relatch : Bool) : Steady s (s.linkDue knock relatch) := .update

/-- Only a fence of cause 0x08 is lifted with LINK_EN. -/
theorem steady_liftFence (h : s.fence.any (fun f => f.cause == 0x08 && !f.hard) = true) : Steady s s.liftFence where
  g := rfl
  aon := rfl
  stripe := rfl
  fence f hf hc := by simp [hf, hc] at h
  cause := rfl
  live := rfl
  tabLive := rfl
  tabStaged := rfl
  commits := rfl

theorem steady_linkEnable (on : Bool) : Steady s (s.linkEnable on) := by
  unfold State.linkEnable
  have enabled := steady_setReg s (f := SHL_CTRL.LINK_EN) (by decide) 1
  have down := (steady_setReg s (f := SHL_CTRL.LINK_EN) (by decide) 0).trans (steady_linkStop _ .down)
  refine .ite (fun _ => .ite (fun _ => enabled) (fun _ => enabled.trans (steady_startKnock _)))
    (fun _ => .ite (fun h => down.trans (steady_liftFence _ ?_)) (fun _ => down))
  exact (Bool.and_eq_true_iff.mp h).2

theorem steady_linkFollow (fs : List (Nat × Nat)) : Steady s (s.linkFollow fs) := by
  unfold State.linkFollow
  extract_lets s1
  have h : Steady s s1 := by
    dsimp only [s1]
    split
    · exact .ite (fun _ => .refl s) (fun _ => steady_linkEnable s _)
    · exact .refl s
  exact .ite (fun _ => h.trans .update) (fun _ => h)

theorem steady_relatch : Steady s s.relatch := by
  unfold State.relatch
  exact .ite (fun _ => steady_startLatch s) (fun _ => .refl s)

/-! ### Fences, solo operation, rejoin -/

theorem steady_setFence (h : s.fence = none) (cause : Nat) (hard : Bool) : Steady s (s.setFence cause hard) := by
  unfold State.setFence
  extract_lets s1 s2
  have h1 : Steady s s1 := (Steady.trans (.fenced h _) (steady_setReg _ (f := NLK_STATE.CAUSE) (by decide) cause)).trans
    (calm_addReg _ (f := NLK_LOSSES.FENCES) (by decide) 1).steady
  have h3 : Steady s s2 := .ite (fun _ => h1) (fun _ => h1.trans (steady_linkStop _ .down))
  exact (h3.trans (calm_naluSend _ _).steady).trans (calm_postDev _ _ _ _ _ _).steady

theorem steady_mirrorApart : Steady s s.mirrorApart := by
  unfold State.mirrorApart
  exact .ite (fun _ => .refl s)
    (fun h => (calm_fresh s 8).steady.trans (steady_setFence (s.fresh 8).2 (by simpa using h) _ _))

theorem steady_naluDown : Steady s s.naluDown := Steady.trans .update (steady_setReg _ (by decide) 0)

theorem steady_naluTrain : Steady s s.naluTrain := (steady_naluDown s).trans .update

theorem steady_unpair : Steady s s.unpair := Steady.trans .update (steady_setReg _ (by decide) _)

theorem steady_soloBoundary : Steady s s.soloBoundary := by
  unfold State.soloBoundary
  extract_lets s1
  have h : Steady s s1 := (steady_naluDown s).trans (steady_unpair _)
  refine .ite (fun _ => .ite (fun k => h.trans (steady_setFence s1 ?_ _ _)) (fun _ => h)) (fun _ => .refl s)
  simpa using (Bool.and_eq_true_iff.mp k).2

theorem steady_startRejoin : Steady s s.startRejoin := by
  unfold State.startRejoin
  extract_lets _ s1
  have h : Steady s s1 := .update
  exact .ite (fun _ => .ite (fun _ => h.trans (steady_relatch s1)) (fun _ => h.trans (steady_naluTrain s1)))
    (fun _ => .update)

/-! ### The ends of COMMITs -/

theorem steady_commitEnds (q idx id status block reason : Nat) :
    Steady s (s.commitEnds q idx id status block reason) := by
  unfold State.commitEnds
  extract_lets s1 s2 release auth
  have h1 : Steady s s1 := (steady_setReg s (f := MGT_CMT_STATUS.LAST_STATUS) (by decide) _).trans
    (steady_setReg _ (f := MGT_CMT_LAST_ID.COMMIT_ID) (by decide) _)
  have h2 : Steady s s2 := .ite (fun _ => h1.trans ((steady_setReg _ (f := MGT_CMT_STATUS.LAST_BLOCK) (by decide) _).trans
    (steady_setReg _ (f := MGT_CMT_STATUS.LAST_REASON) (by decide) _))) (fun _ => h1)
  exact (h2.trans .update).trans (calm_complete _ _ _ _ _ _ _).steady

theorem steady_setFails (c : PendingCommit) : Steady s (s.setFails c) := by
  unfold State.setFails
  exact .ite (fun _ => steady_mirrorApart s) (fun _ => steady_commitEnds s _ _ _ _ _ _)

theorem codesKey_ne_cause (i : Nat) :
    (CAL_ITEM_STATUS.CODE i).key ≠ EMS_STATE.CAUSE.key ∧ (CAL_ITEM_STATUS.ELEMENT i).key ≠ EMS_STATE.CAUSE.key := by
  simp only [Field.key, CAL_ITEM_STATUS.CODE, CAL_ITEM_STATUS.ELEMENT, EMS_STATE.CAUSE]
  omega

theorem steady_factoryCodes : Steady s s.factoryCodes := by
  refine .foldl (fun s i => .ite (fun _ => .refl s) (fun _ => ?_)) _ s
  obtain ⟨code, element⟩ := codesKey_ne_cause i
  exact (steady_setReg s code _).trans (steady_setReg _ element _)

theorem steady_trimsActive (st : Store) : Steady s (s.trimsActive st) := by
  have shown := ((steady_setReg s (f := CAL_STATUS.TRIMS_VALID) (by decide) 1).trans
    (steady_setReg _ (f := CAL_STATUS.ACTIVE_SLOT) (by decide) st.slot)).trans
    (steady_setReg _ (f := CAL_TRIM_SEQ.SEQ) (by decide) st.seq)
  have settled := shown.trans ((steady_setReg _ (f := MGT_STATE.UNCAL) (by decide) 0).trans
    (steady_setReg _ (f := CAL_STATUS.STORE_PENDING) (by decide) 0))
  exact settled.trans (calm_postDev _ _ _ _ _ _).steady

theorem calm_sendTable (id offset : Nat) (bs : List Byte) : Calm s (s.sendTable id offset bs) :=
  .foldl (fun s _ => calm_naluSend s _) _ s

theorem calm_sendTables (t : Tables) (ids : List Nat) : Calm s (s.sendTables t ids) :=
  .foldl (fun s _ => calm_sendTable s _ _ _) _ s

theorem calm_sendAll : Calm s s.sendAll :=
  ((calm_sendTables s _ _).trans (calm_naluSend _ _)).trans (calm_sendTables _ _ _)

/-! ### A whole boundary -/

theorem bounded_fieldsLive (fs : List (Nat × Nat)) : Bounded s (s.fieldsLive fs) := by
  refine .foldl (fun s kv => ?_) fs s
  split
  · exact .update
  · exact .refl s

theorem bounded_setLiveAll (c : PendingCommit) : Bounded s (s.setLiveAll c) := by
  unfold State.setLiveAll
  extract_lets rate spread eq s1 s2 s3
  have h1 : Bounded s s1 := (bounded_fieldsLive s c.fields).trans .update
  have h2 : Bounded s s2 := .ite (fun _ => h1.trans (steady_setReg s1 (by decide) _).toBounded) (fun _ => h1)
  have h3 : Bounded s s3 := by
    refine Bounded.trans (Bounded.trans ?_ (steady_linkFollow _ _).toBounded) (calm_wakeBlocks _ _).steady.toBounded
    exact .ite (fun _ => h2.trans (steady_factoryCodes s2).toBounded) (fun _ => h2)
  exact (h3.trans (steady_linkDue s3 _ _).toBounded).trans (calm_count _ _ _ _).steady.toBounded

theorem bounded_applyCommit (c : PendingCommit) : Bounded s (s.applyCommit c) := by
  unfold State.applyCommit
  split
  · exact .ite (fun _ => (steady_linkFollow s _).toBounded) (fun _ => .ite (fun _ => (steady_setFails s c).toBounded)
      (fun _ => (bounded_setLiveAll s c).trans (steady_commitEnds _ _ _ _ _ _ _).toBounded))
  · next st _ =>
    extract_lets _ s1 old hadOld s2 s3 s4
    have h1 : Bounded s s1 := Bounded.trans .update (steady_setReg _ (f := CAL_STATUS.STORE_PENDING) (by decide) 0).toBounded
    have h3 : Bounded s s3 := (h1.trans .update).trans (bounded_setLiveAll s2 c)
    have h4 : Bounded s s4 := .ite (fun _ => h3.trans .update) (fun _ => h3)
    exact .ite (fun _ => (h4.trans (steady_trimsActive s4 st).toBounded).trans (steady_commitEnds _ _ _ _ _ _ _).toBounded)
      (fun _ => h1.trans (steady_setFails s1 c).toBounded)

theorem bounded_applyCommits : Bounded s s.applyCommits := by
  unfold State.applyCommits
  extract_lets due _ t
  have h : Bounded s t := Bounded.trans .update (.foldl bounded_applyCommit _ _)
  exact .ite (fun _ => h.trans (calm_sendAll t).steady.toBounded) (fun _ => h)

/-- What a boundary brings after its COMMITs. -/
theorem steady_afterCommits : Steady s s.linkBoundary.soloBoundary.startRejoin.jobsGo :=
  (((steady_linkBoundary s).trans (steady_soloBoundary _)).trans (steady_startRejoin _)).trans (calm_jobsGo _).steady

theorem bounded_boundary : Bounded s s.boundary :=
  ((steady_itemsLive s).toBounded.trans (bounded_applyCommits _)).trans (steady_afterCommits _).toBounded

/-! ### No stripe is held any more -/

theorem bounded_openGap : Bounded s s.openGap := by
  unfold State.openGap
  extract_lets gap _ s1
  have h1 : Bounded s s1 := .update
  exact (h1.trans ((calm_setReg s1 (f := CAL_DRIFT.OVERDUE_S) (by decide) 0).trans
    (calm_addReg _ (f := CAL_STATUS.GAPS) (by decide) 1)).steady.toBounded).trans (calm_count _ _ _ _).steady.toBounded

/-- IDLE, seen from the state READY without a stripe. -/
theorem bounded_toIdle : Bounded { s with stripe := none, g := .ready } s.toIdle := by
  unfold State.toIdle
  extract_lets _ s1 _ s2
  have h0 : Bounded { s with stripe := none, g := .ready } { s.bookFired.forgetPair with stripe := none, g := .ready } := by
    have k := ((calm_bookFired s).trans (calm_forgetPair _)).steady
    exact ⟨rfl, k.aon, rfl, k.fence, k.cause⟩
  have h1 : Bounded { s with stripe := none, g := .ready } s1 :=
    (h0.trans (calm_mirrorDropsAll _).steady.toBounded).trans (bounded_boundary _)
  have h2 : Bounded { s with stripe := none, g := .ready } s2 := h1.trans .update
  exact .ite (fun _ => h2.trans (bounded_openGap s2)) (fun _ => h2)

end Sys2Proof.Machine

end

/-! ## What an abort does (R296, R299, R300, R424)

`abortWith_cases` says once what an abort of a live stripe does: it leaves the stripe ABORTED with its cause and its
outcome record, and then holds FAULT_BLANK_N or returns to IDLE. -/

section

namespace Sys2Proof.Machine

variable (s : State)

/-- What counts as missing before an abort changes neither the state of the stripe nor its request or its flashes. -/
theorem overdueCounts_calm : ∃ f : Stripe → Stripe, Calm (s.modStripe f) s.overdueCounts ∧
    ∀ st, (f st).st = st.st ∧ (f st).req = st.req ∧ (f st).fired = st.fired := by
  unfold State.overdueCounts
  split
  · exact ⟨_, (calm_addReg _ (f := SHL_BC.MISSING) (by decide) 1).trans (calm_slots _ 5 0 1), fun _ => ⟨rfl, rfl, rfl⟩⟩
  · exact ⟨id, ⟨by simp [State.modStripe], rfl⟩, fun _ => ⟨rfl, rfl, rfl⟩⟩

theorem putRecord_lastOutcome (a : Nat) (bs : List Byte) : (s.putRecord a bs).lastOutcome = s.lastOutcome := by
  unfold State.putRecord
  split
  · rw [count_lastOutcome]
  · rfl

theorem outcomeEvent_lastOutcome (st : Stripe) : (s.outcomeEvent st).lastOutcome = s.lastOutcome := by
  unfold State.outcomeEvent
  extract_lets s1
  split
  · rfl
  · rw [putEvent_lastOutcome, dropEntry_lastOutcome]

theorem sendOutcome_lastOutcome (st : Stripe) : (s.sendOutcome st).lastOutcome = s.lastOutcome := by
  have sent (l : List Nat) (m : Nat → NaluMsg) : ∀ t : State,
      (l.foldl (fun s i => s.naluSend (m i)) t).lastOutcome = t.lastOutcome := by
    induction l with
    | nil => exact fun _ => rfl
    | cons i l ih => exact fun t => (ih _).trans (naluSend_lastOutcome t _)
  unfold State.sendOutcome
  extract_lets hs rest s1
  exact (sent _ _ s1).trans (naluSend_lastOutcome s _)

theorem writeOutcome_lastOutcome (toHost : Bool) (st : Stripe) :
    (s.writeOutcome toHost st).lastOutcome = st.record := by
  unfold State.writeOutcome
  extract_lets s1 bytes
  split
  · split
    · split
      · exact sendOutcome_lastOutcome s1 st
      · rfl
    · split
      · exact putRecord_lastOutcome s1 _ _
      · rfl
  · rw [outcomeEvent_lastOutcome]
    split
    · exact putRecord_lastOutcome s1 _ _
    · rfl

/-- A stripe that is neither DONE nor ABORTED. -/
abbrev Stripe.ongoing (st : Stripe) : Prop := st.st ≠ .done ∧ st.st ≠ .aborted

/-- The stripe in RUN or TAIL, whose abort holds FAULT_BLANK_N. -/
def Stripe.flashing (st : Stripe) : Bool := st.st == .run || st.st == .tail

/-- `st'` is the stripe `st` after its abort with a cause. -/
structure Stripe.AbortedAs (st : Stripe) (cause : Nat) (st' : Stripe) : Prop where
  state : st'.st = .aborted
  reason : st'.cause = cause
  hold : st'.fbHold = st.flashing
  request : st'.req = st.req
  flashes : st'.fired = st.fired

/-- The stripe that an abort leaves: `hold` tells whether FAULT_BLANK_N is held. -/
def Stripe.aborting (st : Stripe) (hold : Bool) (cause : Nat) : Stripe :=
  { st with cause, endState := st.st.endCode, st := .aborted, fbHold := hold, outcomeDone := true, stepBusy := none,
            ledger := { st.ledger with writes := [] } }

/-- No further flash: the stripe is ABORTED, its cause in EMS_STATE. -/
def State.abortBegins (s : State) (st : Stripe) (cause : Nat) : State :=
  State.setReg { s.overdueCounts.dropMisses with stripe := some st, g := .run } EMS_STATE.CAUSE cause

/-- The stream is stopped, the end events are posted and the outcome is written. -/
def State.abortEnds (s : State) (toHost : Bool) (st : Stripe) : State :=
  let s := ((s.stopStream st.req.streamSq).startDiscard st).closeStream st.req.streamSq
  let s := (s.dropWitnesses st.req.id st.req.pass).endEvents st
  (if s.reg PMU_SNAP_CFG.ON_END = 1 then s.snapshot else s).writeOutcome toHost st

theorem abortWith_eq {s : State} {st : Stripe} (held : s.stripe = some st) (ongoing : st.ongoing) (toHost : Bool)
    (cause : Nat) : s.abortWith toHost cause =
      (let st' := (s.overdueCounts.dropMisses.stripe.getD st).aborting st.flashing cause
       let u := (s.abortBegins st' cause).abortEnds toHost st'
       if st.flashing then u else u.toIdle) := by
  have live : ¬(st.st == .done || st.st == .aborted) = true := by simp [ongoing.1, ongoing.2]
  unfold State.abortWith
  rw [held]
  exact if_neg live

theorem calm_abortEnds (toHost : Bool) (st : Stripe) : Calm s (s.abortEnds toHost st) := by
  unfold State.abortEnds
  extract_lets s1 s2
  have h1 : Calm s s1 := ((calm_stopStream s st.req.streamSq).trans (calm_startDiscard _ st)).trans
    (calm_closeStream _ st.req.streamSq)
  have h2 : Calm s s2 := (h1.trans (calm_dropWitnesses s1 st.req.id st.req.pass)).trans (calm_endEvents _ st)
  exact Calm.trans (.ite (fun _ => h2.trans (calm_snapshot s2)) (fun _ => h2)) (calm_writeOutcome _ toHost st)

theorem calm_abortBegins {s u : State} (h : Calm u s.overdueCounts) (st : Stripe) (cause : Nat) :
    Calm (State.setReg { u with stripe := some st, g := .run } EMS_STATE.CAUSE cause) (s.abortBegins st cause) where
  calm := (congrArg (fun t : State => { t with stripe := some st, g := .run }) (h.trans (calm_dropMisses _)).calm :)
  cause := by rw [State.abortBegins, reg_setReg_same, reg_setReg_same]

theorem abortWith_cases {s : State} {st : Stripe} (held : s.stripe = some st) (ongoing : st.ongoing) (toHost : Bool)
    (cause : Nat) : ∃ (u : State) (st' : Stripe), st.AbortedAs cause st' ∧
      Calm (State.setReg { s with stripe := some st', g := .run } EMS_STATE.CAUSE cause) u ∧
      u.lastOutcome = st'.record ∧ Keeps s u ∧
      s.abortWith toHost cause = if st.flashing then u else u.toIdle := by
  obtain ⟨f, counted, same⟩ := overdueCounts_calm s
  obtain ⟨-, sameReq, sameFired⟩ := same st
  have stripe : s.overdueCounts.dropMisses.stripe.getD st = f st := by
    rw [dropMisses_stripe, counted.stripe, modStripe_stripe, held]
    rfl
  refine ⟨_, (f st).aborting st.flashing cause, ⟨rfl, rfl, rfl, sameReq, sameFired⟩,
    (calm_abortBegins counted _ cause).trans (calm_abortEnds _ toHost _), writeOutcome_lastOutcome _ toHost _, ?_, ?_⟩
  · exact ((keeps_overdueCounts s).trans (keeps_dropMisses _)).trans
      ((keeps_aborting _ _ cause).trans (keeps_abortEnd _ _ toHost))
  · rw [abortWith_eq held ongoing, stripe]

/-- The stripe that `s` holds, in RUN or TAIL, is aborted. -/
theorem abortWith_flashing {s : State} {st : Stripe} (held : s.stripe = some st) (flashing : st.flashing = true)
    (toHost : Bool) {cause : Nat} (small : cause < 256) : AbortedBy cause s (s.abortWith toHost cause) := by
  have ongoing : st.ongoing := by
    constructor <;> intro h <;> simp [Stripe.flashing, h] at flashing
  obtain ⟨u, st', aborted, calm, record, keeps, eq⟩ := abortWith_cases held ongoing toHost cause
  rw [eq, if_pos flashing]
  refine ⟨calm.g, ?_, keeps.1, st, st', held, calm.stripe, aborted.state, aborted.reason,
    aborted.hold.trans flashing, aborted.request, aborted.flashes, record⟩
  rw [calm.cause, reg_setReg_same]
  exact Nat.mod_eq_of_lt small

/-- The stripe that `s` holds, in ARMED or WAIT_SOS, is aborted: no stripe is held any more. -/
theorem abortWith_unfired {s : State} {st : Stripe} (held : s.stripe = some st) (ongoing : st.ongoing)
    (unfired : st.flashing = false) (toHost : Bool) (cause : Nat) :
    Bounded (State.setReg { s with stripe := none, g := .ready } EMS_STATE.CAUSE cause) (s.abortWith toHost cause) := by
  obtain ⟨u, st', -, calm, -, -, eq⟩ := abortWith_cases held ongoing toHost cause
  rw [eq, if_neg (by simp [unfired])]
  have h : Bounded (State.setReg { s with stripe := none, g := .ready } EMS_STATE.CAUSE cause)
      { u with stripe := none, g := .ready } :=
    ⟨rfl, calm.aon, rfl, fun f hf _ => calm.fence.trans hf, by rw [reg_setReg_same]; exact calm.cause.trans (reg_setReg_same _ _ _)⟩
  exact h.trans (bounded_toIdle u)

/-- An abort of a stripe that has ended changes nothing, and neither does one without a stripe. -/
theorem abortWith_over (h : ∀ st, s.stripe = some st → ¬st.ongoing) (toHost : Bool) (cause : Nat) :
    s.abortWith toHost cause = s := by
  unfold State.abortWith
  split
  · rfl
  · next st held =>
    have ended := h st held
    simp only [Stripe.ongoing, not_and_or, not_not] at ended
    exact if_pos (by simpa using ended)

end Sys2Proof.Machine

end

/-! ## The Nalu link: a lead that goes on alone is in no pair, so that item 5 is due no more (R371, R381)

The clause on NALU_SOLO_TIMEOUT lets no register but NLK_STATE.LANES_UP change on a lead. A chip that goes on alone is in
no pair any more (`State.unpair`), and item 5, which only a pair has, stops being due: CAL_STATUS.DUE changes where its
bit 5 was set. -/

section

namespace Sys2Proof.Machine

/-- A lead in START with its root locked, the Nalu link not up, and item 5 due. -/
def leadWithSkewDue : State :=
  State.setReg { State.reset with g := .start, aon := { State.reset.aon with rootLock := true } } CAL_STATUS.DUE 32

theorem leadWithSkewDue_due : leadWithSkewDue.reg CAL_STATUS.DUE = 32 := reg_setReg_same _ _ _

/-- The lead goes on alone with item 5 due no more. -/
theorem naluSoloTimeout_due : ∃ t, exec .naluSoloTimeout leadWithSkewDue = .next t ∧ t.reg CAL_STATUS.DUE = 0 :=
  ⟨leadWithSkewDue.naluDown.unpair, rfl, by decide⟩

end Sys2Proof.Machine

end

/-- Refutes O54: on a lead in START with item 5 due and no partner, NALU_SOLO_TIMEOUT clears bit 5 of CAL_STATUS.DUE,
while the statement lets only NLK_STATE.LANES_UP change. -/
theorem not_naluLink : ¬ Obligations.NaluLink := by
  unfold Obligations.NaluLink
  rintro ⟨-, trains, -⟩
  obtain ⟨-, -, alone⟩ := trains Sys2Proof.Machine.leadWithSkewDue 0 0 0 0 0 1 rfl rfl (by decide) rfl rfl (by decide)
  obtain ⟨t, exec_t, -, -, -, -, lead, -⟩ := alone rfl
  obtain ⟨-, -, regs, -⟩ := lead rfl
  obtain ⟨u, exec_u, due⟩ := Sys2Proof.Machine.naluSoloTimeout_due
  obtain rfl : t = u := Host.Outcome.next.inj (exec_t.symm.trans exec_u)
  have kept := regs Sys2Proof.Machine.CAL_STATUS.DUE (by decide)
  rw [due, Sys2Proof.Machine.leadWithSkewDue_due] at kept
  exact absurd kept (by decide)

/-! ## Reads and writes of HBM3 (R266, R283)

`State.unread` forgets what a read of HBM3 without an uncorrectable word may change: the registers that record errors,
free values, power states, the pseudo-channels and the counters. -/

section

namespace Sys2Proof.Machine

/-- The state without what a read of HBM3 may change. -/
def State.unread (s : State) : State := { s with regs := [], free := 0, power := [], hmc := .reset, pmu := .reset }

/-- `t` is `s` after a read of HBM3 that found no uncorrectable word. -/
structure ReadsOnly (s t : State) : Prop where
  unread : t.unread = s.unread
  regs : RegsBut eccFields s t

namespace ReadsOnly

variable {s t u : State}

theorem refl (s : State) : ReadsOnly s s := ⟨rfl, .refl _ s⟩

theorem trans (h : ReadsOnly s t) (k : ReadsOnly t u) : ReadsOnly s u :=
  ⟨k.unread.trans h.unread, fun f hf => (k.regs f hf).trans (h.regs f hf)⟩

theorem foldl {α : Type} {f : State → α → State} (hf : ∀ s a, ReadsOnly s (f s a)) (l : List α) :
    ∀ s, ReadsOnly s (l.foldl f s) := by
  induction l with
  | nil => exact refl
  | cons a l ih => exact fun s => (hf s a).trans (ih _)

/-- An update that leaves the register fields. -/
theorem of_regs (h : t.unread = s.unread) (k : t.regs = s.regs) : ReadsOnly s t :=
  ⟨h, fun f _ => by rw [State.reg, State.reg, k]⟩

theorem g (h : ReadsOnly s t) : t.g = s.g := (congrArg State.g h.unread :)
theorem stripe (h : ReadsOnly s t) : t.stripe = s.stripe := (congrArg State.stripe h.unread :)
theorem live (h : ReadsOnly s t) : t.live = s.live := (congrArg State.live h.unread :)
theorem tabLive (h : ReadsOnly s t) : t.tabLive = s.tabLive := (congrArg State.tabLive h.unread :)
theorem hbm (h : ReadsOnly s t) : t.hbm = s.hbm := (congrArg State.hbm h.unread :)

theorem sameMemories (h : ReadsOnly s t) : SameMemories s t :=
  ⟨(congrArg State.host h.unread :), h.hbm, (congrArg State.flash h.unread :)⟩

end ReadsOnly

variable (s : State)

theorem readsOnly_fresh (w : Nat) : ReadsOnly s (s.fresh w).2 := .of_regs rfl rfl

theorem readsOnly_hbmUse (a n : Nat) : ReadsOnly s (s.hbmUse a n) := .of_regs rfl rfl

theorem readsOnly_count (b ev n : Nat) : ReadsOnly s (s.count b ev n) := by
  unfold State.count
  split
  · exact .of_regs rfl rfl
  · exact .refl s

theorem readsOnly_slots (st c n : Nat) : ReadsOnly s (s.slots st c n) := by
  unfold State.slots
  split
  · exact .of_regs rfl rfl
  · exact .refl s

theorem readsOnly_wakeBlock (k : Nat) : ReadsOnly s (s.wakeBlock k) := by
  unfold State.wakeBlock
  split
  · exact ReadsOnly.trans (t := s.setPwr k .run) (.of_regs rfl rfl) (readsOnly_count _ _ _ _)
  · split
    · exact .of_regs rfl rfl
    · exact .refl s

theorem readsOnly_setReg {f : Field} (hf : f ∈ eccFields) (v : Nat) : ReadsOnly s (s.setReg f v) :=
  ⟨rfl, regsBut_setReg hf s v⟩

theorem readsOnly_eccRecord (port ue : Nat) (w : EccWord) : ReadsOnly s (s.eccRecord port ue w) :=
  ((((readsOnly_setReg s (f := HMC_ECC_ADDR.ADDR) (by decide) _).trans
    (readsOnly_setReg _ (f := HMC_ECC_INFO.UE) (by decide) _)).trans
    (readsOnly_setReg _ (f := HMC_ECC_INFO.ON_DIE) (by decide) _)).trans
    (readsOnly_setReg _ (f := HMC_ECC_INFO.PORT) (by decide) _)).trans
    (readsOnly_setReg _ (f := HMC_ECC_INFO.PC) (by decide) _)

theorem readsOnly_ceAddr (a : Nat) : ReadsOnly s { s with hmc := { s.hmc with ceAddr := a } } := .of_regs rfl rfl

theorem readsOnly_corrected (port : Nat) (w : EccWord) : ReadsOnly s (s.corrected port w) :=
  ((readsOnly_setReg s (f := HMC_ECC_CE.COUNT) (by decide) _).trans
    (readsOnly_eccRecord (s.addReg HMC_ECC_CE.COUNT 1) port 0 w)).trans (readsOnly_ceAddr _ w.addr)

theorem readsOnly_eccRead (port lo n : Nat) (ecc : EccReads) : ReadsOnly s (s.eccRead port lo n ecc).1 := by
  unfold State.eccRead
  exact (readsOnly_hbmUse s lo n).trans (.foldl (fun t w => readsOnly_corrected t port w) _ _)

theorem eccRead_clean {ecc : EccReads} (clean : ecc.bad = none) (port lo n : Nat) :
    (s.eccRead port lo n ecc).2 = none := by
  unfold State.eccRead
  extract_lets
  rw [clean, Option.filter_none]

/-- A read that finds no uncorrectable word goes on with what the data is for. -/
theorem readBy_clean {ecc : EccReads} (clean : ecc.bad = none) (units port lo n : Nat) (k : State → State) :
    ∃ u, ReadsOnly s u ∧ s.readBy units port lo n ecc k = k u := by
  refine ⟨_, (readsOnly_count s 8 0x10 units).trans (readsOnly_eccRead _ port lo n ecc), ?_⟩
  unfold State.readBy
  extract_lets r
  have none : r.2 = none := eccRead_clean _ clean port lo n
  split
  · rfl
  · next bad => rw [none] at bad; cases bad

theorem portRead_clean {ecc : EccReads} (clean : ecc.bad = none) (port lo n : Nat) (k : State → State) :
    ∃ u, ReadsOnly s u ∧ s.portRead port lo n ecc k = k u :=
  readBy_clean s clean _ port lo n k

theorem regionRead_clean {ecc : EccReads} (clean : ecc.bad = none) (port lo n : Nat) (k : State → State) :
    ∃ u, ReadsOnly s u ∧ s.regionRead port lo n ecc k = k u := by
  obtain ⟨u, reads, eq⟩ := readBy_clean (s.fresh 32).2 clean (s.fresh 32).1 port lo n k
  exact ⟨u, (readsOnly_fresh s 32).trans reads, eq⟩

/-! ### Writes -/

/-- `t` is `s` but for HBM3, which is `m`, the pseudo-channels and the counters. -/
structure WritesOnly (m : Memory) (s t : State) : Prop where
  rest : t.unread = { s.unread with hbm := m }
  regs : t.regs = s.regs

theorem WritesOnly.host {m : Memory} {s t : State} (h : WritesOnly m s t) : t.host = s.host :=
  (congrArg State.host h.rest :)
theorem WritesOnly.hbm {m : Memory} {s t : State} (h : WritesOnly m s t) : t.hbm = m := (congrArg State.hbm h.rest :)
theorem WritesOnly.flash {m : Memory} {s t : State} (h : WritesOnly m s t) : t.flash = s.flash :=
  (congrArg State.flash h.rest :)
theorem WritesOnly.stripe {m : Memory} {s t : State} (h : WritesOnly m s t) : t.stripe = s.stripe :=
  (congrArg State.stripe h.rest :)
theorem WritesOnly.reg {m : Memory} {s t : State} (h : WritesOnly m s t) (f : Field) : t.reg f = s.reg f := by
  rw [State.reg, State.reg, h.regs]

theorem WritesOnly.trans {m m' : Memory} {s t u : State} (h : WritesOnly m s t) (k : WritesOnly m' t u) :
    WritesOnly m' s u :=
  ⟨k.rest.trans (congrArg (fun x : State => { x with hbm := m' }) h.rest), k.regs.trans h.regs⟩

theorem hbmWrite_writes (a : Nat) (bs : List Byte) : WritesOnly (Memory.write s.hbm a bs) s (s.hbmWrite a bs) := by
  unfold State.hbmWrite
  exact ⟨(readsOnly_count _ 8 0x11 (granules a bs.length)).unread, count_regs _ _ _ _⟩

/-- Blocks are written one after the other, each at its address. -/
def writeBlocks (at' : Nat → Nat) (m : Memory) (bs : List (Nat × List Byte)) : Memory :=
  bs.foldl (fun m b => Memory.write m (at' b.1) b.2) m

theorem foldl_hbmWrite_writes (at' : Nat → Nat) (bs : List (Nat × List Byte)) :
    WritesOnly (writeBlocks at' s.hbm bs) s (bs.foldl (fun s b => s.hbmWrite (at' b.1) b.2) s) := by
  induction bs generalizing s with
  | nil => exact ⟨rfl, rfl⟩
  | cons b bs ih =>
    have first := hbmWrite_writes s (at' b.1) b.2
    have rest := ih (s.hbmWrite (at' b.1) b.2)
    rw [first.hbm] at rest
    exact first.trans rest

/-- A byte that lies in none of the blocks stays. -/
theorem byte_writeBlocks_outside (at' : Nat → Nat) (bs : List (Nat × List Byte)) (m : Memory) (a : Nat)
    (h : ∀ b ∈ bs, a < at' b.1 ∨ at' b.1 + b.2.length ≤ a) :
    Memory.byte (writeBlocks at' m bs) a = Memory.byte m a := by
  induction bs generalizing m with
  | nil => rfl
  | cons b bs ih =>
    exact (ih _ fun c hc => h c (List.mem_cons_of_mem b hc)).trans
      (Memory.byte_write_outside m _ a _ (h b List.mem_cons_self))

/-- Of blocks that do not overlap, each is read back byte by byte. -/
theorem byte_writeBlocks_inside (at' : Nat → Nat) (bs : List (Nat × List Byte)) (m : Memory)
    (apart : bs.Pairwise (fun b c => at' b.1 + b.2.length ≤ at' c.1 ∨ at' c.1 + c.2.length ≤ at' b.1))
    {b : Nat × List Byte} (hb : b ∈ bs) {i : Nat} (hi : i < b.2.length) :
    Memory.byte (writeBlocks at' m bs) (at' b.1 + i) = b.2.getD i 0#8 := by
  induction bs generalizing m with
  | nil => cases hb
  | cons c bs ih =>
    obtain ⟨first, others⟩ := List.pairwise_cons.mp apart
    obtain rfl | hb := List.mem_cons.mp hb
    · have later : ∀ c ∈ bs, at' b.1 + i < at' c.1 ∨ at' c.1 + c.2.length ≤ at' b.1 + i := fun c hc => by
        have := first c hc
        omega
      rw [List.getD_eq_getElem _ _ hi, ← Memory.byte_write_inside m (at' b.1) i b.2 hi]
      exact byte_writeBlocks_outside at' bs _ _ later
    · exact ih _ others hb

end Sys2Proof.Machine

end

/-! ## Entry steps and repayments (R25, R200, R201, R246 to R257) -/

section

namespace Sys2Proof.Machine

variable (s : State)

/-! ### Where a step writes -/

theorem packBits_length (n : Nat) : ∀ l : List Bool, l.length = 8 * n → (packBits l).length = n := by
  induction n with
  | zero =>
    intro l hl
    obtain rfl := List.length_eq_zero_iff.mp hl
    rfl
  | succ n ih =>
    rintro (_ | ⟨a, _ | ⟨b, _ | ⟨c, _ | ⟨d, _ | ⟨e, _ | ⟨f, _ | ⟨g, _ | ⟨h, l⟩⟩⟩⟩⟩⟩⟩⟩) hl <;>
      simp only [List.length_cons, List.length_nil] at hl <;> try omega
    simp only [packBits, List.length_cons, ih l (by omega)]

theorem pack10_length (n : Nat) : ∀ l : List Nat, l.length = 4 * n → (pack10 l).length = 5 * n := by
  induction n with
  | zero =>
    intro l hl
    obtain rfl := List.length_eq_zero_iff.mp hl
    rfl
  | succ n ih =>
    rintro (_ | ⟨a, _ | ⟨b, _ | ⟨c, _ | ⟨d, l⟩⟩⟩⟩) hl <;> simp only [List.length_cons, List.length_nil] at hl <;> try omega
    rw [pack10, List.length_append, le_length, ih l (by omega)]
    omega

theorem stepRow_length (st : Stripe) (m : Int) : (s.stepRow st m).length = 16384 := by
  simp [State.stepRow]

theorem stepMasks_length (st : Stripe) (m : Int) (qs : List Nat) : (s.stepMasks st m qs).length = qs.length := by
  simp [State.stepMasks]

theorem maskBlock_length {ms : List Mask} (h : ms.length = 16384) (d : Nat) : (maskBlock ms d).length = 2048 :=
  packBits_length 2048 _ (by simp [h])

/-- Two depth blocks of the frame ring, of different depths, do not overlap. -/
theorem blockAddr_apart (n n' : Nat) {d d' : Nat} (hd : d < 64) (hd' : d' < 64) (ne : d ≠ d') :
    blockAddr n d + 2048 ≤ blockAddr n' d' ∨ blockAddr n' d' + 2048 ≤ blockAddr n d := by
  unfold blockAddr ringBase
  omega

/-- The frame ring ends before the journal. -/
theorem blockAddr_lt_journal (n : Nat) {d : Nat} (hd : d < 64) (m : Int) : blockAddr n d + 2048 ≤ journalAddr m := by
  unfold blockAddr ringBase journalAddr journalBase rowBytes
  omega

theorem mem_stepBlocks {st : Stripe} {m : Int} {ms : List Mask} {b : Nat × List Byte} :
    b ∈ st.stepBlocks m ms ↔ b.1 < 64 ∧ st.writesBlock m b.1 = true ∧ b.2 = maskBlock ms b.1 := by
  obtain ⟨d, bs⟩ := b
  simp only [Stripe.stepBlocks, List.mem_map, List.mem_filter, List.mem_range, Prod.mk.injEq]
  constructor
  · rintro ⟨_, ⟨hd, hw⟩, rfl, rfl⟩
    exact ⟨hd, hw, rfl⟩
  · rintro ⟨hd, hw, rfl⟩
    exact ⟨d, ⟨hd, hw⟩, rfl, rfl⟩

/-- HBM3 after step `m` has written its blocks and its journal row. -/
def stepMemory (st : Stripe) (m : Int) (row : List Nat) (ms : List Mask) (hbm : Memory) : Memory :=
  Memory.write (writeBlocks (fun d => blockAddr (st.frameOf m d) d) hbm (st.stepBlocks m ms)) (journalAddr m) (pack10 row)

section

variable {st : Stripe} {m : Int} {row : List Nat} {ms : List Mask} (hrow : row.length = 16384) (hms : ms.length = 16384)
include hrow hms

omit hrow in
theorem stepMemory_block (hbm : Memory) {d i : Nat} (hd : d < 64) (written : st.writesBlock m d = true) (hi : i < 2048) :
    Memory.byte (stepMemory st m row ms hbm) (blockAddr (st.frameOf m d) d + i) = (maskBlock ms d).getD i 0#8 := by
  have below := blockAddr_lt_journal (st.frameOf m d) hd m
  have len (d : Nat) := maskBlock_length hms d
  have apart : (st.stepBlocks m ms).Pairwise (fun b c =>
      blockAddr (st.frameOf m b.1) b.1 + b.2.length ≤ blockAddr (st.frameOf m c.1) c.1 ∨
      blockAddr (st.frameOf m c.1) c.1 + c.2.length ≤ blockAddr (st.frameOf m b.1) b.1) := by
    refine List.pairwise_map.mpr (List.Pairwise.imp_of_mem ?_ (List.nodup_range.filter _))
    intro b c hb hc ne
    obtain ⟨hb, -⟩ := List.mem_filter.mp hb
    obtain ⟨hc, -⟩ := List.mem_filter.mp hc
    simp only [len]
    exact blockAddr_apart _ _ (List.mem_range.mp hb) (List.mem_range.mp hc) ne
  unfold stepMemory
  rw [Memory.byte_write_outside _ _ _ _ (.inl (by omega))]
  exact byte_writeBlocks_inside (fun d => blockAddr (st.frameOf m d) d) _ hbm apart (b := (d, maskBlock ms d))
    (mem_stepBlocks.mpr ⟨hd, written, rfl⟩) (by rw [len]; exact hi)

omit hms in
theorem stepMemory_journal (hbm : Memory) {i : Nat} (hi : i < rowBytes) :
    Memory.byte (stepMemory st m row ms hbm) (journalAddr m + i) = (pack10 row).getD i 0#8 := by
  have len : (pack10 row).length = rowBytes := pack10_length 4096 row hrow
  rw [List.getD_eq_getElem _ _ (by omega)]
  exact Memory.byte_write_inside _ _ i _ (by omega)

theorem stepMemory_elsewhere (hbm : Memory) {a : Nat}
    (blocks : ∀ d, d < 64 → st.writesBlock m d = true →
      a < blockAddr (st.frameOf m d) d ∨ blockAddr (st.frameOf m d) d + 2048 ≤ a)
    (journal : a < journalAddr m ∨ journalAddr m + rowBytes ≤ a) :
    Memory.byte (stepMemory st m row ms hbm) a = Memory.byte hbm a := by
  have len : (pack10 row).length = rowBytes := pack10_length 4096 row hrow
  unfold stepMemory
  rw [Memory.byte_write_outside _ _ _ _ (by rwa [len])]
  refine byte_writeBlocks_outside _ _ hbm a fun b hb => ?_
  obtain ⟨hd, hw, hbs⟩ := mem_stepBlocks.mp hb
  rw [hbs, maskBlock_length hms]
  exact blocks _ hd hw

end

/-! ### The signatures of a step (R356)

A vote that closes in agreement withholds and rewrites nothing. -/

/-- What signing a step leaves: the memories, the stripe, SCH_STEP. -/
structure Signs (s t : State) : Prop where
  memories : SameMemories s t
  stripe : t.stripe = s.stripe
  step : t.reg SCH_STEP.STEP = s.reg SCH_STEP.STEP

theorem Signs.refl (s : State) : Signs s s := ⟨⟨rfl, rfl, rfl⟩, rfl, rfl⟩

theorem Signs.trans {s t u : State} (h : Signs s t) (k : Signs t u) : Signs s u :=
  ⟨h.memories.trans k.memories, k.stripe.trans h.stripe, k.step.trans h.step⟩

theorem signs_setReg {f : Field} (hf : f.key ≠ SCH_STEP.STEP.key) (v : Nat) : Signs s (s.setReg f v) :=
  ⟨⟨rfl, rfl, rfl⟩, rfl, reg_setReg_ne s v hf⟩

theorem signs_count (b ev n : Nat) : Signs s (s.count b ev n) :=
  ⟨(readsOnly_count s b ev n).sameMemories, count_stripe s b ev n, count_reg s b ev n _⟩

theorem signs_slots (st c n : Nat) : Signs s (s.slots st c n) :=
  ⟨(readsOnly_slots s st c n).sameMemories, (readsOnly_slots s st c n).stripe,
    (readsOnly_slots s st c n).regs _ (by decide)⟩

@[simp] theorem wakeBlock_host (k : Nat) : (s.wakeBlock k).host = s.host := (readsOnly_wakeBlock s k).sameMemories.1

@[simp] theorem naluSend_host (m : NaluMsg) : (s.naluSend m).host = s.host := by
  unfold State.naluSend
  split
  · rw [wakeBlock_host, count_host]
  · rfl

theorem sameMemories_naluSend (m : NaluMsg) : SameMemories s (s.naluSend m) :=
  ⟨naluSend_host s m, naluSend_hbm s m, naluSend_flash s m⟩

theorem signs_naluSend (m : NaluMsg) : Signs s (s.naluSend m) :=
  ⟨sameMemories_naluSend s m, naluSend_stripe s m, by rw [State.reg, State.reg, naluSend_regs]⟩

theorem signs_dropVote (m : Int) : Signs s (s.dropVote m) := ⟨⟨rfl, rfl, rfl⟩, rfl, rfl⟩
theorem signs_modVote (m : Int) (f : Vote → Vote) : Signs s (s.modVote m f) := ⟨⟨rfl, rfl, rfl⟩, rfl, rfl⟩

theorem signs_openVote (m : Int) : Signs s (s.openVote m) := by
  unfold State.openVote
  split
  · exact .refl s
  · exact ⟨⟨rfl, rfl, rfl⟩, rfl, rfl⟩

/-- Signatures differ in no written block when their mask is 0. -/
theorem blocks_eq_of_sigMask {st : Stripe} {m : Int} {a b : Sig} (h : st.sigMask m a b = 0) {d : Nat} (hd : d < 64)
    (written : st.writesBlock m d = true) : a.blocks.getD d 0 = b.blocks.getD d 0 := by
  have zero := (List.sum_eq_zero_iff.mp h) _ (List.mem_map.mpr ⟨d, List.mem_range.mpr hd, rfl⟩)
  simpa [written, b2n] using zero

theorem itemVerdict_same (l round : Nat) (rs : List (Nat × Nat)) : itemVerdict l l round rs = some 0 := by
  cases rs <;> simp [itemVerdict]

/-- A vote whose signatures agree closes with the verdict 0 on the dose row and on every block. -/
theorem closing_agreed {v : Vote} {st : Stripe} {a b : Sig} (mine : v.mine = some a) (theirs : v.theirs = some b)
    (dose : a.dose = b.dose) (blocks : st.sigMask v.step a b = 0) : v.closing false st = (0, List.replicate 64 0) := by
  have sides : v.sides false =
      some ((a, b), (v.myResults.zip v.theirResults).map (fun r => leadFirst false r.1 r.2)) := by
    simp [Vote.sides, mine, theirs, leadFirst]
  have doseAgreed : v.doseVerdict false = some 0 := by
    simp [Vote.doseVerdict, sides, dose, itemVerdict_same]
  have blockAgreed (d : Nat) (hd : d < 64) (hw : st.writesBlock v.step d = true) :
      v.blockVerdict false true d = some 0 := by
    simp only [Vote.blockVerdict, sides, doseAgreed, blocks_eq_of_sigMask blocks hd hw]
    simp [itemVerdict_same]
  unfold Vote.closing
  simp only [doseAgreed, Option.getD_some, Prod.mk.injEq, true_and]
  refine List.eq_replicate_iff.mpr ⟨by simp, fun x hx => ?_⟩
  obtain ⟨d, hd, rfl⟩ := List.mem_map.mp hx
  by_cases hw : st.writesBlock v.step d = true
  · simp [hw, blockAgreed d (List.mem_range.mp hd) hw]
  · simp [hw]

/-- The verdict 0 throughout rewrites nothing, withholds nothing and raises no event. -/
theorem signs_applyVerdict_agreed (st : Stripe) (v : Vote) :
    Signs s (s.applyVerdict st v 0 (List.replicate 64 0)) := by
  have nowhere (k : Nat) (hk : k ≠ 0) :
      (List.range 64).filter (fun d => (List.replicate 64 0).getD d 0 == k) = [] := by
    refine List.filter_eq_nil_iff.mpr fun d hd => ?_
    rw [List.getD_eq_getElem _ _ (by simpa using hd), List.getElem_replicate]
    simpa using hk.symm
  have win : (if s.isMirror = true then 1 else 2) ≠ 0 := by split <;> decide
  have others (k : Nat) (hk : k ≠ 0) : (List.replicate 64 0).contains k = false := by
    simpa using hk
  unfold State.applyVerdict
  extract_lets w lost gone margin s1 decided s2 s3 s4
  have regs : Signs s s2 := (signs_setReg s (by decide) _).trans (signs_setReg s1 (by decide) _)
  have nothing : s3 = s2 := by
    have hlost : lost = [] := nowhere _ win
    have hgone : gone = [] := nowhere 3 (by decide)
    simp [s3, hlost, hgone, State.rewriteAll, List.range_succ]
  have silent : s3.voteEvents v 0 (List.replicate 64 0) = s3 := by
    simp [State.voteEvents]
  have dropped : Signs s s4 := by
    have h : s4 = s2.dropVote v.step := by dsimp only [s4]; rw [silent, nothing]
    rw [h]
    exact regs.trans (signs_dropVote s2 _)
  rw [if_neg (by rw [others w win]; simpa using win.symm)]
  exact dropped

theorem signs_startRound (m : Int) (k kind mask : Nat) : Signs s (s.startRound m k kind mask) :=
  (signs_modVote s m _).trans (signs_naluSend _ _)

theorem signs_compareSigs (m : Int) : Signs s (s.compareSigs m) := by
  unfold State.compareSigs
  split
  · next st v held vote =>
    split
    · next a b mine theirs =>
      extract_lets mask s1
      have step : v.step = m := by simpa using List.find?_some vote
      split
      · exact .refl s
      · split
        · next agree =>
          split
          · exact .refl s
          · obtain ⟨dose, blocks⟩ : a.dose = b.dose ∧ mask = 0 := by simpa using agree
            subst step
            unfold State.closeVote
            rw [closing_agreed mine theirs dose blocks]
            exact (signs_naluSend s _).trans (signs_applyVerdict_agreed _ st v)
        · exact ((signs_setReg s (by decide) _).trans (signs_count _ 11 0x12 1)).trans (signs_startRound s1 _ _ _ _)
    · exact .refl s
  · exact .refl s

theorem signs_signStep (m : Int) (sig : Sig) (n : Nat) : Signs s (s.signStep m sig n) :=
  ((((signs_openVote s m).trans (signs_naluSend _ _)).trans (signs_modVote _ m _)).trans (signs_count _ 12 0x11 _)).trans
    (signs_compareSigs _ m)

/-! ### A step ends -/

theorem stepRow_congr {s t : State} (h : t.hbm = s.hbm) (st : Stripe) (m : Int) : t.stepRow st m = s.stepRow st m := by
  unfold State.stepRow State.pixelDose
  rw [h]

theorem stepMasks_congr {s t : State} (tabLive : t.tabLive = s.tabLive) (live : t.live = s.live) (st : Stripe) (m : Int)
    (qs : List Nat) : t.stepMasks st m qs = s.stepMasks st m qs := by
  unfold State.stepMasks State.slats State.lv
  rw [tabLive, live]

/-- The stripe after its entry step `m`. -/
def Stripe.stepped (st : Stripe) (m : Int) : Stripe :=
  { st with stepBusy := none, stepsDone := m + 1, st := if m = st.lastStep && st.st == .run then .tail else st.st }

theorem unsgn_lt (w : Nat) (m : Int) : unsgn w m < 2 ^ w := by
  unfold unsgn
  have : (0 : Int) < 2 ^ w := by positivity
  have h := Int.emod_lt_of_pos m this
  have h' := Int.emod_nonneg m this.ne'
  exact_mod_cast (Int.toNat_lt h').mpr (by exact_mod_cast h)

/-- The state once a step has written its blocks and its journal row. -/
def State.stepWrites (s : State) (st : Stripe) (m : Int) (row : List Nat) (ms : List Mask) : State :=
  ((st.stepBlocks m ms).foldl (fun s b => s.hbmWrite (blockAddr (st.frameOf m b.1) b.1) b.2) s).hbmWrite (journalAddr m)
    (pack10 row)

theorem stepWrites_writes (st : Stripe) (m : Int) (row : List Nat) (ms : List Mask) :
    WritesOnly (stepMemory st m row ms s.hbm) s (s.stepWrites st m row ms) := by
  have blocks := foldl_hbmWrite_writes s (fun d => blockAddr (st.frameOf m d) d) (st.stepBlocks m ms)
  have journal := hbmWrite_writes ((st.stepBlocks m ms).foldl
    (fun s b => s.hbmWrite (blockAddr (st.frameOf m b.1) b.1) b.2) s) (journalAddr m) (pack10 row)
  rw [blocks.hbm] at journal
  exact blocks.trans journal

/-- After its writes a step ends in the stripe and in SCH_STEP, counts, and is signed in a pair. -/
theorem signs_stepEnds (st : Stripe) (m : Int) :
    Signs (((s.stepWrites st m (s.stepRow st m) (s.stepMasks st m (s.stepRow st m))).modStripe (·.stepped m)).setReg
      SCH_STEP.STEP (unsgn 32 m)) (s.stepEnds st m) := by
  unfold State.stepEnds
  extract_lets row ms bs s1 s2 s3 s4 s5 s6
  have stepped : s3 = (s.stepWrites st m row ms).modStripe (·.stepped m) := rfl
  have counted : Signs (s3.setReg SCH_STEP.STEP (unsgn 32 m)) s6 :=
    (((signs_setReg _ (f := SCH_SHORT.COUNT) (by decide) _).trans
      (signs_setReg s4 (f := SCH_OVER.COUNT) (by decide) _)).trans (signs_count s5 7 0x10 16384)).trans
      (signs_slots _ 4 0 16384)
  rw [stepped] at counted
  split
  · exact counted.trans (signs_signStep s6 m _ _)
  · exact counted

/-- What the end of a step leaves. -/
theorem stepEnds_spec {st : Stripe} (held : s.stripe = some st) (m : Int) {row : List Nat} (hrow : s.stepRow st m = row)
    {ms : List Mask} (hms : s.stepMasks st m row = ms) :
    let t := s.stepEnds st m
    t.host = s.host ∧ t.flash = s.flash ∧ t.hbm = stepMemory st m row ms s.hbm ∧
      t.reg SCH_STEP.STEP = unsgn 32 m ∧ t.stripe = some (st.stepped m) := by
  subst hrow hms
  have written := stepWrites_writes s st m (s.stepRow st m) (s.stepMasks st m (s.stepRow st m))
  have signed := signs_stepEnds s st m
  obtain ⟨host, hbm, flash⟩ := signed.memories
  rw [setReg_host, modStripe_host, written.host] at host
  rw [setReg_hbm, modStripe_hbm, written.hbm] at hbm
  rw [setReg_flash, modStripe_flash, written.flash] at flash
  have step := signed.step
  rw [reg_setReg_same, Nat.mod_eq_of_lt (show _ < 2 ^ SCH_STEP.STEP.width from unsgn_lt 32 m)] at step
  have stripe := signed.stripe
  rw [setReg_stripe, modStripe_stripe, written.stripe, held, Option.map_some] at stripe
  exact ⟨host, flash, hbm, step, stripe⟩

end Sys2Proof.Machine

end

/-! ## What ends a stripe from inside, on a chip alone (R201, R301, R362) -/

section

namespace Sys2Proof.Machine

variable {s : State}

theorem stripe_of_liveStripe {st : Stripe} (h : s.liveStripe = some st) : s.stripe = some st :=
  (Option.filter_eq_some_iff.mp h).1

/-- A chip at work serves its rings, holds at no finding and is not fenced. -/
theorem working_iff : s.working = true ↔ s.serviced = true ∧ s.holding = false ∧ s.fence = none := by
  simp [State.working, and_assoc]

theorem calm_postEvents (s : State) (evs : List Event) : Calm s (s.postEvents evs) :=
  .foldl (fun s _ => calm_postOnce s _ _ _ _ _) evs s

theorem keeps_postEvents (s : State) (evs : List Event) : Keeps s (s.postEvents evs) :=
  .foldl _ (fun s _ => keeps_postOnce s _ _ _ _ _) evs s

/-- Without a partner to carry the stripe a cause ends it at once. -/
theorem finding_alone (active : s.stripeActive = true) (alone : s.covered = false) (f : Finding) :
    s.finding f = s.endFor f := by
  simp [State.finding, active, alone]

/-- The events of a finding are posted before the abort. -/
theorem endFor_eq (s : State) (f : Finding) :
    ∃ u, Calm s u ∧ Keeps s u ∧ s.endFor f = u.abortStripe f.cause :=
  ⟨{ s with nlk := { s.nlk with myFindings := [], theirFindings := [] } }.postEvents f.posts,
    Calm.trans .update (calm_postEvents _ f.posts),
    Keeps.trans (.of_same ⟨rfl, rfl, rfl⟩) (keeps_postEvents _ f.posts), rfl⟩

theorem AbortedBy.of_keeps {cause : Nat} {u t : State} (h : AbortedBy cause u t) (keeps : Keeps s u)
    (stripe : u.stripe = s.stripe) : AbortedBy cause s t := by
  obtain ⟨g, reg, hbm, aborted⟩ := h
  exact ⟨g, reg, hbm.trans keeps.1, stripe ▸ aborted⟩

/-- A finding ends a stripe in RUN or TAIL with its cause. -/
theorem endFor_flashing {st : Stripe} (held : s.stripe = some st) (flashing : st.flashing = true) (f : Finding)
    (small : f.cause < 256) : AbortedBy f.cause s (s.endFor f) := by
  obtain ⟨u, calm, keeps, eq⟩ := endFor_eq s f
  rw [eq]
  exact (abortWith_flashing (calm.stripe.trans held) flashing true small).of_keeps keeps calm.stripe

end Sys2Proof.Machine

end

section

namespace Sys2Proof.Machine

variable {s : State} {st : Stripe}

/-! ### A step begins -/

/-- The band of step `m` that is late, with its stage. -/
def State.lateBand (s : State) (st : Stripe) (m : Int) : Option (Nat × Nat) :=
  ((st.bandAt m).map (fun b => (b, s.lateStage st b))).filter (fun l => l.2 ≠ 0)

theorem exec_entryStepBegin (live : s.liveStripe = some st) (working : s.working = true) (idle : st.stepBusy = none)
    (due : st.stepDue st.stepNext = true) : exec .entryStepBegin s = .next (match s.lateBand st st.stepNext with
      | some l => if st.stepNext < 0 then s else s.inputLate st st.stepNext l.1 l.2
      | none => s.modStripe (fun st' => { st' with stepBusy := some st.stepNext, stepNext := st.stepNext + 1 })) := by
  show execEntryStepBegin s = _
  unfold execEntryStepBegin
  simp only [live, working, idle, due, Option.isSome_none, Bool.not_true, Bool.or_self, Bool.false_eq_true, if_false]
  rfl

theorem lateBand_none (h : ∀ b, st.bandAt st.stepNext = some b → s.lateStage st b = 0) :
    s.lateBand st st.stepNext = none := by
  unfold State.lateBand
  cases band : st.bandAt st.stepNext with
  | none => rfl
  | some b => simp [h b band]

theorem lateBand_some {b : Nat} (band : st.bandAt st.stepNext = some b) (late : s.lateStage st b ≠ 0) :
    s.lateBand st st.stepNext = some (b, s.lateStage st b) := by
  simp [State.lateBand, band, late]

/-- A step that is due at or after flash 0 is one of a stripe in RUN. -/
theorem run_of_stepDue {m : Int} (due : st.stepDue m = true) (fired : 0 ≤ m) : st.st = .run := by
  simp only [Stripe.stepDue, not_lt.mpr fired, if_false, Bool.and_eq_true, beq_iff_eq] at due
  exact due.2.1

/-- In RUN an incomplete band ends the stripe of a chip alone (R201). -/
theorem inputLate_aborts (held : s.stripe = some st) (run : st.st = .run) (g : s.g = .run) (alone : s.covered = false)
    (m : Int) (b stage : Nat) : AbortedBy 0x03 s (s.inputLate st m b stage) := by
  unfold State.inputLate
  extract_lets s1 ev
  have shown : Calm s s1 := ((calm_setReg s (f := PRS_STATUS.ACTIVE) (by decide) 0).trans
    (calm_setReg _ (f := PRS_STATUS.LAST_STATUS) (by decide) 0x04)).trans
    (calm_setReg _ (f := PRS_STATUS.LAST_REASON) (by decide) stage)
  have active : s1.stripeActive = true := by rw [State.stripeActive, shown.g, g]
  rw [finding_alone active alone]
  exact (endFor_flashing (shown.stripe.trans held) (by simp [Stripe.flashing, run]) _ (show 3 < 256 by decide)).of_keeps
    (.of_same ⟨rfl, rfl, rfl⟩) shown.stripe

/-! ### A step ends -/

theorem exec_entryStepComplete (live : s.liveStripe = some st) (working : s.working = true) {m : Int}
    (busy : st.stepBusy = some m) {ecc : EccReads} (clean : ecc.bad = none) :
    ∃ u, ReadsOnly s u ∧ exec (.entryStepComplete ecc) s = .next (u.stepEnds st m) := by
  obtain ⟨u, reads, eq⟩ := regionRead_clean (s.wakeBlock 7) clean 8 (doseAddr 0 0) 0x2800000 (fun s => s.stepEnds st m)
  refine ⟨u, (readsOnly_wakeBlock s 7).trans reads, ?_⟩
  show execEntryStepComplete ecc s = _
  unfold execEntryStepComplete
  simp only [live, busy, working, if_true, eq]

/-! ### A repayment is written -/

theorem exec_repaymentWrite (live : s.liveStripe = some st) (working : s.working = true) {r : Repay} {rest : List Repay}
    (owed : st.ledger.writes = r :: rest) {ecc : EccReads} (clean : ecc.bad = none) :
    ∃ u, ReadsOnly s u ∧ exec (.repaymentWrite ecc) s = .next (u.repay r) := by
  obtain ⟨u, reads, eq⟩ := portRead_clean (s.wakeBlock 7) clean 2 (blockAddr r.frame r.depth) 2048 (fun s => s.repay r)
  refine ⟨u, (readsOnly_wakeBlock s 7).trans reads, ?_⟩
  have writes : s.ledger.writes = r :: rest := by simp [State.ledger, stripe_of_liveStripe live, owed]
  obtain ⟨serviced, -⟩ := working_iff.mp working
  show execRepaymentWrite ecc s = _
  unfold execRepaymentWrite
  simp only [live, serviced, Option.isSome_some, Bool.and_self, if_true, writes, eq]

@[simp] theorem reg_modStripe (s : State) (f : Stripe → Stripe) (x : Field) : (s.modStripe f).reg x = s.reg x := rfl

/-- The stripe after a repayment has landed. -/
def Stripe.repay (st : Stripe) (r : Repay) : Stripe :=
  { st with repaid := st.repaid + 1
            ledger := { st.ledger with writes := st.ledger.writes.erase r, repaid := st.ledger.repaid ++ [r] } }

/-- A repayment sets its bit in the frame ring, leaves the ledger and is counted. -/
theorem repay_spec (s : State) (r : Repay) : ∃ u, WritesOnly (Memory.write s.hbm (blockAddr r.frame r.depth + r.louver / 8)
      [Memory.byte s.hbm (blockAddr r.frame r.depth + r.louver / 8) ||| BitVec.ofNat 8 (2 ^ (r.louver % 8))]) s u ∧
    s.repay r = ((u.modStripe (·.repay r)).setReg SCH_REPAID.COUNT (s.reg SCH_REPAID.COUNT + 1)).count 7 0x12 1 := by
  have written := hbmWrite_writes s (blockAddr r.frame r.depth + r.louver / 8)
    [Memory.byte s.hbm (blockAddr r.frame r.depth + r.louver / 8) ||| BitVec.ofNat 8 (2 ^ (r.louver % 8))]
  refine ⟨s.setFrameBit r.frame r.depth r.louver, written, ?_⟩
  have stripe (u : State) : (u.modLedger (fun l => { l with writes := l.writes.erase r, repaid := l.repaid ++ [r] })).modStripe
      (fun st => { st with repaid := st.repaid + 1 }) = u.modStripe (·.repay r) := by
    simp only [State.modLedger, State.modStripe, Option.map_map]
    rfl
  unfold State.repay
  extract_lets s1 s2 s3
  have h3 : s3 = s1.modStripe (·.repay r) := stripe s1
  have count : s3.reg SCH_REPAID.COUNT = s.reg SCH_REPAID.COUNT := by rw [h3]; exact written.reg _
  rw [count, h3]

/-- The bit that is or-ed into a byte is set. -/
theorem bit_or_self (b : Byte) {i : Nat} (hi : i < 8) : bit (b ||| BitVec.ofNat 8 (2 ^ i)).toNat i = true := by
  have small : 2 ^ i < 2 ^ 8 := Nat.pow_lt_pow_right (by decide) hi
  rw [bit, BitVec.toNat_or, BitVec.toNat_ofNat, Nat.mod_eq_of_lt small, Nat.testBit_or, Nat.testBit_two_pow_self,
    Bool.or_true]

theorem byte_write_single (m : Memory) (a : Nat) (b : Byte) : Memory.byte (Memory.write m a [b]) a = b :=
  Memory.byte_write_inside m a 0 [b] (by simp)

/-! ### The obligation's clauses -/

theorem entryStepBegin_spec (live : s.liveStripe = some st) (working : s.working = true) (idle : st.stepBusy = none)
    (due : st.stepDue st.stepNext = true) :
    ((∀ b, st.bandAt st.stepNext = some b → s.lateStage st b = 0) → exec .entryStepBegin s = .next
      (s.modStripe (fun st => { st with stepBusy := some st.stepNext, stepNext := st.stepNext + 1 }))) ∧
    (∀ b, st.bandAt st.stepNext = some b → s.lateStage st b ≠ 0 →
      (st.stepNext < 0 → exec .entryStepBegin s = .next s) ∧
      (0 ≤ st.stepNext → s.covered = false → s.g = .run → ∃ t, exec .entryStepBegin s = .next t ∧ AbortedBy 0x03 s t)) := by
  rw [exec_entryStepBegin live working idle due]
  refine ⟨fun complete => ?_, fun b band late => ⟨fun before => ?_, fun fired alone g => ?_⟩⟩
  · rw [lateBand_none complete]
    unfold State.modStripe
    rw [stripe_of_liveStripe live]
    rfl
  · rw [lateBand_some band late]
    simp only [before, if_true]
  · rw [lateBand_some band late]
    simp only [not_lt.mpr fired, if_false]
    exact ⟨_, rfl, inputLate_aborts (stripe_of_liveStripe live) (run_of_stepDue due fired) g alone _ _ _⟩

theorem entryStepComplete_spec (live : s.liveStripe = some st) (working : s.working = true) {m : Int}
    (busy : st.stepBusy = some m) {ecc : EccReads} (clean : ecc.bad = none) :
    ∃ t, exec (.entryStepComplete ecc) s = .next t ∧ t.host = s.host ∧ t.flash = s.flash ∧
      t.hbm = stepMemory st m (s.stepRow st m) (s.stepMasks st m (s.stepRow st m)) s.hbm ∧
      t.reg SCH_STEP.STEP = unsgn 32 m ∧ t.stripe = some (st.stepped m) := by
  obtain ⟨u, reads, eq⟩ := exec_entryStepComplete live working busy clean
  obtain ⟨host, hbm, flash⟩ := reads.sameMemories
  have ends := stepEnds_spec u (reads.stripe.trans (stripe_of_liveStripe live)) m (stepRow_congr hbm st m)
    (stepMasks_congr reads.tabLive reads.live st m _)
  rw [host, hbm, flash] at ends
  exact ⟨_, eq, ends⟩

theorem repaymentWrite_spec (live : s.liveStripe = some st) (working : s.working = true) {r : Repay} {rest : List Repay}
    (owed : st.ledger.writes = r :: rest) {ecc : EccReads} (clean : ecc.bad = none) :
    let a := blockAddr r.frame r.depth + r.louver / 8
    ∃ t, exec (.repaymentWrite ecc) s = .next t ∧ t.host = s.host ∧ t.flash = s.flash ∧
      t.hbm = Memory.write s.hbm a [Memory.byte s.hbm a ||| BitVec.ofNat 8 (2 ^ (r.louver % 8))] ∧
      RegsBut (SCH_REPAID.COUNT :: eccFields) s t ∧ t.stripe = some (st.repay r) := by
  obtain ⟨u, reads, eq⟩ := exec_repaymentWrite live working owed clean
  obtain ⟨v, written, repaid⟩ := repay_spec u r
  refine ⟨_, eq, ?_⟩
  rw [repaid]
  obtain ⟨host, hbm, flash⟩ := reads.sameMemories
  refine ⟨?_, ?_, ?_, fun f hf => ?_, ?_⟩
  · rw [count_host, setReg_host, modStripe_host, written.host, host]
  · rw [count_flash, setReg_flash, modStripe_flash, written.flash, flash]
  · rw [count_hbm, setReg_hbm, modStripe_hbm, written.hbm, hbm]
  · have ne := (List.ne_of_not_mem_cons hf).symm
    rw [count_reg, reg_setReg_ne _ _ ne, reg_modStripe, written.reg,
      reads.regs f (List.not_mem_of_not_mem_cons hf)]
  · rw [count_stripe, setReg_stripe, modStripe_stripe, written.stripe, reads.stripe, stripe_of_liveStripe live,
      Option.map_some]

end Sys2Proof.Machine

end

section

open Sys2Proof.Machine

/-- Settles O43, clause by clause: `entryStepBegin_spec`, the memory that a step writes (`stepMemory`), and a
repayment's single byte. -/
theorem entrySteps : Obligations.EntrySteps := by
  intro s st live working
  refine ⟨entryStepBegin_spec live working, fun m ecc busy clean => ?_, fun r rest ecc owed louver clean => ?_⟩
  · obtain ⟨t, eq, host, flash, hbm, step, stripe⟩ := entryStepComplete_spec live working busy clean
    have hrow := stepRow_length s st m
    have hms := (stepMasks_length s st m (s.stepRow st m)).trans hrow
    refine ⟨t, eq, host, flash, step, ⟨_, stripe, rfl, rfl, rfl, rfl, by simp [Stripe.stepped]⟩, ?_, ?_, ?_⟩ <;>
      rw [hbm]
    · exact fun d i hd written hi => stepMemory_block hms _ hd written hi
    · exact fun i hi => stepMemory_journal hrow _ hi
    · exact fun a blocks journal => stepMemory_elsewhere hrow hms _ blocks journal
  · obtain ⟨t, eq, host, flash, hbm, regs, stripe⟩ := repaymentWrite_spec live working owed clean
    refine ⟨t, eq, ?_, fun a ha => ?_, host, flash, regs, _, stripe, ?_, rfl, rfl, rfl⟩
    · rw [frameBit, hbm, byte_write_single]
      exact bit_or_self _ (Nat.mod_lt _ (by decide))
    · rw [hbm]
      exact Memory.byte_write_outside _ _ _ _ (by simp only [List.length_singleton]; omega)
    · simp [Stripe.repay, owed]

end

/-! ## Host memory under a device event, and a fence that follows an uncorrectable read (R75, R284) -/

section

namespace Sys2Proof.Machine

variable (s : State)

theorem ReadsOnly.calm {s t : State} (h : ReadsOnly s t) : Calm s t :=
  ⟨(congrArg State.calm h.unread :), h.regs _ (by decide)⟩

theorem ReadsOnly.keeps {s t : State} (h : ReadsOnly s t) : Keeps s t := .of_same h.sameMemories

@[simp] theorem holdEvent_host (e : Nat) (ev : Event) : (s.holdEvent e ev).host = s.host := by
  unfold State.holdEvent
  split <;> rfl

/-- An event that is posted changes host memory at most in the next slot of the device event ring. -/
theorem postDev_host (code status info d0 d1 a : Nat) (h : a < s.devSlot ∨ s.devSlot + 32 ≤ a) :
    Memory.byte (s.postDev code status info d0 d1).host a = Memory.byte s.host a := by
  unfold State.postDev
  extract_lets ev c
  have host : c.host = s.host := count_host s _ _ _
  have slot : c.devSlot = s.devSlot := by
    simp only [State.devSlot, State.devEq, State.evRing, c, count_reg, count_hif]
  rw [← slot] at h
  split
  · rfl
  · rfl
  · split <;> exact congrArg (Memory.byte · a) host
  · split
    · split
      · rw [naluSend_host, host]
      · rw [holdEvent_host, host]
    · exact (putEvent_host c _ ev a h).trans (congrArg (Memory.byte · a) host)

theorem memoriesBut_postOnce (code status info d0 d1 : Nat) :
    MemoriesBut s.devSlot s (s.postOnce code status info d0 d1) := by
  refine ⟨postOnce_hbm s _ _ _ _ _, postOnce_flash s _ _ _ _ _, fun a h => ?_⟩
  unfold State.postOnce
  split
  · rfl
  · exact postDev_host s _ _ _ _ _ a h

/-- The link's stop and the events that follow a fence leave it. -/
theorem steady_fencing (cause : Nat) (hard : Bool) :
    Steady { s with fence := some ⟨cause, hard⟩ } (s.setFence cause hard) := by
  unfold State.setFence
  extract_lets s1 s2
  have h1 : Steady { s with fence := some ⟨cause, hard⟩ } s1 :=
    (steady_setReg _ (f := NLK_STATE.CAUSE) (by decide) cause).trans
      (calm_addReg _ (f := NLK_LOSSES.FENCES) (by decide) 1).steady
  have h2 : Steady { s with fence := some ⟨cause, hard⟩ } s2 := .ite (fun _ => h1) (fun _ => h1.trans (steady_linkStop s1 .down))
  exact (h2.trans (calm_naluSend s2 _).steady).trans (calm_postDev _ _ _ _ _ _).steady

/-- A fence that LINK_EN does not lift stands through the abort of the stripe. -/
theorem abortWith_fence {s : State} {f : Fence} (fenced : s.fence = some f) (stands : f.cause ≠ 0x08) (toHost : Bool)
    (cause : Nat) : (s.abortWith toHost cause).fence = some f := by
  by_cases h : ∃ st, s.stripe = some st ∧ st.ongoing
  · obtain ⟨st, held, ongoing⟩ := h
    obtain ⟨u, st', -, calm, -, -, eq⟩ := abortWith_cases held ongoing toHost cause
    have kept : u.fence = some f := calm.fence.trans fenced
    rw [eq]
    split
    · exact kept
    · exact (bounded_toIdle u).fence f kept stands
  · rw [abortWith_over s (fun st held ongoing => h ⟨st, held, ongoing⟩), fenced]

/-- A chip in service that is not fenced fences itself; a stripe it holds ends. -/
theorem fenceChip_fence {s : State} (served : s.serviced = true) (free : s.fence = none) {cause : Nat}
    (stands : cause ≠ 0x08) : (s.fenceChip cause).fence = some ⟨cause, false⟩ := by
  have awake : s.g ≠ .off ∧ s.g ≠ .safe := by
    constructor <;> intro h <;> simp [State.serviced, h] at served
  have fenced : (s.setFence cause false).fence = some ⟨cause, false⟩ := (steady_fencing s cause false).fence _ rfl stands
  unfold State.fenceChip
  rw [if_neg (by simp [awake.1, awake.2, free])]
  extract_lets covered t
  split
  · exact fenced
  · split
    · exact abortWith_fence fenced stands true 0x0E
    · split
      · exact (bounded_boundary _).fence _ fenced stands
      · exact fenced

/-- A read with an uncorrectable word fences the chip with cause 0x01 and leaves HBM3 (R284). -/
theorem portRead_bad {s : State} (served : s.serviced = true) (free : s.fence = none) {ecc : EccReads} {w : EccWord}
    (bad : ecc.bad = some w) {a n : Nat} (within : eccWithin w a n = true) (port : Nat) (k : State → State) :
    (s.portRead port a n ecc k).fence = some ⟨0x01, false⟩ ∧ (s.portRead port a n ecc k).hbm = s.hbm := by
  have reads : ReadsOnly s ((s.count 8 0x10 (granules a n)).eccRead port a n ecc).1 :=
    (readsOnly_count s 8 0x10 _).trans (readsOnly_eccRead _ port a n ecc)
  have found : ((s.count 8 0x10 (granules a n)).eccRead port a n ecc).2 = some w := by
    unfold State.eccRead
    extract_lets
    rw [bad, Option.filter_some, if_pos within]
  unfold State.portRead State.readBy
  extract_lets r
  have recorded : ReadsOnly r.1 ((r.1.addReg HMC_ECC_UE.COUNT 1).eccRecord port 1 w) :=
    (readsOnly_setReg r.1 (f := HMC_ECC_UE.COUNT) (by decide) _).trans (readsOnly_eccRecord _ port 1 w)
  have calm : Calm s (r.1.uncorrectable port w 0x0C) :=
    (reads.trans recorded).calm.trans (calm_postDev _ _ _ _ _ _)
  have keeps : Keeps s (r.1.uncorrectable port w 0x0C) := (reads.trans recorded).keeps.trans (keeps_postDev _ _ _ _ _ _)
  split
  · next none => rw [found] at none; cases none
  · next w' some =>
    obtain rfl : w = w' := Option.some.inj (found.symm.trans some)
    exact ⟨fenceChip_fence (by rw [State.serviced, calm.g]; exact served) (calm.fence.trans free) (by decide),
      (keeps.trans (keeps_fenceChip _ _)).1⟩

/-! ## From ARMED to RUN (R25, R296, R298) -/

theorem sat_lt (w n : Nat) : sat w n < 2 ^ w := by
  have := Nat.two_pow_pos w
  unfold sat
  omega

@[simp] theorem reg_addReg_same (f : Field) (n : Nat) : (s.addReg f n).reg f = sat f.width (s.reg f + n) :=
  (reg_setReg_same s f _).trans (Nat.mod_eq_of_lt (sat_lt _ _))

/-- HMC_STATUS.PANIC alone may change. -/
theorem panic_cases : s.panic = s ∨ ∃ v, s.panic = s.setReg HMC_STATUS.PANIC v := by
  unfold State.panic
  split
  · exact .inl rfl
  · split
    · exact .inr ⟨1, rfl⟩
    · split
      · exact .inr ⟨0, rfl⟩
      · exact .inl rfl

theorem exec_sillFetchDone {s : State} {st : Stripe} {n : Nat} {rest : List Nat} (served : s.serviced = true)
    (live : s.liveStripe = some st) (wanted : st.sillWanted = n :: rest) (free : s.mayFetch st n = true) (ecc : EccReads) :
    exec (.sillFetchDone ecc) s = .next (s.portRead 0 (blockAddr n 0) (sillBytes n) ecc
      (fun s => (s.modStripe (fun st => { st with sill := st.sill ++ [n], sillWanted := rest })).panic)) := by
  show execSillFetchDone ecc s = _
  unfold execSillFetchDone
  simp [live, wanted, served, free]

theorem sillFetchDone_clean {s : State} {st : Stripe} {n : Nat} {rest : List Nat} (served : s.serviced = true)
    (live : s.liveStripe = some st) (wanted : st.sillWanted = n :: rest) (free : s.mayFetch st n = true) {ecc : EccReads}
    (clean : ecc.bad = none) : ∃ t, exec (.sillFetchDone ecc) s = .next t ∧ SameMemories s t ∧ t.g = s.g ∧
      t.stripe = some { st with sill := st.sill ++ [n], sillWanted := rest } := by
  obtain ⟨u, reads, eq⟩ := portRead_clean s clean 0 (blockAddr n 0) (sillBytes n)
    (fun s => (s.modStripe (fun st => { st with sill := st.sill ++ [n], sillWanted := rest })).panic)
  have taken : (u.modStripe (fun st => { st with sill := st.sill ++ [n], sillWanted := rest })).stripe =
      some { st with sill := st.sill ++ [n], sillWanted := rest } := by
    rw [modStripe_stripe, reads.stripe, stripe_of_liveStripe live, Option.map_some]
  rw [exec_sillFetchDone served live wanted free, eq]
  refine ⟨_, rfl, ?_⟩
  obtain h | ⟨v, h⟩ := panic_cases (u.modStripe (fun st => { st with sill := st.sill ++ [n], sillWanted := rest })) <;>
    rw [h]
  · exact ⟨reads.sameMemories, reads.g, taken⟩
  · exact ⟨reads.sameMemories, reads.g, taken⟩

/-! ### SOS is taken -/

/-- What an SOS that is taken finds: `u` is `s` in WAIT_SOS, with the level of STAGE_OK read. -/
structure AtSos (s : State) (st : Stripe) (stageOk : Bool) (u : State) (st' : Stripe) : Prop where
  g : u.g = s.g
  port : u.port = s.port
  regs : u.regs = s.regs
  memories : SameMemories s u
  tabLive : u.tabLive = s.tabLive
  hif : u.hif = s.hif
  nlk : u.nlk = s.nlk
  working : u.working = true
  stageOk : u.aon.stageOk = stageOk
  stripe : u.stripe = some st'
  waits : st'.st = .waitSos
  req : st'.req = st.req
  final : st'.final = st.final
  nextFlash : st'.nextFlash = st.nextFlash
  fired : st'.fired = st.fired

variable {s u : State} {st st' : Stripe} {stageOk : Bool}

theorem AtSos.target (h : AtSos s st stageOk u st') (n : Nat) : u.target st'.req n = s.target st.req n := by
  rw [State.target, State.target, h.tabLive, h.req]

theorem AtSos.devSlot (h : AtSos s st stageOk u st') : u.devSlot = s.devSlot := by
  simp only [State.devSlot, State.devEq, State.evRing, State.reg, h.hif, h.regs]

/-- The levels of SOS and STAGE_OK as the edge brings them. -/
def State.sosBalls (s : State) (ok : Bool) : State := { s with aon := { s.aon with sos := true, stageOk := ok } }

/-- Three ways of an SOS that rises in service. -/
theorem exec_sosRise (served : s.serviced = true) (ok : Bool) : exec (.sosRise ok) s = .next (
    match s.stripe with
    | none => (s.sosBalls ok).addReg EMS_SOS_IGN.COUNT 1
    | some st =>
      if st.st == .armed then (s.sosBalls ok).modStripe (fun st => { st with sosLatched := true })
      else if st.st == .waitSos then (if s.working then (s.sosBalls ok).takeSos st else s.sosBalls ok)
      else (s.sosBalls ok).addReg EMS_SOS_IGN.COUNT 1) := by
  have served' : (s.sosBalls ok).serviced = true := served
  show execSosRise ok s = _
  unfold execSosRise
  extract_lets _ v
  have h : v = s.sosBalls ok := rfl
  rw [h, served']
  rfl

/-- WAIT_SOS with SOS latched takes it at once, an SOS in WAIT_SOS on a chip at work too. -/
theorem exec_enterWaitSos_latched (held : s.stripe = some st) (ready : s.sosReady st = true)
    (latched : st.sosLatched = true) :
    ∃ u st', exec .enterWaitSos s = .next (u.takeSos st') ∧ AtSos s st s.aon.stageOk u st' := by
  have working : s.working = true := by
    simp only [State.sosReady, Bool.and_eq_true] at ready
    tauto
  let st' : Stripe := { st with st := .waitSos, seg := .pending s.port.slots, segEnd := 0, sosLatched := false }
  refine ⟨{ s with stripe := some st' }, st', ?_, rfl, rfl, rfl, ⟨rfl, rfl, rfl⟩, rfl, rfl, rfl, working, rfl, rfl, rfl, rfl, rfl, rfl, rfl⟩
  show execEnterWaitSos s = _
  unfold execEnterWaitSos
  simp only [held, ready, latched, if_true, st']

theorem exec_sosRise_waiting (held : s.stripe = some st) (served : s.serviced = true) (waits : st.st = .waitSos)
    (working : s.working = true) (ok : Bool) :
    ∃ u, exec (.sosRise ok) s = .next (u.takeSos st) ∧ AtSos s st ok u st := by
  refine ⟨s.sosBalls ok, ?_, rfl, rfl, rfl, ⟨rfl, rfl, rfl⟩, rfl, rfl, rfl, working, rfl, held, waits, rfl, rfl, rfl, rfl⟩
  simp [exec_sosRise served, held, waits, working]

/-- The stage is good and the first target lies ahead: RUN, or TAIL of a stripe without a step of its own. -/
theorem takeSos_starts (h : AtSos s st stageOk u st') (ahead : (s.port.yf : Int) < s.target st.req 0)
    (good : stageOk = true) (locked : s.port.locked = true) : ∃ t, u.takeSos st' = t ∧ t.g = .run ∧
      t.port.yf = s.port.y ∧ t.regs = s.regs ∧ SameMemories s t ∧ ∃ st'', t.stripe = some st'' ∧
        st''.st = (if st.lastStep < 0 then .tail else .run) ∧ st''.nextFlash = st.nextFlash ∧ st''.recentOver = [] ∧
        st''.blankRun = 0 ∧ st''.fired = st.fired := by
  refine ⟨_, rfl, ?_⟩
  have last : st'.lastStep = st.lastStep := by rw [Stripe.lastStep, Stripe.lastStep, h.final, h.req]
  unfold State.takeSos
  rw [h.target, h.port, h.stageOk, good, locked, if_neg (not_le.mpr ahead), if_neg (by simp)]
  extract_lets next
  refine ⟨rfl, rfl, h.regs, h.memories,
    { st' with st := next, lastFire := none, recentOver := [], missRun := none, blankRun := 0 }, ?_, ?_, h.nextFlash, rfl,
    rfl, h.fired⟩
  · exact (modStripe_stripe u _).trans (congrArg (Option.map _) h.stripe)
  · simp only [next, last]

/-- Where the stage is not good or the port not locked, the SOS is counted and reported. -/
theorem takeSos_ignored (h : AtSos s st stageOk u st') (ahead : (s.port.yf : Int) < s.target st.req 0)
    (bad : stageOk = false ∨ s.port.locked = false) : ∃ t, u.takeSos st' = t ∧ t.g = s.g ∧
      t.stripe.map (fun x => (x.st, x.req)) = some (.waitSos, st.req) ∧
      t.reg EMS_SOS_IGN.COUNT = sat 16 (s.reg EMS_SOS_IGN.COUNT + 1) ∧ MemoriesBut s.devSlot s t := by
  refine ⟨_, rfl, ?_⟩
  unfold State.takeSos
  rw [h.target, h.port, h.stageOk, if_neg (not_le.mpr ahead), if_pos (by simpa using bad)]
  unfold State.sosIgnored
  have ignored : (u.addReg EMS_SOS_IGN.COUNT 1).devSlot = s.devSlot := by
    rw [← h.devSlot, State.devSlot, State.devSlot, State.devEq, State.devEq, reg_addReg_ne _ _ (by decide)]
    rfl
  refine ⟨?_, ?_, ?_, ?_⟩
  · rw [postOnce_g]
    exact h.g
  · rw [postOnce_stripe, addReg_stripe, h.stripe, Option.map_some, h.waits, h.req]
  · refine (regsButHif_postOnce _ [] _ _ _ _ _ _ List.not_mem_nil (by decide)).trans ?_
    rw [reg_addReg_same, State.reg, State.reg, h.regs]
    rfl
  · have event := memoriesBut_postOnce (u.addReg EMS_SOS_IGN.COUNT 1) 0x52 0x0A 0
      (st'.st.code + b2n u.aon.stageOk * 8 + b2n u.port.locked * 16) st'.req.id
    obtain ⟨host, hbm, flash⟩ := h.memories
    rw [ignored] at event
    exact ⟨event.1.trans hbm, event.2.1.trans flash, fun a ha => (event.2.2 a ha).trans (congrArg (Memory.byte · a) host)⟩

/-- With Yf at or beyond the first target the stripe ends with cause 0x07 on a chip alone. -/
theorem takeSos_late (h : AtSos s st stageOk u st') (late : s.target st.req 0 ≤ (s.port.yf : Int))
    (active : s.stripeActive = true) (alone : s.covered = false) : ∃ t, u.takeSos st' = t ∧
      t.stripe = none ∧ t.g = .ready ∧ t.reg EMS_STATE.CAUSE = 0x07 ∧ t.hbm = s.hbm := by
  refine ⟨_, rfl, ?_⟩
  have active' : u.stripeActive = true := by rw [State.stripeActive, h.g]; exact active
  have alone' : u.covered = false := by simp only [State.covered, State.joined, h.nlk]; exact alone
  unfold State.takeSos State.stripeCause
  rw [h.target, h.port, if_pos late, if_pos h.working, finding_alone active' alone']
  obtain ⟨v, calm, keeps, eq⟩ := endFor_eq u { kind := 2, point := u.nextFlash, code := 0x07, posts := [], cause := 0x07 }
  have held : v.stripe = some st' := calm.stripe.trans h.stripe
  have ended := abortWith_unfired held (by simp [Stripe.ongoing, h.waits]) (by simp [Stripe.flashing, h.waits]) true 0x07
  rw [eq]
  exact ⟨ended.stripe, ended.g, ended.cause.trans (reg_setReg_same _ _ _),
    (keeps.trans (keeps_abortWith v true 0x07)).1.trans h.memories.2.1⟩

/-- An SOS outside ARMED and WAIT_SOS is counted and nothing else. -/
theorem sosRise_elsewhere (served : s.serviced = true) (ok : Bool) (h : s.stripe = none ∨ (∃ st, s.stripe = some st ∧
    (st.st = .run ∨ st.st = .tail ∨ st.st = .done ∨ st.st = .aborted))) :
    ∃ t, exec (.sosRise ok) s = .next t ∧ t.reg EMS_SOS_IGN.COUNT = sat 16 (s.reg EMS_SOS_IGN.COUNT + 1) ∧
      RegsBut [EMS_SOS_IGN.COUNT] s t ∧ t.stripe = s.stripe ∧ t.g = s.g ∧ SameMemories s t := by
  have counted : exec (.sosRise ok) s = .next ((s.sosBalls ok).addReg EMS_SOS_IGN.COUNT 1) := by
    rw [exec_sosRise served]
    obtain none | ⟨st, held, state⟩ := h
    · simp only [none]
    · rw [held]
      obtain state | state | state | state := state <;> simp only [state] <;> rfl
  exact ⟨_, counted, reg_addReg_same _ _ _, regsBut_setReg (List.mem_singleton_self _) _ _, rfl, rfl, rfl, rfl, rfl⟩

end Sys2Proof.Machine

end

section

open Sys2Proof.Machine

/-- Settles O48: the sill by `sillFetchDone_clean` and `portRead_bad`, an SOS that is taken by `AtSos` and the three ways
that `takeSos` has. -/
theorem stripeStarts : Obligations.StripeStarts := by
  refine ⟨fun s st held => ⟨fun n rest ecc served live wanted free => ⟨fun clean => ?_, fun w bad within unfenced => ?_⟩,
    fun ready fresh => ?_, fun unready => ?_, fun ok served armed => ?_, fun i taken => ?_⟩,
    fun s ok served h => sosRise_elsewhere served ok h⟩
  · exact sillFetchDone_clean served live wanted free clean
  · exact ⟨_, exec_sillFetchDone served live wanted free ecc, portRead_bad served unfenced bad within _ _⟩
  · show execEnterWaitSos s = _
    unfold execEnterWaitSos
    simp [held, ready, fresh]
  · show execEnterWaitSos s = _
    unfold execEnterWaitSos
    simp [held, unready]
  · refine ⟨(s.sosBalls ok).modStripe (fun st => { st with sosLatched := true }), ?_, ?_, rfl, rfl, rfl, rfl, rfl⟩
    · simp [exec_sosRise served, held, armed]
    · exact (modStripe_stripe _ _).trans (congrArg (Option.map _) held)
  · dsimp only
    obtain ⟨u, st', stageOk, eq, at', good⟩ : ∃ u st' stageOk, exec i s = .next (u.takeSos st') ∧
        AtSos s st stageOk u st' ∧ (i = .sosRise true ∨ i = .enterWaitSos ∧ s.aon.stageOk = true ↔ stageOk = true) := by
      obtain ⟨rfl, ready, latched⟩ | ⟨level, rfl, served, waits, working⟩ := taken
      · obtain ⟨u, st', eq, at'⟩ := exec_enterWaitSos_latched held ready latched
        exact ⟨u, st', _, eq, at', by simp⟩
      · obtain ⟨u, eq, at'⟩ := exec_sosRise_waiting held served waits working level
        exact ⟨u, st, level, eq, at', by simp⟩
    rw [eq]
    refine ⟨fun ahead yes locked => ?_, fun ahead no => ?_, fun late active alone => ?_⟩
    · obtain ⟨t, rfl, rest⟩ := takeSos_starts at' ahead (good.mp yes) locked
      exact ⟨_, rfl, rest⟩
    · obtain ⟨t, rfl, rest⟩ := takeSos_ignored at' ahead (by simpa [good] using no)
      exact ⟨_, rfl, rest⟩
    · obtain ⟨t, rfl, rest⟩ := takeSos_late at' late active alone
      exact ⟨_, rfl, rest⟩

end

/-! ## COMMIT (R34, R35, R92, R93)

The entry is taken (`Takes`), its set validated in the state as it stood (`exec_commit`), and a set that a boundary
brings makes its fields and tables live (`boundary_brings`). -/

section

namespace Sys2Proof.Machine

variable (s : State)

/-! ### The next entry of a ring is taken -/

/-- The state without what the taking of an entry may change. -/
def State.untaken (s : State) : State := { s with hif := .reset, nlk := .reset, power := [], pmu := .reset }

/-- `u` is `s` after the next entry of ring `q` has been taken and, in a pair, forwarded. -/
structure Takes (q : Nat) (s u : State) : Prop where
  rest : u.untaken = s.untaken
  entries : u.hif.entries = s.hif.entries ++ [s.heldEntry q (s.nextIdx q) (s.nextRaw q)]
  events : u.hif.eq = s.hif.eq
  ringEq : (u.ring q).eq = (s.ring q).eq
  awake : ∀ k, s.pwr k ≠ .off → u.pwr k ≠ .off

theorem wakeBlock_pwr_ne_off (k j : Nat) (h : s.pwr j ≠ .off) : (s.wakeBlock k).pwr j ≠ .off := by
  have set (t : State) (ht : t.power = s.power.set k .run) : t.pwr j ≠ .off := by
    rw [State.pwr, ht]
    rw [State.pwr] at h
    by_cases e : k = j
    · subst e
      by_cases l : k < s.power.length <;> simp_all [List.getD]
    · simpa [List.getD, List.getElem?_set_ne e] using h
  unfold State.wakeBlock
  split
  · exact set _ (by rw [count_power]; rfl)
  · split
    · exact set _ rfl
    · exact h

@[simp] theorem wakeBlock_hif (k : Nat) : (s.wakeBlock k).hif = s.hif := by
  unfold State.wakeBlock
  split
  · rw [count_hif]; rfl
  · split <;> rfl

theorem untaken_count (b ev n : Nat) : (s.count b ev n).untaken = s.untaken := by
  unfold State.count
  split <;> rfl

theorem untaken_wakeBlock (k : Nat) : (s.wakeBlock k).untaken = s.untaken := by
  unfold State.wakeBlock
  split
  · rw [untaken_count]; rfl
  · split <;> rfl

theorem untaken_naluSend (m : NaluMsg) : (s.naluSend m).untaken = s.untaken := by
  unfold State.naluSend
  split
  · rw [untaken_wakeBlock, untaken_count]; rfl
  · rfl

@[simp] theorem naluSend_hif (m : NaluMsg) : (s.naluSend m).hif = s.hif := by
  unfold State.naluSend
  split
  · rw [wakeBlock_hif, count_hif]
  · rfl

theorem naluSend_pwr_ne_off (m : NaluMsg) (k : Nat) (h : s.pwr k ≠ .off) : (s.naluSend m).pwr k ≠ .off := by
  unfold State.naluSend
  split
  · refine wakeBlock_pwr_ne_off _ 11 k ?_
    rw [State.pwr, count_power]
    exact h
  · exact h

theorem modAt_ringEq (q : Nat) (f : SubRing → SubRing) (h : ∀ r, (f r).eq = r.eq) :
    ((s.modRing q f).ring q).eq = (s.ring q).eq := by
  simp only [State.ring, State.modRing, modAt, List.getD_eq_getElem?_getD, List.getElem?_modify_eq]
  cases s.hif.sq[q]? <;> simp [h]

theorem takes_naluSend {q : Nat} {s u : State} (h : Takes q s u) (m : NaluMsg) : Takes q s (u.naluSend m) where
  rest := (untaken_naluSend u m).trans h.rest
  entries := by rw [naluSend_hif, h.entries]
  events := by rw [naluSend_hif, h.events]
  ringEq := by rw [State.ring, naluSend_hif]; exact h.ringEq
  awake k hk := naluSend_pwr_ne_off u m k (h.awake k hk)

theorem takes_count {q : Nat} {s u : State} (h : Takes q s u) (b ev n : Nat) : Takes q s (u.count b ev n) where
  rest := (untaken_count u b ev n).trans h.rest
  entries := by rw [count_hif, h.entries]
  events := by rw [count_hif, h.events]
  ringEq := by rw [State.ring, count_hif]; exact h.ringEq
  awake k hk := by rw [State.pwr, count_power]; exact h.awake k hk

/-- A well-formed COMMIT is copied and validated as it is taken. -/
theorem takeEntry_commit {q : Nat} (well : malformed (s.sqType q) (s.nextRaw q) = false)
    (opc : rawOpc (s.nextRaw q) = 0x60) :
    ∃ u, Takes q s u ∧ s.takeEntry q = u.takeCommit (s.heldEntry q (s.nextIdx q) (s.nextRaw q)) := by
  unfold State.takeEntry
  extract_lets raw r e s1 _ s2 s3
  have taken : Takes q s { s1 with hif := { s1.hif with entries := s1.hif.entries ++ [e] } } :=
    ⟨rfl, rfl, rfl, modAt_ringEq s q _ fun _ => rfl, fun _ h => h⟩
  have h2 : Takes q s s2 := takes_count (takes_count taken 1 0x11 1) 2 0x10 64
  have h3 : Takes q s s3 := by
    dsimp only [s3]
    split
    · exact takes_naluSend h2 _
    · exact h2
  refine ⟨s3, h3, ?_⟩
  have regs : s3.regs = s.regs := (congrArg State.regs h3.rest :)
  have sqType : s3.sqType q = s.sqType q := by rw [State.sqType, State.sqType, State.reg, State.reg, regs]
  rw [sqType, if_neg (by rw [well]; decide), if_pos opc]
  rfl

/-! ### The set is validated -/

/-- A COMMIT passes R117 with no block under test exactly when every block it names is on and not asked to be OFF. -/
theorem gate_commit {raw : List Byte} (opc : rawOpc raw = 0x60) (idle : s.bst.test = none) :
    s.gate raw = .go ↔ ∀ k ∈ targets raw, s.pwr k ≠ .off ∧ s.pwrReq k ≠ 2 := by
  unfold State.gate
  extract_lets ts
  split
  · next k off =>
    have := List.find?_some off
    refine ⟨fun h => (by cases h), fun h => absurd (by simpa using this) (h k (List.mem_of_find?_eq_some off)).1⟩
  · next on =>
    have on' : ∀ k ∈ ts, s.pwr k ≠ .off := fun k hk => by simpa using List.find?_eq_none.mp on k hk
    split
    · next k pending =>
      have := List.find?_some pending
      have asked : s.pwrReq k = 2 := by
        simp only [State.pwrPending, opc, Bool.and_eq_true, beq_iff_eq] at this
        exact this.1.1
      exact ⟨fun h => (by cases h), fun h => absurd asked (h k (List.mem_of_find?_eq_some pending)).2⟩
    · next pending =>
      have unasked : ∀ k ∈ ts, s.pwrReq k ≠ 2 := fun k hk => by
        have := List.find?_eq_none.mp pending k hk
        simpa [State.pwrPending, opc, on' k hk] using this
      have free : s.bistHolds (s.entryUses raw) = false := by simp [State.bistHolds, idle]
      simp only [free, Bool.false_eq_true, if_false, true_iff]
      exact fun k hk => ⟨on' k hk, unasked k hk⟩

variable {s}

/-- What follows from the taken set: its refusal as a whole, or its wait. -/
theorem exec_commit {q : Nat} (may : s.mayCommit q) (named : num (s.nextRaw q) 8 4 ≠ 0) :
    let id := num (s.nextRaw q) 12 4
    let c := s.takeSet q (s.nextIdx q) (num (s.nextRaw q) 8 4) id
    ∃ u, Takes q s u ∧
      (∀ k r, s.refusing c = some (k, r) → exec (.commit q) s = .next (u.commitEnds q (s.nextIdx q) id 0x09 k r)) ∧
      (s.refusing c = none → exec (.commit q) s = .next (u.commitValid c)) := by
  intro id c
  obtain ⟨served, lead, next, order, well, gate, idle⟩ := may
  obtain ⟨⟨⟨type, -⟩, -⟩, opc⟩ : ((s.sqType q = 7 ∧ s.mayTake q = true) ∧ s.barred q = false) ∧
      rawOpc (s.nextRaw q) = 0x60 := by simpa [State.commitNext] using next
  obtain ⟨u, taken, eq⟩ := takeEntry_commit s (type ▸ well) opc
  have rest {α : Type} (f : State → α) : f u.untaken = f s.untaken := congrArg f taken.rest
  have idle' : u.bst.test = none := (rest (fun t => t.bst.test)).trans idle
  have gate' : u.gate (s.nextRaw q) = .go := (gate_commit u opc idle').mpr fun k hk =>
    have h := (gate_commit s opc idle).mp gate k hk
    ⟨taken.awake k h.1, fun e => h.2 ((rest (fun t => t.pwrReq k)).symm.trans e)⟩
  have set : u.takeSet q (s.nextIdx q) (num (s.nextRaw q) 8 4) id = c := rest (fun t => t.takeSet _ _ _ _)
  have verdict : u.refusing c = s.refusing c := rest (fun t => t.refusing c)
  have run : exec (.commit q) s = .next (s.takeEntry q) := by
    show execCommit q s = _
    unfold execCommit
    rw [served, lead, next, order]
    rfl
  refine ⟨u, taken, fun k r refused => ?_, fun passed => ?_⟩ <;> rw [run, eq] <;> unfold State.takeCommit <;>
    simp only [State.heldEntry, named, if_false, gate', bistYield_of_no_test u idle'] <;> dsimp only [id] at set <;>
    rw [set, verdict]
  · rw [refused]
  · rw [passed]

/-! ### What goes live -/

/-- A commit field is found under its key. -/
theorem commitField?_key : ∀ k < 16, ∀ f ∈ commitFields k, commitField? f.key = some f := by
  decide +kernel

theorem key_of_commitField? {k : Nat} {f : Field} (h : commitField? k = some f) : f.key = k := by
  simpa using List.find?_some h

/-- A field that a set gives one value takes it, and so does one that had it and that the set does not give another. -/
theorem lv_fieldsLive {f : Field} (own : commitField? f.key = some f) {v : Nat} (fs : List (Nat × Nat)) :
    ∀ s : State, (∀ kv ∈ fs, kv.1 = f.key → kv.2 = v) → (f.key, v) ∈ fs ∨ s.lv f = v % 2 ^ f.width →
      (s.fieldsLive fs).lv f = v % 2 ^ f.width := by
  induction fs with
  | nil => exact fun s _ h => h.resolve_left List.not_mem_nil
  | cons kv fs ih =>
    intro s same given
    refine ih _ (fun kv h => same kv (List.mem_cons_of_mem _ h)) ?_
    by_cases e : kv.1 = f.key
    · obtain rfl := same kv List.mem_cons_self e
      right
      dsimp only
      rw [e, own]
      exact lv_setLive_same s f kv.2
    · refine given.imp (fun h => (List.mem_cons.mp h).resolve_left fun h => e (congrArg Prod.fst h.symm)) fun h => ?_
      dsimp only
      split
      · next g found => rw [lv_setLive_ne _ _ (by rw [key_of_commitField? found]; exact e), h]
      · exact h

theorem Tables.get_set_same (t : Tables) {id : Nat} (lo : 1 ≤ id) (hi : id ≤ 9) (m : Memory) : (t.set id m).get id = m := by
  interval_cases id <;> rfl

theorem Tables.get_set_ne (t : Tables) {k id : Nat} (h : k ≠ id) (m : Memory) : (t.set k m).get id = t.get id := by
  unfold Tables.set
  split <;> unfold Tables.get <;> split <;> simp_all

/-- A table that a set gives takes its copy; one that it does not give stays. -/
theorem get_foldl_set {id : Nat} (lo : 1 ≤ id) (hi : id ≤ 9) {m : Memory} (ts : List (Nat × Memory)) :
    ∀ t : Tables, (∀ kv ∈ ts, kv.1 = id → kv.2 = m) → (id, m) ∈ ts ∨ t.get id = m →
      (ts.foldl (fun t kv => t.set kv.1 kv.2) t).get id = m := by
  induction ts with
  | nil => exact fun t _ h => h.resolve_left List.not_mem_nil
  | cons kv ts ih =>
    intro t same given
    refine ih _ (fun kv h => same kv (List.mem_cons_of_mem _ h)) ?_
    by_cases e : kv.1 = id
    · obtain rfl := same kv List.mem_cons_self e
      right
      dsimp only
      rw [e]
      exact Tables.get_set_same t lo hi kv.2
    · refine given.imp (fun h => (List.mem_cons.mp h).resolve_left fun h => e (congrArg Prod.fst h.symm)) fun h => ?_
      rw [Tables.get_set_ne t e, h]

/-! ### A boundary brings one set -/

variable (s)

/-- Fields and tables of a set go live; what follows from them leaves both, and the sets that wait. -/
theorem steady_setLiveAll (c : PendingCommit) : Steady ((s.fieldsLive c.fields).tablesLive c.tables) (s.setLiveAll c) := by
  unfold State.setLiveAll
  extract_lets rate spread eq s1 s2 s3
  have h2 : Steady s1 s2 := .ite (fun _ => steady_setReg s1 (by decide) _) (fun _ => .refl s1)
  have h3 : Steady s1 s3 := by
    refine Steady.trans (Steady.trans ?_ (steady_linkFollow _ _)) (calm_wakeBlocks _ _).steady
    exact .ite (fun _ => h2.trans (steady_factoryCodes s2)) (fun _ => h2)
  exact (h3.trans (steady_linkDue s3 _ _)).trans (calm_count _ _ _ _).steady

theorem fieldsLive_rest (fs : List (Nat × Nat)) :
    (s.fieldsLive fs).tabLive = s.tabLive ∧ (s.fieldsLive fs).commits = s.commits := by
  induction fs generalizing s with
  | nil => exact ⟨rfl, rfl⟩
  | cons kv fs ih =>
    refine (ih _).imp (fun h => h.trans ?_) (fun h => h.trans ?_) <;> dsimp only <;> split <;> rfl

/-- `c` stores no device trims, waits for no stripe, and brings nothing where it names no block. -/
structure PendingCommit.Plain (c : PendingCommit) : Prop where
  stores : c.storesTrims = false
  after : c.after = 0
  empty : c.mask = 0 → c.fields = [] ∧ c.tables = []

theorem applyCommit_plain {c : PendingCommit} (plain : c.Plain) (keeps : s.changesTrims c = false) :
    Steady ((s.fieldsLive c.fields).tablesLive c.tables) (s.applyCommit c) := by
  unfold State.applyCommit
  rw [plain.stores]
  simp only [Bool.false_eq_true, if_false, keeps]
  split
  · next none =>
    obtain ⟨fields, tables⟩ := plain.empty none
    rw [fields, tables]
    exact steady_linkFollow s []
  · exact (steady_setLiveAll s c).trans (steady_commitEnds _ _ _ _ _ _ _)

theorem applyCommits_single {c : PendingCommit} (plain : c.Plain) (waiting : s.commits.waiting = [c])
    (keeps : s.changesTrims c = false) :
    Steady (({ s with commits := { s.commits with waiting := [] } }.fieldsLive c.fields).tablesLive c.tables)
      s.applyCommits := by
  have due : s.setsDue = [c] := by simp [State.setsDue, waiting, State.setAwaits, State.toArm, plain.after]
  unfold State.applyCommits
  extract_lets sets now t
  have h : Steady (({ s with commits := { s.commits with waiting := [] } }.fieldsLive c.fields).tablesLive c.tables) t := by
    have eq : t = { s with commits := { s.commits with waiting := [] } }.applyCommit c := by
      simp only [t, now, sets, due, waiting]
      rfl
    rw [eq]
    exact applyCommit_plain _ plain keeps
  exact .ite (fun _ => h.trans (calm_sendAll t).steady) (fun _ => h)

/-- The live fields and tables that the boundary of one set leaves. -/
structure Brings (c : PendingCommit) (s t : State) : Prop where
  waiting : t.commits.waiting = []
  live : t.live = (s.fieldsLive c.fields).live
  tabLive : t.tabLive = c.tables.foldl (fun t kv => t.set kv.1 kv.2) s.tabLive

variable {s}

theorem Brings.steady {c : PendingCommit} {t u : State} (h : Brings c s t) (k : Steady t u) : Brings c s u :=
  ⟨k.commits ▸ h.waiting, k.live.trans h.live, k.tabLive.trans h.tabLive⟩

/-- The fields that go live depend on nothing but what is live. -/
theorem fieldsLive_live {s t : State} (h : t.live = s.live) (fs : List (Nat × Nat)) :
    (t.fieldsLive fs).live = (s.fieldsLive fs).live := by
  induction fs generalizing s t with
  | nil => exact h
  | cons kv fs ih =>
    refine ih ?_
    dsimp only
    split
    · next f _ => exact congrArg (fun l => Sparse.set (fun _ => f.reset) l f.key (kv.2 % 2 ^ f.width)) h
    · exact h

theorem boundary_brings {c : PendingCommit} (plain : c.Plain) (waiting : s.commits.waiting = [c])
    (keeps : s.changesTrims c = false) : Brings c s s.boundary := by
  have items := steady_itemsLive s
  have waiting' : s.itemsLive.commits.waiting = [c] := by rw [items.commits, waiting]
  have keeps' : s.itemsLive.changesTrims c = false := by
    simpa only [State.changesTrims, items.tabLive] using keeps
  have brought := applyCommits_single s.itemsLive plain waiting' keeps'
  obtain ⟨tabLive, commits⟩ :=
    fieldsLive_rest { s.itemsLive with commits := { s.itemsLive.commits with waiting := [] } } c.fields
  refine Brings.steady ⟨?_, ?_, ?_⟩ (steady_afterCommits s.itemsLive.applyCommits)
  · rw [brought.commits]
    exact congrArg Commits.waiting commits
  · rw [brought.live]
    refine fieldsLive_live (s := s) ?_ c.fields
    exact items.live
  · rw [brought.tabLive]
    exact congrArg (c.tables.foldl (fun t kv => t.set kv.1 kv.2)) (tabLive.trans items.tabLive)

/-! ### The copied set -/

section

variable {s t : State} {c : PendingCommit} {s0 : State} {q idx mask id : Nat}
  (fields : c.fields = (s0.copySet q idx mask id).fields) (tables : c.tables = (s0.copySet q idx mask id).tables)

theorem mem_copySet_fields {kv : Nat × Nat} : kv ∈ (s0.copySet q idx mask id).fields ↔
    ∃ k < 16, bit mask k = true ∧ ∃ f ∈ commitFields k, kv = (f.key, s0.reg f) := by
  simp only [State.copySet, List.mem_flatMap, List.mem_filter, List.mem_range, List.mem_map]
  constructor
  · rintro ⟨k, ⟨lt, named⟩, f, hf, rfl⟩
    exact ⟨k, lt, named, f, hf, rfl⟩
  · rintro ⟨k, lt, named, f, hf, rfl⟩
    exact ⟨k, ⟨lt, named⟩, f, hf, rfl⟩

theorem mem_copySet_tables {kv : Nat × Memory} : kv ∈ (s0.copySet q idx mask id).tables ↔
    kv.1 < 10 ∧ tableBlock kv.1 < 16 ∧ bit mask (tableBlock kv.1) = true ∧ kv.2 = s0.tabStaged.get kv.1 := by
  obtain ⟨n, m⟩ := kv
  simp only [State.copySet, blockTables, List.mem_flatMap, List.mem_filter, List.mem_range, List.mem_map, beq_iff_eq,
    Prod.mk.injEq]
  constructor
  · rintro ⟨_, ⟨lt, named⟩, _, ⟨small, rfl⟩, rfl, rfl⟩
    exact ⟨small, lt, named, rfl⟩
  · rintro ⟨small, lt, named, rfl⟩
    exact ⟨_, ⟨lt, named⟩, n, ⟨small, rfl⟩, rfl, rfl⟩

include fields in
/-- Every commit field of a block that the set names goes live with its copied value. -/
theorem Brings.field (h : Brings c s t) {k : Nat} {f : Field} (lt : k < 16) (named : bit mask k = true)
    (hf : f ∈ commitFields k) : t.lv f = s0.reg f % 2 ^ f.width := by
  have own := commitField?_key k lt f hf
  rw [State.lv, h.live, fields]
  refine lv_fieldsLive own _ s (fun kv mem key => ?_) (.inl (mem_copySet_fields.mpr ⟨k, lt, named, f, hf, rfl⟩))
  obtain ⟨k', lt', -, g, hg, rfl⟩ := mem_copySet_fields.mp mem
  have own' := commitField?_key k' lt' g hg
  rw [show g.key = f.key from key, own] at own'
  rw [Option.some.inj own']

include tables in
/-- Every table of a block that the set names goes live with its copy. -/
theorem Brings.table (h : Brings c s t) {n : Nat} (lo : 1 ≤ n) (hi : n ≤ 9) (named : bit mask (tableBlock n) = true) :
    t.tabLive.get n = s0.tabStaged.get n := by
  have block : tableBlock n < 16 := by interval_cases n <;> decide
  rw [h.tabLive, tables]
  refine get_foldl_set lo hi _ _ (fun kv mem key => ?_) (.inl (mem_copySet_tables.mpr ⟨by omega, block, named, rfl⟩))
  rw [(mem_copySet_tables.mp mem).2.2.2, key]

include tables in
/-- No other table changes. -/
theorem Brings.other (h : Brings c s t) {n : Nat} (lo : 1 ≤ n) (hi : n ≤ 9) (named : bit mask (tableBlock n) = false) :
    t.tabLive.get n = s.tabLive.get n := by
  rw [h.tabLive, tables]
  refine get_foldl_set lo hi _ _ (fun kv mem key => ?_) (.inr rfl)
  obtain ⟨-, -, bit', -⟩ := mem_copySet_tables.mp mem
  rw [key, named] at bit'
  cases bit'

end

/-! ### The set of a stripe's end, the refused set, the set that waits -/

theorem steady_openGap (s : State) : Steady s s.openGap := by
  unfold State.openGap
  extract_lets gap _ s1
  have h1 : Steady s s1 := .update
  exact ((h1.trans (calm_setReg s1 (f := CAL_DRIFT.OVERDUE_S) (by decide) 0).steady).trans
    (calm_addReg _ (f := CAL_STATUS.GAPS) (by decide) 1).steady).trans (calm_count _ _ _ _).steady

/-- The set that waited for the end of a stripe takes effect with it, as it was copied. -/
theorem toIdle_brings {s : State} {c : PendingCommit} (plain : c.Plain) (waiting : s.commits.waiting = [c])
    (keeps : s.changesTrims c = false) : Brings c s s.toIdle := by
  unfold State.toIdle
  extract_lets _ s1 _ s2
  let u : State := { s.bookFired.forgetPair with stripe := none, g := .ready }
  have begun : Calm s s.bookFired.forgetPair := (calm_bookFired s).trans (calm_forgetPair _)
  have dropped : Calm u u.mirrorDropsAll := calm_mirrorDropsAll u
  have live : u.mirrorDropsAll.live = s.live := dropped.live.trans begun.live
  have tabLive : u.mirrorDropsAll.tabLive = s.tabLive := dropped.tabLive.trans begun.tabLive
  have commits : u.mirrorDropsAll.commits = s.commits := dropped.commits.trans begun.commits
  have h := boundary_brings (s := u.mirrorDropsAll) plain (commits ▸ waiting)
    (by simpa only [State.changesTrims, tabLive] using keeps)
  have h1 : Brings c s s1 :=
    ⟨h.waiting, h.live.trans (fieldsLive_live live c.fields), h.tabLive.trans (by rw [tabLive])⟩
  have h2 : Brings c s s2 := h1.steady .update
  exact Brings.steady h2 (.ite (fun _ => steady_openGap s2) (fun _ => .refl s2))

theorem plain_copySet (s : State) (q idx mask id : Nat) : (s.copySet q idx mask id).Plain where
  stores := rfl
  after := rfl
  empty none := by
    have none : mask = 0 := none
    subst none
    simp [State.copySet, bit]

theorem entry?_dropEntry (s : State) (q idx : Nat) : (s.dropEntry q idx).entry? q idx = none := by
  refine List.find?_eq_none.mpr fun e mem => ?_
  have := (List.mem_filter.mp mem).2
  simpa only [Bool.not_eq_true', Bool.not_eq_true] using this

@[simp] theorem holdEvent_entries (s : State) (e : Nat) (ev : Event) : (s.holdEvent e ev).hif.entries = s.hif.entries := by
  unfold State.holdEvent
  split <;> rfl

@[simp] theorem raiseVector_entries (s : State) (v : Nat) : (s.raiseVector v).hif.entries = s.hif.entries := by
  unfold State.raiseVector
  split
  · rfl
  · rw [count_hif]

theorem modEvRing_entries (s : State) (e : Nat) (f : EvRing → EvRing) :
    (s.modEvRing e f).hif.entries = s.hif.entries := rfl

@[simp] theorem writeEvent_entries (s : State) (e : Nat) (ev : Event) :
    (s.writeEvent e ev).hif.entries = s.hif.entries := by
  unfold State.writeEvent
  simp only []
  generalize (if ev.sq = 0xFF then 0 else (s.ring ev.sq).cons) = cons
  split
  · unfold State.raiseEq
    rw [raiseVector_entries, modEvRing_entries, count_hif, count_hif, modEvRing_entries]
  · rw [count_hif, count_hif, modEvRing_entries]

@[simp] theorem putEvent_entries (s : State) (e : Nat) (ev : Event) : (s.putEvent e ev).hif.entries = s.hif.entries := by
  unfold State.putEvent
  split
  · exact writeEvent_entries s e ev
  · exact holdEvent_entries s e ev

/-- A completed entry is held no more. -/
theorem entry?_complete (s : State) (q idx status info d0 d1 : Nat) :
    (s.complete q idx status info d0 d1).entry? q idx = none := by
  unfold State.complete
  split
  · next none => exact none
  · dsimp only
    split
    · rw [State.entry?, putEvent_entries]
      exact entry?_dropEntry s q idx
    · exact entry?_dropEntry s q idx

/-- A completion changes host memory at most in the next slot of the ring's event ring. -/
theorem memoriesBut_complete (s : State) (q idx status info d0 d1 : Nat) :
    MemoriesBut (s.cplSlot q) s (s.complete q idx status info d0 d1) := by
  refine ⟨complete_hbm s _ _ _ _ _ _, complete_flash s _ _ _ _ _ _, fun a h => ?_⟩
  unfold State.complete
  split
  · rfl
  · dsimp only
    split
    · exact putEvent_host (s.dropEntry q idx) _ _ a h
    · rfl

/-- A refusal names its block and its reason in MGT_CMT_STATUS and completes the entry. -/
theorem commitEnds_refused (s : State) (q idx id : Nat) {k r : Nat} (block : k < 16) (reason : r < 256) :
    let t := s.commitEnds q idx id 0x09 k r
    t.reg MGT_CMT_STATUS.LAST_STATUS = 0x09 ∧ t.reg MGT_CMT_STATUS.LAST_BLOCK = k ∧
      t.reg MGT_CMT_STATUS.LAST_REASON = r ∧ t.entry? q idx = none ∧ MemoriesBut (s.cplSlot q) s t := by
  unfold State.commitEnds
  extract_lets s1 s2 release auth _ t
  have shown (f : Field) (mgt : keyBlock f.key ≠ 1) : t.reg f = s2.reg f :=
    regsButHif_complete _ [] _ _ _ _ _ _ f List.not_mem_nil mgt
  have named : s2 = (s1.setReg MGT_CMT_STATUS.LAST_BLOCK k).setReg MGT_CMT_STATUS.LAST_REASON r := if_pos rfl
  refine ⟨?_, ?_, ?_, entry?_complete _ _ _ _ _ _ _, ?_⟩
  · rw [shown MGT_CMT_STATUS.LAST_STATUS (by decide), named, reg_setReg_ne _ _ (by decide), reg_setReg_ne _ _ (by decide),
      reg_setReg_ne _ _ (by decide), reg_setReg_same]
    rfl
  · rw [shown MGT_CMT_STATUS.LAST_BLOCK (by decide), named, reg_setReg_ne _ _ (by decide), reg_setReg_same]
    exact Nat.mod_eq_of_lt block
  · rw [shown MGT_CMT_STATUS.LAST_REASON (by decide), named, reg_setReg_same]
    exact Nat.mod_eq_of_lt reason
  · have completed := memoriesBut_complete { s2 with prot := { s2.prot with beamAuth := auth } } q idx 0x09 k id r
    rw [named] at completed
    exact completed

theorem Takes.sameMemories {q : Nat} {s u : State} (h : Takes q s u) : SameMemories s u :=
  ⟨(congrArg State.host h.rest :), (congrArg State.hbm h.rest :), (congrArg State.flash h.rest :)⟩

theorem Takes.cplSlot {q : Nat} {s u : State} (h : Takes q s u) : u.cplSlot q = s.cplSlot q := by
  rw [State.cplSlot, State.cplSlot, h.ringEq, State.evRing, State.evRing, h.events]

theorem Takes.g {q : Nat} {s u : State} (h : Takes q s u) : u.g = s.g := (congrArg State.g h.rest :)
theorem Takes.live {q : Nat} {s u : State} (h : Takes q s u) : u.live = s.live := (congrArg State.live h.rest :)
theorem Takes.tabLive {q : Nat} {s u : State} (h : Takes q s u) : u.tabLive = s.tabLive := (congrArg State.tabLive h.rest :)
theorem Takes.tabStaged {q : Nat} {s u : State} (h : Takes q s u) : u.tabStaged = s.tabStaged :=
  (congrArg State.tabStaged h.rest :)
theorem Takes.commits {q : Nat} {s u : State} (h : Takes q s u) : u.commits = s.commits :=
  (congrArg State.commits h.rest :)

/-- The entry that was taken last is held, started or not. -/
theorem Takes.held {q : Nat} {s u v : State} (h : Takes q s u)
    (started : v.hif.entries = (u.startEntry q (s.nextIdx q)).hif.entries) :
    (v.entry? q (s.nextIdx q)).isSome = true := by
  rw [State.entry?, started, List.find?_isSome]
  refine ⟨_, List.mem_map.mpr ⟨_, h.entries ▸ List.mem_append_right _ (List.mem_singleton_self _), rfl⟩, ?_⟩
  simp [State.heldEntry]

theorem reserveAuth_eq (s : State) (c : PendingCommit) : ∃ p, s.reserveAuth c = { s with prot := p } := by
  unfold State.reserveAuth
  extract_lets
  split
  · exact ⟨_, rfl⟩
  · exact ⟨s.prot, rfl⟩

/-- What a set's way to the mirror leaves. -/
theorem sendSet_rest (s : State) (id mask : Nat) (fs : List (Nat × Nat)) :
    (s.sendSet id mask fs).untaken = s.untaken ∧ (s.sendSet id mask fs).hif = s.hif := by
  unfold State.sendSet
  split
  · exact ⟨untaken_naluSend s _, naluSend_hif s _⟩
  · exact ⟨rfl, rfl⟩

/-- The state in which a validated set waits, its entry started and its fields on their way to the mirror. -/
def State.setWaits (s : State) (c : PendingCommit) : State :=
  let s := ((s.reserveAuth c).startEntry c.q c.idx).sendSet c.id c.mask c.fields
  { s with commits := { s.commits with waiting := s.commits.waiting ++ [c] } }

theorem setWaits_rest (s : State) (c : PendingCommit) : let v := s.setWaits c
    v.hif = (s.startEntry c.q c.idx).hif ∧ v.g = s.g ∧ v.live = s.live ∧ v.tabLive = s.tabLive ∧
      v.commits.waiting = s.commits.waiting ++ [c] ∧ SameMemories s v := by
  obtain ⟨p, reserved⟩ := reserveAuth_eq s c
  obtain ⟨rest, hif⟩ := sendSet_rest ({ s with prot := p }.startEntry c.q c.idx) c.id c.mask c.fields
  unfold State.setWaits
  rw [reserved]
  exact ⟨hif, (congrArg State.g rest :), (congrArg State.live rest :), (congrArg State.tabLive rest :),
    congrArg (·.commits.waiting ++ [c]) rest, (congrArg State.host rest :), (congrArg State.hbm rest :),
    (congrArg State.flash rest :)⟩

/-- A validated set that goes to no flash waits; in READY its boundary comes at once. -/
theorem commitValid_eq (s : State) {c : PendingCommit} (stores : c.storesTrims = false) :
    s.commitValid c = if (s.setWaits c).g == .ready then (s.setWaits c).boundary
      else if (s.setWaits c).g == .start then (s.setWaits c).applyCommits else s.setWaits c := by
  unfold State.commitValid State.commitWaits
  rw [stores]
  rfl

/-- In a stripe the set waits with its entry and changes nothing live. -/
theorem commitValid_active {s : State} {c : PendingCommit} (stores : c.storesTrims = false)
    (active : s.stripeActive = true) : s.commitValid c = s.setWaits c := by
  obtain ⟨-, g, -⟩ := setWaits_rest s c
  rw [commitValid_eq s stores, g]
  revert active
  rw [State.stripeActive]
  cases s.g <;> simp

/-- The set that is taken in READY, with none before it, goes live at once. -/
theorem commitValid_ready {s : State} {c : PendingCommit} (plain : c.Plain) (ready : s.g = .ready)
    (alone : s.commits.waiting = []) (keeps : s.changesTrims c = false) : Brings c s (s.commitValid c) := by
  obtain ⟨-, g, live, tabLive, waiting, -⟩ := setWaits_rest s c
  rw [commitValid_eq s plain.stores, g, ready, if_pos (by decide)]
  have h := boundary_brings (s := s.setWaits c) plain (by rw [waiting, alone]; rfl)
    (by simpa only [State.changesTrims, tabLive] using keeps)
  exact ⟨h.waiting, h.live.trans (fieldsLive_live live c.fields), h.tabLive.trans (by rw [tabLive])⟩

/-- A set that stores no trims, with no set before it, leaves the live trims as they are. -/
theorem changesTrims_takeSet {s : State} {q idx mask id : Nat} (alone : s.commits.waiting = [])
    (behind : s.commits.behind = []) (storing : s.commits.storing = none)
    (stores : (s.takeSet q idx mask id).storesTrims = false) : s.changesTrims (s.takeSet q idx mask id) = false := by
  have before : s.tablesAfter = s.tabLive := by simp [State.tablesAfter, alone, behind, storing]
  have stores : (bit mask 13 && (s.copySet q idx mask id).tables.any (fun t => t.1 == 8 && t.2 != s.tabLive.trims)) =
      false := before ▸ stores
  refine Bool.eq_false_iff.mpr fun changes => ?_
  obtain ⟨kv, mem, is8⟩ := List.any_eq_true.mp changes
  have mem : kv ∈ (s.copySet q idx mask id).tables := mem
  obtain ⟨-, -, named, -⟩ := mem_copySet_tables.mp mem
  have trims : kv.1 = 8 := by simpa using (Bool.and_eq_true_iff.mp is8).1
  rw [trims] at named
  rw [show bit mask 13 = true from named, Bool.true_and] at stores
  exact Bool.eq_false_iff.mp stores (List.any_eq_true.mpr ⟨kv, mem, is8⟩)

theorem takeSet_fields (s : State) (q idx mask id : Nat) :
    (s.takeSet q idx mask id).fields = (s.copySet q idx mask id).fields := rfl

theorem takeSet_tables (s : State) (q idx mask id : Nat) :
    (s.takeSet q idx mask id).tables = (s.copySet q idx mask id).tables := rfl

theorem plain_takeSet {s : State} {q idx mask id : Nat} (named : mask ≠ 0)
    (stores : (s.takeSet q idx mask id).storesTrims = false) : (s.takeSet q idx mask id).Plain :=
  ⟨stores, rfl, fun none => absurd none named⟩

/-- R77 lets no COMMIT be taken while a set stores device trims. -/
theorem storing_of_mayCommit {s : State} {q : Nat} (may : s.mayCommit q) : s.commits.storing = none := by
  obtain ⟨-, -, next, order, -⟩ := may
  obtain ⟨⟨⟨type, -⟩, -⟩, -⟩ : ((s.sqType q = 7 ∧ s.mayTake q = true) ∧ s.barred q = false) ∧
      rawOpc (s.nextRaw q) = 0x60 := by simpa [State.commitNext] using next
  simp only [State.orderLets, type, Bool.and_eq_true, Option.isNone_iff_eq_none] at order
  exact order.1.2

theorem ready_of_serviced {s : State} (served : s.serviced = true) (idle : s.stripeActive = false) : s.g = .ready := by
  rw [State.serviced] at served
  rw [State.stripeActive] at idle
  revert served idle
  cases s.g <;> simp

/-- A refused set changes nothing that is live or staged. -/
theorem refused_spec {q : Nat} {s u : State} (taken : Takes q s u) (id : Nat) {k r : Nat} (block : k < 16)
    (reason : r < 256) : let t := u.commitEnds q (s.nextIdx q) id 0x09 k r
    t.live = s.live ∧ t.tabLive = s.tabLive ∧ t.tabStaged = s.tabStaged ∧ t.commits = s.commits ∧
      t.reg MGT_CMT_STATUS.LAST_STATUS = 0x09 ∧ t.reg MGT_CMT_STATUS.LAST_BLOCK = k ∧
      t.reg MGT_CMT_STATUS.LAST_REASON = r ∧ t.entry? q (s.nextIdx q) = none ∧ MemoriesBut (s.cplSlot q) s t := by
  have rest := steady_commitEnds u q (s.nextIdx q) id 0x09 k r
  obtain ⟨status, named, why, gone, but⟩ := commitEnds_refused u q (s.nextIdx q) id block reason
  obtain ⟨host, hbm, flash⟩ := taken.sameMemories
  rw [taken.cplSlot] at but
  obtain ⟨hbm', flash', host'⟩ := but
  exact ⟨rest.live.trans taken.live, rest.tabLive.trans taken.tabLive, rest.tabStaged.trans taken.tabStaged,
    rest.commits.trans taken.commits, status, named, why, gone, hbm'.trans hbm, flash'.trans flash,
    fun a h => (host' a h).trans (congrArg (Memory.byte · a) host)⟩

/-- A valid set in a stripe waits whole. -/
theorem waits_spec {q : Nat} {s u : State} (taken : Takes q s u) {c : PendingCommit} (hq : c.q = q)
    (hidx : c.idx = s.nextIdx q) (stores : c.storesTrims = false) (active : s.stripeActive = true) :
    let t := u.commitValid c
    t.live = s.live ∧ t.tabLive = s.tabLive ∧ t.commits.waiting = s.commits.waiting ++ [c] ∧ SameMemories s t ∧
      (t.entry? q (s.nextIdx q)).isSome = true := by
  have active' : u.stripeActive = true := by rw [State.stripeActive, taken.g]; exact active
  rw [commitValid_active stores active']
  obtain ⟨hif, -, live, tabLive, waiting, same⟩ := setWaits_rest u c
  exact ⟨live.trans taken.live, tabLive.trans taken.tabLive, by rw [waiting, taken.commits],
    taken.sameMemories.trans same, taken.held (by rw [hif, hq, hidx])⟩

/-- A valid set in READY takes effect at once. -/
theorem atOnce_spec {q : Nat} {s u : State} (taken : Takes q s u) {c : PendingCommit} (plain : c.Plain)
    (ready : s.g = .ready) (alone : s.commits.waiting = []) (keeps : s.changesTrims c = false) :
    Brings c s (u.commitValid c) := by
  have h := commitValid_ready plain (taken.g.trans ready) (by rw [taken.commits, alone])
    (by simpa only [State.changesTrims, taken.tabLive] using keeps)
  exact ⟨h.waiting, h.live.trans (fieldsLive_live taken.live c.fields), h.tabLive.trans (by rw [taken.tabLive])⟩

end Sys2Proof.Machine

end

section

open Sys2Proof.Machine

/-- Settles O27: the entry is taken and its set validated (`exec_commit`); the set goes live whole at a boundary
(`Brings`), at once or at the end of the stripe. -/
theorem commitSets : Obligations.CommitSets := by
  refine ⟨fun s q may => ?_, fun s s0 st q idx mask id held aborted written => ?_⟩ <;> dsimp only
  · intro named
    obtain ⟨u, taken, refused, valid⟩ := exec_commit may named
    cases verdict : s.refusing (s.takeSet q (s.nextIdx q) (num (s.nextRaw q) 8 4) (num (s.nextRaw q) 12 4)) with
    | some kr =>
      refine ⟨_, refused kr.1 kr.2 verdict, fun k r h block reason => ?_, fun h => absurd h (Option.some_ne_none _)⟩
      obtain rfl := Option.some.inj h
      exact refused_spec taken _ block reason
    | none =>
      refine ⟨_, valid verdict, fun k r h => absurd h.symm (Option.some_ne_none _), fun _ stores => ⟨fun active => ?_, fun idle alone behind => ?_⟩⟩
      · exact waits_spec taken rfl rfl stores active
      · have h := atOnce_spec taken (plain_takeSet named stores) (ready_of_serviced may.1 idle) alone
          (changesTrims_takeSet alone behind (storing_of_mayCommit may) stores)
        exact ⟨h.waiting, fun k f => h.field (takeSet_fields ..), fun n => h.table (takeSet_tables ..),
          fun n => h.other (takeSet_tables ..)⟩
  · intro waiting keeps
    have h := toIdle_brings (plain_copySet s0 q idx mask id) waiting keeps
    refine ⟨s.toIdle, ?_, h.waiting, fun k f => h.field rfl, fun n => h.table rfl, fun n => h.other rfl⟩
    show execFbHoldExpire s = _
    unfold execFbHoldExpire
    simp [held, aborted, written]

end

/-! ## A chip without root lock (R21, R23, R407)

`Unclocked ref s` says that `s` is not OFF, has no root lock, and has REFCLK as `ref` says. `Unclocked.f` says that the
operation `f` of the model carries it along: no write that a test held back can undo the loss of a clock. -/

section

namespace Sys2Proof.Machine

/-- Not OFF, without root lock, REFCLK as `ref` says. -/
structure Unclocked (ref : Bool) (s : State) : Prop where
  on : s.g ≠ .off
  lock : s.aon.rootLock = false
  ref : s.aon.refclk = ref

namespace Unclocked

variable {ref : Bool} {s t : State}

theorem ite {c : Prop} [Decidable c] (h : Unclocked ref s) (k : Unclocked ref t) :
    Unclocked ref (if c then s else t) := by
  split
  · exact h
  · exact k

theorem foldl {α : Type} {f : State → α → State} {l : List α} (h : Unclocked ref s)
    (hf : ∀ s a, Unclocked ref s → Unclocked ref (f s a)) : Unclocked ref (l.foldl f s) := by
  induction l generalizing s with
  | nil => exact h
  | cons a l ih => exact ih (hf s a h)

variable (hs : Unclocked ref s)
include hs

theorem same (g : t.g = s.g) (aon : t.aon = s.aon) : Unclocked ref t :=
  ⟨g ▸ hs.on, aon ▸ hs.lock, aon ▸ hs.ref⟩

theorem quiet (h : t.quiet = s.quiet) : Unclocked ref t := hs.same (congrArg State.g h :) (congrArg State.aon h :)
theorem calm (h : Calm s t) : Unclocked ref t := hs.same h.g h.aon
theorem bounded (h : Bounded s t) : Unclocked ref t := hs.same h.g h.aon
theorem steady (h : Steady s t) : Unclocked ref t := hs.bounded h.toBounded

/-- An update of any fields but the global state and the always-on domain. -/
theorem update
    {pending phase quick fence regs live latches answer cc free host hbm flash tabLive tabStaged prot cfg commits power hif
    chans cdc scans scanWait prs csm pec waiting stripe lastOutcome port shl nlk hmc cal bst pmu} :
    Unclocked ref
      { pending, g := s.g, phase, quick, fence, aon := s.aon, regs, live, latches, answer, cc, free, host, hbm, flash,
        tabLive, tabStaged, prot, cfg, commits, power, hif, chans, cdc, scans, scanWait, prs, csm, pec, waiting, stripe,
        lastOutcome, port, shl, nlk, hmc, cal, bst, pmu } := ⟨hs.on, hs.lock, hs.ref⟩

theorem writeHost {a : Nat} {bs : List Byte} : Unclocked ref { s with host := Memory.write s.host a bs } := hs.update
theorem writeHbm {a : Nat} {bs : List Byte} : Unclocked ref { s with hbm := Memory.write s.hbm a bs } := hs.update

/-! ### The operations of Machine/Regs.lean -/

theorem setReg {f : Field} {v : Nat} : Unclocked ref (s.setReg f v) := hs.update
theorem addReg {f : Field} {n : Nat} : Unclocked ref (s.addReg f n) := hs.update
theorem resetWindow {k : Nat} : Unclocked ref (s.resetWindow k) := hs.update
theorem fresh {w : Nat} : Unclocked ref (s.fresh w).2 := hs.calm (calm_fresh ..)

/-! ### The operations of Machine/Events.lean -/

theorem count {b ev n : Nat} : Unclocked ref (s.count b ev n) := hs.calm (calm_count ..)
theorem setPwr {k : Nat} {p : PwrState} : Unclocked ref (s.setPwr k p) := hs.calm (calm_setPwr ..)
theorem wakeBlock {k : Nat} : Unclocked ref (s.wakeBlock k) := hs.calm (calm_wakeBlock ..)
theorem naluSend {m : NaluMsg} : Unclocked ref (s.naluSend m) := hs.calm (calm_naluSend ..)
theorem modRing {q : Nat} {f : SubRing → SubRing} : Unclocked ref (s.modRing q f) := hs.calm (calm_modRing ..)
theorem modEvRing {e : Nat} {f : EvRing → EvRing} : Unclocked ref (s.modEvRing e f) := hs.calm (calm_modEvRing ..)
theorem raiseVector {v : Nat} : Unclocked ref (s.raiseVector v) := hs.quiet (raiseVector_quiet ..)
theorem raiseEq {e : Nat} : Unclocked ref (s.raiseEq e) := hs.calm (calm_raiseEq ..)

theorem drainHeld : Unclocked ref s.drainHeld := by
  unfold State.drainHeld
  extract_lets _ s1 lost s2
  have hs1 : Unclocked ref s1 := .foldl hs.update (fun _ _ h₁ => h₁.calm (calm_putEvent ..))
  have hs2 : Unclocked ref s2 := hs1.calm (calm_writeEvent ..)
  exact .ite hs2.update hs1

theorem postDev {code status info d0 d1 : Nat} : Unclocked ref (s.postDev code status info d0 d1) :=
  hs.calm (calm_postDev ..)

theorem startEntry {q idx : Nat} : Unclocked ref (s.startEntry q idx) := hs.calm (calm_startEntry ..)

theorem complete {q idx status info d0 d1 : Nat} : Unclocked ref (s.complete q idx status info d0 d1) :=
  hs.calm (calm_complete ..)

/-! ### The operations of Machine/Ops.lean -/

theorem bistNotRun {kind k : Nat} : Unclocked ref (s.bistNotRun kind k) := hs.calm (calm_bistNotRun ..)
theorem bistYield {uses : Nat → Bool} : Unclocked ref (s.bistYield uses) := hs.calm (calm_bistYield ..)
theorem hbmUse {a n : Nat} : Unclocked ref (s.hbmUse a n) := hs.update

theorem hbmWrite {a : Nat} {bs : List Byte} : Unclocked ref (s.hbmWrite a bs) := by
  unfold State.hbmWrite
  exact hs.hbmUse.writeHbm.count

theorem eccRecord {port ue : Nat} {w : EccWord} : Unclocked ref (s.eccRecord port ue w) :=
  hs.setReg.setReg.setReg.setReg.setReg

theorem corrected {port : Nat} {w : EccWord} : Unclocked ref (s.corrected port w) := by
  unfold State.corrected
  exact hs.addReg.eccRecord.update

theorem uncorrectable {port : Nat} {w : EccWord} {status : Nat} : Unclocked ref (s.uncorrectable port w status) :=
  hs.addReg.eccRecord.postDev

theorem eccRead {port lo n : Nat} {ecc : EccReads} : Unclocked ref (s.eccRead port lo n ecc).1 :=
  .foldl hs.hbmUse (fun _ _ h₁ => h₁.corrected)

theorem freeWord {lo n : Nat} : Unclocked ref (s.freeWord lo n).2 := by
  unfold State.freeWord
  exact (hs.fresh (w := 64)).fresh (w := 1)

theorem freeWords {lo n k : Nat} : Unclocked ref (State.freeWords lo n k s).2 := by
  induction k generalizing s with
  | zero => exact hs
  | succ k ih => exact ih hs.freeWord

theorem freeEcc {lo n : Nat} : Unclocked ref (s.freeEcc lo n).2 := by
  unfold State.freeEcc
  split
  · exact hs
  · extract_lets k ws bad w
    have hws : Unclocked ref ws.2 := (hs.fresh (w := 32)).freeWords
    have hbad : Unclocked ref bad.2 := hws.fresh (w := 1)
    exact hbad.freeWord (lo := lo) (n := n)

theorem snapshot : Unclocked ref s.snapshot := hs.calm (calm_snapshot ..)
theorem modChan {ch : Nat} {f : Chan → Chan} : Unclocked ref (s.modChan ch f) := hs.calm (calm_modChan ..)

theorem stopRecord {ch status cause : Nat} {r : Request} : Unclocked ref (s.stopRecord ch status cause r) :=
  hs.calm (calm_stopRecord ..)

theorem stopEvent {ch status cause residue : Nat} : Unclocked ref (s.stopEvent ch status cause residue) :=
  hs.postDev

theorem scanWriteBack {sc : Scan} {v : Nat} : Unclocked ref (s.scanWriteBack sc v) := by
  unfold State.scanWriteBack
  exact hs.writeHost.ite hs

theorem freeScan {e v n : Nat} : Unclocked ref (s.freeScan e v n) := hs.update.setReg.setReg
theorem settle {ch : Nat} {r : Request} : Unclocked ref (s.settle ch r).2 := hs.calm (calm_settle ..)
theorem stopChan {ch status cause : Nat} : Unclocked ref (s.stopChan ch status cause) := hs.calm (calm_stopChan ..)

theorem looseRecord {ch status cause : Nat} : Unclocked ref (s.looseRecord ch status cause) :=
  hs.calm (calm_looseRecord ..)

theorem feedRecord {ch status cause : Nat} : Unclocked ref (s.feedRecord ch status cause) :=
  hs.calm (calm_feedRecord ..)

theorem linkBoundary : Unclocked ref s.linkBoundary := hs.steady (steady_linkBoundary ..)
theorem linkEnable {on : Bool} : Unclocked ref (s.linkEnable on) := hs.steady (steady_linkEnable ..)
theorem pageCheck : Unclocked ref s.pageCheck := hs.postDev.ite hs

/-! ### The operations of Machine/Serve.lean -/

theorem chanRecord {ch status cause done residue : Nat} : Unclocked ref (s.chanRecord ch status cause done residue) :=
  hs.calm (calm_chanRecord ..)

theorem tryEntry {act : State → Entry → State} {e : Entry} (hact : ∀ s a, Unclocked ref s → Unclocked ref (act s a)) :
    Unclocked ref (s.tryEntry act e) := by
  unfold State.tryEntry
  split
  · exact hs
  · extract_lets s1
    have hs1 : Unclocked ref s1 := by
      dsimp only [s1]
      split
      · exact hs.chanRecord
      · exact hs
    exact hs1.complete
  · exact hact _ _ hs.bistYield

theorem pump {ty : Nat} {act : State → Entry → State} (hact : ∀ s a, Unclocked ref s → Unclocked ref (act s a)) :
    Unclocked ref (s.pump ty act) := .ite (.foldl hs (fun _ _ h₁ => (h₁.tryEntry hact).ite h₁)) hs

theorem reach {ch : Nat} {raw : List Byte} : Unclocked ref (s.reach ch raw) := hs.calm (calm_reach ..)

theorem startReq {ch : Nat} {e : Entry} {addr len link : Nat} : Unclocked ref (s.startReq ch e addr len link) :=
  hs.calm (calm_startReq ..)

/-! ### The operations of Machine/Scan.lean -/

theorem scanResult {sc : Scan} {n : Nat} : Unclocked ref (s.scanResult sc n).2 := by
  unfold State.scanResult
  split
  · exact hs.fresh
  · exact hs

theorem scanRegs {e v n : Nat} : Unclocked ref (s.scanRegs e v n) := hs.calm (calm_scanRegs ..)

theorem scanSteps {e : Nat} {sc : Scan} {n : Nat} : Unclocked ref (s.scanSteps e sc n) :=
  hs.scanResult.update.modChan.scanRegs.count.count

theorem scanReads {e : Nat} {sc : Scan} {n : Nat} {ecc : EccReads} : Unclocked ref (s.scanReads e sc n ecc).1 := by
  unfold State.scanReads
  split
  · exact hs.scanSteps
  · dsimp only
    split
    · exact hs.count.eccRead.scanSteps
    · exact hs.count.eccRead.uncorrectable.scanSteps

theorem scanAdvance {e : Nat} : Unclocked ref (s.scanAdvance e).1 := by
  unfold State.scanAdvance
  split
  · exact hs
  · split
    · exact hs
    · extract_lets a n x
      have ha : Unclocked ref a.2 := hs.fresh (w := 64)
      have hx : Unclocked ref x.2 := by
        dsimp only [x]
        split
        · exact ha.freeEcc
        · exact ha
      exact hx.scanReads

theorem scanResume {n : Nat} : Unclocked ref (State.scanResume n s) := hs.calm (calm_scanResume ..)
theorem scanNext : Unclocked ref s.scanNext := hs.scanResume

/-! ### The operations of Machine/Jobs.lean -/

theorem engineEnds {k status reason : Nat} : Unclocked ref (s.engineEnds k status reason) := hs.setReg.setReg
theorem setJob {k : Nat} {j : Option CodecJob} : Unclocked ref (s.setJob k j) := hs.update
theorem freshInput {ch : Nat} : Unclocked ref (s.freshInput ch) := hs.modChan
theorem takeEngine {k : Nat} {j : CodecJob} : Unclocked ref (s.takeEngine k j) := hs.calm (calm_takeEngine ..)

theorem witnessNext : Unclocked ref s.witnessNext := by
  unfold State.witnessNext
  split
  · split
    · exact hs
    · exact hs.update.freshInput.takeEngine.reach.modChan
  · exact hs

theorem witnessStart : Unclocked ref s.witnessStart := hs.witnessNext.witnessNext
theorem codecEntry {e : Entry} : Unclocked ref (s.codecEntry e) := hs.calm (calm_codecEntry ..)

theorem freshBytes {n : Nat} : Unclocked ref (s.freshBytes n).2 := by
  induction n generalizing s with
  | zero => exact hs
  | succ n ih => exact ih hs.fresh

theorem compressed {resume : Bool} {n : Nat} {out : List Byte} : Unclocked ref (s.compressed resume n out) :=
  hs.count.count

/-! ### The operations of Machine/Boundary.lean -/

theorem commitEnds {q idx id status block reason : Nat} : Unclocked ref (s.commitEnds q idx id status block reason) :=
  hs.steady (steady_commitEnds ..)

theorem factoryCodes : Unclocked ref s.factoryCodes := hs.steady (steady_factoryCodes ..)

theorem sendSet {id mask : Nat} {fields : List (Nat × Nat)} : Unclocked ref (s.sendSet id mask fields) :=
  hs.naluSend.ite hs

theorem applyCommits : Unclocked ref s.applyCommits := hs.bounded (bounded_applyCommits ..)
theorem naluState {status : Nat} : Unclocked ref (s.naluState status) := hs.postDev
theorem freeBufs : Unclocked ref s.freeBufs := .foldl hs (fun _ _ h₁ => h₁.complete)
theorem startRejoin : Unclocked ref s.startRejoin := hs.steady (steady_startRejoin ..)
theorem boundary : Unclocked ref s.boundary := hs.bounded (bounded_boundary ..)

theorem writeOutcome {toHost : Bool} {st : Stripe} : Unclocked ref (s.writeOutcome toHost st) :=
  hs.calm (calm_writeOutcome ..)

theorem dropWitnesses {id pass : Nat} : Unclocked ref (s.dropWitnesses id pass) := hs.calm (calm_dropWitnesses ..)
theorem addDiscard {r : ArmReq} : Unclocked ref (s.addDiscard r) := hs.calm (calm_addDiscard ..)
theorem discardOver {q : Nat} : Unclocked ref (s.discardOver q) := hs.calm (calm_discardOver ..)
theorem mirrorDrops {q : Nat} : Unclocked ref (s.mirrorDrops q) := hs.calm (calm_mirrorDrops ..)

theorem abortWith {toHost : Bool} {cause : Nat} : Unclocked ref (s.abortWith toHost cause) :=
  by
  by_cases h : ∃ st, s.stripe = some st ∧ st.ongoing
  · obtain ⟨st, held, ongoing⟩ := h
    obtain ⟨u, st', -, calm, -, -, eq⟩ := abortWith_cases held ongoing toHost cause
    have running : Unclocked ref { s with stripe := some st', g := .run } := ⟨nofun, hs.lock, hs.ref⟩
    have hu : Unclocked ref u := running.setReg.calm calm
    have idle : Unclocked ref { u with stripe := none, g := .ready } := ⟨nofun, hu.lock, hu.ref⟩
    rw [eq]
    exact hu.ite (idle.bounded (bounded_toIdle u))
  · rw [abortWith_over s (fun st held ongoing => h ⟨st, held, ongoing⟩)]
    exact hs

theorem abortStripe {cause : Nat} : Unclocked ref (s.abortStripe cause) := hs.abortWith
theorem setsFollow : Unclocked ref s.setsFollow := hs.applyCommits.ite hs

theorem endUnarmed {toHost : Bool} {r : ArmReq} {cause : Nat} : Unclocked ref (s.endUnarmed toHost r cause) := by
  unfold State.endUnarmed
  extract_lets _ _ _ _ s1 s2 s3 s4 s5
  have hs1 : Unclocked ref s1 := hs.update.setReg
  have hs2 : Unclocked ref s2 := hs1.setReg.ite hs1
  have hs3 : Unclocked ref s3 := hs2.addDiscard.mirrorDrops.dropWitnesses
  have hs4 : Unclocked ref s4 := hs3.update.snapshot
  have hs5 : Unclocked ref s5 := hs4.update.ite hs3
  exact hs5.writeOutcome.setsFollow

theorem setFence {cause : Nat} {hard : Bool} : Unclocked ref (s.setFence cause hard) :=
  Unclocked.steady (s := { s with fence := some ⟨cause, hard⟩ }) hs.update (steady_fencing s cause hard)

theorem fenceChip {cause : Nat} : Unclocked ref (s.fenceChip cause) :=
  hs.ite (hs.setFence.ite (hs.setFence.abortStripe.ite (hs.setFence.boundary.ite hs.setFence)))

/-! ### The operations of Machine/Cal.lean -/

theorem trimsLive {bs : List Byte} : Unclocked ref (s.trimsLive bs) := by
  unfold State.trimsLive
  exact hs.update.factoryCodes

theorem readTrims : Unclocked ref s.readTrims := by
  unfold State.readTrims
  split
  · exact hs.trimsLive.setReg.setReg.setReg
  · exact hs.trimsLive.setReg.setReg

theorem allDue : Unclocked ref s.allDue := hs.setReg
theorem thermWarn : Unclocked ref s.thermWarn := ⟨hs.on, hs.lock, hs.ref⟩
theorem deriveGo : Unclocked ref s.deriveGo := hs.setReg.ite hs.wakeBlock.setReg

theorem commitWaits {c : PendingCommit} : Unclocked ref (s.commitWaits c) := by
  unfold State.commitWaits
  extract_lets s1 _ s2
  have hs1 : Unclocked ref s1 := hs.sendSet
  have hs2 : Unclocked ref s2 := hs1.update
  exact hs2.boundary.ite (hs2.applyCommits.ite hs2)

/-! ### The operations of Machine/Hmc.lean -/

theorem eccFence {port : Nat} {w : EccWord} : Unclocked ref (s.eccFence port w) := hs.uncorrectable.fenceChip

/-! ### The operations of Machine/Bist.lean -/

theorem saveArea {area : Nat × Nat} : Unclocked ref (s.saveArea area) := hs.update.hbmWrite

/-! ### The operations of Machine/Commit.lean -/

theorem reserveAuth {c : PendingCommit} : Unclocked ref (s.reserveAuth c) := hs.update.ite hs

theorem commitValid {c : PendingCommit} : Unclocked ref (s.commitValid c) := by
  unfold State.commitValid
  extract_lets s1
  have hs1 : Unclocked ref s1 := hs.reserveAuth.startEntry
  exact hs1.update.ite hs1.commitWaits

theorem takeCommit {e : Entry} : Unclocked ref (s.takeCommit e) := by
  unfold State.takeCommit
  extract_lets _ _ s1
  have hs1 : Unclocked ref s1 := hs.bistYield
  refine .ite hs.commitEnds ?_
  split
  · exact hs.commitEnds
  · split
    · exact hs1.commitEnds
    · exact hs1.commitValid

/-! ### The operations of Machine/Rings.lean -/

theorem bindChan {ch q : Nat} : Unclocked ref (s.bindChan ch q) := hs.modChan.setReg.setReg

theorem sqEnable {q : Nat} : Unclocked ref (s.sqEnable q) := by
  unfold State.sqEnable
  refine .ite ?_ hs.setReg
  extract_lets s1
  have hs1 : Unclocked ref s1 := by
    dsimp only [s1]
    split
    · exact hs.bindChan
    · exact hs
  exact hs1.modRing.setReg.setReg

theorem sqDisable {q : Nat} : Unclocked ref (s.sqDisable q) := by
  unfold State.sqDisable
  extract_lets s1
  have hs1 : Unclocked ref s1 := hs.setReg
  exact .ite (.foldl hs1 (fun _ _ h₁ => h₁.setReg.ite h₁)) hs1

theorem sqCfgWrite {q w : Nat} : Unclocked ref (s.sqCfgWrite q w) := by
  unfold State.sqCfgWrite
  extract_lets s1 s2 s3
  have hs1 : Unclocked ref s1 := hs.setReg.ite hs
  have hs2 : Unclocked ref s2 := hs1.setReg.setReg
  have hs3 : Unclocked ref s3 := hs2.setReg
  exact (hs1.ite hs1.sqDisable).ite (hs3.sqEnable.ite hs3)

theorem releaseKept : Unclocked ref s.releaseKept := hs.update.drainHeld.ite hs

theorem eqCfgWrite {e w : Nat} : Unclocked ref (s.eqCfgWrite e w) := by
  unfold State.eqCfgWrite
  extract_lets s1 _ s2
  have hs1 : Unclocked ref s1 := hs.setReg
  have hs2 : Unclocked ref s2 := hs1.setReg
  exact (hs1.ite hs1.setReg).ite (hs2.modEvRing.setReg.releaseKept.drainHeld.ite hs2)

theorem hifCtrlWrite {w : Nat} : Unclocked ref (s.hifCtrlWrite w) := by
  unfold State.hifCtrlWrite
  extract_lets _ s1 s2 _ s3
  have hs1 : Unclocked ref s1 := hs.setReg.setReg
  have hs2 : Unclocked ref s2 := hs1.setReg
  have hs3 : Unclocked ref s3 := hs2.update
  exact (hs3.pageCheck.ite hs3).releaseKept

theorem hostWriteWord {a v : Nat} : Unclocked ref (s.hostWriteWord a v) := by
  unfold State.hostWriteWord
  exact hs.writeHost

theorem readCons : Unclocked ref s.readCons := .foldl hs (fun _ _ h₁ => h₁.modEvRing.ite h₁)
theorem readProd {q : Nat} : Unclocked ref (s.readProd q) := (hs.setReg.postDev.ite hs.modRing).ite hs

theorem writeBack : Unclocked ref s.writeBack := by
  unfold State.writeBack
  extract_lets sq eq
  have hsq (s : State) (q : Nat) (h₁ : Unclocked ref s) : Unclocked ref (sq s q) :=
    h₁.hostWriteWord.modRing.count.ite h₁
  have heq (s : State) (e : Nat) (h₁ : Unclocked ref s) : Unclocked ref (eq s e) :=
    h₁.hostWriteWord.modEvRing.count.ite h₁
  exact .foldl (.foldl hs hsq) heq

theorem malformedEnds {e : Entry} : Unclocked ref (s.malformedEnds e) := hs.commitEnds.ite hs.complete

theorem takeEntry {q : Nat} : Unclocked ref (s.takeEntry q) := by
  unfold State.takeEntry
  extract_lets _ _ _ s1 _ s2 s3
  have hs1 : Unclocked ref s1 := hs.modRing
  have hs2 : Unclocked ref s2 := hs1.update.count.count
  have hs3 : Unclocked ref s3 := hs2.naluSend.ite hs2
  exact hs3.malformedEnds.ite (hs3.takeCommit.ite hs3.bistYield)

theorem takeEntries {q n : Nat} : Unclocked ref (State.takeEntries q n s) := by
  induction n generalizing s with
  | zero => exact hs
  | succ n ih => exact .ite (ih hs.takeEntry) hs

theorem discardBufs {q n : Nat} : Unclocked ref (State.discardBufs q n s) := by
  induction n generalizing s with
  | zero => exact hs
  | succ n ih =>
    unfold State.discardBufs
    split
    · exact hs
    · refine .ite ?_ hs
      refine .ite (ih hs.discardOver) (ih ?_)
      have hd := hs.takeEntry (q := q)
      exact .ite (Unclocked.discardOver (.ite hd hd.complete)) (.ite hd hd.complete)

theorem pollRing {q : Nat} : Unclocked ref (s.pollRing q) := hs.discardBufs.ite hs.takeEntries

theorem poll : Unclocked ref s.poll := by
  unfold State.poll
  refine .ite ?_ hs
  extract_lets s1 s2
  have hs1 : Unclocked ref s1 := hs.wakeBlock.wakeBlock.count.count.readCons
  have hs2 : Unclocked ref s2 := .drainHeld (.foldl hs1 (fun _ _ h₁ => h₁.readProd))
  exact .writeBack (.foldl (.foldl hs2 (fun _ _ h₁ => h₁.pollRing)) (fun _ _ h₁ => h₁.pollRing))

/-! ### The operations of Machine/Start.lean -/

theorem cold : Unclocked ref s.cold := hs.update

theorem hifCold : Unclocked ref s.hifCold := by
  unfold State.hifCold
  extract_lets s1 s2
  have hs1 : Unclocked ref s1 := .foldl hs (fun _ _ h₁ => h₁.setReg)
  have hs2 : Unclocked ref s2 := hs1.resetWindow
  exact hs2.update

theorem domainsOn : Unclocked ref s.domainsOn := hs.update

theorem startUp {quick : Bool} : Unclocked ref (s.startUp quick) := by
  unfold State.startUp
  extract_lets s1 _ _ s2 s3
  have hs1 : Unclocked ref s1 := hs.domainsOn
  have hs2 : Unclocked ref s2 := ⟨nofun, hs1.lock, hs1.ref⟩
  have hs3 : Unclocked ref s3 := hs2.setReg.ite hs2
  exact .foldl hs3.setReg (fun _ _ h₁ => h₁.setReg)

theorem chipReset : Unclocked ref s.chipReset := by
  unfold State.chipReset
  extract_lets _ prot cold _ t
  have ht : Unclocked ref t := ⟨hs.on, hs.lock, hs.ref⟩
  exact hs.setReg.ite (hs.ite ht.startUp.setReg)

theorem mgtResetWrite {w : Nat} : Unclocked ref (s.mgtResetWrite w) := by
  unfold State.mgtResetWrite
  exact .ite hs (((hs.setReg.ite hs).chipReset).ite (hs.setReg.ite hs))

theorem quickStart : Unclocked ref s.quickStart := hs.setReg.setReg.startUp
theorem coldStart : Unclocked ref s.coldStart := hs.cold.startUp
theorem wakeSent {n : Nat} : Unclocked ref (s.wakeSent n) := hs.update
theorem wakeNow : Unclocked ref s.wakeNow := hs.quickStart.ite (hs.coldStart.ite hs.setReg)
theorem wake : Unclocked ref s.wake := hs.ite (hs.wakeNow.wakeSent.ite hs.wakeNow)
theorem wakeWrite : Unclocked ref s.wakeWrite := hs.update.wake

/-! ### The operations of Machine/Power.lean -/

theorem loseBlock {k : Nat} : Unclocked ref (s.loseBlock k) := by
  unfold State.loseBlock
  extract_lets s1
  have hs1 : Unclocked ref s1 := hs.update.resetWindow
  split
  case h_10 => exact hs1.update.readTrims
  case h_12 => exact hs1
  all_goals exact hs1.update

theorem linkOff : Unclocked ref s.linkOff := hs.naluState.freeBufs.fenceChip.ite hs.naluState.freeBufs

theorem goOff {k : Nat} : Unclocked ref (s.goOff k) := by
  unfold State.goOff
  exact .ite hs.update.setPwr (hs.loseBlock.setPwr.linkOff.ite hs.loseBlock.setPwr)

theorem pwrFieldWrite {k v : Nat} : Unclocked ref (s.pwrFieldWrite k v) := by
  unfold State.pwrFieldWrite
  extract_lets _ _ s1
  have hs1 : Unclocked ref s1 := hs.setReg
  exact (hs1.ite (hs1.goOff.ite hs1.postDev)).ite (hs1.setPwr.ite hs1)

theorem pwrReqWrite {w : Nat} : Unclocked ref (s.pwrReqWrite w) := .foldl hs (fun _ _ h₁ => h₁.ite h₁.pwrFieldWrite)

/-! ### The operations of Machine/Protect.lean -/

theorem keyForget : Unclocked ref s.keyForget := .ite (.foldl hs (fun _ _ h₁ => h₁.setReg)) hs
theorem protEnd {status : Nat} : Unclocked ref (s.protEnd status) := hs.keyForget.update.setReg.setReg.count.postDev

theorem protStage : Unclocked ref s.protStage := by
  unfold State.protStage
  extract_lets _ _ _ _ _ s1 s2
  have hs1 : Unclocked ref s1 := hs.setReg.setReg.setReg
  have hs2 : Unclocked ref s2 := hs1.setReg
  exact hs.setReg.ite (hs.setReg.setReg.ite hs2.update)

theorem protCtrlWrite {w : Nat} : Unclocked ref (s.protCtrlWrite w) := by
  unfold State.protCtrlWrite
  extract_lets s1
  have hs1 : Unclocked ref s1 := hs.setReg.setReg
  split
  · exact hs1.protStage
  · exact hs1.protEnd.ite hs1
  · exact hs1

/-! ### The operations of Machine/Finding.lean -/

theorem channelLost : Unclocked ref s.channelLost := hs.ite (hs.fenceChip.ite hs.abortStripe)

theorem stopRequest {ch status cause : Nat} : Unclocked ref (s.stopRequest ch status cause) :=
  hs.stopChan.channelLost.ite hs.stopChan

/-! ### The operations of Machine/Entries.lean -/

theorem armEntry {partnerOff : Bool} {e : Entry} : Unclocked ref (s.armEntry partnerOff e) := by
  unfold State.armEntry
  exact .ite hs (hs.complete.ite (hs.complete.ite hs.startEntry.update))

theorem armTaken {partnerOff : Bool} {es : List Entry} : Unclocked ref (s.armTaken partnerOff es) :=
  .foldl hs (fun _ _ h₁ => h₁.armEntry)

/-! ### The operations of Machine/Dma.lean -/

theorem tableEntry {e : Entry} : Unclocked ref (s.tableEntry e) := by
  unfold State.tableEntry
  extract_lets
  refine .ite hs.complete (.ite hs.complete ?_)
  split
  · exact hs
  · exact hs.startReq

theorem saveOver {q idx : Nat} : Unclocked ref (s.saveOver q idx) := hs.update

/-! ### The operations of Machine/Shl.lean -/

theorem linkEnWrite {on : Bool} : Unclocked ref (s.linkEnWrite on) := hs.ite hs.linkEnable

theorem relatchWrite : Unclocked ref s.relatchWrite := by
  unfold State.relatchWrite
  extract_lets _ s1
  have hs1 : Unclocked ref s1 := hs.update
  exact hs1.linkBoundary.ite hs1

/-! ### The operations of Machine/Stops.lean -/

theorem pumpAll : Unclocked ref s.pumpAll :=
  .scanNext (.pump (hs.witnessStart.pump (fun _ _ h₁ => h₁.tableEntry)) (fun _ _ h₁ => h₁.codecEntry))

theorem tableStops {ch : Nat} {r : Request} {e : Entry} : Unclocked ref (s.tableStops ch r e).s := by
  unfold State.tableStops
  extract_lets _ _ a out
  have ha : Unclocked ref a.2 := hs.settle
  split
  · exact ha
  · have hw : Unclocked ref { a.2 with host := Memory.write s.host (tableOf e.raw).addr out } := ha.update
    exact hw.saveOver

theorem engineFree {k status nIn nOut : Nat} : Unclocked ref (s.engineFree k status nIn nOut) :=
  hs.setJob.setReg.engineEnds.setReg.setReg

theorem freshUpTo {n : Nat} : Unclocked ref (s.freshUpTo n).2 := by
  unfold State.freshUpTo
  exact hs.fresh (w := 32)

theorem codecStops {k status : Nat} {r : Request} {j : CodecJob} {e : Entry} :
    Unclocked ref (s.codecStops k status r j e).s := by
  unfold State.codecStops
  extract_lets c _ _ a nIn nOut out _ t1 t2
  have hout : Unclocked ref out.2 := by
    have h₁ : Unclocked ref nOut.2 := hs.settle.freshUpTo.freshUpTo
    dsimp only [out]
    split
    · exact h₁.freshBytes
    · exact h₁
  have ht1 : Unclocked ref t1 :=
    Unclocked.count (s := { out.2 with host := Memory.write s.host c.dst out.1 })
      hout.update
  have ht2 : Unclocked ref t2 := ht1.compressed.ite ht1
  exact ht2.engineFree

theorem witnessLeaves {k status nIn : Nat} {r : Request} {w : WitnessOp} {out : List Byte} :
    Unclocked ref (s.witnessLeaves k status r w out nIn).s := hs.writeHost.count.compressed.engineFree

theorem witnessStops {k status : Nat} {r : Request} {j : CodecJob} {e : Entry} :
    Unclocked ref (s.witnessStops k status r j e).s := by
  unfold State.witnessStops
  extract_lets _ _ nIn nOut x c
  have hc : Unclocked ref c.1 := hs.freshUpTo.freshUpTo.freeEcc.count.eccRead
  split
  · exact hs.witnessLeaves
  · split
    · exact hc.witnessLeaves
    · exact hc.eccFence.witnessLeaves

theorem scanStops {e : Nat} {sc : Scan} : Unclocked ref (s.scanStops e sc).s :=
  hs.scanAdvance.scanWriteBack.freeScan

theorem stopDelivers {ch status : Nat} {r : Request} : Unclocked ref (s.stopDelivers ch status r).s := by
  unfold State.stopDelivers
  extract_lets plain
  have hp : Unclocked ref plain.s := hs.settle
  split
  · exact hp
  · split
    · exact hs.tableStops
    · exact hs.codecStops
    · split
      · exact hs.scanStops
      · exact hp
    · exact hs.witnessStops
    · exact hp

theorem stopLeaves {ch status cause : Nat} {d : Stopped} : Unclocked ref (s.stopLeaves ch status cause d) :=
  hs.chanRecord.modChan.setReg.ite hs.stopRecord.stopEvent

theorem stopOutside {ch status cause : Nat} : Unclocked ref (s.stopOutside ch status cause) := by
  unfold State.stopOutside
  split
  · exact hs
  · exact .ite hs.stopRequest hs.stopDelivers.stopLeaves.complete.pumpAll

theorem stopAny {ch status cause : Nat} : Unclocked ref (s.stopAny ch status cause) :=
  hs.ite ((hs.feedRecord.channelLost.ite hs).ite (hs.looseRecord.ite hs.stopOutside))

theorem dmaAbort {ch : Nat} : Unclocked ref (s.dmaAbort ch) := hs.ite hs.stopAny
theorem dmaRelease {ch : Nat} : Unclocked ref (s.dmaRelease ch) := hs.setReg.pumpAll

/-! ### The operations of Machine/Pcie.lean -/

theorem stopAll : Unclocked ref s.stopAll := by
  refine hs.foldl (fun _ _ h₁ => ?_)
  split
  · exact h₁
  · exact h₁.stopDelivers.stopLeaves

theorem dropWork : Unclocked ref s.dropWork := by
  unfold State.dropWork
  extract_lets _ _ _ _ _ s1 s2 s3
  have hs1 : Unclocked ref s1 := hs.update
  have hs2 : Unclocked ref s2 := .foldl hs1 (fun _ _ h₁ => h₁.setReg)
  have hs3 : Unclocked ref s3 := hs2.setReg
  exact hs3.setReg.ite hs3

theorem endStripes : Unclocked ref s.endStripes := by
  unfold State.endStripes
  extract_lets _ s1
  have hs1 : Unclocked ref s1 := hs.abortWith.ite hs
  split
  · exact hs1
  · exact hs1.endUnarmed.update.ite hs1.endUnarmed

theorem armOpen : Unclocked ref s.armOpen := hs.fresh.armTaken.ite hs.armTaken

theorem hostReset {perst : Bool} {speed width : Nat} : Unclocked ref (s.hostReset perst speed width) := by
  unfold State.hostReset
  refine .ite hs ?_
  extract_lets s1 _ _ _ s2 _ s3 _ s4
  have hs1 : Unclocked ref s1 := hs.update.ite hs.armOpen
  have hs2 : Unclocked ref s2 := hs1.update.stopAll
  have hs3 : Unclocked ref s3 := hs2.update.dropWork.endStripes
  have hs4 : Unclocked ref s4 := hs3.hifCold
  exact hs4.update

theorem enterD3 {speed width : Nat} : Unclocked ref (s.enterD3 speed width) := hs.ite hs.hostReset.update
theorem vectorsGo : Unclocked ref s.vectorsGo := .foldl hs (fun _ _ h₁ => h₁.setReg.raiseVector.ite h₁)

theorem cfgWrite {o w : Nat} : Unclocked ref (s.cfgWrite o w) := by
  unfold State.cfgWrite
  extract_lets s1
  have hs1 : Unclocked ref s1 := hs.update
  exact (hs1.enterD3.ite (hs1.update.ite hs1)).ite ((hs1.hostReset.ite hs1).ite (hs1.vectorsGo.ite hs1))

/-! ### The operations of Machine/RegWrite.lean -/

theorem putField {a w : Nat} {f : Field} : Unclocked ref (s.putField a w f) := by
  unfold State.putField
  split
  · exact hs.setReg
  · exact hs.setReg.ite hs
  · exact hs

theorem putFields {a w : Nat} : Unclocked ref (s.putFields a w) := .foldl hs (fun _ _ h₁ => h₁.putField)

theorem bistGo {k : Nat} {yields : Bool} : Unclocked ref (s.bistGo k yields) := by
  unfold State.bistGo
  extract_lets _ _ s1 s2
  have hs1 : Unclocked ref s1 := hs.update.saveArea
  have hs2 : Unclocked ref s2 := hs1.wakeBlock.wakeBlock
  exact hs.setReg.ite (hs.setReg.ite (hs.setReg.ite (hs.setReg.ite (hs.bistNotRun.setReg.ite hs2.setReg.setReg))))

theorem mgtWrite {a w : Nat} : Unclocked ref (s.mgtWrite a w) :=
  hs.mgtResetWrite.ite (hs.setReg.thermWarn.ite (hs.pwrReqWrite.ite (hs.protCtrlWrite.ite (hs.ite hs.putFields))))

theorem baseWrite {on : Bool} {al a w : Nat} : Unclocked ref (s.baseWrite on al a w) := hs.ite hs.putFields
theorem eqModWrite {e a w : Nat} : Unclocked ref (s.eqModWrite e a w) := hs.putFields.raiseEq.ite hs.putFields

theorem msixWrite {v a w : Nat} : Unclocked ref (s.msixWrite v a w) :=
  hs.putFields.setReg.raiseVector.ite hs.putFields

theorem hifWrite {a w : Nat} : Unclocked ref (s.hifWrite a w) := by
  unfold State.hifWrite
  extract_lets
  refine .ite hs.baseWrite (.ite hs.hifCtrlWrite (.ite hs.poll ?_))
  refine .ite (hs.sqCfgWrite.ite hs.baseWrite) ?_
  exact .ite (.ite hs.eqCfgWrite (hs.eqModWrite.ite hs.baseWrite)) (hs.msixWrite.ite hs.putFields)

theorem chanCfgWrite {ch w : Nat} : Unclocked ref (s.chanCfgWrite ch w) := by
  unfold State.chanCfgWrite
  extract_lets s1
  have hs1 : Unclocked ref s1 := hs.setReg.setReg.ite hs
  exact hs1.setReg.ite hs1

theorem dmaWrite {a w : Nat} : Unclocked ref (s.dmaWrite a w) := by
  unfold State.dmaWrite
  extract_lets
  exact hs.setReg.ite ((hs.chanCfgWrite.ite ((hs.dmaAbort.ite hs).ite ((hs.dmaRelease.ite hs).ite hs))).ite hs)

theorem flashEpoch : Unclocked ref s.flashEpoch := hs.setReg.setReg.setReg
theorem linkCtrl {w : Nat} : Unclocked ref (s.linkCtrl w) := hs.linkEnWrite.relatchWrite.ite hs.linkEnWrite
theorem shlWrite {w : Nat} : Unclocked ref (s.shlWrite w) := (hs.setReg.ite hs.setReg.sendSet).linkCtrl

theorem nlkWrite {a w : Nat} : Unclocked ref (s.nlkWrite a w) := by
  unfold State.nlkWrite
  extract_lets s1 _ s2 s3
  have hs1 : Unclocked ref s1 := hs.putFields
  have hs2 : Unclocked ref s2 := hs1.update.ite hs1
  have hs3 : Unclocked ref s3 := hs2.startRejoin.ite hs2
  exact hs3.fenceChip.ite hs3

theorem calWrite {a w : Nat} : Unclocked ref (s.calWrite a w) := by
  unfold State.calWrite
  extract_lets s1
  have hs1 : Unclocked ref s1 := hs.putFields
  exact (hs1.allDue.ite hs1).ite ((hs1.deriveGo.ite hs1).ite (hs1.setReg.ite hs1))

theorem bstWrite {a w : Nat} : Unclocked ref (s.bstWrite a w) := by
  unfold State.bstWrite
  extract_lets s1
  have hs1 : Unclocked ref s1 := hs.putFields
  exact (hs1.bistGo.ite hs1).ite ((hs1.wakeWrite.ite hs1).ite hs1)

theorem pmuCtrlWrite {w : Nat} : Unclocked ref (s.pmuCtrlWrite w) := hs.setReg.update.ite hs.setReg

theorem snapCfgWrite {w : Nat} : Unclocked ref (s.snapCfgWrite w) := by
  unfold State.snapCfgWrite
  extract_lets _ _ s1 s2 s3
  have hs1 : Unclocked ref s1 := hs.ite hs.setReg
  have hs2 : Unclocked ref s2 := hs1.setReg.setReg
  have hs3 : Unclocked ref s3 := hs2.setReg
  exact hs3.update.ite hs3

theorem counterWrite {i w : Nat} : Unclocked ref (s.counterWrite i w) := by
  unfold State.counterWrite
  exact hs.setReg.update

theorem pmuWrite {a w : Nat} : Unclocked ref (s.pmuWrite a w) :=
  hs.pmuCtrlWrite.ite (hs.baseWrite.ite (hs.snapCfgWrite.ite ((hs.snapshot.ite hs).ite (hs.counterWrite.ite hs))))

theorem landed {a w : Nat} : Unclocked ref (s.landed a w) := by
  unfold State.landed
  split
  · exact hs.mgtWrite
  · exact hs.hifWrite
  · exact hs.dmaWrite
  · exact (hs.flashEpoch.ite hs).ite hs.putFields
  · exact hs.shlWrite.ite hs
  · exact hs.nlkWrite.ite hs
  · exact hs.calWrite
  · exact hs.bstWrite
  · exact hs.pmuWrite
  · exact hs.putFields

theorem holdWrite {a : Nat} {w : Word} : Unclocked ref (s.holdWrite a w) := hs.update

theorem busWrite {a : Nat} {w : Word} : Unclocked ref (s.busWrite a w) := by
  unfold State.busWrite
  extract_lets
  exact (hs.ite hs.cfgWrite).ite (hs.ite (hs.holdWrite.ite hs.bistYield.landed))

theorem landHeld {held : List (Nat × Word)} : Unclocked ref (s.landHeld held) := .foldl hs (fun _ _ h₁ => h₁.busWrite)

end Unclocked

end Sys2Proof.Machine

end

/-! ## SAFE (R23, R56)

`Spares s t` says what the way into SAFE leaves once the chip is there: its state and cause, the always-on domain, the
fence, the stripe, HBM3 and serial flash, the state of the shutter link. -/

section

namespace Sys2Proof.Machine

/-- The state without what the way into SAFE may change, but for the register fields' own values. -/
def State.spared (s : State) : State :=
  { State.reset with g := s.g, aon := s.aon, fence := s.fence, stripe := s.stripe, hbm := s.hbm, flash := s.flash
                     shl := { Shl.reset with st := s.shl.st } }

/-- The way into SAFE leads from `s` to `t`. -/
structure Spares (s t : State) : Prop where
  rest : t.spared = s.spared
  safeCause : t.reg MGT_STATE.SAFE_CAUSE = s.reg MGT_STATE.SAFE_CAUSE

namespace Spares

variable {s t u : State}

theorem refl (s : State) : Spares s s := ⟨rfl, rfl⟩

theorem trans (h : Spares s t) (k : Spares t u) : Spares s u := ⟨k.rest.trans h.rest, k.safeCause.trans h.safeCause⟩

theorem ite {c : Prop} [Decidable c] (h : c → Spares s t) (k : ¬c → Spares s u) : Spares s (if c then t else u) := by
  split
  · next e => exact h e
  · next e => exact k e

theorem foldl {α : Type} {f : State → α → State} (hf : ∀ s a, Spares s (f s a)) (l : List α) :
    ∀ s, Spares s (l.foldl f s) := by
  induction l with
  | nil => exact refl
  | cons a l ih => exact fun s => (hf s a).trans (ih _)

theorem of_quiet (h : t.quiet = s.quiet) (k : RegsButHif [] s t) : Spares s t :=
  ⟨(congrArg State.spared h :), k _ List.not_mem_nil (by decide)⟩

/-- An update of fields that `State.spared` forgets, but for the register fields. -/
theorem update
    {pending phase quick live latches answer cc free host tabLive tabStaged prot cfg commits power hif chans cdc scans
      scanWait prs csm pec waiting lastOutcome port nlk hmc cal bst pmu} :
    Spares s { s with pending, phase, quick, live, latches, answer, cc, free, host, tabLive, tabStaged, prot, cfg, commits,
                      power, hif, chans, cdc, scans, scanWait, prs, csm, pec, waiting, lastOutcome, port, nlk, hmc, cal,
                      bst, pmu } :=
  ⟨rfl, rfl⟩

theorem g (h : Spares s t) : t.g = s.g := (congrArg State.g h.rest :)
theorem aon (h : Spares s t) : t.aon = s.aon := (congrArg State.aon h.rest :)
theorem fence (h : Spares s t) : t.fence = s.fence := (congrArg State.fence h.rest :)
theorem stripe (h : Spares s t) : t.stripe = s.stripe := (congrArg State.stripe h.rest :)
theorem hbm (h : Spares s t) : t.hbm = s.hbm := (congrArg State.hbm h.rest :)
theorem flash (h : Spares s t) : t.flash = s.flash := (congrArg State.flash h.rest :)
theorem link (h : Spares s t) : t.shl.st = s.shl.st := (congrArg (fun x : State => x.shl.st) h.rest :)

end Spares

variable (s : State)

theorem spares_setReg {f : Field} (hf : f.key ≠ MGT_STATE.SAFE_CAUSE.key) (v : Nat) : Spares s (s.setReg f v) :=
  ⟨rfl, reg_setReg_ne s v hf⟩

theorem spares_postDev (code status info d0 d1 : Nat) : Spares s (s.postDev code status info d0 d1) :=
  .of_quiet (postDev_quiet s _ _ _ _ _) (regsButHif_postDev s [] _ _ _ _ _)

theorem spares_naluSend (m : NaluMsg) : Spares s (s.naluSend m) :=
  .of_quiet (naluSend_quiet s m) (.of_regs (naluSend_regs s m))

theorem spares_naluDown : Spares s s.naluDown :=
  Spares.trans .update (spares_setReg _ (f := NLK_STATE.LANES_UP) (by decide) 0)

theorem spares_bookFired : Spares s s.bookFired :=
  ⟨(congrArg State.spared (slots_quiet s _ _ _) :), (readsOnly_slots s _ _ _).regs _ (by decide)⟩

theorem spares_clear (fs : List Field) : ∀ s : State, (∀ f ∈ fs, f.key ≠ MGT_STATE.SAFE_CAUSE.key) →
    Spares s (fs.foldl (fun s f => s.setReg f 0) s) := by
  induction fs with
  | nil => exact fun s _ => .refl s
  | cons f fs ih =>
    exact fun s ne => (spares_setReg s (ne f List.mem_cons_self) 0).trans (ih _ fun f h => ne f (List.mem_cons_of_mem _ h))

theorem spares_quietPath : Spares s s.quietPath := by
  unfold State.quietPath
  extract_lets t
  have h : Spares s t := .ite (fun _ => .refl s) (fun _ =>
    ((spares_setReg s (f := PRS_STATUS.ACTIVE) (by decide) 0).trans
      (spares_setReg _ (f := PRS_STATUS.LAST_STATUS) (by decide) 0x04)).trans
      (spares_setReg _ (f := PRS_STATUS.LAST_REASON) (by decide) 0))
  exact h.trans (spares_clear _ _ (by decide))

theorem spares_emptyPath : Spares s s.emptyPath := .update

theorem spares_pageCheck : Spares s s.pageCheck := .ite (fun _ => spares_postDev s _ _ _ _ _) (fun _ => .refl s)

theorem spares_itemLive (item : Nat) (bs : List Byte) : Spares s (s.itemLive item bs) := by
  unfold State.itemLive
  split
  · exact Spares.trans .update (spares_pageCheck _)
  all_goals exact .update

theorem spares_itemsLive : Spares s s.itemsLive :=
  Spares.trans .update (.foldl (fun s (i : Nat × List Byte) => spares_itemLive s i.1 i.2) s.prot.waiting _)

/-- The chip with a fence and its shutter link DOWN. -/
def State.fenced (s : State) (f : Fence) : State := { s with fence := some f, shl := { s.shl with st := .down } }

/-- A fence whose cause is not the one that LINK_EN lifts takes the shutter link DOWN (R363). -/
theorem spares_setFence {cause : Nat} (h : cause ≠ 0x08) (hard : Bool) :
    Spares (s.fenced ⟨cause, hard⟩) (s.setFence cause hard) := by
  unfold State.setFence
  extract_lets s1 s2
  have shown : s1.reg MGT_STATE.SAFE_CAUSE = s.reg MGT_STATE.SAFE_CAUSE :=
    (reg_addReg_ne _ 1 (f := NLK_LOSSES.FENCES) (by decide)).trans (reg_setReg_ne _ _ (f := NLK_STATE.CAUSE) (by decide))
  have stopped : Spares (s.fenced ⟨cause, hard⟩) (s1.linkStop .down) :=
    ⟨rfl, (reg_setReg_ne _ _ (f := SHL_BC.GOOD) (by decide)).trans shown⟩
  have h2 : Spares (s.fenced ⟨cause, hard⟩) s2 := by
    dsimp only [s2]
    rwa [if_neg h]
  exact (h2.trans (spares_naluSend _ _)).trans (spares_postDev _ _ _ _ _ _)

/-- The chip in SAFE, not yet fenced hard. -/
def State.inSafe (s : State) (safe : Nat) : State := { s with g := .safe }.setReg MGT_STATE.SAFE_CAUSE safe

/-- A hard fence stands; any other chip takes one (R23). -/
def State.fencedHard (s : State) (cause : Nat) : State :=
  if s.fence.any (·.hard) then s else s.setFence cause true

/-- The way into SAFE: the stripe's cause, the hard fence, the end of the stripe and what it leaves of the stream. -/
theorem enterSafe_eq {s : State} (on : s.g ≠ .off) (safe cause : Nat) (send : Bool) :
    ∃ u v, Spares s u ∧ Spares { (u.inSafe safe).fencedHard cause with stripe := none } v ∧
      s.enterSafe safe cause send = v := by
  unfold State.enterSafe
  rw [if_neg (by simpa using on)]
  extract_lets s1 _ s2 s3 s4
  have h1 : Spares s s1 :=
    Spares.trans (.ite (fun _ => spares_setReg s (f := EMS_STATE.CAUSE) (by decide) 0x0E) (fun _ => .refl s))
      (spares_bookFired _)
  have h2 : Spares s s2 := h1.trans .update
  have down : Spares { (s2.inSafe safe).fencedHard cause with stripe := none } { s4 with stripe := none } :=
    ⟨(congrArg (fun x : State => { x with stripe := none }) (spares_naluDown _).rest :), (spares_naluDown _).safeCause⟩
  refine ⟨s2, _, h2, ?_, rfl⟩
  exact (((down.trans .update).trans (spares_quietPath _)).trans (spares_emptyPath _)).trans (spares_itemsLive _)

/-- What SAFE leaves of the state that enters it. -/
theorem enterSafe_spec {s : State} (on : s.g ≠ .off) (safe : Nat) {cause : Nat} (stands : cause ≠ 0x08) (send : Bool) :
    let t := s.enterSafe safe cause send
    t.g = .safe ∧ t.reg MGT_STATE.SAFE_CAUSE = safe % 2 ^ MGT_STATE.SAFE_CAUSE.width ∧ t.aon = s.aon ∧ t.stripe = none ∧
      t.hbm = s.hbm ∧ t.flash = s.flash ∧
      t.fence = (if s.fence.any (·.hard) then s.fence else some ⟨cause, true⟩) ∧
      (s.fence.any (·.hard) = false → t.shl.st = .down) := by
  obtain ⟨u, v, before, after, eq⟩ := enterSafe_eq on safe cause send
  rw [eq]
  have shown : (u.inSafe safe).reg MGT_STATE.SAFE_CAUSE = safe % 2 ^ MGT_STATE.SAFE_CAUSE.width := reg_setReg_same _ _ _
  have stripe : v.stripe = none := after.stripe
  unfold State.fencedHard at after
  rw [show (u.inSafe safe).fence = s.fence from before.fence] at after
  cases hard : s.fence.any (·.hard) with
  | true =>
    rw [hard, if_pos rfl] at after
    exact ⟨after.g, after.safeCause.trans shown, after.aon.trans before.aon, stripe, after.hbm.trans before.hbm,
      after.flash.trans before.flash, after.fence.trans before.fence, fun h => by cases h⟩
  | false =>
    rw [hard, if_neg Bool.false_ne_true] at after
    have fenced := spares_setFence (u.inSafe safe) stands true
    exact ⟨after.g.trans fenced.g, after.safeCause.trans (fenced.safeCause.trans shown),
      after.aon.trans (fenced.aon.trans before.aon), stripe, after.hbm.trans (fenced.hbm.trans before.hbm),
      after.flash.trans (fenced.flash.trans before.flash), after.fence.trans fenced.fence,
      fun _ => after.link.trans fenced.link⟩

/-! ### What a lost precondition leaves of HBM3 and serial flash (R404, R405, R407) -/

/-- HBM3 and serial flash. -/
def State.stored (s : State) : Memory × Sparse Byte := (s.hbm, s.flash)

theorem stored_count (s : State) (b ev n : Nat) : (s.count b ev n).stored = s.stored := by
  simp [State.stored]

theorem stored_wakeBlock (s : State) (k : Nat) : (s.wakeBlock k).stored = s.stored := by
  obtain ⟨-, hbm, flash⟩ := (readsOnly_wakeBlock s k).sameMemories
  simp [State.stored, hbm, flash]

theorem stored_setReg (s : State) (f : Field) (v : Nat) : (s.setReg f v).stored = s.stored := rfl
theorem stored_addReg (s : State) (f : Field) (n : Nat) : (s.addReg f n).stored = s.stored := rfl
theorem stored_fresh (s : State) (w : Nat) : (s.fresh w).2.stored = s.stored := rfl
theorem stored_bistOver (s : State) (status ms : Nat) : (s.bistOver status ms).stored = s.stored := rfl

theorem stored_bistResult (s : State) (k status code kind sig count : Nat) :
    (s.bistResult k status code kind sig count).stored = s.stored := by
  unfold State.bistResult
  extract_lets s1 s2 s3
  have h3 : s3.stored = s.stored := by
    simp only [s3, s2, s1, stored_count, stored_setReg, stored_addReg]
  split
  · rw [stored_count, h3]
  · exact h3

theorem stored_bistNotRun (s : State) (kind k : Nat) : (s.bistNotRun kind k).stored = s.stored := by
  simp only [State.bistNotRun, stored_bistResult, stored_fresh]

theorem stored_bistAbort (s : State) : s.bistAbort.stored = s.stored := by
  unfold State.bistAbort
  split
  · rfl
  · simp only [stored_bistOver, stored_bistNotRun, stored_fresh]

theorem stored_snapTaken (s : State) : s.snapTaken.stored = s.stored := by
  unfold State.snapTaken
  extract_lets seq a _ s1
  split
  · rw [stored_count, stored_wakeBlock, stored_wakeBlock]
    rfl
  · simp [State.stored]

theorem stored_snapshot (s : State) : s.snapshot.stored = s.stored := by
  unfold State.snapshot State.bistYield
  extract_lets uses
  split
  · rfl
  · split
    · exact stored_count _ _ _ _
    · split
      · rfl
      · rw [stored_snapTaken]
        split
        · exact stored_bistAbort s
        · rfl

theorem stored_snapDue (s : State) : s.snapDue.stored = s.stored := by
  unfold State.snapDue
  extract_lets _ t
  split
  · exact stored_snapshot t
  · rfl

theorem stored_parkNotRun (s : State) : s.parkNotRun.stored = s.stored := by
  have blocks (l : List Nat) : ∀ s : State, (l.foldl (fun s k => s.bistNotRun 2 k) s).stored = s.stored := by
    induction l with
    | nil => exact fun _ => rfl
    | cons k l ih => exact fun s => (ih _).trans (stored_bistNotRun s 2 k)
  rw [State.parkNotRun, stored_setReg, stored_setReg, blocks]

theorem calm_parkNotRun (s : State) : Calm s s.parkNotRun :=
  ((Calm.foldl (fun s k => calm_bistNotRun s 2 k) _ s).trans
    (calm_setReg _ (f := BST_PARK.BIST_STATUS) (by decide) 0x0A)).trans
    (calm_setReg _ (f := BST_PARK.PHASE) (by decide) 0)

/-- With nothing held for a test, what its loss leaves. -/
theorem preconditionLost_unheld (s : State) (unheld : s.bst.test.all (·.held.isEmpty) = true) :
    Calm s s.preconditionLost ∧ s.preconditionLost.stored = s.stored := by
  unfold State.preconditionLost
  split
  · exact ⟨calm_parkNotRun s, stored_parkNotRun s⟩
  · unfold State.testLost
    split
    · exact ⟨.refl s, rfl⟩
    · next test running =>
      have empty : test.held = [] := by simpa [running] using unheld
      rw [empty]
      exact ⟨(calm_bistAbort s).trans (calm_snapDue _), (stored_snapDue _).trans (stored_bistAbort s)⟩

/-- Whatever writes a lost test held back, no clock returns and the chip does not go OFF. -/
theorem Unclocked.preconditionLost {ref : Bool} {s : State} (hs : Unclocked ref s) : Unclocked ref s.preconditionLost := by
  unfold State.preconditionLost State.testLost
  refine .ite (hs.calm (calm_parkNotRun s)) ?_
  split
  · exact hs
  · exact (hs.calm (calm_bistAbort s)).landHeld.calm (calm_snapDue _)

/-- The chip as the loss of a clock finds it. -/
def State.clockGone (s : State) (ref : Bool) : State :=
  { s with aon := { s.aon with rootLock := false, refclk := s.aon.refclk && !ref } }

theorem exec_clockLoss {s : State} {ref : Bool} (lost : s.aon.rootLock = true ∨ ref = true ∧ s.aon.refclk = true)
    (on : s.g ≠ .off) :
    exec (.clockLoss ref) s = .next ((s.clockGone ref).preconditionLost.enterSafe 4 0x0D false) := by
  show execClockLoss ref s = _
  unfold execClockLoss
  extract_lets _ t
  have active : (s.g != .off && (s.aon.rootLock || (ref && s.aon.refclk))) = true := by simpa [on] using lost
  rw [if_pos active]
  rfl

end Sys2Proof.Machine

end

section

open Sys2Proof.Machine

/-- Settles O10: `Unclocked` carries the loss of the clock through the writes that land first, `enterSafe_spec` says what
SAFE leaves, and `preconditionLost_unheld` what comes before it where no write was held. -/
theorem clockLossEntersSafe : Obligations.ClockLossEntersSafe := by
  refine ⟨fun s ref lost on => ⟨_, exec_clockLoss lost on, ?_⟩, fun s rail us h => ?_⟩
  · have gone : Unclocked (s.aon.refclk && !ref) (s.clockGone ref) := ⟨on, rfl, rfl⟩
    have landed := gone.preconditionLost
    obtain ⟨g, cause, aon, stripe, hbm, flash, fence, link⟩ :=
      enterSafe_spec landed.on 4 (cause := 0x0D) (by decide) false
    refine ⟨g, cause, ?_, stripe, aon ▸ landed.lock, aon ▸ landed.ref, fun unheld => ?_⟩
    · rw [fence]
      split
      · next hard => exact hard
      · rfl
    · obtain ⟨calm, stored⟩ := preconditionLost_unheld (s.clockGone ref) unheld
      have same : (s.clockGone ref).preconditionLost.fence = s.fence := calm.fence
      rw [same] at fence link
      exact ⟨hbm.trans (congrArg Prod.fst stored), flash.trans (congrArg Prod.snd stored), fence, link⟩
  · show execRailTrip rail us s = _
    unfold execRailTrip
    rw [if_pos (by simpa using h)]

end

/-! ## Reset, power and the beginning of START (R43, R46, R53, R54, R57, R59, R97) -/

section

namespace Sys2Proof.Machine

variable (s : State)

/-! ### Which fields a run of operations changes -/

theorem RegsBut.comp {fs : List Field} {s t u : State} (h : RegsBut fs s t) (k : RegsBut fs t u) : RegsBut fs s u :=
  fun f hf => (k f hf).trans (h f hf)

theorem RegsBut.foldl {α : Type} {fs : List Field} {f : State → α → State} {l : List α}
    (hf : ∀ a ∈ l, ∀ s, RegsBut fs s (f s a)) : ∀ s, RegsBut fs s (l.foldl f s) := by
  induction l with
  | nil => exact .refl fs
  | cons a l ih =>
    exact fun s => (hf a List.mem_cons_self s).comp (ih (fun b hb => hf b (List.mem_cons_of_mem a hb)) _)

/-- A run of register writes changes the register fields alone. -/
theorem foldl_setReg_rest {α : Type} (f : α → Field) (v : Nat) (l : List α) :
    ∀ s : State, let t := l.foldl (fun s a => s.setReg (f a) v) s
      t = { s with regs := t.regs } := by
  induction l with
  | nil => exact fun _ => rfl
  | cons a l ih => exact fun s => ih (s.setReg (f a) v)

/-! ### START begins -/

/-- START begins, before its registers are cleared. -/
def State.starting (s : State) (quick : Bool) : State :=
  { s.domainsOn with g := .start, phase := .boot, quick, cal := { s.cal with ran := 0, applied := 0 }
                     bst := { s.bst with wakeAsked := false } }

/-- START begins, its park phase shown and its gaps counted anew. -/
def State.startingAnew (s : State) (quick : Bool) : State :=
  (if quick then (s.starting quick).setReg BST_PARK.PHASE 6 else s.starting quick).setReg CAL_STATUS.GAPS 0

theorem startUp_eq (quick : Bool) :
    s.startUp quick = (List.range 6).foldl (fun s k => s.setReg (CAL_ITEM_STATUS.RUNS k) 0) (s.startingAnew quick) := rfl

theorem startUp_rest (quick : Bool) : s.startUp quick = { s.starting quick with regs := (s.startUp quick).regs } := by
  rw [startUp_eq, foldl_setReg_rest]
  cases quick <;> rfl

/-- The fields that START clears or sets as it begins. -/
abbrev startFields : List Field := BST_PARK.PHASE :: CAL_STATUS.GAPS :: (List.range 6).map CAL_ITEM_STATUS.RUNS

theorem regsBut_startUp (quick : Bool) : RegsBut startFields s (s.startUp quick) := by
  have anew : RegsBut startFields (s.starting quick) (s.startingAnew quick) := by
    refine RegsBut.comp ?_ (regsBut_setReg (.tail _ List.mem_cons_self) _ 0)
    split
    · exact regsBut_setReg List.mem_cons_self _ 6
    · exact .refl _ _
  rw [startUp_eq]
  exact anew.comp (.foldl (fun k hk s => regsBut_setReg (.tail _ (.tail _ (List.mem_map_of_mem hk))) s 0) _)

/-! ### OFF -/

theorem hifCold_rest : s.hifCold =
    { s with hif := .reset, regs := s.hifCold.regs, live := s.hifCold.live, latches := s.hifCold.latches } := by
  have unbound := foldl_setReg_rest DMA_CH_STATUS.BOUND 0 (List.range 9) s
  unfold State.hifCold
  rw [unbound]
  rfl

/-- The protection store with no sequence run since this reset. -/
def Prot.forget (p : Prot) : Prot :=
  { p with pending := none, lastItem := 0, lastLen := 0, lastCrc := 0, lastNonce := 0, smbReply := [], smbAlert := false }

theorem protForget_rest : s.protForget = { s with prot := s.prot.forget, regs := s.protForget.regs } :=
  foldl_setReg_rest id 0 _ _

/-! ### RESET_N and the rails -/

variable {s} in
theorem resetNFall_unpowered (rails : s.aon.rails = false) :
    exec .resetNFall s = .next { s with aon := { s.aon with resetHigh := false, seenLow := true } } := by
  show execResetNFall s = _
  simp [execResetNFall, rails]

/-- What a fall of RESET_N leaves of the chip before it is OFF (R54, R97, R401). -/
def State.fallen (s : State) : State :=
  if s.g = .park ∧ s.bst.tag.isSome = true then s.hifCold.protForget
  else if s.g = .park ∨ s.g = .off ∧ s.bst.tag = none then s.cold
  else if s.g = .off then s
  else { s.cold with hbm := [] }

variable {s} in
theorem exec_resetNFall (rails : s.aon.rails = true) :
    exec .resetNFall s = .next (s.fallen.toOff.setReg MGT_RESET_CAUSE.RESET_PIN 1) := by
  show execResetNFall s = _
  simp [execResetNFall, State.fallen, rails]

variable {s} in
theorem fallen_parked (park : s.g = .park) (tag : s.bst.tag.isSome = true) : s.fallen = s.hifCold.protForget :=
  if_pos ⟨park, tag⟩

theorem parked_rest : s.hifCold.protForget =
    { s with hif := .reset, prot := s.prot.forget, regs := s.hifCold.protForget.regs, live := s.hifCold.live
             latches := s.hifCold.latches } := by
  rw [protForget_rest, hifCold_rest]

theorem fallen_outside :
    s.fallen.host = s.host ∧ s.fallen.flash = s.flash ∧ s.fallen.pending = s.pending := by
  unfold State.fallen
  split
  · rw [parked_rest]
    exact ⟨rfl, rfl, rfl⟩
  · split
    · exact ⟨rfl, rfl, rfl⟩
    · split <;> exact ⟨rfl, rfl, rfl⟩

variable {s} in
theorem fallen_park_hbm (park : s.g = .park) : s.fallen.hbm = s.hbm := by
  unfold State.fallen
  split
  · rw [parked_rest]
  · rw [if_pos (.inl park)]
    rfl

variable {s} in
theorem fallen_running (park : s.g ≠ .park) (on : s.g ≠ .off) : s.fallen = { s.cold with hbm := [] } := by
  simp [State.fallen, park, on]

theorem resetNFall_spec (rails : s.aon.rails = true) :
    ∃ t, exec .resetNFall s = .next t ∧ t.g = .off ∧ t.aon.resetHigh = false ∧
      t.aon.seenLow = true ∧ t.aon.rootLock = false ∧ t.aon.therm0 = false ∧ t.aon.therm1 = false ∧
      t.reg MGT_RESET_CAUSE.RESET_PIN = 1 ∧ t.host = s.host ∧ t.flash = s.flash ∧ t.pending = s.pending ∧
      (s.g = .park → t.hbm = s.hbm) ∧
      (s.g = .park → s.bst.tag.isSome = true → t.bst = s.bst ∧ t.prot = s.prot.forget) ∧
      (s.g ≠ .park → s.g ≠ .off → t.hbm = [] ∧ t.stripe = none ∧ t.prot.windows = [] ∧ t.prot.headKey = none ∧
        t.tabLive = .cold ∧ t.hif.entries = []) := by
  obtain ⟨host, flash, pending⟩ := fallen_outside s
  refine ⟨_, exec_resetNFall rails, rfl, rfl, rfl, rfl, rfl, rfl, reg_setReg_same _ _ _, host, flash, pending,
    fallen_park_hbm, fun park tag => ?_, fun park on => ?_⟩
  · rw [fallen_parked park tag, parked_rest]
    exact ⟨rfl, rfl⟩
  · rw [fallen_running park on]
    exact ⟨rfl, rfl, rfl, rfl, rfl, rfl⟩

theorem powerLoss_spec :
    ∃ t, exec .powerLoss s = .next t ∧ t.g = .off ∧ t.aon.rails = false ∧ t.hbm = [] ∧ t.host = s.host ∧
      t.flash = s.flash ∧ t.bst.tag = none ∧ t.prot.windows = [] ∧ t.prot.headKey = none ∧ t.prot.beamAuth = none ∧
      t.prot.flashWe = false ∧ t.prot.pmuUser = false ∧ t.stripe = none ∧
      (∀ f : Field, f.key ≠ MGT_RESET_CAUSE.POWER_ON.key → t.reg f = f.reset) :=
  ⟨_, rfl, rfl, rfl, rfl, rfl, rfl, rfl, rfl, rfl, rfl, rfl, rfl, rfl, fun _ hf =>
    reg_setReg_ne { s.cold.toOff with hbm := [], regs := [], bst := .reset } 0 (Ne.symm hf)⟩

theorem railsUp_spec (high : Bool) (rails : s.aon.rails = false) :
    ∃ t, exec (.railsUp high) s = .next t ∧ t.g = s.g ∧
      t.aon.rails = true ∧ t.aon.resetHigh = high ∧ t.aon.seenLow = !high ∧ t.reg MGT_RESET_CAUSE.POWER_ON = 1 ∧
      SameMemories s t ∧ RegsBut [MGT_RESET_CAUSE.POWER_ON] s t ∧ t.bst = s.bst := by
  let u : State := { s with aon := { s.aon with rails := true, resetHigh := high, seenLow := !high, refclk := true } }
  refine ⟨u.setReg MGT_RESET_CAUSE.POWER_ON 1, ?_, rfl, rfl, rfl, rfl, reg_setReg_same _ _ _, ⟨rfl, rfl, rfl⟩,
    regsBut_setReg (List.mem_singleton_self _) u 1, rfl⟩
  show execRailsUp high s = _
  simp [execRailsUp, rails, u]

/-- The chip once RESET_N is high again, after a programmer had the serial flash. -/
def State.risen (s : State) (twin : Bool) (prog : Cells) : State :=
  { s.programmed prog with aon := { s.aon with resetHigh := true, twinPin := twin } }

/-- The chip whose start begins: its role sampled, its PCIe link trained. -/
def State.sampled (s : State) (twin : Bool) (speed width : Nat) : State :=
  { s with aon := { s.aon with mirror := twin, refclk := true }, cfg := { Cfg.reset with speed, width } }

variable {s} in
theorem exec_resetNRise (low : s.aon.resetHigh = false) (off : s.g = .off) (rails : s.aon.rails = true)
    (seen : s.aon.seenLow = true) (us : Nat) (twin : Bool) (speed width : Nat) (prog : Cells) :
    exec (.resetNRise us twin speed width prog) s = .next (if 10 ≤ us then
      ((s.risen twin prog).sampled twin speed width).startUp s.bst.tag.isSome else s.risen twin prog) := by
  show execResetNRise us twin speed width prog s = _
  simp [execResetNRise, State.risen, State.sampled, low, off, rails, seen]

theorem resetNRise_spec (us : Nat) (twin : Bool) (speed width : Nat) (prog : Cells) (low : s.aon.resetHigh = false)
    (off : s.g = .off) (rails : s.aon.rails = true) (seen : s.aon.seenLow = true) :
    ∃ t, exec (.resetNRise us twin speed width prog) s = .next t ∧ t.aon.resetHigh = true ∧ t.aon.twinPin = twin ∧
      t.host = s.host ∧ t.hbm = s.hbm ∧ t.flash = prog.foldl (fun m c => Sparse.set flashByte m c.1 c.2) s.flash ∧
      t.prot = s.prot ∧ { t.bst with wakeAsked := s.bst.wakeAsked } = s.bst ∧
      (10 ≤ us → t.g = .start ∧ t.phase = .boot ∧ t.quick = s.bst.tag.isSome ∧ t.isMirror = twin ∧ t.cfg.speed = speed ∧
        t.cfg.width = width ∧ RegsBut startFields s t) ∧
      (us < 10 → t.g = .off ∧ t.isMirror = s.isMirror ∧ t.regs = s.regs) := by
  refine ⟨_, exec_resetNRise low off rails seen us twin speed width prog, ?_⟩
  split
  · next long =>
    have regs := regsBut_startUp ((s.risen twin prog).sampled twin speed width) s.bst.tag.isSome
    obtain ⟨r, started⟩ : ∃ r, ((s.risen twin prog).sampled twin speed width).startUp s.bst.tag.isSome =
      { ((s.risen twin prog).sampled twin speed width).starting s.bst.tag.isSome with regs := r } := ⟨_, startUp_rest _ _⟩
    rw [started] at regs ⊢
    exact ⟨rfl, rfl, rfl, rfl, rfl, rfl, rfl, fun _ => ⟨rfl, rfl, rfl, rfl, rfl, rfl, regs⟩, fun short => by omega⟩
  · next short =>
    exact ⟨rfl, rfl, rfl, rfl, rfl, rfl, rfl, fun long => absurd long short, fun _ => ⟨off, rfl, rfl⟩⟩

end Sys2Proof.Machine

end

section

open Sys2Proof.Machine

/-- Settles O6: `State.fallen` says what a fall of RESET_N leaves, `startUp_rest` and `regsBut_startUp` what START
changes as it begins. -/
theorem resetPinAndRails : Obligations.ResetPinAndRails :=
  ⟨⟨resetNFall_spec, fun _ => resetNFall_unpowered⟩, ⟨powerLoss_spec, railsUp_spec⟩, resetNRise_spec⟩

end


/-! ## CHIP_RESET (R59, R97) -/

section

namespace Sys2Proof.Machine

variable {s : State}

/-- The KEY of a word whose bit 0 is set besides. -/
theorem key_or_one (w : Word) : bits (w ||| 1#32).toNat 16 16 = w.toNat / 2 ^ 16 := by
  have high : (w ||| 1#32).toNat / 2 ^ 16 = w.toNat / 2 ^ 16 := by
    rw [BitVec.toNat_or, ← Nat.shiftRight_eq_div_pow, ← Nat.shiftRight_eq_div_pow, Nat.shiftRight_or_distrib]
    exact Nat.or_zero _
  rw [bits, high]
  have := w.isLt
  omega

theorem bit_or_one (w : Word) : bit (w ||| 1#32).toNat 0 = true := by
  simp [bit]

theorem exec_chipReset (lands : s.writeLands 0x20) (w : Word) :
    exec (.chipReset w) s = .next (s.mgtResetWrite (w ||| 1#32).toNat) := by
  show Host.Outcome.next (s.busWrite 0x20 (w ||| 1#32)) = _
  rw [busWrite_of_lands lands rfl (by decide)]
  rfl

/-- A write with the KEY and CHIP_RESET set, once it has cleared REFUSED or not. -/
theorem mgtResetWrite_keyed {w : Word} (key : w.toNat / 2 ^ 16 = 0x3C3C) : ∃ r, RegsBut [MGT_RESET.REFUSED] s { s with regs := r } ∧
    s.mgtResetWrite (w ||| 1#32).toNat = State.chipReset { s with regs := r } := by
  rw [State.mgtResetWrite, key_or_one, if_neg (not_not_intro key), bit_or_one]
  split
  · exact ⟨_, regsBut_setReg (List.mem_singleton_self MGT_RESET.REFUSED) s 0, rfl⟩
  · exact ⟨s.regs, .refl _ s, rfl⟩

theorem chipReset_refused (active : s.stripeActive = true) : s.chipReset = s.setReg MGT_RESET.REFUSED 1 := by
  rw [State.chipReset, if_pos active]

/-- What the cold path after CHIP_RESET finds: the chip cold, but for the protected items. -/
def State.resetByHost (s : State) : State :=
  { s.cold with
    prot := { Prot.reset with
      windows := s.prot.windows, flashWe := s.prot.flashWe, pmuUser := s.prot.pmuUser, headKey := s.prot.headKey
      draws := s.prot.draws, beamAuth := s.prot.beamAuth.map BeamAuth.release }
    aon := { s.aon with therm0 := false, therm1 := false } }

theorem chipReset_starts (idle : s.stripeActive = false) (on : s.g ≠ .off) :
    s.chipReset = (s.resetByHost.startUp false).setReg MGT_RESET_CAUSE.CHIP 1 := by
  simp only [State.chipReset, idle, Bool.false_eq_true, if_false, beq_iff_eq, on]
  rfl

theorem chipReset_refusal {w : Word} (key : w.toNat / 2 ^ 16 = 0x3C3C) (active : s.stripeActive = true)
    (lands : s.writeLands 0x20) : ∃ r, exec (.chipReset w) s = .next { s with regs := r } ∧
      State.reg { s with regs := r } MGT_RESET.REFUSED = 1 ∧ RegsBut [MGT_RESET.REFUSED] s { s with regs := r } := by
  obtain ⟨r, cleared, eq⟩ := mgtResetWrite_keyed (s := s) key
  rw [exec_chipReset lands, eq, chipReset_refused (s := { s with regs := r }) active]
  exact ⟨_, rfl, reg_setReg_same _ _ _, cleared.comp (regsBut_setReg (List.mem_singleton_self MGT_RESET.REFUSED) _ 1)⟩

theorem chipReset_coldPath {w : Word} (key : w.toNat / 2 ^ 16 = 0x3C3C) (idle : s.stripeActive = false)
    (lands : s.writeLands 0x20) : ∃ t, exec (.chipReset w) s = .next t ∧ t.g = .start ∧
      t.phase = .boot ∧ t.quick = false ∧ t.reg MGT_RESET_CAUSE.CHIP = 1 ∧ t.prot.windows = s.prot.windows ∧
      t.prot.headKey = s.prot.headKey ∧ t.prot.flashWe = s.prot.flashWe ∧ t.prot.pmuUser = s.prot.pmuUser ∧
      SameMemories s t ∧ t.stripe = none ∧ t.hif.entries = [] ∧ t.fence = none ∧ t.tabLive = .cold := by
  have on : s.g ≠ .off := fun off => by simp [State.writeLands, State.takesWrite, off] at lands
  obtain ⟨r, -, eq⟩ := mgtResetWrite_keyed (s := s) key
  rw [exec_chipReset lands, eq, chipReset_starts (s := { s with regs := r }) idle on, startUp_rest]
  exact ⟨_, rfl, rfl, rfl, rfl, reg_setReg_same _ _ _, rfl, rfl, rfl, rfl, ⟨rfl, rfl, rfl⟩, rfl, rfl, rfl, rfl⟩

end Sys2Proof.Machine

end

section

open Sys2Proof.Machine

/-- Settles O11: the word written carries the KEY of `w` (`key_or_one`) and sets CHIP_RESET (`bit_or_one`), so it is
ignored, refused or starts the cold path. -/
theorem chipResetNeedsKey : Obligations.ChipResetNeedsKey := by
  refine fun s w lands => ⟨fun key => ?_, fun key active => chipReset_refusal key active lands,
    fun key idle => chipReset_coldPath key idle lands⟩
  rw [exec_chipReset lands, State.mgtResetWrite, key_or_one, if_pos key]

end

/-! ## NLK goes OFF with its link up (R366, R394, R395): the end of the link is an event, which changes the HIF -/

section

namespace Sys2Proof.Machine

/-- A lead in READY whose Nalu link is up, with NLK asked to go OFF and no message unacknowledged. -/
def linkedLeadWithNlkLeaving : State :=
  { State.reset with g := .ready, regs := [(MGT_PWR_REQ.REQ.key, 2 * 4 ^ 11)]
                     nlk := { Nlk.reset with paired := true, linkUp := true } }

theorem linkedLead_nlkDrained :
    linkedLeadWithNlkLeaving.pwrPending 11 = true ∧ linkedLeadWithNlkLeaving.drained 11 = true := by
  constructor <;> decide

/-- The end of the link posts event 0x60, which no ring can take. -/
theorem linkedLead_eventHeld :
    ∃ t, exec (.blockDrainedOff 11) linkedLeadWithNlkLeaving = .next t ∧ t.hif.hold ≠ [] :=
  ⟨_, rfl, by decide⟩

end Sys2Proof.Machine

end

section

open Sys2Proof.Machine

/-- Refutes O31: its first clause has `t.hif = s.hif` for every block, but with block 11 the Nalu link of a pair ends
(`State.linkOff`), and event 0x60 of that end stands in the HIF: held where no event ring can take it, as here. -/
theorem not_blockStates : ¬ Obligations.BlockStates := by
  intro ⟨goesOff, _⟩
  obtain ⟨pending, drained⟩ := linkedLead_nlkDrained
  obtain ⟨off, -⟩ := goesOff linkedLeadWithNlkLeaving 11 (by decide) (by decide)
  obtain ⟨t, ends, -, -, hif, -⟩ := off pending drained (by decide)
  obtain ⟨t', ends', held⟩ := linkedLead_eventHeld
  obtain rfl := Host.Outcome.next.inj (ends'.symm.trans ends)
  exact held (congrArg Hif.hold hif)

end

/-! ## A calibration gap ends with a mask of due items wider than its field (R380) -/

section

namespace Sys2Proof.Machine

/-- A chip in READY in a gap, with item 3 due and its port out of lock; CAL_STATUS.DUE holds 72, a bit beyond its 6. -/
def gapWithWideDue : State :=
  { State.reset with g := .ready, regs := [(CAL_STATUS.DUE.key, 72)], cal := { Cal.reset with gap := some (0, 0, [], 0, 0) } }

theorem gapWithWideDue_due : gapWithWideDue.reg CAL_STATUS.DUE = 72 := by decide

/-- Item 3 stays due, and the mask is stored again, cut to its 6 bits. -/
theorem calGapEnd_wideDue : ∃ t, exec .calGapEnd gapWithWideDue = .next t ∧ t.reg CAL_STATUS.DUE = 8 :=
  ⟨_, rfl, by decide⟩

end Sys2Proof.Machine

end

section

open Sys2Proof.Machine

/-- Refutes O59: the end of a gap with items due is to leave every register but the LAST_STATUS of the items. It stores
CAL_STATUS.DUE again for an item that ends NOT_RUN (`State.itemEnds`, `State.setDue`), cut to the field's 6 bits; the
statement has no premise that the 6-bit field holds a 6-bit number, and in a state where it does not the field changes. -/
theorem not_sensorsAndGaps : ¬ Obligations.SensorsAndGaps := by
  intro ⟨_, _, _, gapEnds, _⟩
  obtain ⟨-, itemsDue⟩ := gapEnds gapWithWideDue 0 0 [] 0 0 rfl nofun
  obtain ⟨t, ends, -, -, regs, -⟩ := itemsDue (by decide)
  obtain ⟨t', ends', due⟩ := calGapEnd_wideDue
  obtain rfl := Host.Outcome.next.inj (ends'.symm.trans ends)
  have kept := regs CAL_STATUS.DUE (by decide)
  rw [due, gapWithWideDue_due] at kept
  contradiction

end

/-! ## The way into SAFE changes the registers of the stripe, the fence, the links and the stream alone (R23, R408) -/

section

namespace Sys2Proof.Machine

variable (s : State)

theorem regsButHif_setReg_of_mem {fs : List Field} {f : Field} (hf : f ∈ fs) (v : Nat) : RegsButHif fs s (s.setReg f v) :=
  fun g hg _ => regsBut_setReg hf s v g hg

theorem RegsButHif.foldl {α : Type} {fs : List Field} {f : State → α → State} {l : List α}
    (hf : ∀ a ∈ l, ∀ s, RegsButHif fs s (f s a)) : ∀ s, RegsButHif fs s (l.foldl f s) := by
  induction l with
  | nil => exact fun s => .refl s fs
  | cons a l ih =>
    exact fun s => (hf a List.mem_cons_self s).trans (ih (fun b hb => hf b (List.mem_cons_of_mem a hb)) _)

/-- The registers outside the HIF's window that the way into SAFE changes. -/
def safeFields : List Field :=
  [EMS_STATE.CAUSE, MGT_STATE.SAFE_CAUSE, NLK_STATE.CAUSE, NLK_LOSSES.FENCES, SHL_BC.GOOD, NLK_STATE.LANES_UP,
    PRS_STATUS.ACTIVE, PRS_STATUS.LAST_STATUS, PRS_STATUS.LAST_REASON, PRS_STATUS.STALL_LAQ, PRS_STATUS.STALL_AHEAD,
    PRS_STATUS.STARVED, PRS_TSTORE.LINES, PRS_TSTORE.LOCKED, CSM_STATUS.WAIT_BUF]

theorem safeFields_setReg {f : Field} (hf : f ∈ safeFields) (v : Nat) : RegsButHif safeFields s (s.setReg f v) :=
  regsButHif_setReg_of_mem s hf v

theorem safeFields_linkStop (st : LinkState) : RegsButHif safeFields s (s.linkStop st) :=
  safeFields_setReg _ (f := SHL_BC.GOOD) (by decide) 0

theorem safeFields_naluDown : RegsButHif safeFields s s.naluDown :=
  safeFields_setReg _ (f := NLK_STATE.LANES_UP) (by decide) 0

theorem safeFields_setFence (cause : Nat) (hard : Bool) : RegsButHif safeFields s (s.setFence cause hard) := by
  unfold State.setFence
  extract_lets s1 s2
  have h1 : RegsButHif safeFields s s1 :=
    (safeFields_setReg _ (f := NLK_STATE.CAUSE) (by decide) cause).trans
      (safeFields_setReg _ (f := NLK_LOSSES.FENCES) (by decide) _)
  have h2 : RegsButHif safeFields s s2 := .ite h1 (h1.trans (safeFields_linkStop s1 .down))
  exact (h2.trans (.of_regs (naluSend_regs s2 _))).trans (regsButHif_postDev _ _ _ _ _ _ _)

theorem safeFields_quietPath : RegsButHif safeFields s s.quietPath := by
  unfold State.quietPath
  extract_lets t
  have h : RegsButHif safeFields s t := .ite (.refl s _)
    (((safeFields_setReg s (f := PRS_STATUS.ACTIVE) (by decide) 0).trans
      (safeFields_setReg _ (f := PRS_STATUS.LAST_STATUS) (by decide) 4)).trans
      (safeFields_setReg _ (f := PRS_STATUS.LAST_REASON) (by decide) 0))
  have quieted : ∀ f ∈ [PRS_STATUS.STALL_LAQ, PRS_STATUS.STALL_AHEAD, PRS_STATUS.STARVED, PRS_TSTORE.LINES,
      PRS_TSTORE.LOCKED, CSM_STATUS.WAIT_BUF], f ∈ safeFields := by decide
  exact h.trans (.foldl (fun f hf s => safeFields_setReg s (quieted f hf) 0) t)

theorem safeFields_pageCheck : RegsButHif safeFields s s.pageCheck :=
  .ite (regsButHif_postDev s _ _ _ _ _ _) (.refl s _)

theorem safeFields_itemsLive : RegsButHif safeFields s s.itemsLive := by
  refine RegsButHif.foldl (s := { s with prot := { s.prot with waiting := [] } }) (fun i _ s => ?_)
  unfold State.itemLive
  split
  · exact RegsButHif.trans (.of_regs rfl) (safeFields_pageCheck _)
  all_goals exact .refl s _

theorem emptyPath_regs : s.emptyPath.regs = s.regs := rfl

theorem slots_regs (st c n : Nat) : (s.slots st c n).regs = s.regs := by
  unfold State.slots
  split <;> rfl

theorem regsButHif_enterSafe (safe cause : Nat) (send : Bool) : RegsButHif safeFields s (s.enterSafe safe cause send) := by
  unfold State.enterSafe
  extract_lets s1 _ s2 s3 s4
  have h1 : RegsButHif safeFields s s1 :=
    RegsButHif.trans (.ite (safeFields_setReg s (f := EMS_STATE.CAUSE) (by decide) 0x0E) (.refl s _))
      (.of_regs (slots_regs _ _ _ _))
  have h3 : RegsButHif safeFields s s3 :=
    h1.trans (safeFields_setReg { s2 with g := .safe } (f := MGT_STATE.SAFE_CAUSE) (by decide) safe)
  have h4 : RegsButHif safeFields s s4 :=
    (h3.trans (.ite (.refl s3 _) (safeFields_setFence s3 cause true))).trans (safeFields_naluDown _)
  have h5 : RegsButHif safeFields s { s4 with stripe := none, nlk := { s4.nlk with rejoining := false } } :=
    h4.trans (.of_regs rfl)
  have h6 := (h5.trans (safeFields_quietPath _)).trans (.of_regs (emptyPath_regs _))
  exact .ite (.refl s _) (h6.trans (safeFields_itemsLive _))

end Sys2Proof.Machine

end

/-! ## The stack's temperature (R51, R276) -/

section

namespace Sys2Proof.Machine

variable (s : State)

/-! ### What a change of the stack's temperature leaves -/

/-- The fields that the entry to hot and its forced REFab change. -/
def heatFields : List Field := (List.range 32).flatMap fun pc => [HMC_REF.PEAK pc, HMC_REF.FORCED pc]

/-- Between `s` and `t` only the pseudo-channels, their own register fields and the counters differ. -/
structure HeatLeaves (s t : State) : Prop where
  rest : t = { s with regs := t.regs, hmc := t.hmc, pmu := t.pmu }
  regs : RegsBut heatFields s t

namespace HeatLeaves

variable {s : State}

theorem refl : HeatLeaves s s := ⟨rfl, .refl _ _⟩

theorem trans {t u : State} (h : HeatLeaves s t) (k : HeatLeaves t u) : HeatLeaves s u :=
  ⟨by rw [k.rest, h.rest], h.regs.comp k.regs⟩

theorem foldl {α : Type} {f : State → α → State} {l : List α} (hf : ∀ a ∈ l, ∀ s, HeatLeaves s (f s a)) :
    ∀ s, HeatLeaves s (l.foldl f s) := by
  induction l with
  | nil => exact fun _ => refl
  | cons a l ih => exact fun s => (hf a List.mem_cons_self s).trans (ih (fun b hb => hf b (List.mem_cons_of_mem a hb)) _)

theorem setReg {f : Field} (hf : f ∈ heatFields) (v : Nat) : HeatLeaves s (s.setReg f v) := ⟨rfl, regsBut_setReg hf s v⟩

end HeatLeaves

theorem count_rest (b ev n : Nat) : s.count b ev n = { s with pmu := (s.count b ev n).pmu } := by
  unfold State.count
  split <;> rfl

theorem peak_mem_heatFields {pc : Nat} (h : pc < 32) : HMC_REF.PEAK pc ∈ heatFields :=
  List.mem_flatMap.2 ⟨pc, List.mem_range.2 h, by simp⟩

theorem forced_mem_heatFields {pc : Nat} (h : pc < 32) : HMC_REF.FORCED pc ∈ heatFields :=
  List.mem_flatMap.2 ⟨pc, List.mem_range.2 h, by simp⟩

theorem heatLeaves_modPseudo (pc : Nat) (f : PseudoChan → PseudoChan) : HeatLeaves s (s.modPseudo pc f) :=
  ⟨rfl, fun _ _ => rfl⟩

theorem heatLeaves_count (b ev n : Nat) : HeatLeaves s (s.count b ev n) :=
  ⟨by rw [count_rest], fun _ _ => count_reg s _ _ _ _⟩

theorem heatLeaves_forced {pc : Nat} (h : pc < 32) (n : Nat) : HeatLeaves s (s.forced pc n) :=
  ((heatLeaves_modPseudo s pc _).trans (.setReg (forced_mem_heatFields h) _)).trans (heatLeaves_count _ _ _ _)

theorem heatLeaves_pcHot {pc : Nat} (h : pc < 32) : HeatLeaves s (s.pcHot pc).1 := by
  unfold State.pcHot
  extract_lets p excess s1
  have noted : HeatLeaves s s1 := (heatLeaves_modPseudo s pc _).trans (.setReg (peak_mem_heatFields h) _)
  show HeatLeaves s (if excess = 0 then s1 else s1.forced pc excess)
  split
  · exact noted
  · exact noted.trans (heatLeaves_forced s1 h excess)

theorem becomeHot_fst : s.becomeHot.1 = (List.range 32).foldl (fun s pc => (s.pcHot pc).1) s :=
  (List.foldl_hom Prod.fst fun _ _ => rfl).symm

theorem heatLeaves_becomeHot : HeatLeaves s s.becomeHot.1 := by
  rw [becomeHot_fst]
  exact HeatLeaves.foldl (fun pc h s => heatLeaves_pcHot s (List.mem_range.1 h)) s

/-! ### The credits of every pseudo-channel -/

theorem pseudo_modPseudo_self {pc : Nat} (h : pc < s.hmc.pcs.length) (f : PseudoChan → PseudoChan) :
    (s.modPseudo pc f).pseudo pc = f (s.pseudo pc) := by
  simp [State.pseudo, State.modPseudo, modAt, h]

theorem pseudo_modPseudo_ne {pc k : Nat} (h : k ≠ pc) (f : PseudoChan → PseudoChan) :
    (s.modPseudo pc f).pseudo k = s.pseudo k := by
  simp [State.pseudo, State.modPseudo, modAt, Ne.symm h]

theorem pcs_length_modPseudo (pc : Nat) (f : PseudoChan → PseudoChan) :
    (s.modPseudo pc f).hmc.pcs.length = s.hmc.pcs.length := by
  simp [State.modPseudo, modAt]

theorem iter_refreshed_p (r : Nat) : ∀ (n : Nat) (c : PseudoChan), (iter (fun c => PseudoChan.refreshed c r) n c).p = c.p
  | 0, _ => rfl
  | n + 1, c => iter_refreshed_p r n (c.refreshed r)

/-- `f` changes pseudo-channel `pc` alone, and its P as `g` says. -/
def MapsCredit (g : Int → Int) (pc : Nat) (s t : State) : Prop :=
  (pc < s.hmc.pcs.length → (t.pseudo pc).p = g (s.pseudo pc).p) ∧ (∀ k, k ≠ pc → t.pseudo k = s.pseudo k) ∧
    t.hmc.pcs.length = s.hmc.pcs.length

variable {s} in
theorem MapsCredit.trans {g g' : Int → Int} {pc : Nat} {t u : State} (h : MapsCredit g pc s t)
    (k : MapsCredit g' pc t u) : MapsCredit (g' ∘ g) pc s u := by
  obtain ⟨hp, hne, hlen⟩ := h
  obtain ⟨kp, kne, klen⟩ := k
  exact ⟨fun i => (kp (hlen ▸ i)).trans (congrArg g' (hp i)), fun j ne => (kne j ne).trans (hne j ne), klen.trans hlen⟩

theorem mapsCredit_of_hmc {pc : Nat} {t : State} (h : t.hmc = s.hmc) : MapsCredit id pc s t := by
  simp [MapsCredit, State.pseudo, h]

theorem mapsCredit_modPseudo {g : Int → Int} {f : PseudoChan → PseudoChan} (pc : Nat)
    (h : (f (s.pseudo pc)).p = g (s.pseudo pc).p) : MapsCredit g pc s (s.modPseudo pc f) :=
  ⟨fun i => by rw [pseudo_modPseudo_self s i, h], fun _ ne => pseudo_modPseudo_ne s ne _, pcs_length_modPseudo s pc _⟩

theorem mapsCredit_forced (pc n : Nat) : MapsCredit id pc s (s.forced pc n) := by
  unfold State.forced
  extract_lets r
  have paid : MapsCredit id pc s
      (s.modPseudo pc fun c => { iter (fun c => PseudoChan.refreshed c r) n c with down := false }) :=
    mapsCredit_modPseudo s pc (iter_refreshed_p r n _)
  exact paid.trans (mapsCredit_of_hmc _ (by simp))

/-- P of a pseudo-channel that becomes hot. -/
def hotCredit (p : Int) : Int := max (min (2 * p) 8) (-8)

/-- P of a pseudo-channel that cools. -/
def coolCredit (p : Int) : Int := -(-p / 2)

theorem mapsCredit_pcHot (pc : Nat) : MapsCredit hotCredit pc s (s.pcHot pc).1 := by
  unfold State.pcHot
  extract_lets p excess s1
  have noted : MapsCredit hotCredit pc s s1 :=
    (mapsCredit_modPseudo s (g := hotCredit) pc rfl).trans (mapsCredit_of_hmc _ rfl)
  show MapsCredit hotCredit pc s (if excess = 0 then s1 else s1.forced pc excess)
  split
  · exact noted
  · exact noted.trans (mapsCredit_forced s1 pc excess)

theorem mapsCredit_pcCool (pc : Nat) : MapsCredit coolCredit pc s (s.pcCool pc) := mapsCredit_modPseudo s pc rfl

/-- A pass over the pseudo-channels below `n` changes the P of each as one step does, and those above `n` not at all. -/
theorem foldl_mapsCredit {g : Int → Int} {f : State → Nat → State} (hf : ∀ s pc, MapsCredit g pc s (f s pc)) :
    ∀ n, n ≤ s.hmc.pcs.length →
      let t := (List.range n).foldl f s
      t.hmc.pcs.length = s.hmc.pcs.length ∧ (∀ pc, pc < n → (t.pseudo pc).p = g (s.pseudo pc).p) ∧
        ∀ pc, n ≤ pc → t.pseudo pc = s.pseudo pc := by
  intro n hn
  induction n with
  | zero => exact ⟨rfl, fun _ h => absurd h (Nat.not_lt_zero _), fun _ _ => rfl⟩
  | succ n ih =>
    obtain ⟨len, below, above⟩ := ih (by omega)
    obtain ⟨self, other, len'⟩ := hf ((List.range n).foldl f s) n
    simp only [List.range_succ, List.foldl_append, List.foldl_cons, List.foldl_nil]
    refine ⟨len'.trans len, fun pc h => ?_, fun pc h => (other pc (by omega)).trans (above pc (by omega))⟩
    rcases Nat.lt_succ_iff_lt_or_eq.1 h with lt | rfl
    · rw [other pc (by omega), below pc lt]
    · rw [self (by omega), above pc le_rfl]

/-! ### A reading of the stack's temperature -/

/-- Between `s` and `t` the stack's heat changed at most, and an event was posted at most. -/
structure HeatPosted (s t : State) : Prop where
  g : t.g = s.g
  stripe : t.stripe = s.stripe
  fence : t.fence = s.fence
  aon : t.aon = s.aon
  memories : MemoriesBut s.devSlot s t
  regs : RegsButHif (HMC_STATUS.HOT :: heatFields) s t

theorem devSlot_of {t : State} (hif : t.hif = s.hif) (eq : t.reg HIF_CTRL.DEV_EQ = s.reg HIF_CTRL.DEV_EQ) :
    t.devSlot = s.devSlot := by
  simp only [State.devSlot, State.devEq, State.evRing, hif, eq]

theorem HeatPosted.refl : HeatPosted s s := ⟨rfl, rfl, rfl, rfl, ⟨rfl, rfl, fun _ _ => rfl⟩, .refl s _⟩

theorem heatPosted_postDev {v : Nat} {u : State} (h : HeatLeaves (s.setReg HMC_STATUS.HOT v) u) (d0 d1 : Nat) :
    HeatPosted s (u.postDev 0x4B 0 0 d0 d1) := by
  obtain ⟨rest, regs⟩ := h
  have hif : u.hif = s.hif := by rw [rest]; rfl
  have host : u.host = s.host := by rw [rest]; rfl
  have slot : u.devSlot = s.devSlot := devSlot_of s hif ((regs HIF_CTRL.DEV_EQ (by decide)).trans (reg_setReg_ne s v (by decide)))
  refine ⟨?_, ?_, ?_, ?_, ⟨?_, ?_, fun a ha => ?_⟩, fun f hf hb => ?_⟩
  · rw [postDev_g, rest]; rfl
  · rw [postDev_stripe, rest]; rfl
  · rw [postDev_fence, rest]; rfl
  · rw [postDev_aon, rest]; rfl
  · rw [postDev_hbm, rest]; rfl
  · rw [postDev_flash, rest]; rfl
  · rw [postDev_host u _ _ _ _ _ a (slot ▸ ha), host]
  · rw [List.map_cons, List.mem_cons, not_or] at hf
    obtain ⟨hot, heat⟩ := hf
    rw [regsButHif_postDev u [] _ _ _ _ _ f List.not_mem_nil hb, regs f heat]
    exact reg_setReg_ne s v (Ne.symm hot)

theorem reg_hot_postDev {v : Nat} {u : State} (h : HeatLeaves (s.setReg HMC_STATUS.HOT v) u) (d0 d1 : Nat) :
    (u.postDev 0x4B 0 0 d0 d1).reg HMC_STATUS.HOT = v % 2 ^ HMC_STATUS.HOT.width := by
  rw [regsButHif_postDev u [] _ _ _ _ _ _ List.not_mem_nil (by decide), h.regs HMC_STATUS.HOT (by decide),
    reg_setReg_same]

theorem pseudo_postDev (c st i x y pc : Nat) : (s.postDev c st i x y).pseudo pc = s.pseudo pc := by
  rw [State.pseudo, postDev_hmc, State.pseudo]

/-- What a reading of the stack's temperature does to the hot state (R276). -/
structure HeatsTo (c : Nat) (s t : State) : Prop where
  posted : HeatPosted s t
  hot : s.reg HMC_STATUS.HOT = 0 → 85 ≤ c → t.reg HMC_STATUS.HOT = 1 ∧
    ∀ pc, pc < 32 → (t.pseudo pc).p = hotCredit (s.pseudo pc).p
  cool : s.reg HMC_STATUS.HOT = 1 → c ≤ 81 → t.reg HMC_STATUS.HOT = 0 ∧
    ∀ pc, pc < 32 → (t.pseudo pc).p = coolCredit (s.pseudo pc).p
  kept : (s.reg HMC_STATUS.HOT = 0 → c < 85) → (s.reg HMC_STATUS.HOT = 1 → 81 < c) → t = s

theorem heatsTo_stackHeat (c : Nat) (len : s.hmc.pcs.length = 32) : HeatsTo c s (s.stackHeat c) := by
  unfold State.stackHeat
  split
  · next h =>
    simp only [Bool.and_eq_true, decide_eq_true_eq] at h
    obtain ⟨off, warm⟩ := h
    have leaves := heatLeaves_becomeHot (s.setReg HMC_STATUS.HOT 1)
    obtain ⟨-, credits, -⟩ := foldl_mapsCredit (s.setReg HMC_STATUS.HOT 1) mapsCredit_pcHot 32 len.ge
    refine ⟨heatPosted_postDev s leaves _ _, fun _ _ => ⟨reg_hot_postDev s leaves _ _, fun pc hpc => ?_⟩,
      fun on => by omega, fun no => by have := no off; omega⟩
    rw [pseudo_postDev, becomeHot_fst]
    exact credits pc hpc
  split
  · next h =>
    simp only [Bool.and_eq_true, decide_eq_true_eq] at h
    obtain ⟨on, cold⟩ := h
    have leaves : HeatLeaves (s.setReg HMC_STATUS.HOT 0) ((List.range 32).foldl State.pcCool (s.setReg HMC_STATUS.HOT 0)) :=
      HeatLeaves.foldl (fun pc _ s => heatLeaves_modPseudo s pc _) _
    obtain ⟨-, credits, -⟩ := foldl_mapsCredit (s.setReg HMC_STATUS.HOT 0) mapsCredit_pcCool 32 len.ge
    refine ⟨heatPosted_postDev s leaves _ _, fun off => by omega,
      fun _ _ => ⟨reg_hot_postDev s leaves _ _, fun pc hpc => ?_⟩, fun _ no => by have := no on; omega⟩
    rw [pseudo_postDev]
    exact credits pc hpc
  · next no no' =>
    simp only [Bool.and_eq_true, decide_eq_true_eq] at no no'
    exact ⟨.refl s, fun off warm => absurd ⟨off, warm⟩ no, fun on cold => absurd ⟨on, cold⟩ no', fun _ _ => rfl⟩

/-- The reading stands in its registers. -/
def State.stackShows (s : State) (c : Nat) : State := (s.setReg MGT_TEMP.STACK c).setReg HMC_STATUS.STACK_C c

theorem stackShows_reg {f : Field} (c : Nat) (h : MGT_TEMP.STACK.key ≠ f.key) (h' : HMC_STATUS.STACK_C.key ≠ f.key) :
    (s.stackShows c).reg f = s.reg f :=
  (reg_setReg_ne _ c h').trans (reg_setReg_ne s c h)

theorem exec_stackTempRead (c : Nat) (on : s.g ≠ .off) (lock : s.aon.rootLock = true) :
    exec (.stackTempRead c) s = .next (
      let t := ((s.stackShows c).stackHeat c).thermWarn
      if 105 ≤ c then t.thermTrip else t) := by
  show execStackTempRead c s = _
  unfold execStackTempRead
  rw [if_neg (by simp [on, lock])]
  rfl

theorem exec_stackTempRead_unlocked (c : Nat) (lock : s.aon.rootLock = false) : exec (.stackTempRead c) s = .next s := by
  show execStackTempRead c s = _
  unfold execStackTempRead
  rw [if_pos (by simp [lock])]

theorem thermWarn_aon_therm1 : s.thermWarn.aon.therm1 = s.aon.therm1 := rfl

/-- THERM_N[1] goes low on a chip that is not OFF: SAFE with SAFE_CAUSE 3. -/
theorem thermTrip_spec (on : s.g ≠ .off) (high : s.aon.therm1 = false) :
    let t := s.thermTrip
    t.g = .safe ∧ t.reg MGT_STATE.SAFE_CAUSE = 3 ∧ t.aon.therm1 = true ∧ t.fence.isSome = true ∧ t.stripe = none := by
  have trip : s.thermTrip = { s with aon := { s.aon with therm1 := true } }.enterSafe 3 7 true := by
    rw [State.thermTrip, if_neg (by simp [high])]
  obtain ⟨g, cause, aon, stripe, -, -, fence, -⟩ :=
    enterSafe_spec (s := { s with aon := { s.aon with therm1 := true } }) on 3 (cause := 7) (by decide) true
  rw [trip]
  refine ⟨g, cause, by rw [aon], ?_, stripe⟩
  rw [fence]
  split
  · next hard => exact Option.isSome_of_any hard
  · rfl

theorem thermTrip_keeps (on : s.g ≠ .off) : s.thermTrip.hbm = s.hbm ∧ s.thermTrip.flash = s.flash ∧
    RegsButHif safeFields s s.thermTrip := by
  unfold State.thermTrip
  split
  · exact ⟨rfl, rfl, .refl s _⟩
  · obtain ⟨-, -, -, -, hbm, flash, -, -⟩ :=
      enterSafe_spec (s := { s with aon := { s.aon with therm1 := true } }) on 3 (cause := 7) (by decide) true
    exact ⟨hbm, flash, RegsButHif.trans (.of_regs rfl) (regsButHif_enterSafe _ 3 7 true)⟩

end Sys2Proof.Machine

end

section

open Sys2Proof.Machine

/-- Settles O45: `heatsTo_stackHeat` says what a reading does to the hot state and the credits, `thermTrip_spec` what it
does at 105 degrees, and `regsButHif_enterSafe` that the reading itself stays on the way into SAFE. -/
theorem stackTemperature : Obligations.StackTemperature := by
  refine fun s c => ⟨exec_stackTempRead_unlocked s c, fun on lock len => ⟨_, exec_stackTempRead s c on lock, ?_⟩⟩
  obtain ⟨posted, hot, cool, kept⟩ := heatsTo_stackHeat (s.stackShows c) c len
  have hotReg : (s.stackShows c).reg HMC_STATUS.HOT = s.reg HMC_STATUS.HOT :=
    stackShows_reg s c (by decide) (by decide)
  have slot : (s.stackShows c).devSlot = s.devSlot := devSlot_of s rfl (stackShows_reg s c (by decide) (by decide))
  rw [hotReg] at hot cool kept
  have shown : ((s.stackShows c).stackHeat c).thermWarn.reg MGT_TEMP.STACK = c % 2 ^ 8 :=
    (posted.regs MGT_TEMP.STACK (by decide) (by decide)).trans
      ((reg_setReg_ne _ c (by decide)).trans (reg_setReg_same s _ c))
  have warned : ((s.stackShows c).stackHeat c).thermWarn.g ≠ .off := posted.g ▸ on
  obtain ⟨hbm, flash, host⟩ := slot ▸ posted.memories
  split
  · next high =>
    obtain ⟨hbm', flash', regs⟩ := thermTrip_keeps _ warned
    refine ⟨(regs MGT_TEMP.STACK (by decide) (by decide)).trans shown, hbm'.trans hbm, flash'.trans flash,
      fun low => absurd low (by omega), fun _ therm1 => ?_⟩
    exact thermTrip_spec _ warned (by rw [thermWarn_aon_therm1, posted.aon]; exact therm1)
  · next low =>
    refine ⟨shown, hbm, flash, fun _ => ⟨posted.g, posted.stripe, posted.fence, ⟨hbm, flash, host⟩, hot, cool,
      fun no no' => ?_⟩, fun high => absurd high low⟩
    have same := kept no no'
    rw [same]
    exact ⟨rfl, rfl, hotReg⟩

end

/-! ## Park is requested and withdrawn; wakes (R44, R396, R399, R401) -/

section

namespace Sys2Proof.Machine

variable (s : State)

/-! ### Requests -/

variable {s} in
theorem mayTake_of_parkWaiting (h : s.parkWaiting = true) (q : Nat) : s.mayTake q = false := by
  simp [State.mayTake, h]

variable {s} in
theorem exec_parkReqFall (h : s.serviced = true) :
    exec .parkReqFall s = .next (State.strapPark { s with aon := { s.aon with parkHigh := false } }) := by
  show execParkReqFall s = _
  rw [execParkReqFall, if_pos h]

variable {s} in
theorem parkReqFall_spec (h : s.serviced = true) : ∃ t, exec .parkReqFall s = .next t ∧ t.bst.strapReq = true ∧
    t.aon.parkHigh = false ∧ t.reg BST_PARK.PHASE = 1 ∧ t.g = s.g ∧ SameMemories s t ∧ (∀ q, t.mayTake q = false) :=
  ⟨_, exec_parkReqFall h, rfl, rfl, reg_setReg_same _ _ _, rfl, ⟨rfl, rfl, rfl⟩, mayTake_of_parkWaiting rfl⟩

/-- The chip once PARK_REQ_N is high again and asks for no park. -/
def State.strapFree (s : State) : State :=
  { s with aon := { s.aon with parkHigh := true }, bst := { s.bst with strapReq := false } }

variable {s} in
theorem exec_parkReqRise (park : s.g ≠ .park) (req : s.bst.strapReq = true) : exec .parkReqRise s = .next
    (if s.bst.ringReq.isNone then s.strapFree.setReg BST_PARK.PHASE 0 else s.strapFree) := by
  show execParkReqRise s = _
  rw [execParkReqRise, if_neg (by simpa using park), if_pos req]
  rfl

variable {s} in
theorem parkReqRise_spec (park : s.g ≠ .park) (req : s.bst.strapReq = true) : ∃ t, exec .parkReqRise s = .next t ∧
    t.bst.strapReq = false ∧ t.aon.parkHigh = true ∧ t.bst.ringReq = s.bst.ringReq ∧ t.g = s.g ∧ SameMemories s t := by
  refine ⟨_, exec_parkReqRise park req, ?_⟩
  split <;> exact ⟨rfl, rfl, rfl, rfl, rfl, rfl, rfl⟩

variable {s} in
/-- An entry that acts next, and is let act, acts. -/
theorem onEntry_of_acts {q opc : Nat} {e : Entry} (h : s.acts q opc e) (act : State → Entry → State) :
    s.onEntry q opc act = act s e := by
  obtain ⟨serviced, next, go, test⟩ := h
  simp only [State.onEntry, serviced, if_true, next, State.tryEntry, go, bistYield_of_no_test s test]

/-- Park requested by the PARK entry `idx` of ring `q`. -/
def State.ringPark (s : State) (q idx : Nat) : State :=
  { s.startEntry q idx with bst := { s.bst with ringReq := some (q, idx) } }.setReg BST_PARK.PHASE 1

variable {s} in
theorem exec_park {q : Nat} {e : Entry} (acts : s.acts q 0x62 e)
    (first : (s.entriesOf q).any (fun x => !x.started && x.idx < e.idx) = false) :
    exec (.park q) s = .next (s.ringPark q e.idx) := by
  show execPark q s = _
  rw [execPark, onEntry_of_acts acts, first]
  rfl

variable {s} in
theorem park_spec {q : Nat} {e : Entry} (acts : s.acts q 0x62 e)
    (first : (s.entriesOf q).any (fun x => !x.started && x.idx < e.idx) = false) :
    ∃ t, exec (.park q) s = .next t ∧ t.bst.ringReq = some (q, e.idx) ∧ t.reg BST_PARK.PHASE = 1 ∧ SameMemories s t ∧
      t.g = s.g ∧ ∀ q', t.mayTake q' = false := by
  have waits : (s.ringPark q e.idx).parkWaiting = true := by simp [State.parkWaiting, State.ringPark]
  exact ⟨_, exec_park acts first, rfl, reg_setReg_same _ _ _, ⟨rfl, rfl, rfl⟩, rfl, mayTake_of_parkWaiting waits⟩

/-! ### Wakes -/

variable {s} in
theorem wake_eq (park : s.g = .park) : ∃ n, s.wake = s.wakeNow.wakeSent n ∧
    (s.nlk.paired = true → s.isMirror = false → n = s.nlk.wakesSent + 1) := by
  unfold State.wake
  rw [if_neg (by simp [park])]
  split
  · exact ⟨_, rfl, fun _ _ => rfl⟩
  · next alone => exact ⟨_, rfl, fun paired lead => absurd (by simp [paired, lead]) alone⟩

/-- A wake trigger by a write: the bit reads 1 while the wake is held. -/
def State.asked (s : State) (held : Bool) : State := { s with bst := { s.bst with wakeAsked := s.bst.wakeAsked || held } }

theorem exec_parkWake : exec .parkWake s = .next
    (s.asked (s.g == .park && s.reg BST_PARK.PHASE ≠ 5 && s.reg BST_PARK.PHASE ≠ 0)).wake := rfl

variable {s} in
theorem exec_parkWake_unheld (h : s.g ≠ .park ∨ s.reg BST_PARK.PHASE = 5 ∨ s.reg BST_PARK.PHASE = 0) :
    exec .parkWake s = .next s.wake := by
  have held : (s.g == .park && s.reg BST_PARK.PHASE ≠ 5 && s.reg BST_PARK.PHASE ≠ 0) = false := by
    rcases h with h | h | h <;> simp [h]
  rw [exec_parkWake, held, State.asked, Bool.or_false]

variable {s} in
theorem parkWake_elsewhere (h : s.g ≠ .park) : exec .parkWake s = .next s := by
  rw [exec_parkWake_unheld (.inl h), State.wake, if_pos (by simpa using h)]

/-- A wake from PARK with the tag written, before START begins. -/
def State.woken (s : State) : State := (s.setReg MGT_RESET_CAUSE.WAKE 1).setReg BST_PARK.WAKE_HELD 0

theorem quickStart_rest : s.quickStart = { s.woken.starting true with regs := s.quickStart.regs } :=
  startUp_rest s.woken true

theorem reg_wake_quickStart : s.quickStart.reg MGT_RESET_CAUSE.WAKE = 1 :=
  (regsBut_startUp _ true MGT_RESET_CAUSE.WAKE (by decide)).trans
    ((reg_setReg_ne _ 0 (by decide)).trans (reg_setReg_same s _ 1))

variable {s} in
theorem parkWake_tagged (park : s.g = .park) (tagged : s.reg BST_PARK.PHASE = 5) :
    ∃ t, exec .parkWake s = .next t ∧ t.g = .start ∧ t.quick = true ∧
      t.phase = .boot ∧ t.reg MGT_RESET_CAUSE.WAKE = 1 ∧ SameMemories s t ∧ t.prot = s.prot ∧
      { t.bst with wakeAsked := s.bst.wakeAsked } = s.bst ∧
      (s.nlk.paired = true → s.isMirror = false → t.nlk.wakesSent = s.nlk.wakesSent + 1) := by
  obtain ⟨n, eq, counted⟩ := wake_eq park
  have now : s.wakeNow = s.quickStart := if_pos tagged
  have shown : (s.quickStart.wakeSent n).reg MGT_RESET_CAUSE.WAKE = 1 := reg_wake_quickStart s
  rw [exec_parkWake_unheld (.inr (.inl tagged)), eq, now]
  refine ⟨_, rfl, ?_, ?_, ?_, shown, ?_, ?_, ?_, counted⟩ <;> rw [quickStart_rest]
  exacts [rfl, rfl, rfl, ⟨rfl, rfl, rfl⟩, rfl, rfl]

variable {s} in
theorem parkWake_untagged (park : s.g = .park) (none : s.reg BST_PARK.PHASE = 0) :
    ∃ t, exec .parkWake s = .next t ∧ t.g = .start ∧ t.quick = false ∧
      t.prot.windows = [] ∧ t.prot.headKey = .none ∧ SameMemories s t := by
  obtain ⟨n, eq, -⟩ := wake_eq park
  have now : s.wakeNow = s.coldStart := by simp [State.wakeNow, none]
  rw [exec_parkWake_unheld (.inr (.inr none)), eq, now, State.coldStart, startUp_rest]
  exact ⟨_, rfl, rfl, rfl, rfl, rfl, rfl, rfl, rfl⟩

variable {s} in
theorem parkWake_held (park : s.g = .park) (saving : s.reg BST_PARK.PHASE ≠ 0) (untagged : s.reg BST_PARK.PHASE ≠ 5) :
    ∃ t, exec .parkWake s = .next t ∧ t.reg BST_PARK.WAKE_HELD = 1 ∧ RegsBut [BST_PARK.WAKE_HELD] s t ∧ t.g = .park ∧
      t.bst = { s.bst with wakeAsked := true } ∧ SameMemories s t ∧ t.hif = s.hif ∧
      (s.nlk.paired = true → s.isMirror = false → t.nlk.wakesSent = s.nlk.wakesSent + 1) := by
  have held : (s.g == .park && s.reg BST_PARK.PHASE ≠ 5 && s.reg BST_PARK.PHASE ≠ 0) = true := by
    simp [park, saving, untagged]
  obtain ⟨n, eq, counted⟩ := wake_eq (s := s.asked true) park
  have now : (s.asked true).wakeNow = (s.asked true).setReg BST_PARK.WAKE_HELD 1 :=
    (if_neg (c := s.reg BST_PARK.PHASE = 5) untagged).trans (if_neg (c := s.reg BST_PARK.PHASE = 0) saving)
  rw [exec_parkWake, held, eq, now]
  have shown : ((s.asked true).setReg BST_PARK.WAKE_HELD 1).reg BST_PARK.WAKE_HELD = 1 := reg_setReg_same _ _ _
  refine ⟨_, rfl, shown, regsBut_setReg (List.mem_singleton_self _) s 1, park, ?_, ⟨rfl, rfl, rfl⟩, rfl, counted⟩
  show { s.bst with wakeAsked := s.bst.wakeAsked || true } = _
  rw [Bool.or_true]

end Sys2Proof.Machine

end

section

open Sys2Proof.Machine

/-- Settles O38: park is requested and withdrawn by the lemmas on requests, and `wake_eq` with `State.wakeNow` says what a
wake starts in each phase of the park. -/
theorem parkBeginsAndEnds : Obligations.ParkBeginsAndEnds :=
  ⟨⟨fun _ => parkReqFall_spec, fun _ => parkReqRise_spec, fun _ _ _ => park_spec⟩, fun _ => parkWake_tagged,
    fun _ => parkWake_untagged, fun _ => parkWake_held, fun _ => parkWake_elsewhere⟩

end

/-! ## The full self-test of START (R57, R59, R383, R402, R406, R407) -/

section

namespace Sys2Proof.Machine

variable (s : State)

/-! ### The RCAL phase ends -/

theorem startCalEnds_rest : s.startCalEnds = { s with regs := s.startCalEnds.regs } := by
  unfold State.startCalEnds
  split <;> rfl

theorem regsBut_startCalEnds : RegsBut [CAL_ITEM_STATUS.LAST_STATUS 3, CAL_STATUS.DUE] s s.startCalEnds := by
  unfold State.startCalEnds
  split
  · exact (regsBut_setReg List.mem_cons_self s 0x0A).comp (regsBut_setReg (.tail _ List.mem_cons_self) _ _)
  · exact .refl _ s

theorem bit_setDue (k : Nat) (h : k < 6) : bit ((s.setDue k true).reg CAL_STATUS.DUE) k = true := by
  unfold State.setDue
  rw [reg_setReg_same, bit, show CAL_STATUS.DUE.width = 6 from rfl, Nat.testBit_mod_two_pow, decide_eq_true h,
    Bool.true_and]
  split
  · next set => simpa [bit] using set
  · next clear =>
    rw [if_pos rfl, Nat.add_comm, Nat.testBit_two_pow_add_eq]
    simpa [bit] using clear

variable {s} in
theorem startCalEnds_due (due : s.itemDue 3 = true) (on : s.pwr 13 ≠ .off) :
    s.startCalEnds.reg (CAL_ITEM_STATUS.LAST_STATUS 3) = 0x0A ∧ bit (s.startCalEnds.reg CAL_STATUS.DUE) 3 = true := by
  have ends : s.startCalEnds = (s.setReg (CAL_ITEM_STATUS.LAST_STATUS 3) 0x0A).setDue 3 true := by
    rw [State.startCalEnds, if_pos (by simp [due, on])]
    rfl
  rw [ends]
  exact ⟨(reg_setReg_ne _ _ (by decide)).trans (reg_setReg_same s _ _), bit_setDue _ 3 (by decide)⟩

/-! ### The results of a test -/

/-- The result fields of block `k`. -/
def bistFields (k : Nat) : List Field :=
  [BST_RESULT.STATUS k, BST_RESULT.CODE k, BST_RESULT.KIND k, BST_RESULT.RUNS k, BST_SIG.SIG k, BST_COUNT.COUNT k]

theorem keyBlock_bistFields {k : Nat} {f : Field} (h : f ∈ bistFields k) :
    14 ≤ keyBlock f.key ∧ (k < 16 → keyBlock f.key = 14) := by
  simp only [bistFields, List.mem_cons, List.not_mem_nil, or_false] at h
  rcases h with rfl | rfl | rfl | rfl | rfl | rfl <;>
    simp only [keyBlock, Field.key, BST_RESULT.STATUS, BST_RESULT.CODE, BST_RESULT.KIND, BST_RESULT.RUNS, BST_SIG.SIG,
      BST_COUNT.COUNT] <;> omega

/-- Between `s` and `t` tests of these blocks ended. -/
structure TestsEnded (ks : List Nat) (s t : State) : Prop where
  rest : t = { s with regs := t.regs, pmu := t.pmu, free := t.free }
  regs : RegsBut (ks.flatMap bistFields) s t

namespace TestsEnded

variable {ks : List Nat} {s t u : State}

theorem refl : TestsEnded ks s s := ⟨rfl, .refl _ _⟩

theorem trans (h : TestsEnded ks s t) (k : TestsEnded ks t u) : TestsEnded ks s u :=
  ⟨by rw [k.rest, h.rest], h.regs.comp k.regs⟩

theorem foldl {α : Type} {f : State → α → State} {l : List α} (hf : ∀ a ∈ l, ∀ s, TestsEnded ks s (f s a)) :
    ∀ s, TestsEnded ks s (l.foldl f s) := by
  induction l with
  | nil => exact fun _ => refl
  | cons a l ih => exact fun s => (hf a List.mem_cons_self s).trans (ih (fun b hb => hf b (List.mem_cons_of_mem a hb)) _)

theorem setReg {k : Nat} {f : Field} (hk : k ∈ ks) (hf : f ∈ bistFields k) (v : Nat) : TestsEnded ks s (s.setReg f v) :=
  ⟨rfl, regsBut_setReg (List.mem_flatMap.2 ⟨k, hk, hf⟩) s v⟩

theorem count (b ev n : Nat) : TestsEnded ks s (s.count b ev n) :=
  ⟨by rw [count_rest], fun _ _ => count_reg s _ _ _ _⟩

theorem reg_other (h : TestsEnded ks s t) {f : Field} (hf : keyBlock f.key < 14) : t.reg f = s.reg f := by
  refine h.regs f fun mem => ?_
  obtain ⟨g, hg, key⟩ := List.mem_map.1 mem
  obtain ⟨k, -, hk⟩ := List.mem_flatMap.1 hg
  have := (keyBlock_bistFields hk).1
  rw [key] at this
  omega

theorem reg_outside (h : TestsEnded ks s t) (low : ∀ k ∈ ks, k < 16) {f : Field} (hf : keyBlock f.key ≠ 14) :
    t.reg f = s.reg f := by
  refine h.regs f fun mem => ?_
  obtain ⟨g, hg, key⟩ := List.mem_map.1 mem
  obtain ⟨k, hk, hkf⟩ := List.mem_flatMap.1 hg
  exact hf (key ▸ (keyBlock_bistFields hkf).2 (low k hk))

theorem memories (h : TestsEnded ks s t) : SameMemories s t := by
  rw [h.rest]
  exact ⟨rfl, rfl, rfl⟩

end TestsEnded

/-- The result registers of block `k` show these values. -/
structure ResultShown (status code kind k : Nat) (s : State) : Prop where
  status : s.reg (BST_RESULT.STATUS k) = status
  code : s.reg (BST_RESULT.CODE k) = code
  kind : s.reg (BST_RESULT.KIND k) = kind

/-- The first three result registers of block `k` are written. -/
def State.resultSet (s : State) (k status code kind : Nat) : State :=
  ((s.setReg (BST_RESULT.STATUS k) status).setReg (BST_RESULT.CODE k) code).setReg (BST_RESULT.KIND k) kind

/-- The other result registers of block `k` are written, and the test is counted. -/
def State.resultRun (s : State) (k status sig count : Nat) : State :=
  let t := (((s.addReg (BST_RESULT.RUNS k) 1).setReg (BST_SIG.SIG k) sig).setReg (BST_COUNT.COUNT k) count).count 14 0x10 1
  if status = 0x0A then t.count 14 0x11 1 else t

theorem bistResult_eq (k status code kind sig count : Nat) :
    s.bistResult k status code kind sig count = (s.resultSet k status code kind).resultRun k status sig count := rfl

theorem testsEnded_bistResult {ks : List Nat} {k : Nat} (hk : k ∈ ks) (status code kind sig count : Nat) :
    TestsEnded ks s (s.bistResult k status code kind sig count) := by
  have written (f : Field) (hf : f ∈ bistFields k) (s : State) (v : Nat) : TestsEnded ks s (s.setReg f v) := .setReg hk hf v
  have set : TestsEnded ks s (s.resultSet k status code kind) :=
    ((written _ (by simp [bistFields]) s status).trans (written _ (by simp [bistFields]) _ code)).trans
      (written _ (by simp [bistFields]) _ kind)
  have run := ((set.trans (written (BST_RESULT.RUNS k) (by simp [bistFields]) _
    (sat (BST_RESULT.RUNS k).width ((s.resultSet k status code kind).reg (BST_RESULT.RUNS k) + 1)))).trans
      (written (BST_SIG.SIG k) (by simp [bistFields]) _ sig)).trans
        (written (BST_COUNT.COUNT k) (by simp [bistFields]) _ count)
  rw [bistResult_eq]
  unfold State.resultRun
  extract_lets t
  have counted : TestsEnded ks s t := run.trans (.count 14 0x10 1)
  split
  · exact counted.trans (.count 14 0x11 1)
  · exact counted

theorem testsEnded_bistJudge {ks : List Nat} (kind : Nat) {r : BistRun} (hr : r.block ∈ ks) :
    TestsEnded ks s (s.bistJudge kind r) := testsEnded_bistResult s hr _ _ _ _ _

theorem testsEnded_bistNotRun {ks : List Nat} (kind : Nat) {k : Nat} (hk : k ∈ ks) :
    TestsEnded ks s (s.bistNotRun kind k) := by
  have drawn : TestsEnded ks s ((s.fresh 64).2.fresh 32).2 := ⟨rfl, fun _ _ => rfl⟩
  exact drawn.trans (testsEnded_bistResult _ hk 0x0A 0x3C kind _ _)

/-! ### NOT_RUN in the results -/

theorem resultShown_resultSet {status code kind : Nat} (k : Nat) (hs : status < 256) (hc : code < 256) (hk : kind < 4) :
    ResultShown status code kind k (s.resultSet k status code kind) := by
  have keys : (BST_RESULT.STATUS k).key ≠ (BST_RESULT.CODE k).key ∧ (BST_RESULT.STATUS k).key ≠ (BST_RESULT.KIND k).key ∧
      (BST_RESULT.CODE k).key ≠ (BST_RESULT.KIND k).key := by
    simp [Field.key, BST_RESULT.STATUS, BST_RESULT.CODE, BST_RESULT.KIND]
  obtain ⟨sc, sk, ck⟩ := keys
  unfold State.resultSet
  refine ⟨?_, ?_, (reg_setReg_same _ _ _).trans (Nat.mod_eq_of_lt hk)⟩
  · rw [reg_setReg_ne _ _ sk.symm, reg_setReg_ne _ _ sc.symm, reg_setReg_same]
    exact Nat.mod_eq_of_lt hs
  · rw [reg_setReg_ne _ _ ck.symm, reg_setReg_same]
    exact Nat.mod_eq_of_lt hc

variable {s} in
theorem ResultShown.of_regs {status code kind k : Nat} {t : State} {fs : List Field} (h : ResultShown status code kind k s)
    (regs : RegsBut fs s t)
    (other : ∀ f ∈ [BST_RESULT.STATUS k, BST_RESULT.CODE k, BST_RESULT.KIND k], f.key ∉ fs.map Field.key) :
    ResultShown status code kind k t where
  status := (regs _ (other _ (by simp))).trans h.status
  code := (regs _ (other _ (by simp))).trans h.code
  kind := (regs _ (other _ (by simp))).trans h.kind

theorem regsBut_resultRun (k status sig count : Nat) :
    RegsBut [BST_RESULT.RUNS k, BST_SIG.SIG k, BST_COUNT.COUNT k] s (s.resultRun k status sig count) := by
  have run := ((regsBut_setReg (fs := [BST_RESULT.RUNS k, BST_SIG.SIG k, BST_COUNT.COUNT k]) (f := BST_RESULT.RUNS k)
    (by simp) s (sat (BST_RESULT.RUNS k).width (s.reg (BST_RESULT.RUNS k) + 1))).comp
      (regsBut_setReg (f := BST_SIG.SIG k) (by simp) _ sig)).comp (regsBut_setReg (f := BST_COUNT.COUNT k) (by simp) _ count)
  unfold State.resultRun
  extract_lets t
  have counted : RegsBut [BST_RESULT.RUNS k, BST_SIG.SIG k, BST_COUNT.COUNT k] s t := fun f hf =>
    (count_reg _ _ _ _ f).trans (run f hf)
  split
  · exact fun f hf => (count_reg t _ _ _ f).trans (counted f hf)
  · exact counted

theorem resultShown_bistNotRun {kind : Nat} (hk : kind < 4) (k : Nat) :
    ResultShown 0x0A 0x3C kind k (s.bistNotRun kind k) := by
  refine (resultShown_resultSet ((s.fresh 64).2.fresh 32).2 k (by decide) (by decide) hk).of_regs
    (regsBut_resultRun _ k _ _ _) ?_
  simp [Field.key, BST_RESULT.STATUS, BST_RESULT.CODE, BST_RESULT.KIND, BST_RESULT.RUNS, BST_SIG.SIG, BST_COUNT.COUNT]
  omega

variable {s} in
theorem ResultShown.bistNotRun {kind k : Nat} (h : ResultShown 0x0A 0x3C kind k s) (hk : kind < 4) (j : Nat) :
    ResultShown 0x0A 0x3C kind k (s.bistNotRun kind j) := by
  by_cases same : j = k
  · exact same ▸ resultShown_bistNotRun s hk j
  · refine h.of_regs (testsEnded_bistNotRun (ks := [j]) s kind (List.mem_singleton_self j)).regs ?_
    simp [bistFields, Field.key, BST_RESULT.STATUS, BST_RESULT.CODE, BST_RESULT.KIND, BST_RESULT.RUNS, BST_SIG.SIG,
      BST_COUNT.COUNT]
    omega

/-- A test that was cut short stands in the results of every block it belongs to. -/
theorem resultShown_foldl {kind : Nat} (hk : kind < 4) (l : List Nat) :
    ∀ s k, k ∈ l ∨ ResultShown 0x0A 0x3C kind k s →
      ResultShown 0x0A 0x3C kind k (l.foldl (fun t j => t.bistNotRun kind j) s) := by
  induction l with
  | nil => exact fun s k h => h.resolve_left List.not_mem_nil
  | cons j l ih =>
    refine fun s k h => ih (s.bistNotRun kind j) k ?_
    rcases h with h | h
    · rcases List.mem_cons.1 h with rfl | h
      · exact .inr (resultShown_bistNotRun s hk k)
      · exact .inl h
    · exact .inr (h.bistNotRun hk j)

/-! ### The full self-test ends -/

/-- START may run the full self-test: the RCAL phase of a cold start is over. -/
structure SelfTestDue (s : State) : Prop where
  g : s.g = .start
  phase : s.phase = .trimsRead
  cold : s.quick = false
  cal : s.startCalDone = true

/-- The results of a full self-test that ran. -/
def State.selfTested (s : State) (runs : List BistRun) : State := runs.foldl (fun t r => t.bistJudge 1 r) s.startCalEnds

/-- The results of a full self-test that was cut short. -/
def State.selfTestCut (s : State) : State :=
  (s.startCalEnds.bistBlocks 1).foldl (fun t k => t.bistNotRun 1 k) s.startCalEnds

theorem testsEnded_selfTested (runs : List BistRun) :
    TestsEnded (runs.map (·.block)) s.startCalEnds (s.selfTested runs) :=
  .foldl (fun _ hr s => testsEnded_bistJudge s 1 (List.mem_map_of_mem hr)) _

theorem testsEnded_selfTestCut :
    TestsEnded (s.startCalEnds.bistBlocks 1) s.startCalEnds s.selfTestCut :=
  .foldl (fun _ hk s => testsEnded_bistNotRun s 1 hk) _

theorem bistAllPass_startCalEnds (kind : Nat) (runs : List BistRun) :
    s.startCalEnds.bistAllPass kind runs = s.bistAllPass kind runs := by
  rw [startCalEnds_rest]
  rfl

theorem bistBlocks_startCalEnds (kind : Nat) : s.startCalEnds.bistBlocks kind = s.bistBlocks kind := by
  rw [startCalEnds_rest]
  rfl

theorem startCalEnds_retried : s.startCalEnds.bst.retried = s.bst.retried := by
  rw [startCalEnds_rest]

theorem sameMemories_startCalEnds : SameMemories s s.startCalEnds := by
  rw [startCalEnds_rest]
  exact ⟨rfl, rfl, rfl⟩

variable {s}

theorem exec_fullSelfTest_ran (h : SelfTestDue s) (runs : List BistRun) : exec (.fullSelfTest true runs) s = .next
    (if s.bistAllPass 1 runs then { s.selfTested runs with phase := .tested } else (s.selfTested runs).holdSafe 1) := by
  show execFullSelfTest true runs s = _
  rw [execFullSelfTest, if_pos (by simp [h.g, h.phase, h.cold, h.cal])]
  simp only [if_true, bistAllPass_startCalEnds]
  rfl

/-- The full self-test is to be tried again. -/
def State.retry (s : State) : State := { s with bst := { s.bst with retried := true } }

theorem exec_fullSelfTest_cut (h : SelfTestDue s) (runs : List BistRun) : exec (.fullSelfTest false runs) s = .next
    (if s.bst.retried then s.selfTestCut.holdSafe 1 else s.selfTestCut.retry) := by
  show execFullSelfTest false runs s = _
  rw [execFullSelfTest, if_pos (by simp [h.g, h.phase, h.cold, h.cal])]
  simp only [Bool.false_eq_true, if_false, startCalEnds_retried]
  rfl

theorem exec_fullSelfTest_early (h : s.startCalDone = false) (ran : Bool) (runs : List BistRun) :
    exec (.fullSelfTest ran runs) s = .next s := by
  show execFullSelfTest ran runs s = _
  rw [execFullSelfTest, if_neg (by simp [h])]

theorem regsBut_holdSafe (s : State) (safe : Nat) :
    RegsBut [NLK_STATE.LANES_UP, MGT_STATE.SAFE_CAUSE] s (s.holdSafe safe) :=
  (regsBut_setReg (f := NLK_STATE.LANES_UP) List.mem_cons_self s 0).comp
    (regsBut_setReg (f := MGT_STATE.SAFE_CAUSE) (.tail _ List.mem_cons_self) { s.naluDown with g := .safe } safe)

theorem reg_safeCause_holdSafe (s : State) : (s.holdSafe 1).reg MGT_STATE.SAFE_CAUSE = 1 := reg_setReg_same _ _ _

/-- What START leaves of an item 3 that is still due. -/
def ItemThreeNotRun (t : State) : Prop :=
  t.reg (CAL_ITEM_STATUS.LAST_STATUS 3) = 0x0A ∧ bit (t.reg CAL_STATUS.DUE) 3 = true

theorem itemThreeNotRun_selfTested (runs : List BistRun) (due : s.itemDue 3 = true) (on : s.pwr 13 ≠ .off) :
    ItemThreeNotRun (s.selfTested runs) := by
  have ended := testsEnded_selfTested s runs
  unfold ItemThreeNotRun
  rw [ended.reg_other (f := CAL_ITEM_STATUS.LAST_STATUS 3) (by decide), ended.reg_other (f := CAL_STATUS.DUE) (by decide)]
  exact startCalEnds_due due on

theorem ItemThreeNotRun.holdSafe (h : ItemThreeNotRun s) : ItemThreeNotRun (s.holdSafe 1) := by
  unfold ItemThreeNotRun
  rw [regsBut_holdSafe s 1 (CAL_ITEM_STATUS.LAST_STATUS 3) (by decide), regsBut_holdSafe s 1 CAL_STATUS.DUE (by decide)]
  exact h

theorem selfTested_g (runs : List BistRun) : (s.selfTested runs).g = s.g := by
  rw [(testsEnded_selfTested s runs).rest, startCalEnds_rest]

theorem fullSelfTest_ran_spec (h : SelfTestDue s) (runs : List BistRun) :
    ∃ t, exec (.fullSelfTest true runs) s = .next t ∧ SameMemories s t ∧
      (s.bistAllPass 1 runs = true → t.g = .start ∧ t.phase = .tested) ∧
      (s.bistAllPass 1 runs = false → t.g = .safe ∧ t.reg MGT_STATE.SAFE_CAUSE = 1) ∧
      (s.itemDue 3 = true → s.pwr 13 ≠ .off → ItemThreeNotRun t) := by
  have memories := (sameMemories_startCalEnds s).trans (testsEnded_selfTested s runs).memories
  refine ⟨_, exec_fullSelfTest_ran h runs, ?_⟩
  cases pass : s.bistAllPass 1 runs with
  | true => exact ⟨memories, fun _ => ⟨(selfTested_g runs).trans h.g, rfl⟩, nofun, itemThreeNotRun_selfTested runs⟩
  | false =>
    exact ⟨memories, nofun, fun _ => ⟨rfl, reg_safeCause_holdSafe _⟩,
      fun due on => (itemThreeNotRun_selfTested runs due on).holdSafe⟩

theorem mem_bistBlocks_startCalEnds {e : BistExpect} (he : e ∈ s.bst.expect) (kind : e.kind = 1) :
    e.block ∈ s.startCalEnds.bistBlocks 1 := by
  rw [bistBlocks_startCalEnds]
  exact List.mem_map_of_mem (List.mem_filter.2 ⟨he, by simp [kind]⟩)

theorem bistBlocks_startCalEnds_low (low : ∀ e ∈ s.bst.expect, e.block < 16) :
    ∀ k ∈ s.startCalEnds.bistBlocks 1, k < 16 := by
  intro k hk
  rw [bistBlocks_startCalEnds] at hk
  obtain ⟨e, he, rfl⟩ := List.mem_map.1 hk
  exact low e (List.mem_filter.1 he).1

theorem fullSelfTest_firstCut_spec (h : SelfTestDue s) (runs : List BistRun) (first : s.bst.retried = false)
    (low : ∀ e ∈ s.bst.expect, e.block < 16) :
    ∃ t, exec (.fullSelfTest false runs) s = .next t ∧ t.bst = { s.bst with retried := true } ∧
      t.g = .start ∧ t.phase = .trimsRead ∧ SameMemories s t ∧
      (∀ e ∈ s.bst.expect, e.kind = 1 → t.reg (BST_RESULT.STATUS e.block) = 0x0A ∧ t.reg (BST_RESULT.CODE e.block) = 0x3C ∧
        t.reg (BST_RESULT.KIND e.block) = 1) ∧
      (∀ f : Field, keyBlock f.key ≠ 14 → f.key ∉ [CAL_ITEM_STATUS.LAST_STATUS 3, CAL_STATUS.DUE].map Field.key →
        t.reg f = s.reg f) := by
  have cut := testsEnded_selfTestCut s
  have rest : s.selfTestCut = { s with regs := s.selfTestCut.regs, pmu := s.selfTestCut.pmu, free := s.selfTestCut.free } := by
    rw [cut.rest, startCalEnds_rest]
  have retry : exec (.fullSelfTest false runs) s = .next s.selfTestCut.retry := by
    rw [exec_fullSelfTest_cut h, first]
    rfl
  refine ⟨_, retry, ?_, ?_, ?_,
    (sameMemories_startCalEnds s).trans cut.memories, fun e he kind => ?_, fun f hb hf => ?_⟩
  · exact congrArg (fun u : State => { u.bst with retried := true }) rest
  · exact (congrArg State.g rest).trans h.g
  · exact (congrArg State.phase rest).trans h.phase
  · obtain ⟨status, code, kind⟩ :=
      resultShown_foldl (kind := 1) (by decide) _ s.startCalEnds e.block (.inl (mem_bistBlocks_startCalEnds he kind))
    exact ⟨status, code, kind⟩
  · exact (cut.reg_outside (bistBlocks_startCalEnds_low low) hb).trans (regsBut_startCalEnds s f hf)

theorem fullSelfTest_secondCut_spec (h : SelfTestDue s) (runs : List BistRun) (second : s.bst.retried = true) :
    ∃ t, exec (.fullSelfTest false runs) s = .next t ∧ t.g = .safe ∧ t.reg MGT_STATE.SAFE_CAUSE = 1 := by
  have held : exec (.fullSelfTest false runs) s = .next (s.selfTestCut.holdSafe 1) := by
    rw [exec_fullSelfTest_cut h, second]
    rfl
  exact ⟨_, held, rfl, reg_safeCause_holdSafe _⟩

end Sys2Proof.Machine

end

/-! ## START ends in READY (R44, R57, R331, R396) -/

section

namespace Sys2Proof.Machine

variable (s : State)

/-! ### What an event that was held in PARK leaves -/

theorem count_bst (b ev n : Nat) : (s.count b ev n).bst = s.bst := by
  rw [count_rest]

theorem wakeBlock_rest (k : Nat) : s.wakeBlock k = { s with power := (s.wakeBlock k).power, pmu := (s.wakeBlock k).pmu } := by
  unfold State.wakeBlock
  split
  · rw [count_rest]
    rfl
  · split <;> rfl

theorem naluSend_bst (m : NaluMsg) : (s.naluSend m).bst = s.bst := by
  unfold State.naluSend
  split
  · rw [wakeBlock_rest, count_bst]
  · rfl

theorem raiseEq_bst (e : Nat) : (s.raiseEq e).bst = s.bst := by
  unfold State.raiseEq State.raiseVector
  split
  · rfl
  · rw [count_bst]
    rfl

theorem writeEvent_bst (e : Nat) (ev : Event) : (s.writeEvent e ev).bst = s.bst := by
  unfold State.writeEvent
  simp only []
  generalize (if ev.sq = 0xFF then 0 else (s.ring ev.sq).cons) = cons
  split
  · rw [raiseEq_bst, count_bst, count_bst, modEvRing_bst]
  · rw [count_bst, count_bst, modEvRing_bst]

theorem holdEvent_bst (e : Nat) (ev : Event) : (s.holdEvent e ev).bst = s.bst := by
  unfold State.holdEvent
  split <;> rfl

theorem putEvent_bst (e : Nat) (ev : Event) : (s.putEvent e ev).bst = s.bst := by
  unfold State.putEvent
  split
  · exact writeEvent_bst s e ev
  · exact holdEvent_bst s e ev

/-- Between `s` and `t` events were posted. -/
structure Posted (s t : State) : Prop where
  quiet : t.quiet = s.quiet
  bst : t.bst = s.bst
  regs : RegsButHif [] s t

theorem posted_postHeld (ev : Event) : Posted s (s.postHeld ev) := by
  unfold State.postHeld
  split
  · exact ⟨putEvent_quiet s _ ev, putEvent_bst s _ ev, regsButHif_putEvent s [] _ ev⟩
  · split
    · exact ⟨naluSend_quiet s _, naluSend_bst s _, .of_regs (naluSend_regs s _)⟩
    · exact ⟨holdEvent_quiet s _ ev, holdEvent_bst s _ ev, regsButHif_holdEvent s [] _ ev⟩

theorem posted_foldl (l : List Event) : ∀ s : State, Posted s (l.foldl State.postHeld s) := by
  induction l with
  | nil => exact fun s => ⟨rfl, rfl, .refl s _⟩
  | cons ev l ih =>
    intro s
    obtain ⟨quiet, bst, regs⟩ := ih (s.postHeld ev)
    obtain ⟨quiet', bst', regs'⟩ := posted_postHeld s ev
    exact ⟨quiet.trans quiet', bst.trans bst', regs'.trans regs⟩

/-! ### A knock -/

/-- The fields that a knock changes. -/
abbrev knockFields : List Field := [SHL_BC.GOOD, SHL_STATE.RATE, SHL_STATE.GEN]

/-- Between `s` and `t` the shutter link changed at most, and its block came back to RUN at most. -/
structure LinkLeaves (s t : State) : Prop where
  rest : t = { s with power := t.power, shl := t.shl, regs := t.regs, pmu := t.pmu }
  regs : RegsBut knockFields s t

variable {s} in
theorem LinkLeaves.trans {t u : State} (h : LinkLeaves s t) (k : LinkLeaves t u) : LinkLeaves s u :=
  ⟨by rw [k.rest, h.rest], h.regs.comp k.regs⟩

theorem linkLeaves_shl (shl : Shl) : LinkLeaves s { s with shl } := ⟨rfl, .refl _ _⟩

theorem linkLeaves_setReg {f : Field} (hf : f ∈ knockFields) (v : Nat) : LinkLeaves s (s.setReg f v) :=
  ⟨rfl, regsBut_setReg hf s v⟩

theorem linkLeaves_wakeBlock (k : Nat) : LinkLeaves s (s.wakeBlock k) :=
  ⟨by rw [wakeBlock_rest], fun f _ => by rw [State.reg, wakeBlock_regs, State.reg]⟩

theorem linkLeaves_linkStop (st : LinkState) : LinkLeaves s (s.linkStop st) := by
  unfold State.linkStop State.unprove
  extract_lets _ t
  exact ((linkLeaves_shl s _).trans (linkLeaves_shl t _)).trans (linkLeaves_setReg _ (by simp) 0)

theorem linkLeaves_setLanes (f : Nat → LaneTx → LaneTx) : LinkLeaves s (s.setLanes f) := by
  unfold State.setLanes
  extract_lets lanes
  exact linkLeaves_shl s _

theorem setLanes_st (f : Nat → LaneTx → LaneTx) : (s.setLanes f).shl.st = s.shl.st := rfl

theorem linkStop_st (st : LinkState) : (s.linkStop st).shl.st = st := rfl

theorem linkLeaves_startKnock : LinkLeaves s s.startKnock := by
  unfold State.startKnock
  extract_lets t
  have lanes : LinkLeaves s t :=
    ((linkLeaves_wakeBlock s 10).trans (linkLeaves_linkStop _ .knock)).trans (linkLeaves_setLanes _ _)
  exact ((lanes.trans (linkLeaves_shl t _)).trans (linkLeaves_setReg _ (by simp) 0)).trans (linkLeaves_setReg _ (by simp) 0)

theorem startKnock_st : s.startKnock.shl.st = .knock := by
  unfold State.startKnock
  extract_lets t
  have knocks : t.shl.st = .knock := setLanes_st ((s.wakeBlock 10).linkStop .knock) _
  exact knocks

/-! ### READY -/

/-- READY, before its registers are set: the core clock's count at 0, the park tag and the events held in PARK gone. -/
def State.readied (s : State) : State :=
  { s with g := .ready, cc := 0, bst := { s.bst with heldEvents := [], tag := none }
           hif := { s.hif with polling := s.reg HIF_CTRL.DB_EN == 1 } }

/-- READY with its registers set. -/
def State.readyShown (s : State) (ms : Nat) : State :=
  let s := ((s.setReg MGT_STATE.START_MS (sat 16 ms)).setReg MGT_STATE.QUICK (b2n s.quick)).setReg BST_PARK.PHASE 0
  let s := s.setReg MGT_STATE.UNCAL (1 - s.reg CAL_STATUS.TRIMS_VALID)
  (s.setReg PMU_SNAP_SEQ.SEQ 0).calReady

/-- READY with the events held in PARK posted. -/
def State.atReady (s : State) (ms : Nat) : State :=
  s.startCalEnds.bst.heldEvents.foldl State.postHeld (s.startCalEnds.readied.readyShown ms)

/-- READY with the shutter link knocking, if it is to. -/
def State.knocking (s : State) : State := if s.reg SHL_CTRL.LINK_EN = 1 then s.startKnock else s

/-- The strap asks for park: at once where nothing is to be waited for. -/
def State.parkByStrap (s : State) : State := if s.strapPark.parkReady then s.strapPark.enterPark else s.strapPark

/-- START has come to its end. -/
structure StartOver (s : State) : Prop where
  g : s.g = .start
  phase : s.phase = (if s.quick then .trimsRead else .tested)
  cal : s.quick = true → s.startCalDone = true

variable {s} in
theorem exec_readyReached (h : StartOver s) (ms : Nat) : exec (.readyReached ms) s = .next
    (if (s.atReady ms).knocking.aon.parkHigh then (s.atReady ms).knocking else (s.atReady ms).knocking.parkByStrap) := by
  have ended : (s.g == .start && (if s.quick then s.phase == .trimsRead && s.startCalDone else s.phase == .tested)) = true := by
    have phase := h.phase
    cases quick : s.quick <;> simp_all [h.g, h.cal]
  show execReadyReached ms s = _
  rw [execReadyReached, if_pos ended]
  rfl

/-- The fields that READY sets. -/
abbrev readyFields : List Field :=
  [MGT_STATE.START_MS, MGT_STATE.QUICK, BST_PARK.PHASE, MGT_STATE.UNCAL, PMU_SNAP_SEQ.SEQ, CAL_STATUS.DUE,
    CAL_DRIFT.DRIFT, CAL_DRIFT.SENSOR]

/-- Between `s` and `t` register fields of READY and the baselines of the sensors changed at most. -/
structure ShowsReady (fs : List Field) (s t : State) : Prop where
  rest : t = { s with cal := t.cal, regs := t.regs }
  regs : RegsBut fs s t

variable {s} in
theorem ShowsReady.trans {fs : List Field} {t u : State} (h : ShowsReady fs s t) (k : ShowsReady fs t u) :
    ShowsReady fs s u :=
  ⟨by rw [k.rest, h.rest], h.regs.comp k.regs⟩

theorem showsReady_setReg {fs : List Field} {f : Field} (hf : f ∈ fs) (v : Nat) : ShowsReady fs s (s.setReg f v) :=
  ⟨rfl, regsBut_setReg hf s v⟩

theorem showsReady_cal {fs : List Field} (cal : Cal) : ShowsReady fs s { s with cal } := ⟨rfl, .refl _ _⟩

theorem showsReady_calReady {fs : List Field} (due : CAL_STATUS.DUE ∈ fs) (drift : CAL_DRIFT.DRIFT ∈ fs)
    (sensor : CAL_DRIFT.SENSOR ∈ fs) : ShowsReady fs s s.calReady := by
  unfold State.calReady State.setDrift
  extract_lets mask d
  exact (((showsReady_cal s _).trans (showsReady_setReg _ due _)).trans (showsReady_setReg _ drift _)).trans
    (showsReady_setReg _ sensor _)

theorem showsReady_readyShown (ms : Nat) : ShowsReady readyFields s (s.readyShown ms) := by
  unfold State.readyShown
  extract_lets t u
  have timed : ShowsReady readyFields s t := ((showsReady_setReg s (by simp) _).trans (showsReady_setReg _ (by simp) _)).trans
    (showsReady_setReg _ (by simp) _)
  exact ((timed.trans (showsReady_setReg t (by simp) _)).trans (showsReady_setReg u (by simp) 0)).trans
    (showsReady_calReady _ (by simp) (by simp) (by simp))

theorem reg_quick_readyShown (ms : Nat) : (s.readyShown ms).reg MGT_STATE.QUICK = b2n s.quick := by
  have shown : ((s.setReg MGT_STATE.START_MS (sat 16 ms)).setReg MGT_STATE.QUICK (b2n s.quick)).reg MGT_STATE.QUICK =
      b2n s.quick := by
    rw [reg_setReg_same]
    cases s.quick <;> rfl
  unfold State.readyShown
  extract_lets t u
  have later : ShowsReady [BST_PARK.PHASE, MGT_STATE.UNCAL, PMU_SNAP_SEQ.SEQ, CAL_STATUS.DUE, CAL_DRIFT.DRIFT, CAL_DRIFT.SENSOR]
      ((s.setReg MGT_STATE.START_MS (sat 16 ms)).setReg MGT_STATE.QUICK (b2n s.quick)) (u.setReg PMU_SNAP_SEQ.SEQ 0).calReady :=
    (((showsReady_setReg _ (by simp) 0).trans (showsReady_setReg t (by simp) _)).trans (showsReady_setReg u (by simp) 0)).trans
      (showsReady_calReady _ (by simp) (by simp) (by simp))
  exact (later.regs MGT_STATE.QUICK (by decide)).trans shown

/-- What START's end in READY makes of `s`, beside what becomes of the shutter link. -/
structure EndsReady (s t : State) : Prop where
  g : t.g = .ready
  cc : t.cc = 0
  tag : t.bst.tag = none
  held : t.bst.heldEvents = []
  aon : t.aon = s.aon
  hbm : t.hbm = s.hbm
  flash : t.flash = s.flash
  prot : t.prot = s.prot
  stripe : t.stripe = s.stripe
  quick : t.reg MGT_STATE.QUICK = b2n s.quick

variable {s} in
theorem EndsReady.posted {t u : State} (h : EndsReady s t) (k : Posted t u) : EndsReady s u where
  g := (congrArg State.g k.quiet :).trans h.g
  cc := (congrArg State.cc k.quiet :).trans h.cc
  tag := (congrArg Bst.tag k.bst).trans h.tag
  held := (congrArg Bst.heldEvents k.bst).trans h.held
  aon := (congrArg State.aon k.quiet :).trans h.aon
  hbm := (congrArg State.hbm k.quiet :).trans h.hbm
  flash := (congrArg State.flash k.quiet :).trans h.flash
  prot := (congrArg State.prot k.quiet :).trans h.prot
  stripe := (congrArg State.stripe k.quiet :).trans h.stripe
  quick := (k.regs MGT_STATE.QUICK List.not_mem_nil (by decide)).trans h.quick

variable {s} in
theorem EndsReady.link {t u : State} (h : EndsReady s t) (k : LinkLeaves t u) : EndsReady s u where
  g := (congrArg State.g k.rest :).trans h.g
  cc := (congrArg State.cc k.rest :).trans h.cc
  tag := (congrArg (·.bst.tag) k.rest :).trans h.tag
  held := (congrArg (·.bst.heldEvents) k.rest :).trans h.held
  aon := (congrArg State.aon k.rest :).trans h.aon
  hbm := (congrArg State.hbm k.rest :).trans h.hbm
  flash := (congrArg State.flash k.rest :).trans h.flash
  prot := (congrArg State.prot k.rest :).trans h.prot
  stripe := (congrArg State.stripe k.rest :).trans h.stripe
  quick := (k.regs MGT_STATE.QUICK (by decide)).trans h.quick

theorem endsReady_readyShown (ms : Nat) : EndsReady s (s.startCalEnds.readied.readyShown ms) := by
  have quick : (s.startCalEnds.readied.readyShown ms).reg MGT_STATE.QUICK = b2n s.quick := by
    rw [reg_quick_readyShown, startCalEnds_rest]
    rfl
  have rest : s.startCalEnds.readied.readyShown ms =
      { s.readied with
        hif := s.startCalEnds.readied.hif
        cal := (s.startCalEnds.readied.readyShown ms).cal, regs := (s.startCalEnds.readied.readyShown ms).regs } := by
    rw [(showsReady_readyShown s.startCalEnds.readied ms).rest, startCalEnds_rest]
    rfl
  refine ⟨?_, ?_, ?_, ?_, ?_, ?_, ?_, ?_, ?_, quick⟩ <;> rw [rest] <;> rfl

theorem endsReady_atReady (ms : Nat) : EndsReady s (s.atReady ms) :=
  (endsReady_readyShown s ms).posted (posted_foldl _ _)

theorem atReady_shl (ms : Nat) : (s.atReady ms).shl = s.shl := by
  have posted := posted_foldl s.startCalEnds.bst.heldEvents (s.startCalEnds.readied.readyShown ms)
  refine (congrArg State.shl posted.quiet :).trans ?_
  rw [(showsReady_readyShown s.startCalEnds.readied ms).rest, startCalEnds_rest]
  rfl

theorem reg_linkEn_atReady (ms : Nat) : (s.atReady ms).reg SHL_CTRL.LINK_EN = s.reg SHL_CTRL.LINK_EN := by
  have posted := posted_foldl s.startCalEnds.bst.heldEvents (s.startCalEnds.readied.readyShown ms)
  exact (posted.regs SHL_CTRL.LINK_EN List.not_mem_nil (by decide)).trans
    (((showsReady_readyShown s.startCalEnds.readied ms).regs SHL_CTRL.LINK_EN (by decide)).trans
      (regsBut_startCalEnds s SHL_CTRL.LINK_EN (by decide)))

theorem endsReady_knocking (ms : Nat) : EndsReady s (s.atReady ms).knocking := by
  unfold State.knocking
  split
  · exact (endsReady_atReady s ms).link (linkLeaves_startKnock _)
  · exact endsReady_atReady s ms

theorem enterPark_g : s.enterPark.g = .park := rfl

variable {s} in
theorem readyReached_strapLow_spec (h : StartOver s) (ms : Nat) (low : s.aon.parkHigh = false) :
    ∃ t, exec (.readyReached ms) s = .next t ∧ (t.g = .park ∨ t.g = .ready ∧ t.bst.strapReq = true) := by
  have ready := endsReady_knocking s ms
  refine ⟨_, exec_readyReached h ms, ?_⟩
  rw [ready.aon, low, if_neg Bool.false_ne_true, State.parkByStrap]
  split
  · exact .inl (enterPark_g _)
  · exact .inr ⟨ready.g, rfl⟩

variable {s} in
theorem readyReached_strapHigh_spec (h : StartOver s) (ms : Nat) (high : s.aon.parkHigh = true) :
    ∃ t, exec (.readyReached ms) s = .next t ∧ EndsReady s t ∧
      (s.reg SHL_CTRL.LINK_EN = 1 → t.shl.st = .knock) ∧ (s.reg SHL_CTRL.LINK_EN ≠ 1 → t.shl = s.shl) := by
  have ready := endsReady_knocking s ms
  refine ⟨(s.atReady ms).knocking, ?_, ready, fun en => ?_, fun en => ?_⟩
  · rw [exec_readyReached h ms]
    rw [ready.aon, high, if_pos rfl]
  · rw [State.knocking, if_pos (reg_linkEn_atReady s ms ▸ en)]
    exact startKnock_st _
  · rw [State.knocking, if_neg (reg_linkEn_atReady s ms ▸ en)]
    exact atReady_shl s ms

end Sys2Proof.Machine

end

section

open Sys2Proof.Machine

/-- Settles O8: the full self-test leaves what its results and the end of the RCAL phase change (`TestsEnded`,
`startCalEnds_rest`), and READY what `EndsReady` says, to which the events held in PARK and the knock add nothing. -/
theorem startEnds : Obligations.StartEnds := by
  refine ⟨⟨fun s runs g phase quick cal => fullSelfTest_ran_spec ⟨g, phase, quick, cal⟩ runs,
    fun s runs g phase quick cal => ⟨fullSelfTest_firstCut_spec ⟨g, phase, quick, cal⟩ runs,
      fullSelfTest_secondCut_spec ⟨g, phase, quick, cal⟩ runs⟩,
    fun s ran runs early => exec_fullSelfTest_early early ran runs⟩,
    fun s ms g phase cal => readyReached_strapLow_spec ⟨g, phase, cal⟩ ms, fun s ms g phase cal high => ?_⟩
  obtain ⟨t, ends, ready, knocks, rests⟩ := readyReached_strapHigh_spec ⟨g, phase, cal⟩ ms high
  exact ⟨t, ends, ready.g, ready.cc, ready.tag, ready.held, ready.hbm, ready.flash, ready.prot, ready.stripe, ready.quick,
    knocks, rests⟩

end

/-! ## What leaves the global state as it is -/

section

namespace Sys2Proof.Machine

variable {s t : State}

theorem ite_g {c : Prop} [Decidable c] {g : GState} (h : s.g = g) (k : t.g = g) : (if c then s else t).g = g := by
  split
  · exact h
  · exact k

theorem foldl_g {α : Type} {f : State → α → State} (hf : ∀ s a, (f s a).g = s.g) (l : List α) :
    ∀ s, (l.foldl f s).g = s.g := by
  induction l with
  | nil => exact fun _ => rfl
  | cons a l ih => exact fun s => (ih _).trans (hf s a)

@[simp] theorem foldl_setReg_g {α : Type} (f : α → Field) (v : Nat) (l : List α) (s : State) :
    (l.foldl (fun s a => s.setReg (f a) v) s).g = s.g := foldl_g (fun s a => setReg_g s (f a) v) l s

variable (s)

/-! ### Operations that the families of what is left speak of -/

@[simp] theorem raiseVector_g (v : Nat) : (s.raiseVector v).g = s.g := (congrArg State.g (raiseVector_quiet s v) :)
@[simp] theorem raiseEq_g (e : Nat) : (s.raiseEq e).g = s.g := (calm_raiseEq ..).g
@[simp] theorem writeEvent_g (e : Nat) (ev : Event) : (s.writeEvent e ev).g = s.g := (calm_writeEvent ..).g
@[simp] theorem wakeBlock_g (k : Nat) : (s.wakeBlock k).g = s.g := (calm_wakeBlock ..).g
@[simp] theorem bistYield_g (p : Nat → Bool) : (s.bistYield p).g = s.g := (calm_bistYield ..).g
@[simp] theorem bistAbort_g : s.bistAbort.g = s.g := (calm_bistAbort ..).g
@[simp] theorem bistNotRun_g (kind k : Nat) : (s.bistNotRun kind k).g = s.g := (calm_bistNotRun ..).g
@[simp] theorem snapshot_g : s.snapshot.g = s.g := (calm_snapshot s).g
@[simp] theorem settle_g (ch : Nat) (r : Request) : (s.settle ch r).2.g = s.g := (calm_settle ..).g
@[simp] theorem stopChan_g (ch status cause : Nat) : (s.stopChan ch status cause).g = s.g := (calm_stopChan ..).g
@[simp] theorem reach_g (ch : Nat) (raw : List Byte) : (s.reach ch raw).g = s.g := (calm_reach ..).g
@[simp] theorem takeEngine_g (k : Nat) (j : CodecJob) : (s.takeEngine k j).g = s.g := (calm_takeEngine ..).g
@[simp] theorem scanResume_g (n : Nat) : (State.scanResume n s).g = s.g := (calm_scanResume ..).g
@[simp] theorem mirrorDrops_g (q : Nat) : (s.mirrorDrops q).g = s.g := (calm_mirrorDrops ..).g
@[simp] theorem writeOutcome_g (toHost : Bool) (st : Stripe) : (s.writeOutcome toHost st).g = s.g := (calm_writeOutcome ..).g

@[simp] theorem dropWitnesses_g (id pass : Nat) : (s.dropWitnesses id pass).g = s.g := (calm_dropWitnesses ..).g

@[simp] theorem looseRecord_g (ch status cause : Nat) : (s.looseRecord ch status cause).g = s.g := (calm_looseRecord ..).g

@[simp] theorem feedRecord_g (ch status cause : Nat) : (s.feedRecord ch status cause).g = s.g := (calm_feedRecord ..).g

@[simp] theorem stopRecord_g (ch status cause : Nat) (r : Request) : (s.stopRecord ch status cause r).g = s.g :=
  (calm_stopRecord ..).g

@[simp] theorem commitEnds_g (q idx id status block reason : Nat) : (s.commitEnds q idx id status block reason).g = s.g :=
  (steady_commitEnds ..).g

@[simp] theorem applyCommits_g : s.applyCommits.g = s.g := (bounded_applyCommits s).g
@[simp] theorem boundary_g : s.boundary.g = s.g := (bounded_boundary s).g
@[simp] theorem linkBoundary_g : s.linkBoundary.g = s.g := (steady_linkBoundary s).g
@[simp] theorem linkEnable_g (on : Bool) : (s.linkEnable on).g = s.g := (steady_linkEnable ..).g
@[simp] theorem startRejoin_g : s.startRejoin.g = s.g := (steady_startRejoin s).g
@[simp] theorem setFence_g (cause : Nat) (hard : Bool) : (s.setFence cause hard).g = s.g := (steady_fencing s cause hard).g
@[simp] theorem parkNotRun_g : s.parkNotRun.g = s.g := (calm_parkNotRun s).g

/-! ### Polling and the HIF's window -/

@[simp] theorem putFields_g (a w : Nat) : (s.putFields a w).g = s.g := by
  refine foldl_g (fun s f => ?_) _ s
  unfold State.putField
  split
  · rfl
  · exact ite_g rfl rfl
  · rfl

@[simp] theorem drainHeld_g : s.drainHeld.g = s.g := by simp [State.drainHeld, apply_ite State.g, foldl_g]
@[simp] theorem releaseKept_g : s.releaseKept.g = s.g := by simp [State.releaseKept, apply_ite State.g]
@[simp] theorem pageCheck_g : s.pageCheck.g = s.g := by simp [State.pageCheck, apply_ite State.g]
@[simp] theorem eqCfgWrite_g (e w : Nat) : (s.eqCfgWrite e w).g = s.g := by simp [State.eqCfgWrite, apply_ite State.g]
@[simp] theorem hifCtrlWrite_g (w : Nat) : (s.hifCtrlWrite w).g = s.g := by simp [State.hifCtrlWrite, apply_ite State.g]
@[simp] theorem readCons_g : s.readCons.g = s.g := by simp [State.readCons, apply_ite State.g, foldl_g]
@[simp] theorem readProd_g (q : Nat) : (s.readProd q).g = s.g := by simp [State.readProd, apply_ite State.g]
@[simp] theorem writeBack_g : s.writeBack.g = s.g := by simp [State.writeBack, apply_ite State.g, foldl_g]

@[simp] theorem commitWaits_g (c : PendingCommit) : (s.commitWaits c).g = s.g := by
  simp [State.commitWaits, State.sendSet, apply_ite State.g]

@[simp] theorem commitValid_g (c : PendingCommit) : (s.commitValid c).g = s.g := by
  simp [State.commitValid, State.reserveAuth, apply_ite State.g]

@[simp] theorem takeCommit_g (e : Entry) : (s.takeCommit e).g = s.g := by
  unfold State.takeCommit
  refine ite_g (by simp) ?_
  split
  · simp
  · dsimp only
    split <;> simp

@[simp] theorem takeEntry_g (q : Nat) : (s.takeEntry q).g = s.g := by
  unfold State.takeEntry
  extract_lets raw r e s1 _ s2 s3
  have taken : s3.g = s.g := ite_g (by simp [s2, s1]) (by simp [s2, s1])
  refine ite_g ?_ (ite_g ?_ ?_)
  · exact (ite_g (by simp) (by simp)).trans taken
  · rw [takeCommit_g, taken]
  · rw [bistYield_g, taken]

@[simp] theorem takeEntries_g (q : Nat) : ∀ n s, (State.takeEntries q n s).g = s.g
  | 0, _ => rfl
  | n + 1, s => by simp [State.takeEntries, apply_ite State.g, takeEntries_g q n]

@[simp] theorem discardBufs_g (q : Nat) : ∀ n s, (State.discardBufs q n s).g = s.g
  | 0, _ => rfl
  | n + 1, s => by
    unfold State.discardBufs
    split
    · rfl
    · simp [apply_ite State.g, discardBufs_g q n]

@[simp] theorem poll_g : s.poll.g = s.g := by simp [State.poll, State.pollRing, apply_ite State.g, foldl_g]

@[simp] theorem sqEnable_g (q : Nat) : (s.sqEnable q).g = s.g := by
  unfold State.sqEnable
  refine ite_g ?_ rfl
  split <;> rfl

@[simp] theorem sqCfgWrite_g (q w : Nat) : (s.sqCfgWrite q w).g = s.g := by
  simp [State.sqCfgWrite, State.sqDisable, apply_ite State.g, foldl_g]

@[simp] theorem hifWrite_g (a w : Nat) : (s.hifWrite a w).g = s.g := by
  simp [State.hifWrite, State.baseWrite, State.eqModWrite, State.msixWrite, apply_ite State.g]

/-! ### The windows that reach no stripe -/

@[simp] theorem pmuWrite_g (a w : Nat) : (s.pmuWrite a w).g = s.g := by
  simp [State.pmuWrite, State.pmuCtrlWrite, State.baseWrite, State.snapCfgWrite, State.counterWrite, apply_ite State.g]

@[simp] theorem calWrite_g (a w : Nat) : (s.calWrite a w).g = s.g := by
  simp [State.calWrite, State.allDue, State.deriveGo, apply_ite State.g]

@[simp] theorem shlWrite_g (w : Nat) : (s.shlWrite w).g = s.g := by
  simp [State.shlWrite, State.sendSet, State.linkCtrl, State.linkEnWrite, State.relatchWrite, apply_ite State.g]

@[simp] theorem hbmWrite_g (a : Nat) (bs : List Byte) : (s.hbmWrite a bs).g = s.g := by
  rw [State.hbmWrite, count_g]
  rfl

@[simp] theorem bistGo_g (k : Nat) (yields : Bool) : (s.bistGo k yields).g = s.g := by
  simp [State.bistGo, State.saveArea, apply_ite State.g]

@[simp] theorem keyForget_g : s.keyForget.g = s.g := by
  simp [State.keyForget, apply_ite State.g]

@[simp] theorem protCtrlWrite_g (w : Nat) : (s.protCtrlWrite w).g = s.g := by
  unfold State.protCtrlWrite
  extract_lets s1
  split
  · simp [State.protStage, apply_ite State.g, s1]
  · simp [State.protEnd, apply_ite State.g, s1]
  · rfl

@[simp] theorem vectorsGo_g : s.vectorsGo.g = s.g := by simp [State.vectorsGo, apply_ite State.g, foldl_g]

@[simp] theorem factoryCodes_g : s.factoryCodes.g = s.g := (steady_factoryCodes s).g

@[simp] theorem readTrims_g : s.readTrims.g = s.g := by
  unfold State.readTrims State.trimsLive
  split <;> simp

@[simp] theorem loseBlock_g (k : Nat) : (s.loseBlock k).g = s.g := by
  unfold State.loseBlock
  extract_lets t
  split
  case h_10 => exact readTrims_g _
  all_goals rfl

theorem chanCfgWrite_g (ch w : Nat) : (s.chanCfgWrite ch w).g = s.g := by
  unfold State.chanCfgWrite
  extract_lets t
  have paced : t.g = s.g := ite_g rfl rfl
  exact ite_g paced paced

/-! ### Requests that stop -/

@[simp] theorem corrected_g (port : Nat) (w : EccWord) : (s.corrected port w).g = s.g := by
  simp [State.corrected, State.eccRecord]

@[simp] theorem eccRead_g (port lo n : Nat) (ecc : EccReads) : (s.eccRead port lo n ecc).1.g = s.g := by
  unfold State.eccRead
  exact foldl_g (fun s w => corrected_g s port w) _ (s.hbmUse lo n)

theorem freeWords_g (lo n : Nat) : ∀ k s, (State.freeWords lo n k s).2.g = s.g
  | 0, _ => rfl
  | k + 1, s => freeWords_g lo n k (s.freeWord lo n).2

@[simp] theorem freeEcc_g (lo n : Nat) : (s.freeEcc lo n).2.g = s.g := by
  unfold State.freeEcc
  split
  · rfl
  · exact freeWords_g lo n _ (s.fresh 32).2

@[simp] theorem uncorrectable_g (port : Nat) (w : EccWord) (status : Nat) : (s.uncorrectable port w status).g = s.g := by
  simp [State.uncorrectable, State.eccRecord]

@[simp] theorem scanResult_g (sc : Scan) (n : Nat) : (s.scanResult sc n).2.g = s.g := by
  unfold State.scanResult
  split <;> rfl

@[simp] theorem scanSteps_g (e : Nat) (sc : Scan) (n : Nat) : (s.scanSteps e sc n).g = s.g := by
  simp [State.scanSteps, State.scanRegs]

@[simp] theorem scanReads_g (e : Nat) (sc : Scan) (n : Nat) (ecc : EccReads) : (s.scanReads e sc n ecc).1.g = s.g := by
  unfold State.scanReads
  split
  · simp
  · dsimp only
    split <;> simp

@[simp] theorem scanAdvance_g (e : Nat) : (s.scanAdvance e).1.g = s.g := by
  unfold State.scanAdvance
  split
  · rfl
  · split
    · rfl
    · simp [apply_ite Prod.snd, apply_ite State.g]

@[simp] theorem scanStops_g (e : Nat) (sc : Scan) : (s.scanStops e sc).s.g = s.g := by
  simp [State.scanStops, State.scanWriteBack, State.freeScan, apply_ite State.g]

@[simp] theorem engineFree_g (k status nIn nOut : Nat) : (s.engineFree k status nIn nOut).g = s.g := rfl

@[simp] theorem compressed_g (resume : Bool) (n : Nat) (out : List Byte) : (s.compressed resume n out).g = s.g := by
  simp [State.compressed]

@[simp] theorem freshBytes_g : ∀ n s, (State.freshBytes s n).2.g = s.g
  | 0, _ => rfl
  | n + 1, s => freshBytes_g n (s.fresh 8).2

@[simp] theorem tableStops_g (ch : Nat) (r : Request) (e : Entry) : (s.tableStops ch r e).s.g = s.g := by
  unfold State.tableStops
  dsimp only
  split <;> simp

@[simp] theorem codecStops_g (k status : Nat) (r : Request) (j : CodecJob) (e : Entry) :
    (s.codecStops k status r j e).s.g = s.g := by
  simp [State.codecStops, State.freshUpTo, apply_ite State.g, apply_ite Prod.snd]

@[simp] theorem witnessLeaves_g (k status : Nat) (r : Request) (w : WitnessOp) (out : List Byte) (nIn : Nat) :
    (s.witnessLeaves k status r w out nIn).s.g = s.g := by
  simp [State.witnessLeaves]

@[simp] theorem stopLeaves_g (ch status cause : Nat) (d : Stopped) : (s.stopLeaves ch status cause d).g = s.g := by
  simp [State.stopLeaves, State.chanRecord, State.stopEvent, apply_ite State.g]

/-! ### Entries that wait are tried again -/

theorem tryEntry_g {act : State → Entry → State} (hact : ∀ s e, (act s e).g = s.g) (e : Entry) :
    (s.tryEntry act e).g = s.g := by
  unfold State.tryEntry
  split
  · rfl
  · dsimp only
    split <;> simp [State.chanRecord]
  · rw [hact, bistYield_g]

theorem pump_g {act : State → Entry → State} (hact : ∀ s e, (act s e).g = s.g) (ty : Nat) :
    (s.pump ty act).g = s.g := by
  unfold State.pump
  exact ite_g (foldl_g (fun s e => ite_g (tryEntry_g s hact e) rfl) _ s) rfl

@[simp] theorem startReq_g (ch : Nat) (e : Entry) (addr len link : Nat) : (s.startReq ch e addr len link).g = s.g :=
  (calm_startReq ..).g

theorem tableEntry_g (e : Entry) : (s.tableEntry e).g = s.g := by
  unfold State.tableEntry
  dsimp only
  refine ite_g (by simp) (ite_g (by simp) ?_)
  split <;> simp

@[simp] theorem witnessNext_g : s.witnessNext.g = s.g := by
  unfold State.witnessNext
  split
  · split
    · rfl
    · simp [State.freshInput]
  · rfl

@[simp] theorem pumpAll_g : s.pumpAll.g = s.g := by
  simp [State.pumpAll, State.scanNext, State.witnessStart, pump_g, tableEntry_g, (calm_codecEntry _ _).g]

/-! ### The pieces of a host reset -/

@[simp] theorem armEntry_g (partnerOff : Bool) (e : Entry) : (State.armEntry partnerOff s e).g = s.g := by
  simp [State.armEntry, apply_ite State.g]

@[simp] theorem armTaken_g (partnerOff : Bool) (es : List Entry) : (s.armTaken partnerOff es).g = s.g :=
  foldl_g (fun s e => armEntry_g s partnerOff e) _ s

@[simp] theorem armOpen_g : s.armOpen.g = s.g := by simp [State.armOpen, apply_ite State.g]
@[simp] theorem dropWork_g : s.dropWork.g = s.g := by simp [State.dropWork, apply_ite State.g]
@[simp] theorem hifCold_g : s.hifCold.g = s.g := by simp [State.hifCold]

@[simp] theorem endUnarmed_g (toHost : Bool) (r : ArmReq) (cause : Nat) : (s.endUnarmed toHost r cause).g = s.g := by
  simp [State.endUnarmed, State.setsFollow, apply_ite State.g]

end Sys2Proof.Machine

end

/-! ## A rail trips (R55, R407)

`Powered s` says that `s` is not OFF. `Powered.f` says that the operation `f` of the model, which may change the global
state, carries it along: no write that a test held back switches the chip off when it lands. -/

section

namespace Sys2Proof.Machine

/-- Not OFF. -/
structure Powered (s : State) : Prop where
  on : s.g ≠ .off

namespace Powered

variable {s t : State}

theorem ite {c : Prop} [Decidable c] (h : Powered s) (k : Powered t) : Powered (if c then s else t) := by
  split
  · exact h
  · exact k

theorem foldl {α : Type} {f : State → α → State} {l : List α} (h : Powered s)
    (hf : ∀ s a, Powered s → Powered (f s a)) : Powered (l.foldl f s) := by
  induction l generalizing s with
  | nil => exact h
  | cons a l ih => exact ih (hf s a h)

theorem of_g {g : GState} (h : s.g = g) (on : g ≠ .off) : Powered s := ⟨h.trans_ne on⟩

variable (hs : Powered s)
include hs

theorem same (g : t.g = s.g) : Powered t := of_g g hs.on
theorem withHif {hif : Hif} : Powered { s with hif } := hs.same rfl
theorem withCfg {cfg : Cfg} : Powered { s with cfg } := hs.same rfl

/-! ### Stripes and fences -/

theorem abortWith {toHost : Bool} {cause : Nat} : Powered (s.abortWith toHost cause) := by
  by_cases h : ∃ st, s.stripe = some st ∧ st.ongoing
  · obtain ⟨st, held, ongoing⟩ := h
    obtain ⟨u, st', -, calm, -, -, eq⟩ := abortWith_cases held ongoing toHost cause
    have running : u.g = .run := calm.g
    have idle : State.g { u with stripe := none, g := .ready } = .ready := rfl
    rw [eq]
    exact ite (of_g running nofun) (of_g ((bounded_toIdle u).g.trans idle) nofun)
  · rwa [abortWith_over s (fun st held ongoing => h ⟨st, held, ongoing⟩)]

theorem fenceChip {cause : Nat} : Powered (s.fenceChip cause) := by
  have fenced : Powered (s.setFence cause false) := hs.same (setFence_g s cause false)
  exact ite hs (ite fenced (ite fenced.abortWith (ite (fenced.same (boundary_g _)) fenced)))

theorem channelLost : Powered s.channelLost := ite hs (ite hs.fenceChip hs.abortWith)

/-! ### Requests that stop -/

theorem eccFence {port : Nat} {w : EccWord} : Powered (s.eccFence port w) := by
  have recorded : Powered (s.uncorrectable port w 0x0C) := hs.same (uncorrectable_g ..)
  exact recorded.fenceChip

theorem witnessStops {k status : Nat} {r : Request} {j : CodecJob} {e : Entry} :
    Powered (s.witnessStops k status r j e).s := by
  unfold State.witnessStops
  extract_lets w all nIn nOut x c
  have hc : Powered c.1 := hs.same (by simp [c, x, nOut, nIn, State.freshUpTo])
  split
  · exact hs.same (witnessLeaves_g ..)
  · split
    · exact hc.same (witnessLeaves_g ..)
    · exact hc.eccFence.same (witnessLeaves_g ..)

theorem stopDelivers {ch status : Nat} {r : Request} : Powered (s.stopDelivers ch status r).s := by
  unfold State.stopDelivers
  extract_lets plain
  have hp : Powered plain.s := hs.same (settle_g ..)
  split
  · exact hp
  · split
    · exact hs.same (tableStops_g ..)
    · exact hs.same (codecStops_g ..)
    · split
      · exact hs.same (scanStops_g ..)
      · exact hp
    · exact hs.witnessStops
    · exact hp

theorem stopRequest {ch status cause : Nat} : Powered (s.stopRequest ch status cause) := by
  have stopped : Powered (s.stopChan ch status cause) := hs.same (stopChan_g ..)
  exact ite stopped.channelLost stopped

theorem stopOutside {ch status cause : Nat} : Powered (s.stopOutside ch status cause) := by
  unfold State.stopOutside
  split
  · exact hs
  · next r _ =>
    have delivers : Powered (s.stopDelivers ch status r).s := hs.stopDelivers
    exact ite hs.stopRequest (delivers.same (by simp))

theorem dmaAbort {ch : Nat} : Powered (s.dmaAbort ch) := by
  have lost : Powered (s.feedRecord ch 0x04 1).channelLost := (hs.same (feedRecord_g ..)).channelLost
  exact ite hs (ite hs (ite (ite lost hs) (ite (hs.same (looseRecord_g ..)) hs.stopOutside)))

theorem dmaWrite {a w : Nat} : Powered (s.dmaWrite a w) := by
  unfold State.dmaWrite
  extract_lets ch
  have config : Powered (s.chanCfgWrite ch w) := hs.same (chanCfgWrite_g ..)
  have release : Powered (s.dmaRelease ch) := hs.same (by simp [State.dmaRelease])
  exact ite (hs.same (setReg_g ..)) (ite (ite config (ite (ite hs.dmaAbort hs) (ite (ite release hs) hs))) hs)

/-! ### Host resets -/

theorem stopAll : Powered s.stopAll := by
  refine hs.foldl (fun s ch h => ?_)
  split
  · exact h
  · exact h.stopDelivers.same (stopLeaves_g ..)

theorem endStripes : Powered s.endStripes := by
  unfold State.endStripes
  extract_lets held s1 last
  have ended : Powered s1 := ite hs.abortWith hs
  split
  · exact ended
  · next r _ =>
    have unarmed : Powered (s1.endUnarmed false r 0x01) := ended.same (endUnarmed_g ..)
    exact ite (unarmed.same rfl) unarmed

theorem hostReset {perst : Bool} {speed width : Nat} : Powered (s.hostReset perst speed width) := by
  unfold State.hostReset
  extract_lets s1 before begun _ s2 _ s3 evs s4
  have opened : Powered s1 := ite (hs.same rfl) (hs.same (armOpen_g s))
  have stopped : Powered s2 := opened.withHif.stopAll
  have dropped : Powered (State.dropWork { s2 with hif := { s2.hif with entries := [] } }) :=
    stopped.withHif.same (dropWork_g _)
  have ended : Powered s3 := dropped.endStripes
  have cold : Powered s4 := ended.same (hifCold_g s3)
  clear_value s4
  exact ite hs (cold.same rfl)

theorem enterD3 {speed width : Nat} : Powered (s.enterD3 speed width) := ite hs hs.hostReset.withCfg

theorem cfgWrite {o w : Nat} : Powered (s.cfgWrite o w) := by
  unfold State.cfgWrite
  extract_lets t
  have ht : Powered t := hs.same rfl
  exact ite (ite ht.enterD3 (ite (ht.same rfl) ht)) (ite (ite ht.hostReset ht) (ite (ht.same (vectorsGo_g t)) ht))

/-! ### Starts and power -/

theorem chipReset : Powered s.chipReset := by
  unfold State.chipReset
  extract_lets _ prot t _ u
  have started : Powered (u.startUp false) := of_g (startUp_g u false) nofun
  exact ite (hs.same rfl) (ite hs (started.same rfl))

theorem mgtResetWrite {w : Nat} : Powered (s.mgtResetWrite w) := by
  unfold State.mgtResetWrite
  extract_lets t
  have ht : Powered t := ite (hs.same rfl) hs
  exact ite hs (ite ht.chipReset ht)

theorem wakeNow : Powered s.wakeNow := by
  have quick : Powered s.quickStart := of_g (startUp_g _ true) nofun
  have cold : Powered s.coldStart := of_g (startUp_g _ false) nofun
  exact ite quick (ite cold (hs.same rfl))

theorem wake : Powered s.wake := by
  have woken := hs.wakeNow
  exact ite hs (ite (woken.same rfl) woken)

theorem linkOff : Powered s.linkOff := by
  unfold State.linkOff
  extract_lets t
  have ht : Powered t := hs.same (by simp [t, State.naluState, State.freeBufs, foldl_g])
  exact ite ht.fenceChip ht

theorem goOff {k : Nat} : Powered (s.goOff k) := by
  unfold State.goOff
  extract_lets _ t
  have ht : Powered t := hs.same (loseBlock_g s k)
  exact ite (hs.same rfl) (ite ht.linkOff ht)

theorem pwrFieldWrite {k v : Nat} : Powered (s.pwrFieldWrite k v) := by
  unfold State.pwrFieldWrite
  extract_lets old r t
  have ht : Powered t := hs.same rfl
  exact ite (ite ht (ite ht.goOff (ht.same (postDev_g ..)))) (ite (ht.same rfl) ht)

theorem pwrReqWrite {w : Nat} : Powered (s.pwrReqWrite w) := hs.foldl fun _ _ h => ite h h.pwrFieldWrite

/-! ### The writes of a bus -/

theorem mgtWrite {a w : Nat} : Powered (s.mgtWrite a w) :=
  ite hs.mgtResetWrite (ite (hs.same rfl) (ite hs.pwrReqWrite (ite (hs.same (protCtrlWrite_g s w))
    (ite hs (hs.same (putFields_g s a w))))))

theorem nlkWrite {a w : Nat} : Powered (s.nlkWrite a w) := by
  unfold State.nlkWrite
  extract_lets s1 _ s2 s3
  have put : Powered s1 := hs.same (putFields_g s a w)
  have wanted : Powered s2 := ite (put.same rfl) put
  have rejoin : Powered s3 := ite (wanted.same (startRejoin_g s2)) wanted
  exact ite rejoin.fenceChip rejoin

theorem bstWrite {a w : Nat} : Powered (s.bstWrite a w) := by
  unfold State.bstWrite
  extract_lets t
  have put : Powered t := hs.same (putFields_g s a w)
  have wakes : Powered t.wakeWrite := by
    unfold State.wakeWrite
    extract_lets held
    have asks : Powered { t with bst := { t.bst with wakeAsked := t.bst.wakeAsked || held } } := put.same rfl
    exact asks.wake
  exact ite (ite (put.same (bistGo_g ..)) put) (ite (ite wakes put) put)

theorem landed {a w : Nat} : Powered (s.landed a w) := by
  unfold State.landed
  have put := hs.same (putFields_g s a w)
  split
  · exact hs.mgtWrite
  · exact hs.same (hifWrite_g s a w)
  · exact hs.dmaWrite
  · exact ite (ite (hs.same rfl) hs) put
  · exact ite (hs.same (shlWrite_g s w)) hs
  · exact ite hs.nlkWrite hs
  · exact hs.same (calWrite_g s a w)
  · exact hs.bstWrite
  · exact hs.same (pmuWrite_g s a w)
  · exact put

theorem busWrite {a : Nat} {w : Word} : Powered (s.busWrite a w) := by
  unfold State.busWrite
  extract_lets b k
  have yielded : Powered (s.bistYield (· == k)) := hs.same (bistYield_g ..)
  exact ite (ite hs hs.cfgWrite) (ite hs (ite (hs.same rfl) yielded.landed))

theorem testLost : Powered s.testLost := by
  unfold State.testLost
  split
  · exact hs
  · next test _ =>
    have aborted : Powered s.bistAbort := hs.same (bistAbort_g s)
    have landed : Powered (s.bistAbort.landHeld test.held) := aborted.foldl fun _ _ h => h.busWrite
    exact landed.same (by simp [State.snapDue, apply_ite State.g])

theorem preconditionLost : Powered s.preconditionLost := ite (hs.same (parkNotRun_g s)) hs.testLost

end Powered

/-- The chip as it goes into SAFE when a rail trips. -/
def State.railTripped (s : State) (rail : Nat) : State := if rail = 0 then s.preconditionLost else s

variable {s : State}

theorem exec_railTrip (rail : Nat) {us : Nat} (long : 2 ≤ us) (on : s.g ≠ .off) :
    exec (.railTrip rail us) s = .next ((s.railTripped rail).enterSafe 5 7 true) := by
  show execRailTrip rail us s = _
  rw [execRailTrip, if_neg (by simp [on]; omega)]
  rfl

theorem railTripped_stored (rail : Nat) (kept : rail ≠ 0 ∨ s.bst.test.all (·.held.isEmpty) = true) :
    (s.railTripped rail).hbm = s.hbm ∧ (s.railTripped rail).flash = s.flash := by
  unfold State.railTripped
  split
  · next core =>
    obtain ⟨-, stored⟩ := preconditionLost_unheld s (kept.resolve_left (not_not_intro core))
    exact ⟨congrArg Prod.fst stored, congrArg Prod.snd stored⟩
  · exact ⟨rfl, rfl⟩

end Sys2Proof.Machine

end

section

open Sys2Proof.Machine

/-- Settles O9: `Powered` carries the chip's power through the writes that land first, `enterSafe_spec` says what SAFE
leaves, and `preconditionLost_unheld` what comes before it where no write was held. -/
theorem railTripEntersSafe : Obligations.RailTripEntersSafe := by
  intro s rail us long on
  have powered : Powered (s.railTripped rail) := .ite (Powered.preconditionLost ⟨on⟩) ⟨on⟩
  obtain ⟨g, cause, -, stripe, hbm, flash, fence, -⟩ := enterSafe_spec powered.on 5 (cause := 7) (by decide) true
  refine ⟨_, exec_railTrip rail long on, g, cause, ?_, stripe, fun kept => ?_⟩
  · rw [fence]
    split
    · next hard => exact Option.isSome_of_any hard
    · rfl
  · obtain ⟨hbm', flash'⟩ := railTripped_stored rail kept
    exact ⟨hbm.trans hbm', flash.trans flash'⟩

end

/-! ## An idle cycle (R87, R417)

`State.unclocked` forgets what a cycle of the core clock changes: the CC count, the counters, the registers and the free
values used. Each operation of `tick` leaves the rest, and CC moves on by one in service alone. -/

section

namespace Sys2Proof.Machine

/-- The state without what a cycle of the core clock changes, but for CC. -/
def State.unclocked (s : State) : State := { s with regs := [], free := 0, pmu := .reset }

variable (s : State)

@[simp] theorem unclocked_setReg (f : Field) (v : Nat) : (s.setReg f v).unclocked = s.unclocked := rfl

@[simp] theorem unclocked_fresh (w : Nat) : (s.fresh w).2.unclocked = s.unclocked := rfl

@[simp] theorem unclocked_count (b ev n : Nat) : (s.count b ev n).unclocked = s.unclocked := by
  rw [count_rest]
  rfl

@[simp] theorem unclocked_slots (st c n : Nat) : (s.slots st c n).unclocked = s.unclocked := by
  unfold State.slots
  split <;> rfl

theorem unclocked_foldl {α : Type} {f : State → α → State} (hf : ∀ s a, (f s a).unclocked = s.unclocked) (l : List α) :
    ∀ s : State, (l.foldl f s).unclocked = s.unclocked := by
  induction l with
  | nil => exact fun _ => rfl
  | cons a l ih => exact fun s => (ih _).trans (hf s a)

theorem unclocked_countPwr (b : Nat) : (s.countPwr b).unclocked = s.unclocked := by
  unfold State.countPwr
  split
  · exact unclocked_count ..
  · exact unclocked_count ..
  · exact unclocked_count ..
  · rfl

theorem unclocked_sramCorrected (b : Nat) : (s.sramCorrected b).unclocked = s.unclocked := by
  unfold State.sramCorrected
  split
  · rw [unclocked_count, unclocked_fresh]
  · rfl

theorem unclocked_portFull : s.portFull.2.unclocked = s.unclocked := by
  unfold State.portFull
  split <;> rfl

/-- The cycles and corrected words of the blocks' common events. -/
theorem unclocked_commonEvents :
    ((List.range 16).foldl State.sramCorrected ((List.range 16).foldl State.countPwr s)).unclocked = s.unclocked := by
  rw [unclocked_foldl unclocked_sramCorrected, unclocked_foldl unclocked_countPwr]

theorem unclocked_srCommit : s.srCommit.unclocked = s.unclocked := by
  unfold State.srCommit
  split <;> rfl

/-- In service a cycle advances CC. -/
theorem unclocked_tick_of_serviced (served : s.serviced = true) :
    (tick s).unclocked = { s with cc := s.cc + 1 }.unclocked := by
  unfold tick
  rw [if_pos served]
  extract_lets p n1 n2 n3
  have blocks : n1.unclocked = { s with cc := s.cc + 1 }.unclocked :=
    (unclocked_commonEvents p.2).trans (unclocked_portFull _)
  have events : n2.unclocked = n1.unclocked :=
    unclocked_foldl (fun n e => by split <;> simp) s.cycleEvents n1
  have slots : n3.unclocked = n2.unclocked :=
    unclocked_foldl (fun n e => unclocked_slots n _ _ _) (s.cycleSlots p.1) n2
  have counted := slots.trans (events.trans blocks)
  clear_value n3
  split
  · exact (unclocked_setReg n3 _ _).trans counted
  · split
    · exact (unclocked_setReg n3 _ _).trans counted
    · exact counted

/-- Out of service CC stands. -/
theorem unclocked_tick_of_not_serviced (served : s.serviced = false) : (tick s).unclocked = s.unclocked := by
  unfold tick
  rw [if_neg (by simp [served]), unclocked_srCommit]
  split
  · exact unclocked_commonEvents s
  · rfl

theorem unclocked_tick : (tick s).unclocked = { s with cc := s.cc + b2n s.serviced }.unclocked := by
  cases served : s.serviced with
  | true => exact unclocked_tick_of_serviced s served
  | false => exact unclocked_tick_of_not_serviced s served

end Sys2Proof.Machine

end

/-- Settles O2: on an empty queue a step is `tick`, which changes nothing but CC and what `State.unclocked` forgets. -/
theorem idleStepIsOneCycle : Obligations.IdleStepIsOneCycle := by
  intro s idle
  have rest {α : Type} (f : Sys2Proof.Machine.State → α) :
      f (Sys2Proof.Machine.tick s).unclocked =
        f { s with cc := s.cc + Sys2Proof.Machine.b2n s.serviced }.unclocked :=
    congrArg f (Sys2Proof.Machine.unclocked_tick s)
  refine ⟨Sys2Proof.Machine.tick s, ?_, (rest (·.pending)).trans idle, rest (·.cc),
    ⟨rest (·.host), rest (·.hbm), rest (·.flash)⟩, rest (·.g), rest (·.stripe), rest (·.shl), rest (·.tabLive),
    rest (·.prot), rest (·.fence)⟩
  unfold Sys2Proof.Machine.step
  rw [idle]

/-! ## What an event that is put into a ring leaves (R87 to R90)

`Puts s t` says once what `State.putEvent` and what it is made of leave: every part of the state but host memory, the
counters, the event rings, the holding queue and the messages sent, and every register but HIF_EVT_LOST and the pending
bits of the vectors. -/

section

namespace Sys2Proof.Machine

/-- The host interface without what an event changes. -/
def Hif.unput (h : Hif) : Hif := { h with eq := [], hold := [], lostToPost := 0, msi := [] }

/-- The state without what an event changes. -/
def State.unput (s : State) : State := { s with regs := [], host := [], hif := s.hif.unput, pmu := .reset }

/-- The registers that an event may change: the events lost, the pending bits. -/
def eventFields : List Field := HIF_EVT_LOST.LOST :: (List.range 64).map MSIX.PENDING

/-- From `s` to `t` events have been put into their rings or held. -/
structure Puts (s t : State) : Prop where
  rest : t.unput = s.unput
  regs : RegsBut eventFields s t

namespace Puts

variable {s t u : State}

theorem refl (s : State) : Puts s s := ⟨rfl, .refl _ s⟩

theorem trans (h : Puts s t) (k : Puts t u) : Puts s u :=
  ⟨k.rest.trans h.rest, fun f hf => (k.regs f hf).trans (h.regs f hf)⟩

theorem ite {c : Prop} [Decidable c] (h : c → Puts s t) (k : ¬c → Puts s u) : Puts s (if c then t else u) := by
  split
  · next e => exact h e
  · next e => exact k e

theorem foldl {α : Type} {f : State → α → State} (hf : ∀ s a, Puts s (f s a)) (l : List α) :
    ∀ s, Puts s (l.foldl f s) := by
  induction l with
  | nil => exact refl
  | cons a l ih => exact fun s => (hf s a).trans (ih _)

/-- An update of what an event changes, but for the registers. -/
theorem update (s : State) (host : Memory) (eq : List EvRing) (hold : List HeldEvent) (lost : Nat) (msi : List Nat) (pmu : Pmu) :
    Puts s { s with host, pmu, hif := { s.hif with eq, hold, lostToPost := lost, msi } } := ⟨rfl, fun _ _ => rfl⟩

theorem proj (h : Puts s t) {α : Type} (f : State → α) : f t.unput = f s.unput := congrArg f h.rest

theorem quiet (h : Puts s t) : t.quiet = s.quiet := h.proj State.quiet
theorem nlk (h : Puts s t) : t.nlk = s.nlk := h.proj State.nlk
theorem bst (h : Puts s t) : t.bst = s.bst := h.proj State.bst
theorem power (h : Puts s t) : t.power = s.power := h.proj State.power
theorem g (h : Puts s t) : t.g = s.g := h.proj State.g
theorem hbm (h : Puts s t) : t.hbm = s.hbm := h.proj State.hbm
theorem flash (h : Puts s t) : t.flash = s.flash := h.proj State.flash
theorem chans (h : Puts s t) : t.chans = s.chans := h.proj State.chans
theorem sq (h : Puts s t) : t.hif.sq = s.hif.sq := h.proj (·.hif.sq)
theorem entries (h : Puts s t) : t.hif.entries = s.hif.entries := h.proj (·.hif.entries)
theorem polling (h : Puts s t) : t.hif.polling = s.hif.polling := h.proj (·.hif.polling)
theorem pollAgain (h : Puts s t) : t.hif.pollAgain = s.hif.pollAgain := h.proj (·.hif.pollAgain)
theorem prot (h : Puts s t) : t.prot = s.prot := h.proj State.prot
theorem serviced (h : Puts s t) : t.serviced = s.serviced := by rw [State.serviced, State.serviced, h.g]
theorem inWindow (h : Puts s t) (a n : Nat) : t.inWindow a n = s.inWindow a n := by
  rw [State.inWindow, State.inWindow, h.prot]

end Puts

theorem mem_eventFields_keys {k : Nat} : k ∈ eventFields.map Field.key ↔
    k = HIF_EVT_LOST.LOST.key ∨ ∃ v < 64, (MSIX.PENDING v).key = k := by
  simp [eventFields]

/-- Every register that an event may change stands in the HIF's window. -/
theorem keyBlock_eventFields : ∀ k ∈ eventFields.map Field.key, keyBlock k = 1 := by
  intro k hk
  obtain rfl | ⟨v, lt, rfl⟩ := mem_eventFields_keys.mp hk
  · decide
  · exact keyBlock_pending lt

theorem Puts.regsButHif {s t : State} (h : Puts s t) (fs : List Field) : RegsButHif fs s t :=
  fun f _ other => h.regs f fun mem => other (keyBlock_eventFields _ mem)

variable (s : State)

theorem puts_setReg {f : Field} (hf : f ∈ eventFields) (v : Nat) : Puts s (s.setReg f v) :=
  ⟨rfl, regsBut_setReg hf s v⟩

theorem puts_hold (hold : List HeldEvent) : Puts s { s with hif := { s.hif with hold } } := .update s _ _ _ _ _ _

theorem puts_lostToPost (n : Nat) : Puts s { s with hif := { s.hif with lostToPost := n } } := .update s _ _ _ _ _ _

theorem puts_count (b ev n : Nat) : Puts s (s.count b ev n) := by
  rw [count_rest]
  exact .update s _ _ _ _ _ _

theorem puts_modEvRing (e : Nat) (f : EvRing → EvRing) : Puts s (s.modEvRing e f) := .update s _ _ _ _ _ _

theorem puts_raiseVector {v : Nat} (lt : v < 64) : Puts s (s.raiseVector v) := by
  unfold State.raiseVector
  have field : MSIX.PENDING v ∈ eventFields := List.mem_cons_of_mem _ (List.mem_map_of_mem (List.mem_range.mpr lt))
  exact .ite (fun _ => puts_setReg s field 1) (fun _ => (Puts.update s _ _ _ _ _ _).trans (puts_count _ _ _ _))

theorem puts_raiseEq (e : Nat) : Puts s (s.raiseEq e) :=
  (puts_modEvRing s e _).trans (puts_raiseVector _ (Nat.mod_lt _ (by decide)))

/-- The entry is written, the producer index moves on and the event is counted; the vector is not raised yet. -/
def State.eventWritten (s : State) (e : Nat) (ev : Event) : State :=
  let cons := if ev.sq = 0xFF then 0 else (s.ring ev.sq).cons
  let t := { s with host := Memory.write s.host (s.evRing e).slot (eventBytes ev cons s.timeUs (s.evRing e).phase) }
  ((t.modEvRing e (fun r => { r with prod := (r.prod + 1) % 2 ^ 32, uncovered := r.uncovered + 1 })).count
    1 0x12 1).count 2 0x11 32

theorem writeEvent_eq (e : Nat) (ev : Event) : s.writeEvent e ev =
    if (s.eventWritten e ev).modCount e ≤ ((s.eventWritten e ev).evRing e).uncovered then (s.eventWritten e ev).raiseEq e
    else s.eventWritten e ev := rfl

theorem puts_eventWritten (e : Nat) (ev : Event) : Puts s (s.eventWritten e ev) :=
  (((Puts.update s _ _ _ _ _ _).trans (puts_modEvRing _ e _)).trans (puts_count _ _ _ _)).trans (puts_count _ _ _ _)

theorem puts_writeEvent (e : Nat) (ev : Event) : Puts s (s.writeEvent e ev) := by
  rw [writeEvent_eq]
  have written := puts_eventWritten s e ev
  exact .ite (fun _ => written.trans (puts_raiseEq _ e)) (fun _ => written)

theorem puts_holdEvent (e : Nat) (ev : Event) : Puts s (s.holdEvent e ev) := by
  unfold State.holdEvent
  exact .ite (fun _ => (puts_setReg s List.mem_cons_self _).trans (Puts.update (s.addReg HIF_EVT_LOST.LOST 1) _ _ _ _ _ _))
    (fun _ => Puts.update s _ _ _ _ _ _)

theorem puts_putEvent (e : Nat) (ev : Event) : Puts s (s.putEvent e ev) := by
  unfold State.putEvent
  exact .ite (fun _ => puts_writeEvent s e ev) (fun _ => puts_holdEvent s e ev)

theorem puts_drainHeld : Puts s s.drainHeld := by
  unfold State.drainHeld
  extract_lets _ s1 lost s2
  have h1 : Puts s s1 :=
    (puts_hold s []).trans (.foldl (fun s (h : HeldEvent) => puts_putEvent s h.ring h.ev) s.hif.hold _)
  exact .ite (fun _ => (h1.trans (puts_writeEvent s1 s1.devEq lost)).trans (puts_lostToPost s2 0)) (fun _ => h1)

/-- A completion drops its entry and puts an event. -/
theorem puts_complete {e : Entry} (q idx status info d0 d1 : Nat) (held : s.entry? q idx = some e) :
    Puts (s.dropEntry q idx) (s.complete q idx status info d0 d1) := by
  unfold State.complete
  rw [held]
  exact .ite (fun _ => puts_putEvent _ _ _) (fun _ => .refl _)

variable {s} in
theorem complete_of_not_held {q idx : Nat} (gone : s.entry? q idx = none) (status info d0 d1 : Nat) :
    s.complete q idx status info d0 d1 = s := by
  unfold State.complete
  rw [gone]

variable {s} in
/-- An OK entry without NOTIFY completes without an event. -/
theorem complete_quietly {q idx : Nat} {e : Entry} (held : s.entry? q idx = some e) (quiet : rawNotify e.raw = false)
    (info d0 d1 : Nat) : s.complete q idx 0 info d0 d1 = s.dropEntry q idx := by
  unfold State.complete
  rw [held]
  simp [quiet]

theorem complete_nlk (q idx status info d0 d1 : Nat) : (s.complete q idx status info d0 d1).nlk = s.nlk := by
  cases held : s.entry? q idx with
  | none => rw [complete_of_not_held held]
  | some e => exact (puts_complete s q idx status info d0 d1 held).nlk

theorem complete_bst (q idx status info d0 d1 : Nat) : (s.complete q idx status info d0 d1).bst = s.bst := by
  cases held : s.entry? q idx with
  | none => rw [complete_of_not_held held]
  | some e => exact (puts_complete s q idx status info d0 d1 held).bst

theorem memoriesBut_postDev (code status info d0 d1 : Nat) :
    MemoriesBut s.devSlot s (s.postDev code status info d0 d1) :=
  ⟨postDev_hbm s _ _ _ _ _, postDev_flash s _ _ _ _ _, fun a h => postDev_host s _ _ _ _ _ a h⟩

variable {s} in
/-- No event is posted in OFF or SAFE. -/
theorem postDev_of_off_or_safe (h : s.g = .off ∨ s.g = .safe) (code status info d0 d1 : Nat) :
    s.postDev code status info d0 d1 = s := by
  unfold State.postDev
  obtain h | h := h <;> rw [h]

end Sys2Proof.Machine

end

/-- Settles O5: `Puts` says what the event of a completion leaves, and the lemmas of the laws what a device event does. -/
theorem eventFrames : Obligations.EventFrames :=
  ⟨fun s code status info d0 d1 => ⟨Sys2Proof.Machine.postDev_quiet s code status info d0 d1,
      Sys2Proof.Machine.memoriesBut_postDev s code status info d0 d1,
      Sys2Proof.Machine.regsButHif_postDev s [] code status info d0 d1,
      fun h => Sys2Proof.Machine.postDev_of_off_or_safe h code status info d0 d1⟩,
    fun s q idx status info d0 d1 => ⟨Sys2Proof.Machine.complete_quiet s q idx status info d0 d1,
      Sys2Proof.Machine.complete_nlk s q idx status info d0 d1,
      Sys2Proof.Machine.complete_bst s q idx status info d0 d1,
      Sys2Proof.Machine.regsButHif_complete s [] q idx status info d0 d1,
      Sys2Proof.Machine.memoriesBut_complete s q idx status info d0 d1,
      fun gone => Sys2Proof.Machine.complete_of_not_held gone status info d0 d1,
      Sys2Proof.Machine.entry?_complete s q idx status info d0 d1,
      fun _ held ok quiet => ok ▸ Sys2Proof.Machine.complete_quietly held quiet info d0 d1⟩⟩

/-! ## Writing and holding events (R88, R89)

What `State.writeEvent` does to its ring and to the holding queue, and what a drain of the queue comes to: of events held
for one ring the oldest are written while the ring has room (`drainRing_spec`). -/

section

namespace Sys2Proof.Machine

variable (s : State)

/-! ### One event -/

theorem raiseVector_hif (v : Nat) : (s.raiseVector v).hif = { s.hif with msi := (s.raiseVector v).hif.msi } := by
  unfold State.raiseVector
  split
  · rfl
  · rw [count_hif]

theorem raiseEq_hif (e : Nat) : (s.raiseEq e).hif =
    { s.hif with eq := modAt s.hif.eq e (fun r => { r with uncovered := 0 }), msi := (s.raiseEq e).hif.msi } :=
  raiseVector_hif (s.modEvRing e _) _

theorem eventWritten_hif (e : Nat) (ev : Event) : (s.eventWritten e ev).hif =
    { s.hif with eq := modAt s.hif.eq e (fun r => { r with prod := (r.prod + 1) % 2 ^ 32, uncovered := r.uncovered + 1 }) } := by
  unfold State.eventWritten
  extract_lets cons t
  rw [count_hif, count_hif]
  rfl

/-- Of the host interface the writing of an event changes the event rings and the messages sent. -/
theorem writeEvent_hif (e : Nat) (ev : Event) : (s.writeEvent e ev).hif =
    { s.hif with eq := (s.writeEvent e ev).hif.eq, msi := (s.writeEvent e ev).hif.msi } := by
  rw [writeEvent_eq]
  split
  · rw [raiseEq_hif, eventWritten_hif]
  · rw [eventWritten_hif]

theorem writeEvent_hold (e : Nat) (ev : Event) : (s.writeEvent e ev).hif.hold = s.hif.hold := by
  rw [writeEvent_hif]

theorem writeEvent_lostToPost (e : Nat) (ev : Event) : (s.writeEvent e ev).hif.lostToPost = s.hif.lostToPost := by
  rw [writeEvent_hif]

theorem writeEvent_awaitDevEq (e : Nat) (ev : Event) :
    (s.writeEvent e ev).hif.awaitDevEq = s.hif.awaitDevEq := by
  rw [writeEvent_hif]

theorem writeEvent_eq_length (e : Nat) (ev : Event) : (s.writeEvent e ev).hif.eq.length = s.hif.eq.length := by
  rw [writeEvent_eq]
  split
  · rw [raiseEq_hif, eventWritten_hif]
    simp [modAt]
  · rw [eventWritten_hif]
    simp [modAt]

variable {s}

theorem getD_modAt_same {α : Type} {l : List α} {i : Nat} (h : i < l.length) (f : α → α) (d : α) :
    (modAt l i f).getD i d = f (l.getD i d) := by
  simp [modAt, List.getD_eq_getElem?_getD, h]

theorem getD_modAt_ne {α : Type} (l : List α) {i j : Nat} (h : i ≠ j) (f : α → α) (d : α) :
    (modAt l i f).getD j d = l.getD j d := by
  simp [modAt, List.getD_eq_getElem?_getD, h]

theorem evRing_modEvRing_same {e : Nat} (h : e < s.hif.eq.length) (f : EvRing → EvRing) :
    (s.modEvRing e f).evRing e = f (s.evRing e) := getD_modAt_same h f .reset

/-- The raised vector covers every event of its ring. -/
theorem raiseEq_evRing {e : Nat} (h : e < s.hif.eq.length) :
    (s.raiseEq e).evRing e = { s.evRing e with uncovered := 0 } := by
  rw [State.evRing, raiseEq_hif]
  exact getD_modAt_same h _ _

theorem eventWritten_evRing {e : Nat} (h : e < s.hif.eq.length) (ev : Event) : (s.eventWritten e ev).evRing e =
    { s.evRing e with prod := ((s.evRing e).prod + 1) % 2 ^ 32, uncovered := (s.evRing e).uncovered + 1 } := by
  rw [State.evRing, eventWritten_hif]
  exact getD_modAt_same h _ _

/-- The ring of a written event has its producer index moved on by one. -/
theorem writeEvent_evRing {e : Nat} (h : e < s.hif.eq.length) (ev : Event) : (s.writeEvent e ev).evRing e =
    { s.evRing e with prod := ((s.evRing e).prod + 1) % 2 ^ 32, uncovered := ((s.writeEvent e ev).evRing e).uncovered } := by
  have written : e < (s.eventWritten e ev).hif.eq.length := by
    rw [eventWritten_hif]
    simpa [modAt] using h
  rw [writeEvent_eq]
  split
  · rw [raiseEq_evRing written, eventWritten_evRing h]
  · rw [eventWritten_evRing h]

/-- With room in the queue an event that is held stands last. -/
theorem holdEvent_of_room {ev : Event} (room : s.hif.hold.length < holdSize - holdKeep) (e : Nat) :
    s.holdEvent e ev = { s with hif := { s.hif with hold := s.hif.hold ++ [⟨e, ev⟩] } } := by
  unfold State.holdEvent
  rw [if_neg (by simp [Nat.not_le.mpr room])]

theorem putEvent_of_mayWrite {e : Nat} {ev : Event} (may : s.mayWrite e ev = true) : s.putEvent e ev = s.writeEvent e ev :=
  if_pos may

theorem putEvent_of_not_mayWrite {e : Nat} {ev : Event} (may : s.mayWrite e ev = false) :
    s.putEvent e ev = s.holdEvent e ev := if_neg (by simp [may])

/-! ### The registers that events leave -/

theorem eqOnKey_not_event (e : Nat) : (HIF_EQ_CFG.ENABLE e).key ∉ eventFields.map Field.key := by
  rw [mem_eventFields_keys]
  simp only [Field.key, HIF_EQ_CFG.ENABLE, HIF_EVT_LOST.LOST, MSIX.PENDING]
  omega

theorem Puts.reg_eqOn {s t : State} (h : Puts s t) (e : Nat) :
    t.reg (HIF_EQ_CFG.ENABLE e) = s.reg (HIF_EQ_CFG.ENABLE e) := h.regs _ (eqOnKey_not_event e)

theorem Puts.reg_devEq {s t : State} (h : Puts s t) : t.devEq = s.devEq := by
  refine h.regs _ ?_
  rw [mem_eventFields_keys]
  simp only [Field.key, HIF_CTRL.DEV_EQ, HIF_EVT_LOST.LOST, MSIX.PENDING]
  omega

/-! ### Events held for one ring -/

/-- An index moved on by one is one further ahead, as long as it does not come round. -/
theorem idxDiff_succ {p c : Nat} (hp : p < 2 ^ 32) (h : idxDiff p c < 2 ^ 32 - 1) :
    idxDiff ((p + 1) % 2 ^ 32) c = idxDiff p c + 1 := by
  unfold idxDiff at *
  omega

/-- Every slot of a ring that lies within a window lies within it. -/
theorem inWindow_slot {s : State} {e : Nat} (pos : 0 < (s.evRing e).size)
    (window : s.inWindow (s.evRing e).base ((s.evRing e).size * 32) = true) :
    s.inWindow (s.evRing e).slot 32 = true := by
  obtain ⟨w, mem, low, high⟩ : ∃ w ∈ s.prot.windows, w.1 ≤ (s.evRing e).base ∧
      (s.evRing e).base + (s.evRing e).size * 32 ≤ w.1 + w.2 := by
    simpa [State.inWindow] using window
  have lt := Nat.mod_lt (s.evRing e).prod pos
  refine List.any_eq_true.mpr ⟨w, mem, ?_⟩
  rw [EvRing.slot, Bool.and_eq_true]
  exact ⟨decide_eq_true (by omega), decide_eq_true (by omega)⟩

/-- Ring `e` of a chip in service is enabled, of a legal size, and lies within a live window. -/
structure Writable (s : State) (e : Nat) : Prop where
  served : s.serviced = true
  ready : s.hif.awaitDevEq = false
  on : s.eqOn e = true
  lt : e < s.hif.eq.length
  pos : 0 < (s.evRing e).size
  small : (s.evRing e).size ≤ 2 ^ 16
  index : (s.evRing e).prod < 2 ^ 32
  window : s.inWindow (s.evRing e).base ((s.evRing e).size * 32) = true

/-- The entries of event ring `e` that are free. -/
def State.freeSlots (s : State) (e : Nat) : Nat :=
  (s.evRing e).size - idxDiff (s.evRing e).prod (s.evRing e).consSeen

namespace Writable

variable {s : State} {e : Nat}

theorem eqRoom (h : Writable s e) : s.eqRoom e = decide (0 < s.freeSlots e) := by
  simp [State.eqRoom, State.freeSlots, h.on, inWindow_slot h.pos h.window]

/-- With nothing held, an event is written exactly when its ring has room. -/
theorem mayWrite (h : Writable s e) (empty : s.hif.hold = []) (ev : Event) :
    s.mayWrite e ev = decide (0 < s.freeSlots e) := by
  simp [State.mayWrite, h.served, h.ready, h.eqRoom, empty]

theorem writeEvent (h : Writable s e) (ev : Event) : Writable (s.writeEvent e ev) e := by
  have puts := puts_writeEvent s e ev
  have ring := writeEvent_evRing h.lt ev
  exact {
    served := puts.serviced.trans h.served
    ready := (writeEvent_awaitDevEq s e ev).trans h.ready
    on := by rw [State.eqOn, puts.reg_eqOn]; exact h.on
    lt := (writeEvent_eq_length s e ev).symm ▸ h.lt
    pos := by rw [ring]; exact h.pos
    small := by rw [ring]; exact h.small
    index := by rw [ring]; exact Nat.mod_lt _ (by decide)
    window := by rw [ring]; exact (puts.inWindow _ _).trans h.window }

theorem freeSlots_writeEvent (h : Writable s e) (room : 0 < s.freeSlots e) (ev : Event) :
    (s.writeEvent e ev).freeSlots e = s.freeSlots e - 1 := by
  have small := h.small
  rw [State.freeSlots, writeEvent_evRing h.lt ev]
  unfold State.freeSlots at *
  dsimp only
  rw [idxDiff_succ h.index (by omega)]
  omega

end Writable

/-- Behind a held event of the same ring every further one is held, in order. -/
theorem foldl_putEvent_behind {e : Nat} (evs : List Event) : ∀ s : State, s.hif.hold.any (fun h => h.ring == e) = true →
    s.hif.hold.length + evs.length ≤ holdSize - holdKeep →
    (evs.map (HeldEvent.mk e)).foldl (fun s h => s.putEvent h.ring h.ev) s =
      { s with hif := { s.hif with hold := s.hif.hold ++ evs.map (HeldEvent.mk e) } } := by
  induction evs with
  | nil => intro s _ _; simp
  | cons ev evs ih =>
    intro s behind room
    have held : s.putEvent e ev = { s with hif := { s.hif with hold := s.hif.hold ++ [⟨e, ev⟩] } } := by
      rw [putEvent_of_not_mayWrite (by simp [State.mayWrite, behind]), holdEvent_of_room]
      exact Nat.lt_of_lt_of_le (by simp) room
    simp only [List.map_cons, List.foldl_cons, held]
    rw [ih _ (by simp [behind]) (by simpa [Nat.add_assoc, Nat.add_comm 1] using room)]
    simp

/-- Of events for one ring, with nothing held before them, the oldest are written as the ring has room, and the others
are held in order. -/
theorem drainRing_spec {e : Nat} (evs : List Event) : ∀ s : State, Writable s e → s.hif.hold = [] →
    evs.length ≤ holdSize - holdKeep →
    let t := (evs.map (HeldEvent.mk e)).foldl (fun s h => s.putEvent h.ring h.ev) s
    let n := min evs.length (s.freeSlots e)
    t.hif.hold = (evs.drop n).map (HeldEvent.mk e) ∧ (t.evRing e).prod = ((s.evRing e).prod + n) % 2 ^ 32 ∧
      t.hif.lostToPost = s.hif.lostToPost := by
  induction evs with
  | nil =>
    intro s h empty _
    have index := h.index
    intro t n
    have none : n = 0 := Nat.zero_min _
    rw [none]
    exact ⟨empty, (Nat.mod_eq_of_lt index).symm, rfl⟩
  | cons ev evs ih =>
    intro s h empty room
    by_cases free : 0 < s.freeSlots e
    · have written : s.putEvent e ev = s.writeEvent e ev :=
        putEvent_of_mayWrite (by rw [h.mayWrite empty, decide_eq_true free])
      obtain ⟨hold, prod, lost⟩ := ih (s.writeEvent e ev) (h.writeEvent ev)
        ((writeEvent_hold s e ev).trans empty) (Nat.le_of_succ_le room)
      rw [h.freeSlots_writeEvent free] at hold prod
      have count : min (evs.length + 1) (s.freeSlots e) = min evs.length (s.freeSlots e - 1) + 1 := by omega
      simp only [List.map_cons, List.foldl_cons, written, List.length_cons, count, List.drop_succ_cons]
      refine ⟨hold, ?_, lost.trans (writeEvent_lostToPost s e ev)⟩
      rw [prod, writeEvent_evRing h.lt]
      dsimp only
      omega
    · have none : s.freeSlots e = 0 := by omega
      have held : s.putEvent e ev = { s with hif := { s.hif with hold := [⟨e, ev⟩] } } := by
        rw [putEvent_of_not_mayWrite (by rw [h.mayWrite empty, decide_eq_false free]), holdEvent_of_room, empty]
        · rfl
        · rw [empty]; decide
      simp only [List.map_cons, List.foldl_cons, held, none, Nat.min_zero, List.drop_zero]
      rw [foldl_putEvent_behind evs _ (by simp) (by simpa [Nat.add_comm] using room)]
      refine ⟨rfl, ?_, rfl⟩
      rw [Nat.add_zero]
      exact (Nat.mod_eq_of_lt h.index).symm

end Sys2Proof.Machine

end

/-! ## EVENT_QUEUE_DRAIN and EQ_MOD_TIMER (R89, R90) -/

section

namespace Sys2Proof.Machine

variable (s : State)

/-! ### The consumer indices are read -/

/-- From `s` to `t` consumer indices of the event rings have been read. -/
structure ConsRead (s t : State) : Prop where
  rest : t = { s with hif := { s.hif with eq := t.hif.eq } }
  length : t.hif.eq.length = s.hif.eq.length
  ring : ∀ e, t.evRing e = { s.evRing e with consSeen := (t.evRing e).consSeen }

theorem ConsRead.refl : ConsRead s s := ⟨rfl, rfl, fun _ => rfl⟩

variable {s} in
theorem ConsRead.trans {t u : State} (h : ConsRead s t) (k : ConsRead t u) : ConsRead s u where
  rest := by rw [k.rest, h.rest]
  length := k.length.trans h.length
  ring e := by rw [k.ring, h.ring]

variable {s} in
theorem ConsRead.puts {t : State} (h : ConsRead s t) : Puts s t := by
  rw [h.rest]
  exact .update s _ _ _ _ _ _

theorem evRing_modEvRing (e j : Nat) (f : EvRing → EvRing) :
    (s.modEvRing e f).evRing j = s.evRing j ∨ (s.modEvRing e f).evRing j = f (s.evRing j) := by
  by_cases same : e = j
  · subst same
    by_cases lt : e < s.hif.eq.length
    · exact .inr (evRing_modEvRing_same lt f)
    · left
      simp [State.evRing, State.modEvRing, modAt, List.getD_eq_getElem?_getD, lt]
  · exact .inl (getD_modAt_ne _ same f .reset)

theorem consRead_modEvRing (e c : Nat) : ConsRead s (s.modEvRing e (fun r => { r with consSeen := c })) where
  rest := rfl
  length := by simp [State.modEvRing, modAt]
  ring j := by obtain h | h := evRing_modEvRing s e j (fun r => { r with consSeen := c }) <;> rw [h]

theorem consRead_readCons : ConsRead s s.readCons := by
  unfold State.readCons
  induction List.range 8 generalizing s with
  | nil => exact .refl s
  | cons e es ih =>
    refine ConsRead.trans ?_ (ih _)
    dsimp only
    split
    · exact consRead_modEvRing s e _
    · exact .refl s

/-! ### The holding queue is drained -/

/-- The events held, each put into its ring again in order. -/
def State.heldPut (s : State) : State :=
  s.hif.hold.foldl (fun s h => s.putEvent h.ring h.ev) { s with hif := { s.hif with hold := [] } }

/-- The events-lost entry (R89). -/
def State.lostEvent (s : State) : Event := ⟨0, 3, 0, 0xFF, 0, 0, s.hif.lostToPost, 0⟩

theorem drainHeld_eq : s.drainHeld =
    if s.heldPut.hif.lostToPost ≠ 0 && s.heldPut.mayWrite s.heldPut.devEq s.heldPut.lostEvent then
      { s.heldPut.writeEvent s.heldPut.devEq s.heldPut.lostEvent with
        hif := { (s.heldPut.writeEvent s.heldPut.devEq s.heldPut.lostEvent).hif with lostToPost := 0 } }
    else s.heldPut := rfl

variable {s}

/-- With no event lost, a drain does no more than put the held events into their rings. -/
theorem drainHeld_of_none_lost (none : s.heldPut.hif.lostToPost = 0) : s.drainHeld = s.heldPut := by
  rw [drainHeld_eq, if_neg (by simp [none])]

theorem heldPut_of_nil (empty : s.hif.hold = []) : s.heldPut = s := by
  have same : { s with hif := { s.hif with hold := [] } } = s := by rw [← empty]
  rw [State.heldPut, empty, List.foldl_nil, same]

/-- With nothing held and nothing lost, nothing is written. -/
theorem drainHeld_of_nil (empty : s.hif.hold = []) (none : s.hif.lostToPost = 0) : s.drainHeld = s := by
  rw [drainHeld_of_none_lost] <;> rw [heldPut_of_nil empty]
  exact none

/-- One event held is written if its ring has room, and held otherwise. -/
theorem drainHeld_single {e : Nat} {ev : Event} (lt : e < s.hif.eq.length) (held : s.hif.hold = [⟨e, ev⟩])
    (none : s.hif.lostToPost = 0) :
    let u : State := { s with hif := { s.hif with hold := [] } }
    (u.mayWrite e ev = true → s.drainHeld.hif.hold = [] ∧
      (s.drainHeld.evRing e).prod = ((s.evRing e).prod + 1) % 2 ^ 32) ∧
    (u.mayWrite e ev = false → s.drainHeld.hif.hold = [⟨e, ev⟩] ∧ s.drainHeld.host = s.host) := by
  intro u
  have put : s.heldPut = u.putEvent e ev := by rw [State.heldPut, held]; rfl
  refine ⟨fun may => ?_, fun may => ?_⟩
  · rw [putEvent_of_mayWrite may] at put
    rw [drainHeld_of_none_lost] <;> rw [put]
    · refine ⟨writeEvent_hold u e ev, ?_⟩
      rw [writeEvent_evRing (s := u) lt]
      rfl
    · exact (writeEvent_lostToPost u e ev).trans none
  · rw [putEvent_of_not_mayWrite may, holdEvent_of_room (s := u) (show 0 < holdSize - holdKeep by decide)] at put
    rw [drainHeld_of_none_lost] <;> rw [put]
    · exact ⟨rfl, rfl⟩
    · exact none

/-- Of events held for one ring the oldest are written, as many as there is room for. -/
theorem drainHeld_ring {e : Nat} {evs : List Event} (h : Writable s e) (held : s.hif.hold = evs.map (HeldEvent.mk e))
    (none : s.hif.lostToPost = 0) (room : evs.length ≤ holdSize - holdKeep) :
    s.drainHeld.hif.hold = (evs.drop (min evs.length (s.freeSlots e))).map (HeldEvent.mk e) ∧
    (s.drainHeld.evRing e).prod = ((s.evRing e).prod + min evs.length (s.freeSlots e)) % 2 ^ 32 := by
  have writable : Writable { s with hif := { s.hif with hold := [] } } e :=
    ⟨h.served, h.ready, h.on, h.lt, h.pos, h.small, h.index, h.window⟩
  obtain ⟨hold, prod, lost⟩ := drainRing_spec evs _ writable rfl room
  rw [← held] at hold prod lost
  rw [drainHeld_of_none_lost (lost.trans none)]
  exact ⟨hold, prod⟩

/-- With nothing held, one events-lost entry is written if its ring has room. -/
theorem drainHeld_lost (empty : s.hif.hold = []) (lost : s.hif.lostToPost ≠ 0) :
    (s.mayWrite s.devEq s.lostEvent = true → s.drainHeld.hif.lostToPost = 0 ∧
      s.drainHeld.host = (s.writeEvent s.devEq s.lostEvent).host) ∧
    (s.mayWrite s.devEq s.lostEvent = false → s.drainHeld = s) := by
  rw [drainHeld_eq, heldPut_of_nil empty]
  refine ⟨fun may => ?_, fun may => ?_⟩
  · rw [if_pos (by simp [lost, may])]
    exact ⟨rfl, rfl⟩
  · rw [if_neg (by simp [may])]

/-! ### The two commands -/

/-- What EVENT_QUEUE_DRAIN finds: on a chip that polls, the consumer indices are read anew. -/
def State.drainFrom (s : State) (hw : Cells) : State :=
  if s.hif.polling = true ∧ s.inWindow s.page 4096 = true then (s.hostWrites hw).readCons else s.hostWrites hw

theorem exec_eventQueueDrain (served : s.serviced = true) (hw : Cells) :
    exec (.eventQueueDrain hw) s = .next (s.drainFrom hw).drainHeld := by
  show execEventQueueDrain hw s = _
  unfold execEventQueueDrain State.drainFrom
  simp only [← Bool.and_eq_true]
  have served' : (s.hostWrites hw).serviced = true := served
  exact congrArg Host.Outcome.next (if_pos served')

theorem consRead_drainFrom (s : State) (hw : Cells) : ConsRead (s.hostWrites hw) (s.drainFrom hw) := by
  unfold State.drainFrom
  split
  · exact consRead_readCons _
  · exact .refl _

theorem puts_drainFrom (s : State) (hw : Cells) : Puts s (s.drainFrom hw) :=
  (Puts.update s _ _ _ _ _ _).trans (consRead_drainFrom s hw).puts

theorem puts_drain (s : State) (hw : Cells) : Puts s (s.drainFrom hw).drainHeld :=
  (puts_drainFrom s hw).trans (puts_drainHeld _)

/-- The bytes that the events-lost entry writes. -/
theorem writeEvent_host_of_no_ring {ev : Event} (noRing : ev.sq = 0xFF) (s : State) (e : Nat) :
    (s.writeEvent e ev).host =
      Memory.write s.host (s.evRing e).slot (eventBytes ev 0 s.timeUs (s.evRing e).phase) := by
  have written : (s.eventWritten e ev).host =
      Memory.write s.host (s.evRing e).slot (eventBytes ev 0 s.timeUs (s.evRing e).phase) := by
    unfold State.eventWritten
    extract_lets cons t
    rw [count_host, count_host, modEvRing_host]
    simp only [t, cons, noRing, if_pos]
  rw [writeEvent_eq]
  split
  · rw [State.raiseEq]
    unfold State.raiseVector
    split
    · exact written
    · rw [count_host]; exact written
  · exact written

theorem raiseVector_of_closed {v : Nat} (closed : s.vectorOpen v = false) :
    s.raiseVector v = s.setReg (MSIX.PENDING v) 1 := if_pos (by simp [closed])

theorem raiseVector_of_open {v : Nat} (isOpen : s.vectorOpen v = true) :
    s.raiseVector v = { s with hif := { s.hif with msi := v :: s.hif.msi } }.count 1 0x13 1 :=
  if_neg (by simp [isOpen])

theorem exec_eqModTimer {e : Nat} (on : s.eqOn e = true) (time : s.reg (HIF_EQ_MOD.TIME_US e) ≠ 0)
    (uncovered : (s.evRing e).uncovered ≠ 0) : exec (.eqModTimer e) s = .next (s.raiseEq e) :=
  congrArg Host.Outcome.next (if_pos (by simp [on, time, uncovered]))

theorem exec_eqModTimer_off {e : Nat} (time : s.reg (HIF_EQ_MOD.TIME_US e) = 0) :
    exec (.eqModTimer e) s = .next s :=
  congrArg Host.Outcome.next (if_neg (by simp [time]))

/-! ### The obligation's clauses -/

theorem drain_one (s : State) (hw : Cells) (e : Nat) (ev : Event) (served : s.serviced = true)
    (polling : s.hif.polling = false) (lt : e < s.hif.eq.length) (held : s.hif.hold = [⟨e, ev⟩])
    (none : s.hif.lostToPost = 0) :
    let u := { s.hostWrites hw with hif := { s.hif with hold := [] } }
    ∃ t, exec (.eventQueueDrain hw) s = .next t ∧ t.quiet = s.quiet ∧ t.hif.entries = s.hif.entries ∧
      (u.mayWrite e ev = true → t.hif.hold = [] ∧ (t.evRing e).prod = ((s.evRing e).prod + 1) % 2 ^ 32) ∧
      (u.mayWrite e ev = false → t.hif.hold = [⟨e, ev⟩] ∧ t.host = Memory.apply s.host hw) := by
  intro u
  have start : s.drainFrom hw = s.hostWrites hw := if_neg (by simp [polling])
  have puts := puts_drain s hw
  obtain ⟨write, hold⟩ := drainHeld_single (s := s.hostWrites hw) lt held none
  refine ⟨_, exec_eventQueueDrain served hw, puts.quiet, puts.entries, ?_, ?_⟩ <;> rw [start]
  · exact write
  · exact hold

theorem drain_ring (s : State) (hw : Cells) (served : s.serviced = true) (ready : s.hif.awaitDevEq = false) (e : Nat)
    (evs : List Event) (on : s.eqOn e = true) (lt : e < s.hif.eq.length)
    (held : s.hif.hold = evs.map (HeldEvent.mk e)) (none : s.hif.lostToPost = 0) (room : evs.length ≤ 4032)
    (pos : 0 < (s.evRing e).size) (small : (s.evRing e).size ≤ 2 ^ 16) (index : (s.evRing e).prod < 2 ^ 32)
    (window : s.inWindow (s.evRing e).base ((s.evRing e).size * 32) = true) :
    let n := min evs.length ((s.evRing e).size - idxDiff (s.evRing e).prod ((s.drainFrom hw).evRing e).consSeen)
    ∃ t, exec (.eventQueueDrain hw) s = .next t ∧ t.quiet = s.quiet ∧ t.hif.entries = s.hif.entries ∧
      t.hif.hold = (evs.drop n).map (HeldEvent.mk e) ∧ (t.evRing e).prod = ((s.evRing e).prod + n) % 2 ^ 32 := by
  have puts := puts_drain s hw
  have read := consRead_drainFrom s hw
  have start := puts_drainFrom s hw
  have hif : (s.drainFrom hw).hif = { s.hif with eq := (s.drainFrom hw).hif.eq } := congrArg State.hif read.rest
  have ring : (s.drainFrom hw).evRing e =
    { s.evRing e with consSeen := ((s.drainFrom hw).evRing e).consSeen } := read.ring e
  have writable : Writable (s.drainFrom hw) e := {
    served := start.serviced.trans served
    ready := by rw [hif]; exact ready
    on := by rw [State.eqOn, start.reg_eqOn]; exact on
    lt := read.length.symm ▸ lt
    pos := by rw [ring]; exact pos
    small := by rw [ring]; exact small
    index := by rw [ring]; exact index
    window := by rw [ring]; exact (start.inWindow _ _).trans window }
  have free : (s.drainFrom hw).freeSlots e =
      (s.evRing e).size - idxDiff (s.evRing e).prod ((s.drainFrom hw).evRing e).consSeen := by
    rw [State.freeSlots, ring]
  obtain ⟨hold, prod⟩ := drainHeld_ring writable (by rw [hif]; exact held) (by rw [hif]; exact none) room
  rw [free] at hold prod
  refine ⟨_, exec_eventQueueDrain served hw, puts.quiet, puts.entries, hold, ?_⟩
  rw [prod, ring]

theorem drain_lost (s : State) (hw : Cells) (served : s.serviced = true) (empty : s.hif.hold = [])
    (some : s.hif.lostToPost ≠ 0) :
    let u := s.drainFrom hw
    let lost : Event := ⟨0, 3, 0, 0xFF, 0, 0, s.hif.lostToPost, 0⟩
    ∃ t, exec (.eventQueueDrain hw) s = .next t ∧ t.quiet = s.quiet ∧ t.hif.entries = s.hif.entries ∧
      (u.mayWrite s.devEq lost = true → t.hif.lostToPost = 0 ∧
        t.host = Memory.write u.host u.devSlot (eventBytes lost 0 s.timeUs (s.evRing s.devEq).phase)) ∧
      (u.mayWrite s.devEq lost = false → t = u) := by
  intro u lost
  have puts := puts_drain s hw
  have read := consRead_drainFrom s hw
  have hif : u.hif = { s.hif with eq := u.hif.eq } := congrArg State.hif read.rest
  have devEq : u.devEq = s.devEq := (puts_drainFrom s hw).reg_devEq
  have event : u.lostEvent = lost := by rw [State.lostEvent, hif]
  have ring : u.evRing s.devEq = { s.evRing s.devEq with consSeen := (u.evRing s.devEq).consSeen } := read.ring _
  have time : u.timeUs = s.timeUs := (puts_drainFrom s hw).proj State.timeUs
  have phase : (u.evRing s.devEq).phase = (s.evRing s.devEq).phase := by rw [ring]; rfl
  obtain ⟨write, keep⟩ := drainHeld_lost (s := u) (by rw [hif]; exact empty) (by rw [hif]; exact some)
  rw [event, devEq] at write keep
  refine ⟨_, exec_eventQueueDrain served hw, puts.quiet, puts.entries, fun may => ?_, keep⟩
  obtain ⟨posted, host⟩ := write may
  refine ⟨posted, host.trans ?_⟩
  rw [writeEvent_host_of_no_ring rfl, time, phase, State.devSlot, devEq]

theorem modTimer_raises (s : State) (e : Nat) (lt : e < s.hif.eq.length) (on : s.eqOn e = true)
    (time : s.reg (HIF_EQ_MOD.TIME_US e) ≠ 0) (uncovered : (s.evRing e).uncovered ≠ 0) :
    let v := s.reg (HIF_EQ_CFG.VECTOR e) % 64
    ∃ t, exec (.eqModTimer e) s = .next t ∧ (t.evRing e).uncovered = 0 ∧ t.quiet = s.quiet ∧ t.host = s.host ∧
      (s.vectorOpen v = false → t.reg (MSIX.PENDING v) = 1 ∧ t.hif.msi = s.hif.msi) ∧
      (s.vectorOpen v = true → t.hif.msi = v :: s.hif.msi ∧ t.regs = s.regs) := by
  intro v
  let u := s.modEvRing e (fun r => { r with uncovered := 0 })
  have raised : s.raiseEq e = u.raiseVector v := rfl
  refine ⟨_, exec_eqModTimer on time uncovered, by rw [raiseEq_evRing lt], raiseEq_quiet s e, ?_,
    fun closed => ?_, fun isOpen => ?_⟩
  · rw [raised, State.raiseVector]
    split
    · rfl
    · rw [count_host]; rfl
  · rw [raised, raiseVector_of_closed (s := u) closed]
    exact ⟨reg_setReg_same u _ 1, rfl⟩
  · rw [raised, raiseVector_of_open (s := u) isOpen, count_hif, count_regs]
    exact ⟨rfl, rfl⟩

end Sys2Proof.Machine

end

/-- Settles O15: the three drains, by what `State.putEvent` does with the events held, and the timer. -/
theorem eventsLeave : Obligations.EventsLeave :=
  ⟨Sys2Proof.Machine.drain_one,
    fun s hw served ready => ⟨Sys2Proof.Machine.drain_ring s hw served ready,
      Sys2Proof.Machine.drain_lost s hw served⟩,
    fun s e lt => ⟨Sys2Proof.Machine.modTimer_raises s e lt, Sys2Proof.Machine.exec_eqModTimer_off⟩⟩

/-! ## SQ_ENABLE, SQ_DISABLE and EQ_ENABLE (R73, R88, R100) -/

section

namespace Sys2Proof.Machine

/-! ### Only register fields change -/

/-- From `s` to `t` nothing has changed but register fields, and of these none outside `fs`. -/
structure RegsMoved (fs : List Field) (s t : State) : Prop where
  rest : t = { s with regs := t.regs }
  regs : RegsBut fs s t

namespace RegsMoved

variable {fs : List Field} {s t u : State}

theorem refl (fs : List Field) (s : State) : RegsMoved fs s s := ⟨rfl, .refl _ s⟩

theorem trans (h : RegsMoved fs s t) (k : RegsMoved fs t u) : RegsMoved fs s u where
  rest := by rw [k.rest, h.rest]
  regs f hf := (k.regs f hf).trans (h.regs f hf)

theorem setReg (h : RegsMoved fs s t) {f : Field} (hf : f ∈ fs) (v : Nat) : RegsMoved fs s (t.setReg f v) :=
  h.trans ⟨rfl, regsBut_setReg hf t v⟩

theorem setReg_both (h : RegsMoved fs s t) (f : Field) (v : Nat) : RegsMoved fs (s.setReg f v) (t.setReg f v) where
  rest := by rw [h.rest]; rfl
  regs g hg := by
    by_cases same : f.key = g.key
    · have stored (x : State) : (x.setReg f v).reg g = if v % 2 ^ f.width = f.reset then g.reset else v % 2 ^ f.width := by
        rw [State.reg, State.setReg, ← same]
        dsimp only [Sparse.set]
        split
        · rw [Sparse.get_drop_same]
        · rw [Sparse.get_put_same]
      rw [stored, stored]
    · rw [reg_setReg_ne t v same, reg_setReg_ne s v same]
      exact h.regs g hg

theorem hif (h : RegsMoved fs s t) : t.hif = s.hif := by rw [h.rest]
theorem host (h : RegsMoved fs s t) : t.host = s.host := by rw [h.rest]
theorem quiet (h : RegsMoved fs s t) : t.quiet = s.quiet := by rw [h.rest]; rfl
theorem chans (h : RegsMoved fs s t) : t.chans = s.chans := by rw [h.rest]

end RegsMoved

/-! ### The word of a submission ring -/

/-- The fields of HIF_SQ_CFG(q). -/
def sqFields (q : Nat) : List Field :=
  [HIF_SQ_CFG.ENABLE q, HIF_SQ_CFG.HALTED q, HIF_SQ_CFG.REFUSED q, HIF_SQ_CFG.TYPE q, HIF_SQ_CFG.LOG2SIZE q, HIF_SQ_CFG.EQ q]

/-- REFUSED is cleared by a 1 (R73). -/
def State.refusedAck (s : State) (q w : Nat) : State := if bit w 2 then s.setReg (HIF_SQ_CFG.REFUSED q) 0 else s

/-- TYPE, LOG2SIZE and EQ as a write of `w` gives them. -/
def State.sqForm (s : State) (q w : Nat) : State :=
  ((s.setReg (HIF_SQ_CFG.TYPE q) (bits w 8 4)).setReg (HIF_SQ_CFG.LOG2SIZE q) (bits w 12 5)).setReg (HIF_SQ_CFG.EQ q)
    (bits w 17 3)

variable (s : State)

theorem regsMoved_refusedAck (q w : Nat) : RegsMoved [HIF_SQ_CFG.REFUSED q] s (s.refusedAck q w) := by
  unfold State.refusedAck
  split
  · exact (RegsMoved.refl _ s).setReg (List.mem_singleton_self _) 0
  · exact .refl _ s

theorem regsMoved_sqForm (q w : Nat) : RegsMoved (sqFields q) s (s.sqForm q w) :=
  (((RegsMoved.refl _ s).setReg (by simp [sqFields]) _).setReg (by simp [sqFields]) _).setReg (by simp [sqFields]) _

theorem sqCfgWrite_eq (q w : Nat) : s.sqCfgWrite q w =
    if (s.refusedAck q w).sqOn q then
      (if bit w 0 then s.refusedAck q w else (s.refusedAck q w).sqDisable q)
    else if bit w 0 then ((s.refusedAck q w).sqForm q w).sqEnable q
    else (s.refusedAck q w).sqForm q w := rfl

theorem sqOn_refusedAck (q w j : Nat) : (s.refusedAck q w).sqOn j = s.sqOn j := by
  rw [State.sqOn, (regsMoved_refusedAck s q w).regs]
  · rfl
  · simp only [List.map_cons, List.map_nil, List.mem_singleton, Field.key, HIF_SQ_CFG.ENABLE, HIF_SQ_CFG.REFUSED]
    omega

theorem landed_sqCfg {q : Nat} (hq : q < 64) (w : Nat) : s.landed (0x11008 + 16 * q) w = s.sqCfgWrite q w := by
  have window : (0x11008 + 16 * q) / 0x10000 = 1 := by omega
  have ring : (0x11008 + 16 * q - 0x11000) / 16 = q := by omega
  have first : ¬ 0x11008 + 16 * q < 0x10008 := by omega
  have ne (c : Nat) (h : c < 0x11000) : 0x11008 + 16 * q ≠ c := by omega
  have table : 0x11000 ≤ 0x11008 + 16 * q ∧ 0x11008 + 16 * q < 0x11400 := by omega
  have word : (0x11008 + 16 * q) % 16 = 8 := by omega
  simp only [State.landed, window, State.hifWrite, first, ne 0x10008 (by decide), ne 0x1000C (by decide), table, and_self,
    word, if_true, if_false, ring]

theorem ringWrite_sqCfg {q : Nat} (hq : q < 64) (lands : s.writeLands (0x11008 + 16 * q)) (w : Word) :
    s.ringWrite 64 q (0x11008 + 16 * q) w = s.sqCfgWrite q w.toNat := by
  rw [State.ringWrite, if_pos hq, busWrite_of_lands lands (by omega) (by omega), landed_sqCfg s hq]

theorem bit_zero_or_one (w : Word) : bit (w ||| 1#32).toNat 0 = true := by simp [bit, BitVec.toNat_or]

theorem bit_zero_andNot_one (w : Word) : bit (w &&& ~~~1#32).toNat 0 = false := by
  rw [bit, BitVec.testBit_toNat, BitVec.getLsbD_and, BitVec.getLsbD_not]
  simp

/-! ### What a legal enable depends on -/

variable {s} in
/-- The flag REFUSED has no part in which channel is free. -/
theorem RegsMoved.freeStreamChan {q : Nat} {t : State} (h : RegsMoved [HIF_SQ_CFG.REFUSED q] s t) :
    t.freeStreamChan = s.freeStreamChan := by
  have bound (ch : Nat) : t.reg (DMA_CH_STATUS.BOUND ch) = s.reg (DMA_CH_STATUS.BOUND ch) := h.regs _ (by
    simp only [List.map_cons, List.map_nil, List.mem_singleton, Field.key, DMA_CH_STATUS.BOUND, HIF_SQ_CFG.REFUSED]
    omega)
  have chan (ch : Nat) : t.chan ch = s.chan ch := by rw [h.rest]; rfl
  have stripe : t.liveStripe = s.liveStripe := by rw [h.rest]; rfl
  have owes (k ch : Nat) : t.owes k ch = s.owes k ch := by
    simp only [State.owes, State.leftBy, bound, State.stagedCount, chan, h.hif]
  simp only [State.freeStreamChan, bound, chan, stripe, owes]

variable {s} in
/-- The flag REFUSED has no part in whether an enable is legal. -/
theorem RegsMoved.sqMayEnable {q : Nat} {t : State} (h : RegsMoved [HIF_SQ_CFG.REFUSED q] s t) (k : Nat) :
    t.sqMayEnable k = s.sqMayEnable k := by
  have field (f : Field) (other : f.key % 64 ≠ 2) : t.reg f = s.reg f := h.regs f (by
    simp only [List.map_cons, List.map_nil, List.mem_singleton]
    intro same
    rw [same] at other
    simp only [Field.key, HIF_SQ_CFG.REFUSED] at other
    omega)
  have type (j : Nat) : t.sqType j = s.sqType j := field _ (by simp only [Field.key, HIF_SQ_CFG.TYPE]; omega)
  have size (j : Nat) : t.reg (HIF_SQ_CFG.LOG2SIZE j) = s.reg (HIF_SQ_CFG.LOG2SIZE j) :=
    field _ (by simp only [Field.key, HIF_SQ_CFG.LOG2SIZE]; omega)
  have on (j : Nat) : t.sqOn j = s.sqOn j := by
    rw [State.sqOn, field _ (by simp only [Field.key, HIF_SQ_CFG.ENABLE]; omega), State.sqOn]
  simp only [State.sqMayEnable, State.typeOn, type, size, on, h.freeStreamChan]

theorem regsMoved_sqForm_refusedAck (q w : Nat) :
    RegsMoved [HIF_SQ_CFG.REFUSED q] (s.sqForm q w) ((s.refusedAck q w).sqForm q w) :=
  (((regsMoved_refusedAck s q w).setReg_both _ _).setReg_both _ _).setReg_both _ _

/-! ### An enable takes effect -/

/-- A STREAM ring binds a free channel (R100). -/
def State.sqBound (s : State) (q : Nat) : State :=
  match (if s.sqType q = 2 then s.freeStreamChan else none) with
  | some ch => s.bindChan ch q
  | none => s

/-- Ring `q` starts at index 0, with the base and the size of its registers. -/
def State.sqStarted (s : State) (q : Nat) : State :=
  ((s.modRing q (fun r => { r with
    base := s.reg (HIF_SQ_BASE.ADDR q), size := 2 ^ s.reg (HIF_SQ_CFG.LOG2SIZE q), eq := s.reg (HIF_SQ_CFG.EQ q),
    cons := 0, written := 2 ^ 32,
    prodSeen := 0, discard := [], epoch := r.epoch + 1 })).setReg (HIF_SQ_CFG.ENABLE q) 1).setReg (HIF_SQ_CFG.HALTED q) 0

theorem sqEnable_eq (q : Nat) : s.sqEnable q =
    if s.sqMayEnable q then (s.sqBound q).sqStarted q else s.setReg (HIF_SQ_CFG.REFUSED q) 1 := rfl

variable {s}

theorem sqBound_of_free {q ch : Nat} (stream : s.sqType q = 2) (free : s.freeStreamChan = some ch) :
    s.sqBound q = s.bindChan ch q := by rw [State.sqBound, if_pos stream, free]

theorem sqBound_of_not_stream {q : Nat} (other : s.sqType q ≠ 2) : s.sqBound q = s := by
  rw [State.sqBound, if_neg other]

/-- The enable of a ring keeps of every state but the register fields, the rings and the channels' rings. -/
structure Enables (s t : State) : Prop where
  quiet : { t.quiet with chans := s.chans } = s.quiet
  host : t.host = s.host
  entries : t.hif.entries = s.hif.entries
  req : ∀ ch, (t.chan ch).req = (s.chan ch).req

theorem req_modChan_ring (s : State) (ch j : Nat) (q : Option Nat) :
    ((s.modChan ch (fun c => { c with ring := q })).chan j).req = (s.chan j).req := by
  by_cases same : ch = j
  · subst same
    by_cases lt : ch < s.chans.length
    · rw [State.chan, State.modChan, getD_modAt_same lt]
      rfl
    · simp [State.chan, State.modChan, modAt, List.getD_eq_getElem?_getD, lt]
  · rw [State.chan, State.modChan, getD_modAt_ne _ same]
    rfl

theorem enables_bindChan (s : State) (ch q : Nat) : Enables s (s.bindChan ch q) :=
  ⟨rfl, rfl, rfl, fun j => req_modChan_ring s ch j (some q)⟩

theorem enables_sqBound (s : State) (q : Nat) : Enables s (s.sqBound q) := by
  unfold State.sqBound
  split
  · exact enables_bindChan s _ q
  · exact ⟨rfl, rfl, rfl, fun _ => rfl⟩

theorem enables_setReg (s : State) (f : Field) (v : Nat) : Enables s (s.setReg f v) := ⟨rfl, rfl, rfl, fun _ => rfl⟩

theorem enables_modRing (s : State) (q : Nat) (f : SubRing → SubRing) : Enables s (s.modRing q f) :=
  ⟨rfl, rfl, rfl, fun _ => rfl⟩

theorem Enables.trans {t u : State} (h : Enables s t) (k : Enables t u) : Enables s u where
  quiet := by rw [← h.quiet, ← k.quiet]
  host := k.host.trans h.host
  entries := k.entries.trans h.entries
  req ch := (k.req ch).trans (h.req ch)

theorem enables_sqEnable (s : State) (q : Nat) : Enables s (s.sqEnable q) := by
  rw [sqEnable_eq]
  split
  · exact (((enables_sqBound s q).trans (enables_modRing _ q _)).trans (enables_setReg _ _ _)).trans (enables_setReg _ _ _)
  · exact enables_setReg s _ 1

theorem Enables.of_regsMoved {fs : List Field} {t u : State} (h : RegsMoved fs s t) (k : Enables t u) : Enables s u where
  quiet := by rw [← h.quiet, ← k.quiet, h.chans]
  host := k.host.trans h.host
  entries := k.entries.trans (by rw [h.hif])
  req ch := (k.req ch).trans (by rw [h.rest]; rfl)

/-- The binding of a channel leaves every register of the HIF's window. -/
theorem reg_sqBound {q : Nat} {f : Field} (hif : f.key < 0x20000 * 64) : (s.sqBound q).reg f = s.reg f := by
  unfold State.sqBound
  split
  · next ch _ =>
    have ring : (DMA_CH_STATUS.RING ch).key ≠ f.key := by
      simp only [Field.key, DMA_CH_STATUS.RING] at hif ⊢
      omega
    have bound : (DMA_CH_STATUS.BOUND ch).key ≠ f.key := by
      simp only [Field.key, DMA_CH_STATUS.BOUND] at hif ⊢
      omega
    rw [State.bindChan, reg_setReg_ne _ _ ring, reg_setReg_ne _ _ bound]
    rfl
  · rfl

theorem sqBound_hif (s : State) (q : Nat) : (s.sqBound q).hif = s.hif := by
  unfold State.sqBound
  split <;> rfl

/-- A ring that is enabled starts at index 0, with the base and the size of its registers. -/
theorem sqStarted_ring {q : Nat} (lt : q < s.hif.sq.length) :
    (s.sqStarted q).sqOn q = true ∧ (s.sqStarted q).reg (HIF_SQ_CFG.HALTED q) = 0 ∧ ((s.sqStarted q).ring q).cons = 0 ∧
    ((s.sqStarted q).ring q).base = s.reg (HIF_SQ_BASE.ADDR q) ∧
    ((s.sqStarted q).ring q).size = 2 ^ s.reg (HIF_SQ_CFG.LOG2SIZE q) ∧
    ((s.sqStarted q).ring q).eq = s.reg (HIF_SQ_CFG.EQ q) := by
  have halted : (HIF_SQ_CFG.HALTED q).key ≠ (HIF_SQ_CFG.ENABLE q).key := by
    simp only [Field.key, HIF_SQ_CFG.HALTED, HIF_SQ_CFG.ENABLE]
    omega
  have on : (s.sqStarted q).reg (HIF_SQ_CFG.ENABLE q) = 1 := by
    rw [State.sqStarted, reg_setReg_ne _ _ halted, reg_setReg_same]
    rfl
  have ring : (s.sqStarted q).ring q = { s.ring q with
      base := s.reg (HIF_SQ_BASE.ADDR q), size := 2 ^ s.reg (HIF_SQ_CFG.LOG2SIZE q), eq := s.reg (HIF_SQ_CFG.EQ q)
      cons := 0, written := 2 ^ 32
      prodSeen := 0, discard := [], epoch := (s.ring q).epoch + 1 } := getD_modAt_same lt _ _
  rw [ring]
  exact ⟨by rw [State.sqOn, on]; rfl, reg_setReg_same _ _ 0, rfl, rfl, rfl, rfl⟩

/-- The channel bound to a STREAM ring shows the ring. -/
theorem sqStarted_bindChan {q ch : Nat} (hq : q < 64) (lt : ch < s.chans.length) :
    let t := (s.bindChan ch q).sqStarted q
    (t.chan ch).ring = some q ∧ t.reg (DMA_CH_STATUS.BOUND ch) = 1 ∧ t.reg (DMA_CH_STATUS.RING ch) = q := by
  intro t
  have field (f : Field) (dma : 0x20000 * 64 ≤ f.key) : t.reg f = (s.bindChan ch q).reg f := by
    have halted : (HIF_SQ_CFG.HALTED q).key ≠ f.key := by
      simp only [Field.key, HIF_SQ_CFG.HALTED] at dma ⊢
      omega
    have enable : (HIF_SQ_CFG.ENABLE q).key ≠ f.key := by
      simp only [Field.key, HIF_SQ_CFG.ENABLE] at dma ⊢
      omega
    rw [show t = (s.bindChan ch q).sqStarted q from rfl, State.sqStarted, reg_setReg_ne _ _ halted,
      reg_setReg_ne _ _ enable]
    rfl
  have other : (DMA_CH_STATUS.RING ch).key ≠ (DMA_CH_STATUS.BOUND ch).key := by
    simp only [Field.key, DMA_CH_STATUS.RING, DMA_CH_STATUS.BOUND]
    omega
  have chan : t.chan ch = { s.chan ch with ring := some q } := getD_modAt_same lt _ _
  refine ⟨by rw [chan], ?_, ?_⟩
  · rw [field _ (by simp only [Field.key, DMA_CH_STATUS.BOUND]; omega), State.bindChan, reg_setReg_ne _ _ other,
      reg_setReg_same]
    rfl
  · rw [field _ (by simp only [Field.key, DMA_CH_STATUS.RING]; omega), State.bindChan, reg_setReg_same]
    exact Nat.mod_eq_of_lt hq

/-- The fields that a write of `w` forms. -/
theorem sqForm_reg (s : State) (q w : Nat) : (s.sqForm q w).sqType q = bits w 8 4 ∧
    (s.sqForm q w).reg (HIF_SQ_CFG.LOG2SIZE q) = bits w 12 5 ∧ (s.sqForm q w).reg (HIF_SQ_CFG.EQ q) = bits w 17 3 := by
  have eqSize : (HIF_SQ_CFG.EQ q).key ≠ (HIF_SQ_CFG.LOG2SIZE q).key := by
    simp only [Field.key, HIF_SQ_CFG.EQ, HIF_SQ_CFG.LOG2SIZE]
    omega
  have eqType : (HIF_SQ_CFG.EQ q).key ≠ (HIF_SQ_CFG.TYPE q).key := by
    simp only [Field.key, HIF_SQ_CFG.EQ, HIF_SQ_CFG.TYPE]
    omega
  have sizeType : (HIF_SQ_CFG.LOG2SIZE q).key ≠ (HIF_SQ_CFG.TYPE q).key := by
    simp only [Field.key, HIF_SQ_CFG.LOG2SIZE, HIF_SQ_CFG.TYPE]
    omega
  refine ⟨?_, ?_, ?_⟩
  · rw [State.sqType, State.sqForm, reg_setReg_ne _ _ eqType, reg_setReg_ne _ _ sizeType, reg_setReg_same]
    exact Nat.mod_mod _ _
  · rw [State.sqForm, reg_setReg_ne _ _ eqSize, reg_setReg_same]
    exact Nat.mod_mod _ _
  · rw [State.sqForm, reg_setReg_same]
    exact Nat.mod_mod _ _

/-! ### The clauses -/

theorem sqEnable_acts (s : State) (q : Nat) (w : Word) (hq : q < 64) (lt : q < s.hif.sq.length)
    (lands : s.writeLands (0x11008 + 16 * q)) (off : s.sqOn q = false) :
    let x := (w ||| 1#32).toNat
    let u := s.sqForm q x
    ∃ t, exec (.sqEnable q w) s = .next t ∧ { t.quiet with chans := s.chans } = s.quiet ∧ t.host = s.host ∧
      t.hif.entries = s.hif.entries ∧ (∀ ch, (t.chan ch).req = (s.chan ch).req) ∧
      (bits x 8 4 ≠ 2 → t.chans = s.chans) ∧
      (u.sqMayEnable q = true → bits x 8 4 = 2 → ∀ ch, u.freeStreamChan = some ch → ch < s.chans.length →
        (t.chan ch).ring = some q ∧ t.reg (DMA_CH_STATUS.BOUND ch) = 1 ∧ t.reg (DMA_CH_STATUS.RING ch) = q) ∧
      (u.sqMayEnable q = true → t.sqOn q = true ∧ t.reg (HIF_SQ_CFG.HALTED q) = 0 ∧ (t.ring q).cons = 0 ∧
        (t.ring q).base = s.reg (HIF_SQ_BASE.ADDR q) ∧ (t.ring q).size = 2 ^ bits x 12 5 ∧ (t.ring q).eq = bits x 17 3) ∧
      (u.sqMayEnable q = false → t.sqOn q = false ∧ t.reg (HIF_SQ_CFG.REFUSED q) = 1 ∧ t.hif = s.hif) := by
  intro x u
  let v := (s.refusedAck q x).sqForm q x
  have acked := regsMoved_refusedAck s q x
  have formed := regsMoved_sqForm (s.refusedAck q x) q x
  have moved : RegsMoved [HIF_SQ_CFG.REFUSED q] u v := regsMoved_sqForm_refusedAck s q x
  have acts : exec (.sqEnable q w) s = .next (v.sqEnable q) := by
    refine congrArg Host.Outcome.next ((ringWrite_sqCfg s hq lands _).trans ?_)
    rw [sqCfgWrite_eq, sqOn_refusedAck, off, bit_zero_or_one]
    rfl
  have vHif : v.hif = s.hif := formed.hif.trans acked.hif
  have vChans : v.chans = s.chans := formed.chans.trans acked.chans
  obtain ⟨quiet, host, entries, req⟩ :=
    Enables.of_regsMoved acked (Enables.of_regsMoved formed (enables_sqEnable v q))
  obtain ⟨type, size, eq⟩ := sqForm_reg (s.refusedAck q x) q x
  refine ⟨v.sqEnable q, acts, quiet, host, entries, req, fun other => ?_, fun may stream ch free lt => ?_, fun may => ?_,
    fun may => ?_⟩
  · rw [sqEnable_eq, sqBound_of_not_stream (fun e => other (type.symm.trans e))]
    split
    · exact vChans
    · exact vChans
  · rw [sqEnable_eq, moved.sqMayEnable, may, if_pos rfl,
      sqBound_of_free (type.trans stream) (moved.freeStreamChan.trans free)]
    exact sqStarted_bindChan hq (vChans.symm ▸ lt)
  · rw [sqEnable_eq, moved.sqMayEnable, may, if_pos rfl]
    have base : (v.sqBound q).reg (HIF_SQ_BASE.ADDR q) = s.reg (HIF_SQ_BASE.ADDR q) := by
      rw [reg_sqBound (by simp only [Field.key, HIF_SQ_BASE.ADDR]; omega), formed.regs, acked.regs]
      · simp only [List.map_cons, List.map_nil, List.mem_singleton, Field.key, HIF_SQ_CFG.REFUSED, HIF_SQ_BASE.ADDR]
        omega
      · simp only [sqFields, List.map_cons, List.map_nil, List.mem_cons, List.not_mem_nil, or_false, Field.key,
          HIF_SQ_BASE.ADDR, HIF_SQ_CFG.ENABLE, HIF_SQ_CFG.HALTED, HIF_SQ_CFG.REFUSED, HIF_SQ_CFG.TYPE,
          HIF_SQ_CFG.LOG2SIZE, HIF_SQ_CFG.EQ]
        omega
    have started := sqStarted_ring (s := v.sqBound q) (q := q) (by rw [sqBound_hif, vHif]; exact lt)
    rw [base, reg_sqBound (by simp only [Field.key, HIF_SQ_CFG.LOG2SIZE]; omega),
      reg_sqBound (by simp only [Field.key, HIF_SQ_CFG.EQ]; omega), size, eq] at started
    exact started
  · rw [sqEnable_eq, moved.sqMayEnable, may]
    have enable (y : State) (f : Field) (other : f.key ≠ (HIF_SQ_CFG.ENABLE q).key) (n : Nat) :
        (y.setReg f n).sqOn q = y.sqOn q := by rw [State.sqOn, reg_setReg_ne _ _ other]; rfl
    refine ⟨?_, reg_setReg_same v _ 1, vHif⟩
    rw [if_neg Bool.false_ne_true, enable, show v = (s.refusedAck q x).sqForm q x from rfl, State.sqForm, enable, enable,
      enable, sqOn_refusedAck, off] <;>
      simp only [Field.key, HIF_SQ_CFG.ENABLE, HIF_SQ_CFG.REFUSED, HIF_SQ_CFG.TYPE, HIF_SQ_CFG.LOG2SIZE, HIF_SQ_CFG.EQ] <;>
      omega

/-- A ring that is disabled leaves its channels, which changes no more than their status words. -/
theorem regsMoved_sqDisable (s : State) (q : Nat) :
    RegsMoved (streamChans.map DMA_CH_STATUS.BOUND) (s.setReg (HIF_SQ_CFG.ENABLE q) 0) (s.sqDisable q) := by
  let free (s : State) (ch : Nat) : State := if s.boundTo q ch then s.setReg (DMA_CH_STATUS.BOUND ch) 0 else s
  have unbind (chs : List Nat) (sub : chs ⊆ streamChans) :
      ∀ u, RegsMoved (streamChans.map DMA_CH_STATUS.BOUND) u (chs.foldl free u) := by
    induction chs with
    | nil => exact .refl _
    | cons ch chs ih =>
      intro u
      have one : RegsMoved (streamChans.map DMA_CH_STATUS.BOUND) u (free u ch) := by
        unfold free
        split
        · exact (RegsMoved.refl _ u).setReg (List.mem_map_of_mem (sub List.mem_cons_self)) 0
        · exact .refl _ u
      exact one.trans (ih (fun _ h => sub (List.mem_cons_of_mem _ h)) _)
  unfold State.sqDisable
  extract_lets u
  split
  · exact unbind streamChans (fun _ h => h) u
  · exact .refl _ u

theorem sqOn_sqDisable (s : State) {q : Nat} (hq : q < 64) : (s.sqDisable q).sqOn q = false := by
  have enable : (HIF_SQ_CFG.ENABLE q).key ∉ (streamChans.map DMA_CH_STATUS.BOUND).map Field.key := by
    simp only [streamChans, List.map_cons, List.map_nil, List.mem_cons, List.not_mem_nil, or_false, Field.key,
      DMA_CH_STATUS.BOUND, HIF_SQ_CFG.ENABLE]
    omega
  rw [State.sqOn, (regsMoved_sqDisable s q).regs _ enable, reg_setReg_same]
  rfl

theorem mayTake_of_off {s : State} {q : Nat} (off : s.sqOn q = false) : s.mayTake q = false := by
  simp [State.mayTake, off]

theorem sqDisable_acts (s : State) (q : Nat) (w : Word) (hq : q < 64) (lands : s.writeLands (0x11008 + 16 * q))
    (on : s.sqOn q = true) :
    ∃ t, exec (.sqDisable q w) s = .next t ∧ t.sqOn q = false ∧ t.mayTake q = false ∧ t.hif = s.hif ∧
      t.quiet = s.quiet ∧ t.host = s.host := by
  let u := s.refusedAck q (w &&& ~~~1#32).toNat
  have acked := regsMoved_refusedAck s q (w &&& ~~~1#32).toNat
  have disabled := regsMoved_sqDisable u q
  have off := sqOn_sqDisable u hq
  refine ⟨u.sqDisable q, congrArg Host.Outcome.next ((ringWrite_sqCfg s hq lands _).trans ?_), off, mayTake_of_off off,
    disabled.hif.trans acked.hif, disabled.quiet.trans acked.quiet, disabled.host.trans acked.host⟩
  rw [sqCfgWrite_eq, sqOn_refusedAck, if_pos on, bit_zero_andNot_one]
  rfl

/-! ### Event rings -/

theorem landed_eqCfg (s : State) {e : Nat} (he : e < 8) (w : Nat) : s.landed (0x12008 + 32 * e) w = s.eqCfgWrite e w := by
  have window : (0x12008 + 32 * e) / 0x10000 = 1 := by omega
  have ring : (0x12008 + 32 * e - 0x12000) / 32 = e := by omega
  have first : ¬ 0x12008 + 32 * e < 0x10008 := by omega
  have ne (c : Nat) (h : c < 0x12000) : 0x12008 + 32 * e ≠ c := by omega
  have lower : ¬ 0x12008 + 32 * e < 0x11400 := by omega
  have table : 0x12000 ≤ 0x12008 + 32 * e ∧ 0x12008 + 32 * e < 0x12100 := by omega
  have word : (0x12008 + 32 * e) % 32 = 8 := by omega
  simp only [State.landed, window, State.hifWrite, first, ne 0x10008 (by decide), ne 0x1000C (by decide), lower, table,
    and_self, and_false, word, if_true, if_false, ring]

/-- Event ring `e` as an enable with size 2^`k` starts it (R88). -/
def State.eqStarted (s : State) (e k : Nat) : State :=
  (s.modEvRing e (fun _ => { base := s.reg (HIF_EQ_BASE.ADDR e), size := 2 ^ k, prod := 0, written := 2 ^ 32,
                             consSeen := 0, uncovered := 0 })).setReg (HIF_EQ_CFG.ENABLE e) 1

/-- VECTOR and LOG2SIZE as a write of `w` gives them. -/
def State.eqForm (s : State) (e w : Nat) : State :=
  (s.setReg (HIF_EQ_CFG.VECTOR e) (bits w 13 6)).setReg (HIF_EQ_CFG.LOG2SIZE e) (bits w 8 5)

/-- A legal enable of an event ring starts it, and what waits for it is released. -/
theorem eqCfgWrite_of_legal {s : State} {e w : Nat} (off : s.eqOn e = false) (one : bit w 0 = true)
    (low : 6 ≤ bits w 8 5) (high : bits w 8 5 ≤ 16) :
    s.eqCfgWrite e w = ((s.eqForm e w).eqStarted e (bits w 8 5)).releaseKept.drainHeld := by
  have vector : (s.setReg (HIF_EQ_CFG.VECTOR e) (bits w 13 6)).eqOn e = s.eqOn e := by
    rw [State.eqOn, reg_setReg_ne _ _ (by simp only [Field.key, HIF_EQ_CFG.VECTOR, HIF_EQ_CFG.ENABLE]; omega)]
    rfl
  unfold State.eqCfgWrite
  extract_lets u k v ring
  rw [if_neg (by rw [vector, off]; decide), if_pos (by simp [one, low, high, k])]
  rfl

theorem releaseKept_of_ready {s : State} (ready : s.hif.awaitDevEq = false) : s.releaseKept = s :=
  if_neg (by simp [ready])

/-- The ring starts a first pass, at index 0. -/
theorem eqStarted_evRing {s : State} {e : Nat} (lt : e < s.hif.eq.length) (k : Nat) : (s.eqStarted e k).evRing e =
    { base := s.reg (HIF_EQ_BASE.ADDR e), size := 2 ^ k, prod := 0, written := 2 ^ 32, consSeen := 0, uncovered := 0 } :=
  evRing_modEvRing_same lt _

theorem eqStarted_hif (s : State) (e k : Nat) : (s.eqStarted e k).hif = { s.hif with eq := (s.eqStarted e k).hif.eq } :=
  rfl

theorem eqStarted_memories (s : State) (e k : Nat) : SameMemories s (s.eqStarted e k) := ⟨rfl, rfl, rfl⟩

theorem eqStarted_quiet (s : State) (e k : Nat) : (s.eqStarted e k).quiet = s.quiet := rfl

theorem eqOn_eqStarted (s : State) (e k : Nat) : (s.eqStarted e k).eqOn e = true := by
  rw [State.eqOn, State.eqStarted, reg_setReg_same]
  rfl

theorem phase_of_prod_zero {r : EvRing} (zero : r.prod = 0) : r.phase = 1 := by
  rw [EvRing.phase, zero, Nat.zero_div]

theorem eqEnable_acts (s : State) (e : Nat) (w : Word) (he : e < 8) (lt : e < s.hif.eq.length)
    (lands : s.writeLands (0x12008 + 32 * e)) (off : s.eqOn e = false) (low : 6 ≤ bits (w ||| 1#32).toNat 8 5)
    (high : bits (w ||| 1#32).toNat 8 5 ≤ 16) (empty : s.hif.hold = []) (none : s.hif.lostToPost = 0)
    (ready : s.hif.awaitDevEq = false) :
    ∃ t, exec (.eqEnable e w) s = .next t ∧ t.eqOn e = true ∧ (t.evRing e).prod = 0 ∧ (t.evRing e).phase = 1 ∧
      (t.evRing e).size = 2 ^ bits (w ||| 1#32).toNat 8 5 ∧ (t.evRing e).base = s.reg (HIF_EQ_BASE.ADDR e) ∧
      SameMemories s t ∧ t.quiet = s.quiet := by
  generalize hx : (w ||| 1#32).toNat = x at low high ⊢
  have one : bit x 0 = true := hx ▸ bit_zero_or_one w
  have write : s.ringWrite 8 e (0x12008 + 32 * e) (w ||| 1#32) = s.eqCfgWrite e x := by
    rw [State.ringWrite, if_pos he, busWrite_of_lands lands (by omega) (by omega), landed_eqCfg s he, hx]
  obtain ⟨v, hv⟩ : ∃ v, v = s.eqForm e x := ⟨_, rfl⟩
  have vHif : v.hif = s.hif := hv ▸ rfl
  have vMem : SameMemories s v := hv ▸ ⟨rfl, rfl, rfl⟩
  have vQuiet : v.quiet = s.quiet := hv ▸ rfl
  have base : v.reg (HIF_EQ_BASE.ADDR e) = s.reg (HIF_EQ_BASE.ADDR e) := by
    rw [hv, State.eqForm, reg_setReg_ne, reg_setReg_ne] <;>
      simp only [Field.key, HIF_EQ_CFG.VECTOR, HIF_EQ_CFG.LOG2SIZE, HIF_EQ_BASE.ADDR] <;> omega
  have ring := eqStarted_evRing (s := v) (vHif.symm ▸ lt) (bits x 8 5)
  have hif := eqStarted_hif v e (bits x 8 5)
  have idle : s.eqCfgWrite e x = v.eqStarted e (bits x 8 5) := by
    rw [eqCfgWrite_of_legal off one low high, ← hv, releaseKept_of_ready, drainHeld_of_nil] <;> rw [hif, vHif]
    · exact empty
    · exact none
    · exact ready
  refine ⟨_, congrArg Host.Outcome.next (write.trans idle), eqOn_eqStarted v e _, by rw [ring],
    phase_of_prod_zero (by rw [ring]), by rw [ring], by rw [ring]; exact base,
    vMem.trans (eqStarted_memories v e _), (eqStarted_quiet v e _).trans vQuiet⟩

end Sys2Proof.Machine

end

/-- Settles O14: the writes of HIF_SQ_CFG and HIF_EQ_CFG, case by case. -/
theorem ringEnables : Obligations.RingEnables :=
  ⟨fun s q w hq lt lands => ⟨Sys2Proof.Machine.sqEnable_acts s q w hq lt lands,
      Sys2Proof.Machine.sqDisable_acts s q w hq lands⟩,
    Sys2Proof.Machine.eqEnable_acts⟩

/-! ## The protection store: CMD STAGE and the SMBus reads (R94, R95, R98) -/

section

namespace Sys2Proof.Machine

variable (s : State)

theorem landed_protCtrl (w : Nat) : s.landed 0x110 w = s.protCtrlWrite w := rfl

/-- ITEM and LEN as a write of `w` to MGT_PROT_CTRL gives them. -/
def State.protForm (s : State) (w : Nat) : State :=
  (s.setReg MGT_PROT_CTRL.ITEM (bits w 8 3)).setReg MGT_PROT_CTRL.LEN (bits w 16 9)

theorem protCtrlWrite_stage {w : Nat} (stage : bits w 0 2 = 1) : s.protCtrlWrite w = (s.protForm w).protStage := by
  unfold State.protCtrlWrite
  rw [stage]
  rfl

theorem protCtrlWrite_cancel {w : Nat} (cancel : bits w 0 2 = 2) (pending : s.protPending = true) :
    s.protCtrlWrite w = (s.protForm w).protEnd 0x04 := by
  unfold State.protCtrlWrite
  rw [cancel]
  exact if_pos pending

/-- CMD = STAGE in the low two bits. -/
theorem bits_stage (w : Word) : bits (w &&& ~~~3#32 ||| 1#32).toNat 0 2 = 1 := by
  have word : (w &&& ~~~3#32 ||| 1#32).extractLsb' 0 2 = 1#2 := by
    ext i hi
    interval_cases i <;> simp
  have value := congrArg BitVec.toNat word
  simpa [bits, BitVec.extractLsb'_toNat] using value

/-- CMD = CANCEL in the low two bits. -/
theorem bits_cancel (w : Word) : bits (w &&& ~~~3#32 ||| 2#32).toNat 0 2 = 2 := by
  have word : (w &&& ~~~3#32 ||| 2#32).extractLsb' 0 2 = 2#2 := by
    ext i hi
    interval_cases i <;> simp
  have value := congrArg BitVec.toNat word
  simpa [bits, BitVec.extractLsb'_toNat] using value

/-- The staged fields: none of them is a word of the staging area. -/
theorem protForm_reg (w : Nat) : (s.protForm w).reg MGT_PROT_CTRL.ITEM = bits w 8 3 ∧
    (s.protForm w).reg MGT_PROT_CTRL.LEN = bits w 16 9 ∧ (s.protForm w).stageBytes = s.stageBytes := by
  refine ⟨?_, ?_, ?_⟩
  · rw [State.protForm, reg_setReg_ne _ _ (by decide), reg_setReg_same]
    exact Nat.mod_mod _ _
  · rw [State.protForm, reg_setReg_same]
    exact Nat.mod_mod _ _
  · have data (i : Nat) : (s.protForm w).reg (MGT_PROT_STAGE.DATA i) = s.reg (MGT_PROT_STAGE.DATA i) := by
      rw [State.protForm, reg_setReg_ne, reg_setReg_ne] <;>
        simp only [Field.key, MGT_PROT_CTRL.ITEM, MGT_PROT_CTRL.LEN, MGT_PROT_STAGE.DATA] <;> omega
    funext n
    simp only [State.stageBytes, data]

/-- The registers that show a pending sequence. -/
def State.protShown (s : State) (item crc nonce : Nat) : State :=
  (((s.setReg MGT_PROT_CRC.VALUE crc).setReg MGT_PROT_NONCE.VALUE nonce).setReg MGT_PROT_STATUS.STATE 1).setReg
    MGT_PROT_STATUS.ITEM item

/-- The protection store with a pending sequence, of its own CRC and nonce. -/
def State.protWith (s : State) (item len : Nat) (bs : List Byte) : Prot :=
  { s.prot with pending := some (item, bs), lastItem := item, lastLen := len, lastCrc := crc32c 0 bs
                lastNonce := (Config.protNonce s.prot.draws).toNat, draws := s.prot.draws + 1, smbAlert := true }

/-- The sequence becomes PENDING. -/
def State.protPends (s : State) (item len : Nat) (bs : List Byte) : State :=
  { s.protShown item (crc32c 0 bs) (Config.protNonce s.prot.draws).toNat with prot := s.protWith item len bs }

/-- What CMD STAGE answers, by its three cases. -/
theorem protStage_eq {item len : Nat} {bs : List Byte} (hItem : s.reg MGT_PROT_CTRL.ITEM = item)
    (hLen : s.reg MGT_PROT_CTRL.LEN = len) (hBytes : s.stageBytes len = bs) : s.protStage =
    if s.protPending then s.setReg MGT_PROT_STATUS.RESULT 0x11
    else if !itemOk item len bs || (item == 4 && s.isMirror) then
      (s.setReg MGT_PROT_STATUS.RESULT 0x09).setReg MGT_PROT_STATUS.ITEM item
    else s.protPends item len bs := by
  subst hItem hLen hBytes
  rfl

theorem protShown_reg {item : Nat} (small : item < 8) (crc nonce : Nat) :
    (s.protShown item crc nonce).reg MGT_PROT_STATUS.STATE = 1 ∧ (s.protShown item crc nonce).reg MGT_PROT_STATUS.ITEM = item ∧
    (s.protShown item crc nonce).reg MGT_PROT_CRC.VALUE = crc % 2 ^ 32 := by
  unfold State.protShown
  refine ⟨?_, ?_, ?_⟩
  · rw [reg_setReg_ne _ _ (by decide), reg_setReg_same]
    rfl
  · rw [reg_setReg_same]
    exact Nat.mod_eq_of_lt small
  · rw [reg_setReg_ne _ _ (by decide), reg_setReg_ne _ _ (by decide), reg_setReg_ne _ _ (by decide), reg_setReg_same]
    rfl

theorem protShown_frame (item crc nonce : Nat) :
    SameMemories s (s.protShown item crc nonce) ∧ (s.protShown item crc nonce).hif = s.hif := ⟨⟨rfl, rfl, rfl⟩, rfl⟩

/-- A staged item is answered BUSY or REJECTED, or becomes PENDING. -/
theorem protStage_cases {item len : Nat} {bs : List Byte} (hItem : s.reg MGT_PROT_CTRL.ITEM = item)
    (hLen : s.reg MGT_PROT_CTRL.LEN = len) (hBytes : s.stageBytes len = bs) (small : item < 8) :
    let t := s.protStage
    SameMemories s t ∧ t.hif = s.hif ∧ t.prot.windows = s.prot.windows ∧
      t.prot.headKey = s.prot.headKey ∧ t.prot.beamAuth = s.prot.beamAuth ∧
      (s.prot.pending.isSome = true → t.prot = s.prot ∧ t.reg MGT_PROT_STATUS.RESULT = 0x11) ∧
      (s.prot.pending = none → itemOk item len bs = false ∨ item = 4 ∧ s.isMirror = true →
        t.prot = s.prot ∧ t.reg MGT_PROT_STATUS.RESULT = 0x09) ∧
      (s.prot.pending = none → itemOk item len bs = true → ¬(item = 4 ∧ s.isMirror = true) →
        t.prot.pending = some (item, bs) ∧ t.prot.lastCrc = crc32c 0 bs ∧ t.prot.smbAlert = true ∧
        t.reg MGT_PROT_STATUS.STATE = 1 ∧ t.reg MGT_PROT_STATUS.ITEM = item ∧
        t.reg MGT_PROT_CRC.VALUE = crc32c 0 bs % 2 ^ 32) := by
  dsimp only
  rw [protStage_eq s hItem hLen hBytes]
  by_cases pending : s.prot.pending.isSome = true
  · have busy : s.prot.pending ≠ none := Option.isSome_iff_ne_none.mp pending
    rw [if_pos (show s.protPending = true from pending)]
    exact ⟨⟨rfl, rfl, rfl⟩, rfl, rfl, rfl, rfl, fun _ => ⟨rfl, reg_setReg_same _ _ _⟩, fun none => absurd none busy,
      fun none => absurd none busy⟩
  · rw [if_neg (show ¬s.protPending = true from pending)]
    by_cases refused : itemOk item len bs = false ∨ item = 4 ∧ s.isMirror = true
    · rw [if_pos (by simpa using refused)]
      refine ⟨⟨rfl, rfl, rfl⟩, rfl, rfl, rfl, rfl, fun some => absurd some pending,
        fun _ _ => ⟨rfl, (reg_setReg_ne _ _ (by decide)).trans (reg_setReg_same _ _ _)⟩, fun _ ok may => ?_⟩
      obtain bad | mirror := refused
      · exact absurd (bad.symm.trans ok) Bool.false_ne_true
      · exact absurd mirror may
    · rw [if_neg (by simpa using refused)]
      obtain ⟨memories, hif⟩ := protShown_frame s item (crc32c 0 bs) (Config.protNonce s.prot.draws).toNat
      exact ⟨memories, hif, rfl, rfl, rfl, fun some => absurd some pending, fun _ bad => absurd bad refused,
        fun _ _ _ => ⟨rfl, rfl, rfl, protShown_reg s small _ _⟩⟩

theorem protStage_acts (s : State) (w : Word) (lands : s.writeLands 0x110) :
    let x := (w &&& ~~~3#32 ||| 1#32).toNat
    let item := bits x 8 3
    let bs := s.stageBytes (bits x 16 9)
    ∃ t, exec (.protStage w) s = .next t ∧ SameMemories s t ∧ t.hif = s.hif ∧ t.prot.windows = s.prot.windows ∧
      t.prot.headKey = s.prot.headKey ∧ t.prot.beamAuth = s.prot.beamAuth ∧
      (s.prot.pending.isSome = true → t.prot = s.prot ∧ t.reg MGT_PROT_STATUS.RESULT = 0x11) ∧
      (s.prot.pending = none → itemOk item (bits x 16 9) bs = false ∨ item = 4 ∧ s.isMirror = true →
        t.prot = s.prot ∧ t.reg MGT_PROT_STATUS.RESULT = 0x09) ∧
      (s.prot.pending = none → itemOk item (bits x 16 9) bs = true → ¬(item = 4 ∧ s.isMirror = true) →
        t.prot.pending = some (item, bs) ∧ t.prot.lastCrc = crc32c 0 bs ∧ t.prot.smbAlert = true ∧
        t.reg MGT_PROT_STATUS.STATE = 1 ∧ t.reg MGT_PROT_STATUS.ITEM = item ∧
        t.reg MGT_PROT_CRC.VALUE = crc32c 0 bs % 2 ^ 32) := by
  intro x item bs
  obtain ⟨hItem, hLen, hBytes⟩ := protForm_reg s x
  have acts : exec (.protStage w) s = .next (s.protForm x).protStage := by
    refine congrArg Host.Outcome.next ((busWrite_of_lands lands rfl (by decide) _).trans ?_)
    rw [landed_protCtrl, protCtrlWrite_stage _ (bits_stage w)]
  exact ⟨_, acts, protStage_cases (s.protForm x) hItem hLen (congrFun hBytes _) (Nat.mod_lt _ (by decide))⟩

/-! ### SMBus -/

theorem smbLive_own {s : State} (up : s.g ≠ .off) : s.smbLive s.smbTarget = true := by simp [State.smbLive, up]

theorem smbLive_other {s : State} {x : Nat} (other : x ≠ s.smbTarget) : s.smbLive x = false := by
  simp [State.smbLive, other]

/-- The 32 staged bytes from block `o` on, 0 past the staged value's end. -/
def State.stagedBlock (s : State) (o : Nat) : List Byte :=
  let bs := (((s.prot.pending.map (·.2)).getD []).drop (32 * o)).take 32
  bs ++ List.replicate (32 - bs.length) 0#8

theorem execProtRead_eq (x o : Nat) (ok : Bool) (s : State) : exec (.protRead x 1 o ok) s =
    .next (if s.smbLive x && ok then s.smbAnswer (s.stagedBlock o) else s) := by
  show execProtRead x 1 o ok s = _
  simp only [execProtRead, decide_true, Bool.and_true]
  rfl

theorem execProtStatus_eq (x : Nat) (ok : Bool) (s : State) : exec (.protStatus x ok) s =
    .next (if s.smbLive x && ok then s.smbAnswer (le 1 (b2n s.prot.pending.isSome) ++ le 1 s.prot.lastItem ++
      le 2 s.prot.lastLen ++ le 4 s.prot.lastCrc ++ le 4 s.prot.lastNonce) else s) := rfl

theorem stagedBlock_length (o : Nat) : (s.stagedBlock o).length = 32 := by
  simp only [State.stagedBlock, List.length_append, List.length_take, List.length_replicate]
  omega

theorem stagedBlock_getD (o : Nat) {i : Nat} (hi : i < 32) :
    (s.stagedBlock o).getD i 0#8 = ((s.prot.pending.map (·.2)).getD []).getD (32 * o + i) 0#8 := by
  unfold State.stagedBlock
  generalize (s.prot.pending.map (·.2)).getD [] = staged
  have block : ((staged.drop (32 * o)).take 32).getD i 0#8 = staged.getD (32 * o + i) 0#8 := by
    simp [List.getD_eq_getElem?_getD, hi]
  rw [← block]
  generalize (staged.drop (32 * o)).take 32 = bs
  by_cases lt : i < bs.length
  · simp [List.getD_eq_getElem?_getD, List.getElem?_append_left lt]
  · rw [Nat.not_lt] at lt
    simp [List.getD_eq_getElem?_getD, List.getElem?_append_right lt, List.getElem?_replicate, List.getElem?_eq_none lt]
    split <;> rfl

theorem smbReads (s : State) (o : Nat) (up : s.g ≠ .off) :
    let a := s.smbTarget
    (exec (.protStatus a true) s = .next (s.smbAnswer (le 1 (b2n s.prot.pending.isSome) ++ le 1 s.prot.lastItem ++
      le 2 s.prot.lastLen ++ le 4 s.prot.lastCrc ++ le 4 s.prot.lastNonce))) ∧
    (∃ t, exec (.protRead a 1 o true) s = .next t ∧ t = s.smbAnswer t.prot.smbReply ∧ t.prot.smbReply.length = 32 ∧
      ∀ i, i < 32 → t.prot.smbReply.getD i 0#8 = ((s.prot.pending.map (·.2)).getD []).getD (32 * o + i) 0#8) ∧
    exec (.protStatus a false) s = .next s ∧ exec (.protRead a 1 o false) s = .next s ∧
    (s.isMirror = false → a = 0x5A) ∧ (s.isMirror = true → a = 0x5B) ∧
    ∀ x, x ≠ a → exec (.protStatus x true) s = .next s ∧ exec (.protRead x 1 o true) s = .next s := by
  intro a
  have own : s.smbLive a = true := smbLive_own up
  refine ⟨?_, ⟨s.smbAnswer (s.stagedBlock o), ?_, rfl, stagedBlock_length s o, fun i hi => stagedBlock_getD s o hi⟩, ?_, ?_,
    fun lead => ?_, fun mirror => ?_, fun x other => ?_⟩
  · rw [execProtStatus_eq, own]
    rfl
  · rw [execProtRead_eq, own]
    rfl
  · rw [execProtStatus_eq, Bool.and_false]
    rfl
  · rw [execProtRead_eq, Bool.and_false]
    rfl
  · show s.smbTarget = _
    rw [State.smbTarget, lead]
    rfl
  · show s.smbTarget = _
    rw [State.smbTarget, mirror]
    rfl
  · rw [execProtStatus_eq, execProtRead_eq, smbLive_other other]
    exact ⟨rfl, rfl⟩

end Sys2Proof.Machine

end

/-- Settles O29: `State.protStage` by its three cases, and the two block reads. -/
theorem protectionStages : Obligations.ProtectionStages :=
  ⟨Sys2Proof.Machine.protStage_acts, Sys2Proof.Machine.smbReads⟩

/-! ## The ends of a protection sequence (R95, R96, R337) -/

section

namespace Sys2Proof.Machine

variable (s : State)

/-! ### A sequence ends -/

/-- The words of the staging area. -/
def stageFields : List Field := (List.range 64).map MGT_PROT_STAGE.DATA

theorem key_lt_stageFields : ∀ k ∈ stageFields.map Field.key, 0x200 * 64 ≤ k ∧ k < 0x300 * 64 := by
  simp only [stageFields, List.map_map, List.mem_map, List.mem_range, Function.comp, Field.key, MGT_PROT_STAGE.DATA]
  rintro k ⟨i, hi, rfl⟩
  omega

theorem regsMoved_clearFields (l : List Nat) {fs : List Field} (sub : ∀ i ∈ l, MGT_PROT_STAGE.DATA i ∈ fs) :
    ∀ s, RegsMoved fs s (l.foldl (fun s i => s.setReg (MGT_PROT_STAGE.DATA i) 0) s) := by
  induction l with
  | nil => exact .refl fs
  | cons i l ih =>
    exact fun s => ((RegsMoved.refl fs s).setReg (sub i List.mem_cons_self) 0).trans
      (ih (fun j hj => sub j (List.mem_cons_of_mem i hj)) _)

theorem regsMoved_keyForget : RegsMoved stageFields s s.keyForget := by
  unfold State.keyForget
  split
  · exact regsMoved_clearFields _ (fun i hi => List.mem_map_of_mem hi) s
  · exact .refl _ s

/-- A field that is cleared, or was 0 and is not written otherwise, is 0. -/
theorem reg_clearFields {j : Nat} (l : List Nat) :
    ∀ s : State, (j ∈ l ∨ s.reg (MGT_PROT_STAGE.DATA j) = 0) →
      (l.foldl (fun s i => s.setReg (MGT_PROT_STAGE.DATA i) 0) s).reg (MGT_PROT_STAGE.DATA j) = 0 := by
  induction l with
  | nil =>
    intro s h
    exact h.resolve_left (List.not_mem_nil)
  | cons i l ih =>
    intro s h
    rw [List.foldl_cons]
    refine ih _ ?_
    by_cases same : i = j
    · exact .inr (same ▸ reg_setReg_same s _ 0)
    · rw [reg_setReg_ne s 0 (by simp only [Field.key, MGT_PROT_STAGE.DATA]; omega)]
      refine h.imp_left fun mem => ?_
      exact (List.mem_cons.mp mem).resolve_left (fun e => same e.symm)

variable {s} in
theorem reg_keyForget (key : s.prot.lastItem = 3) {j : Nat} (hj : j < 64) :
    s.keyForget.reg (MGT_PROT_STAGE.DATA j) = 0 := by
  rw [State.keyForget, if_pos key]
  exact reg_clearFields _ s (.inl (List.mem_range.mpr hj))

/-- The sequence has ended; the event is still to be posted. -/
def State.protIdle (s : State) (status : Nat) : State :=
  let u := { s.keyForget with prot := { s.prot with pending := none, smbAlert := false } }
  ((u.setReg MGT_PROT_STATUS.STATE 0).setReg MGT_PROT_STATUS.RESULT status).count 0 0x11 1

theorem protEnd_eq (status : Nat) : s.protEnd status = (s.protIdle status).postDev 0x11 status 0
    ((s.protIdle status).prot.lastItem + (s.protIdle status).prot.lastLen * 2 ^ 16)
    ((s.protIdle status).prot.lastCrc + (s.protIdle status).prot.lastNonce * 2 ^ 32) := rfl

theorem protIdle_prot (status : Nat) :
    (s.protIdle status).prot = { s.prot with pending := none, smbAlert := false } := count_prot _ _ _ _

theorem protIdle_reg (status : Nat) {f : Field} (other : f.key ≠ MGT_PROT_STATUS.STATE.key)
    (other' : f.key ≠ MGT_PROT_STATUS.RESULT.key) : (s.protIdle status).reg f = s.keyForget.reg f := by
  rw [State.protIdle, count_reg, reg_setReg_ne _ _ other'.symm, reg_setReg_ne _ _ other.symm]
  rfl

theorem protIdle_status {status : Nat} (small : status < 2 ^ 8) :
    (s.protIdle status).reg MGT_PROT_STATUS.STATE = 0 ∧ (s.protIdle status).reg MGT_PROT_STATUS.RESULT = status := by
  unfold State.protIdle
  rw [count_reg, count_reg]
  refine ⟨?_, ?_⟩
  · rw [reg_setReg_ne _ _ (by decide), reg_setReg_same]
    rfl
  · rw [reg_setReg_same]
    exact Nat.mod_eq_of_lt small

theorem protIdle_rest (status : Nat) : SameMemories s (s.protIdle status) ∧ (s.protIdle status).hif = s.hif ∧
    (s.protIdle status).stripe = s.stripe ∧ (s.protIdle status).tabLive = s.tabLive := by
  have forgotten := (regsMoved_keyForget s).rest
  unfold State.protIdle
  rw [count_rest]
  generalize s.keyForget = k at forgotten ⊢
  rw [forgotten]
  exact ⟨⟨rfl, rfl, rfl⟩, rfl, rfl, rfl⟩

theorem protIdle_devSlot (status : Nat) : (s.protIdle status).devSlot = s.devSlot := by
  obtain ⟨-, hif, -⟩ := protIdle_rest s status
  refine devSlot_of s hif ((protIdle_reg s status (by decide) (by decide)).trans ((regsMoved_keyForget s).regs _ ?_))
  intro mem
  exact absurd (key_lt_stageFields _ mem) (by decide)

/-- What the end of a sequence leaves and shows. -/
structure ProtEnds (status : Nat) (s t : State) : Prop where
  prot : t.prot = { s.prot with pending := none, smbAlert := false }
  forgotten : s.prot.lastItem = 3 → ∀ i, i < 64 → t.reg (MGT_PROT_STAGE.DATA i) = 0
  state : t.reg MGT_PROT_STATUS.STATE = 0
  result : t.reg MGT_PROT_STATUS.RESULT = status
  memories : MemoriesBut s.devSlot s t
  stripe : t.stripe = s.stripe
  tabLive : t.tabLive = s.tabLive

theorem protEnds {status : Nat} (small : status < 2 ^ 8) : ProtEnds status s (s.protEnd status) := by
  rw [protEnd_eq]
  obtain ⟨⟨host, hbm, flash⟩, -, stripe, tabLive⟩ := protIdle_rest s status
  obtain ⟨state, result⟩ := protIdle_status s small
  have slot := protIdle_devSlot s status
  have prot := protIdle_prot s status
  have data (i : Nat) (hi : i < 64) := protIdle_reg s status (f := MGT_PROT_STAGE.DATA i)
    (by simp only [Field.key, MGT_PROT_STAGE.DATA, MGT_PROT_STATUS.STATE]; omega)
    (by simp only [Field.key, MGT_PROT_STAGE.DATA, MGT_PROT_STATUS.RESULT]; omega)
  generalize s.protIdle status = u at *
  generalize u.prot.lastItem + u.prot.lastLen * 2 ^ 16 = d0
  generalize u.prot.lastCrc + u.prot.lastNonce * 2 ^ 32 = d1
  have regs := regsButHif_postDev u [] 0x11 status 0 d0 d1
  have kept : ∀ f : Field, keyBlock f.key ≠ 1 → (u.postDev 0x11 status 0 d0 d1).reg f = u.reg f :=
    fun f other => regs f List.not_mem_nil other
  obtain ⟨hbm', flash', host'⟩ := memoriesBut_postDev u 0x11 status 0 d0 d1
  exact {
    prot := (postDev_prot u _ _ _ _ _).trans prot
    forgotten := fun key i hi => by
      rw [kept, data i hi, reg_keyForget key hi]
      simp only [keyBlock, Field.key, MGT_PROT_STAGE.DATA]
      omega
    state := (kept _ (by decide)).trans state
    result := (kept _ (by decide)).trans result
    memories := ⟨hbm'.trans hbm, flash'.trans flash, fun a h => by rw [host' a (slot ▸ h), host]⟩
    stripe := (postDev_stripe u _ _ _ _ _).trans stripe
    tabLive := (postDev_tabLive u _ _ _ _ _).trans tabLive }

/-! ### The five ends -/

theorem exec_protCancel {s : State} (w : Word) (lands : s.writeLands 0x110) (pending : s.prot.pending.isSome = true) :
    ∃ x, exec (.protCancel w) s = .next ((s.protForm x).protEnd 0x04) := by
  refine ⟨(w &&& ~~~3#32 ||| 2#32).toNat,
    congrArg Host.Outcome.next ((busWrite_of_lands lands rfl (by decide) _).trans ?_)⟩
  exact (landed_protCtrl s _).trans (protCtrlWrite_cancel s (bits_cancel w) pending)

theorem exec_protRefuse {s : State} (up : s.g ≠ .off) (pending : s.prot.pending.isSome = true) :
    exec (.protRefuse s.smbTarget 0 true) s = .next (s.protEnd 0x07) :=
  congrArg Host.Outcome.next (if_pos (by rw [smbLive_own up, State.protPending, pending]; rfl))

theorem exec_protTimeout {s : State} (pending : s.prot.pending.isSome = true) :
    exec .protTimeout s = .next (s.protEnd 0x06) := congrArg Host.Outcome.next (if_pos pending)

theorem exec_protConfirm {s : State} {item : Nat} {bs : List Byte} (pending : s.prot.pending = some (item, bs))
    (up : s.g ≠ .off) (crc nonce : Nat) : exec (.protConfirm s.smbTarget 8 crc nonce true) s =
    .next (if crc = s.prot.lastCrc && nonce = s.prot.lastNonce then (s.protAccept item bs).protEnd 0x00
      else s.protEnd 0x07) := by
  show execProtConfirm s.smbTarget 8 crc nonce true s = _
  unfold execProtConfirm
  rw [pending, smbLive_own up]
  rfl

theorem protForm_devSlot (x : Nat) : (s.protForm x).devSlot = s.devSlot :=
  devSlot_of s rfl ((reg_setReg_ne _ _ (by decide)).trans (reg_setReg_ne _ _ (by decide)))

variable {s} in
theorem ProtEnds.of_protForm {status x : Nat} {t : State} (h : ProtEnds status (s.protForm x) t) : ProtEnds status s t where
  prot := h.prot
  forgotten := h.forgotten
  state := h.state
  result := h.result
  memories := protForm_devSlot s x ▸ h.memories
  stripe := h.stripe
  tabLive := h.tabLive

theorem protEnds_otherwise (s : State) (i : Instr) (status : Nat) (pending : s.prot.pending.isSome = true) (up : s.g ≠ .off)
    (ends : (∃ w, i = .protCancel w ∧ status = 0x04 ∧ s.writeLands 0x110) ∨
      (i = .protRefuse s.smbTarget 0 true ∧ status = 0x07) ∨
      (∃ crc nonce, i = .protConfirm s.smbTarget 8 crc nonce true ∧ status = 0x07 ∧
        ¬(crc = s.prot.lastCrc ∧ nonce = s.prot.lastNonce)) ∨
      (i = .protTimeout ∧ status = 0x06)) :
    ∃ t, exec i s = .next t ∧ ProtEnds status s t := by
  obtain ⟨w, rfl, rfl, lands⟩ | ⟨rfl, rfl⟩ | ⟨crc, nonce, rfl, rfl, wrong⟩ | ⟨rfl, rfl⟩ := ends
  · obtain ⟨x, acts⟩ := exec_protCancel w lands pending
    exact ⟨_, acts, (protEnds (s.protForm x) (by decide)).of_protForm⟩
  · exact ⟨_, exec_protRefuse up pending, protEnds s (by decide)⟩
  · obtain ⟨⟨item, bs⟩, some⟩ := Option.isSome_iff_exists.mp pending
    refine ⟨_, exec_protConfirm some up crc nonce, ?_⟩
    rw [if_neg (by simpa using wrong)]
    exact protEnds s (by decide)
  · exact ⟨_, exec_protTimeout pending, protEnds s (by decide)⟩

/-! ### The item is accepted -/

theorem pageCheck_prot : s.pageCheck.prot = s.prot := by
  unfold State.pageCheck
  split
  · exact postDev_prot s _ _ _ _ _
  · rfl

theorem pageCheck_hbm_flash : s.pageCheck.hbm = s.hbm ∧ s.pageCheck.flash = s.flash := by
  unfold State.pageCheck
  split
  · exact ⟨postDev_hbm s _ _ _ _ _, postDev_flash s _ _ _ _ _⟩
  · exact ⟨rfl, rfl⟩

/-- What an accepted item makes of the protection store. -/
def Prot.itemLive (p : Prot) (item : Nat) (bs : List Byte) : Prot :=
  match item with
  | 1 => { p with windows := windowsOf bs }
  | 2 => { p with flashWe := num bs 0 1 == 1 }
  | 3 => { p with headKey := some bs }
  | 5 => { p with pmuUser := num bs 0 1 == 1 }
  | _ => p

theorem itemLive_spec (item : Nat) (bs : List Byte) : (s.itemLive item bs).prot = s.prot.itemLive item bs ∧
    (s.itemLive item bs).hbm = s.hbm ∧ (s.itemLive item bs).flash = s.flash := by
  unfold State.itemLive
  split
  · exact ⟨pageCheck_prot _, pageCheck_hbm_flash _⟩
  · exact ⟨rfl, rfl, rfl⟩
  · exact ⟨rfl, rfl, rfl⟩
  · exact ⟨rfl, rfl, rfl⟩
  · next h1 h2 h3 h5 => exact ⟨(Prot.itemLive.eq_5 _ _ _ h1 h2 h3 h5).symm, rfl, rfl⟩

/-- The protection store once an item is accepted. -/
def State.protAccepted (s : State) (item : Nat) (bs : List Byte) : Prot :=
  if item = 4 then { s.prot with beamAuth := some ⟨num bs 0 4, none⟩ }
  else if s.stripeActive then { s.prot with waiting := s.prot.waiting ++ [(item, bs)] }
  else s.prot.itemLive item bs

theorem protAccept_spec (item : Nat) (bs : List Byte) : (s.protAccept item bs).prot = s.protAccepted item bs ∧
    (s.protAccept item bs).hbm = s.hbm ∧ (s.protAccept item bs).flash = s.flash := by
  unfold State.protAccept State.protAccepted
  split
  · exact ⟨rfl, rfl, rfl⟩
  · split
    · exact ⟨rfl, rfl, rfl⟩
    · exact itemLive_spec s item bs

theorem protConfirmed (s : State) (item : Nat) (bs : List Byte) (pending : s.prot.pending = some (item, bs)) (up : s.g ≠ .off) :
    ∃ t, exec (.protConfirm s.smbTarget 8 s.prot.lastCrc s.prot.lastNonce true) s = .next t ∧
      t.prot = { s.protAccepted item bs with pending := none, smbAlert := false } ∧
      t.reg MGT_PROT_STATUS.RESULT = 0 ∧ t.hbm = s.hbm ∧ t.flash = s.flash := by
  obtain ⟨prot, hbm, flash⟩ := protAccept_spec s item bs
  have ends := protEnds (s.protAccept item bs) (status := 0x00) (by decide)
  obtain ⟨hbm', flash', -⟩ := ends.memories
  refine ⟨_, exec_protConfirm pending up _ _, ?_⟩
  rw [if_pos (by simp)]
  exact ⟨prot ▸ ends.prot, ends.result, hbm'.trans hbm, flash'.trans flash⟩

theorem protConfirmed_items (s : State) (item : Nat) (bs : List Byte) (pending : s.prot.pending = some (item, bs))
    (up : s.g ≠ .off) :
    ∃ t, exec (.protConfirm s.smbTarget 8 s.prot.lastCrc s.prot.lastNonce true) s = .next t ∧ t.prot.pending = none ∧
      t.prot.smbAlert = false ∧ t.reg MGT_PROT_STATUS.RESULT = 0 ∧ t.hbm = s.hbm ∧ t.flash = s.flash ∧
      (item = 4 → t.prot.beamAuth = some ⟨num bs 0 4, none⟩ ∧ t.prot.windows = s.prot.windows) ∧
      (item = 1 → s.stripeActive = false → t.prot.windows = windowsOf bs ∧ t.prot.headKey = s.prot.headKey) ∧
      (item = 2 → s.stripeActive = false → t.prot.flashWe = (num bs 0 1 == 1)) ∧
      (item = 3 → s.stripeActive = false → t.prot.headKey = some bs ∧ t.prot.windows = s.prot.windows) ∧
      (item = 5 → s.stripeActive = false → t.prot.pmuUser = (num bs 0 1 == 1)) ∧
      (item ≠ 4 → s.stripeActive = true → t.prot.waiting = s.prot.waiting ++ [(item, bs)] ∧
        t.prot.windows = s.prot.windows ∧ t.prot.headKey = s.prot.headKey ∧ t.prot.flashWe = s.prot.flashWe ∧
        t.prot.pmuUser = s.prot.pmuUser) := by
  obtain ⟨t, acts, prot, result, hbm, flash⟩ := protConfirmed s item bs pending up
  have live (idle : s.stripeActive = false) (other : item ≠ 4) : s.protAccepted item bs = s.prot.itemLive item bs := by
    rw [State.protAccepted, if_neg other, idle]
    rfl
  refine ⟨t, acts, by rw [prot], by rw [prot], result, hbm, flash, ?_, ?_, ?_, ?_, ?_, fun other busy => ?_⟩ <;> rw [prot]
  · rintro rfl
    exact ⟨rfl, rfl⟩
  · rintro rfl idle
    rw [live idle (by decide)]
    exact ⟨rfl, rfl⟩
  · rintro rfl idle
    rw [live idle (by decide)]
    rfl
  · rintro rfl idle
    rw [live idle (by decide)]
    exact ⟨rfl, rfl⟩
  · rintro rfl idle
    rw [live idle (by decide)]
    rfl
  · rw [State.protAccepted, if_neg other, if_pos busy]
    exact ⟨rfl, rfl, rfl, rfl, rfl⟩

end Sys2Proof.Machine

end

/-- Settles O30: every end goes through `State.protEnd`, whose effect `ProtEnds` states. -/
theorem protectionEnds : Obligations.ProtectionEnds := by
  refine ⟨fun s i status pending up ends => ?_, Sys2Proof.Machine.protConfirmed_items⟩
  obtain ⟨t, acts, h⟩ := Sys2Proof.Machine.protEnds_otherwise s i status pending up ends
  exact ⟨t, acts, h.prot, h.forgotten, h.state, h.result, h.memories, h.stripe, h.tabLive⟩

/-! ## What a stripe boundary leaves of the rings (R34, R70)

`Serves s t` says what requests, jobs, COMMITs and a whole stripe boundary leave of the rings: the submission rings, the
poll that is owed, the ARM_STRIPE that waits, and the registers of the HIF but for those that an event may change. One
lemma per operation, in the order of the boundary's definition; they compose by `Serves.trans`. -/

section

namespace Sys2Proof.Machine

/-- From `s` to `t` the rings stand as they were. -/
structure Serves (s t : State) : Prop where
  sq : t.hif.sq = s.hif.sq
  pollAgain : t.hif.pollAgain = s.hif.pollAgain
  waiting : t.waiting = s.waiting
  regs : ∀ f : Field, keyBlock f.key = 1 → f.key ∉ eventFields.map Field.key → t.reg f = s.reg f

namespace Serves

variable {s t u : State}

theorem refl (s : State) : Serves s s := ⟨rfl, rfl, rfl, fun _ _ _ => rfl⟩

theorem trans (h : Serves s t) (k : Serves t u) : Serves s u where
  sq := k.sq.trans h.sq
  pollAgain := k.pollAgain.trans h.pollAgain
  waiting := k.waiting.trans h.waiting
  regs f hif other := (k.regs f hif other).trans (h.regs f hif other)

theorem ite {c : Prop} [Decidable c] (h : c → Serves s t) (k : ¬c → Serves s u) : Serves s (if c then t else u) := by
  split
  · next e => exact h e
  · next e => exact k e

theorem foldl {α : Type} {f : State → α → State} (hf : ∀ s a, Serves s (f s a)) (l : List α) :
    ∀ s, Serves s (l.foldl f s) := by
  induction l with
  | nil => exact refl
  | cons a l ih => exact fun s => (hf s a).trans (ih _)

/-- An update of fields that `Serves` does not speak of. -/
theorem update {s : State} {pending g phase quick fence aon live latches answer cc free host hbm flash tabLive tabStaged prot
    cfg commits power chans cdc scans scanWait prs csm pec stripe lastOutcome port shl nlk hmc cal bst pmu} :
    Serves s { s with pending, g, phase, quick, fence, aon, live, latches, answer, cc, free, host, hbm, flash, tabLive,
                      tabStaged, prot, cfg, commits, power, chans, cdc, scans, scanWait, prs, csm, pec, stripe,
                      lastOutcome, port, shl, nlk, hmc, cal, bst, pmu } :=
  ⟨rfl, rfl, rfl, fun _ _ _ => rfl⟩

theorem of_puts (h : Puts s t) : Serves s t :=
  ⟨h.sq, h.pollAgain, h.proj State.waiting, fun f _ other => h.regs f other⟩

end Serves

variable (s : State)

/-! ### Counting, waking, sending, posting -/

/-- A register of another block is written. -/
theorem serves_setReg {f : Field} (other : keyBlock f.key ≠ 1) (v : Nat) : Serves s (s.setReg f v) :=
  ⟨rfl, rfl, rfl, fun _ hif _ => reg_setReg_ne s v fun e => other (e ▸ hif)⟩

theorem serves_addReg {f : Field} (other : keyBlock f.key ≠ 1) (n : Nat) : Serves s (s.addReg f n) :=
  serves_setReg s other _

theorem serves_fresh (w : Nat) : Serves s (s.fresh w).2 := .update
theorem serves_modChan (ch : Nat) (f : Chan → Chan) : Serves s (s.modChan ch f) := .update
theorem serves_dropEntry (q idx : Nat) : Serves s (s.dropEntry q idx) := ⟨rfl, rfl, rfl, fun _ _ _ => rfl⟩
theorem serves_startEntry (q idx : Nat) : Serves s (s.startEntry q idx) := ⟨rfl, rfl, rfl, fun _ _ _ => rfl⟩
theorem serves_setPwr (k : Nat) (p : PwrState) : Serves s (s.setPwr k p) := .update

theorem serves_count (b ev n : Nat) : Serves s (s.count b ev n) := .of_puts (puts_count s b ev n)

theorem serves_wakeBlock (k : Nat) : Serves s (s.wakeBlock k) := by
  unfold State.wakeBlock
  exact .ite (fun _ => (serves_setPwr s k .run).trans (serves_count _ _ _ _))
    (fun _ => .ite (fun _ => serves_setPwr s k .run) (fun _ => .refl s))

theorem serves_wakeBlocks (p : Nat → Bool) : Serves s (s.wakeBlocks p) :=
  .foldl (fun s k => .ite (fun _ => serves_wakeBlock s k) (fun _ => .refl s)) _ s

theorem serves_naluSend (m : NaluMsg) : Serves s (s.naluSend m) := by
  unfold State.naluSend
  exact .ite (fun _ => (Serves.update.trans (serves_count _ _ _ _)).trans (serves_wakeBlock _ _)) (fun _ => .refl s)

theorem serves_lost : Serves s (s.addReg HIF_EVT_LOST.LOST 1) :=
  .of_puts (puts_setReg s List.mem_cons_self _)

theorem serves_postDev (code status info d0 d1 : Nat) : Serves s (s.postDev code status info d0 d1) := by
  unfold State.postDev
  extract_lets ev c
  have counted : Serves s c := serves_count s _ _ _
  split
  · exact .refl s
  · exact .refl s
  · exact .ite (fun _ => counted.trans .update)
      (fun _ => (counted.trans (serves_lost c)).trans (.of_puts (puts_lostToPost _ _)))
  · exact .ite
      (fun _ => .ite (fun _ => counted.trans (serves_naluSend c _)) (fun _ => counted.trans (.of_puts (puts_holdEvent c _ _))))
      (fun _ => counted.trans (.of_puts (puts_putEvent c _ _)))

theorem serves_complete (q idx status info d0 d1 : Nat) : Serves s (s.complete q idx status info d0 d1) := by
  cases held : s.entry? q idx with
  | none => rw [complete_of_not_held held]; exact .refl s
  | some e => exact (serves_dropEntry s q idx).trans (.of_puts (puts_complete s q idx status info d0 d1 held))

/-! ### Tests -/

theorem keyBlock_of_addr {f : Field} (high : 0x20000 ≤ f.addr) : keyBlock f.key ≠ 1 := by
  simp only [keyBlock, Field.key]
  omega

/-- A register of a block behind the HIF is written. -/
theorem serves_setHigh {f : Field} (high : 0x20000 ≤ f.addr) (v : Nat) : Serves s (s.setReg f v) :=
  serves_setReg s (keyBlock_of_addr high) v

/-- The words of an array stand behind its first one. -/
theorem addr_high {a : Nat} (first : 0x20000 ≤ a) (n : Nat) : 0x20000 ≤ a + n := Nat.le_add_right_of_le first

theorem serves_bistResult (k status code kind sig count : Nat) : Serves s (s.bistResult k status code kind sig count) := by
  unfold State.bistResult
  extract_lets s1 s2 s3
  have h1 : Serves s s1 := (serves_setHigh s (addr_high (by decide) _) _).trans
    (serves_setHigh _ (addr_high (by decide) _) _)
  have h2 : Serves s1 s2 := ((serves_setHigh s1 (addr_high (by decide) _) _).trans
    (serves_setHigh _ (addr_high (by decide) _) _)).trans (serves_setHigh _ (addr_high (by decide) _) _)
  have h3 : Serves s s3 := ((h1.trans h2).trans (serves_setHigh _ (addr_high (by decide) _) _)).trans
    (serves_count _ _ _ _)
  exact .ite (fun _ => h3.trans (serves_count _ _ _ _)) (fun _ => h3)

theorem serves_bistNotRun (kind k : Nat) : Serves s (s.bistNotRun kind k) :=
  ((serves_fresh s 64).trans (serves_fresh _ 32)).trans (serves_bistResult _ k 0x0A 0x3C kind _ _)

theorem serves_bistOver (status ms : Nat) : Serves s (s.bistOver status ms) := by
  unfold State.bistOver
  extract_lets _ s1
  have h : Serves s s1 := .update
  have k := h.trans (serves_setReg s1 (f := BST_STATUS.BUSY) (by decide) 0)
  exact (k.trans (serves_setReg _ (f := BST_STATUS.LAST_STATUS) (by decide) status)).trans
    (serves_setReg _ (f := BST_STATUS.LAST_MS) (by decide) _)

theorem serves_bistAbort : Serves s s.bistAbort := by
  unfold State.bistAbort
  split
  · exact .refl s
  · exact ((serves_fresh s 6).trans (serves_bistNotRun _ _ _)).trans (serves_bistOver _ _ _)

theorem serves_bistYield (uses : Nat → Bool) : Serves s (s.bistYield uses) := by
  unfold State.bistYield
  exact .ite (fun _ => serves_bistAbort s) (fun _ => .refl s)

/-! ### Requests that start and stop -/

theorem serves_chanRecord (ch status cause done residue : Nat) : Serves s (s.chanRecord ch status cause done residue) :=
  (((serves_setHigh s (addr_high (by decide) _) _).trans (serves_setHigh _ (addr_high (by decide) _) _)).trans
    (serves_setHigh _ (addr_high (by decide) _) _)).trans (serves_setHigh _ (addr_high (by decide) _) _)

theorem serves_setHeld (ch v : Nat) : Serves s (s.setReg (DMA_CH_STATUS.HELD ch) v) :=
  serves_setHigh s (addr_high (by decide) _) v

theorem serves_setWakeWait (ch v : Nat) : Serves s (s.setReg (DMA_CH_STATUS.WAKE_WAIT ch) v) :=
  serves_setHigh s (addr_high (by decide) _) v

theorem serves_setHalted (ch v : Nat) : Serves s (s.setReg (DMA_CH_STATUS.HALTED ch) v) :=
  serves_setHigh s (addr_high (by decide) _) v

theorem serves_stopRecord (ch status cause : Nat) (r : Request) : Serves s (s.stopRecord ch status cause r) := by
  have h := ((serves_chanRecord s ch status cause r.delivered (r.named - r.delivered)).trans
    (serves_setHeld _ ch 0)).trans (serves_setWakeWait _ ch 0)
  exact Serves.trans (Serves.ite (fun _ => h.trans (serves_setHalted _ ch 1)) (fun _ => h)) (serves_modChan _ _ _)

theorem serves_settle (ch : Nat) (r : Request) : Serves s (s.settle ch r).2 := by
  unfold State.settle
  extract_lets left a n saves
  split
  · exact .refl s
  · exact (serves_fresh s 32).trans (serves_count _ _ _ _)

theorem serves_stopFinish (ch status cause : Nat) (r : Request) (d0 d1 : Nat) :
    Serves s (s.stopFinish ch status cause r d0 d1) :=
  ((serves_stopRecord s ch status cause r).trans (serves_postDev _ _ _ _ _ _)).trans (serves_complete _ _ _ _ _ _ _)

theorem serves_stopChan (ch status cause : Nat) : Serves s (s.stopChan ch status cause) := by
  unfold State.stopChan
  split
  · exact .refl s
  · next r _ => exact (serves_settle s ch r).trans (serves_stopFinish _ _ _ _ _ _ _)

theorem serves_tryEntry {act : State → Entry → State} (ha : ∀ s e, Serves s (act s e)) (e : Entry) :
    Serves s (s.tryEntry act e) := by
  unfold State.tryEntry
  split
  · exact .refl s
  · refine Serves.trans ?_ (serves_complete _ _ _ _ _ _ _)
    split
    · exact serves_chanRecord _ _ _ _ _ _
    · exact .refl s
  · exact (serves_bistYield s _).trans (ha _ e)

theorem serves_pump (ty : Nat) {act : State → Entry → State} (ha : ∀ s e, Serves s (act s e)) :
    Serves s (s.pump ty act) := by
  unfold State.pump
  exact .ite (fun _ => .foldl (fun s e => .ite (fun _ => serves_tryEntry s ha e) (fun _ => .refl s)) _ s)
    (fun _ => .refl s)

theorem serves_reach (ch : Nat) (raw : List Byte) : Serves s (s.reach ch raw) :=
  Serves.trans (Serves.foldl (f := fun (s : State) k => if s.pwr k == .idle then
    { s with power := setAt s.power k .run } else s)
    (fun s _ => .ite (fun _ => .update) (fun _ => .refl s)) (targets raw) s) (serves_setWakeWait _ ch _)

theorem serves_startReq (ch : Nat) (e : Entry) (addr len link : Nat) : Serves s (s.startReq ch e addr len link) := by
  unfold State.startReq
  extract_lets s1 out piece req s2 s3
  have h : Serves s s3 := (serves_reach s ch e.raw).trans
    (((serves_startEntry s1 e.q e.idx).trans (serves_modChan _ ch _)).trans (serves_setHeld _ ch 0))
  exact .ite (fun _ => h.trans (serves_stopChan _ _ _ _)) (fun _ => h)

/-! ### Host jobs and scans that waited -/

theorem serves_takeEngine (k : Nat) (j : CodecJob) : Serves s (s.takeEngine k j) := by
  have h : Serves s (s.setJob k (some j)) := .update
  exact ((h.trans (serves_setHigh _ (addr_high (by decide) _) _)).trans
    (serves_setHigh _ (addr_high (by decide) _) _)).trans (serves_setHigh _ (addr_high (by decide) _) _)

theorem serves_areaRead (c : CodecOp) : Serves s (s.areaRead c) := by
  unfold State.areaRead
  exact .ite (fun _ => serves_count _ _ _ _) (fun _ => .refl s)

theorem serves_codecEntry (e : Entry) : Serves s (s.codecEntry e) := by
  unfold State.codecEntry
  extract_lets c kind
  refine .ite (fun _ => serves_complete _ _ _ _ _ _ _) (fun _ => .ite (fun _ => serves_complete _ _ _ _ _ _ _) (fun _ =>
    .ite (fun _ => (serves_areaRead _ _).trans (serves_complete _ _ _ _ _ _ _)) (fun _ => ?_)))
  split
  · exact (((serves_areaRead s c).trans (serves_modChan _ _ _)).trans (serves_takeEngine _ _ _)).trans
      (serves_startReq _ _ _ _ _ _)
  · exact .refl s

theorem serves_scanRegs (e v n : Nat) : Serves s (s.scanRegs e v n) :=
  (serves_setHigh s (addr_high (by decide) _) _).trans (serves_setHigh _ (addr_high (by decide) _) _)

theorem serves_scanOn (e : Nat) (sc : Scan) : Serves s (s.scanOn e sc) := by
  unfold State.scanOn
  extract_lets piece req s1
  have h : Serves s s1 :=
    Serves.trans (t := { s with scans := setAt s.scans e (some sc) }) .update
      ((serves_startEntry _ sc.q sc.idx).trans (serves_modChan _ _ _))
  exact ((h.trans (serves_setHigh _ (addr_high (by decide) _) _)).trans
    (serves_setHigh _ (addr_high (by decide) _) _)).trans (serves_scanRegs _ _ _ _)

theorem serves_scanEntry (e : Entry) : Serves s (s.scanEntry e) := by
  unfold State.scanEntry
  extract_lets p v
  refine .ite (fun _ => serves_complete _ _ _ _ _ _ _) (fun _ => .ite (fun _ => serves_complete _ _ _ _ _ _ _)
    (fun _ => ?_))
  split
  · exact .refl s
  · exact (serves_reach s _ _).trans (serves_scanOn _ _ _)

theorem serves_scanResume (n : Nat) : ∀ s : State, Serves s (State.scanResume n s) := by
  induction n with
  | zero => exact .refl
  | succ n ih =>
    intro s
    unfold State.scanResume
    split
    · next sc rest k _ _ =>
      extract_lets s1
      have h : Serves s s1 := .update
      split
      · exact h.trans (ih s1)
      · exact ((h.trans (serves_reach s1 _ _)).trans (serves_scanOn _ _ _)).trans (ih _)
    · exact serves_pump s 5 serves_scanEntry
    · exact .refl s

theorem serves_jobsGo : Serves s s.jobsGo := (serves_pump s 4 serves_codecEntry).trans (serves_scanResume _ _)

/-! ### Protected items -/

theorem serves_itemLive (item : Nat) (bs : List Byte) : Serves s (s.itemLive item bs) := by
  unfold State.itemLive State.pageCheck
  split
  · exact Serves.trans .update (.ite (fun _ => serves_postDev _ _ _ _ _ _) (fun _ => .refl _))
  all_goals exact .update

theorem serves_itemsLive : Serves s s.itemsLive :=
  Serves.trans .update (.foldl (fun s (i : Nat × List Byte) => serves_itemLive s i.1 i.2) s.prot.waiting _)

/-! ### The shutter link -/

theorem serves_linkStop (st : LinkState) : Serves s (s.linkStop st) :=
  Serves.trans .update (serves_setReg _ (by decide) 0)

theorem serves_setLanes (f : Nat → LaneTx → LaneTx) : Serves s (s.setLanes f) := .update

theorem serves_startKnock : Serves s s.startKnock := by
  have knocks := ((serves_wakeBlock s 10).trans (serves_linkStop _ .knock)).trans
    (serves_setLanes _ (fun n l => if n < 4 then (((s.wakeBlock 10).linkStop .knock).laneStart .idleSets 0 n l) else l))
  exact (knocks.trans .update).trans ((serves_setReg _ (by decide) 0).trans (serves_setReg _ (by decide) 0))

theorem serves_startLatch : Serves s s.startLatch :=
  Serves.trans .update ((serves_setReg _ (by decide) 0).trans (serves_setReg _ (by decide) 0))

theorem serves_linkBoundary : Serves s s.linkBoundary := by
  unfold State.linkBoundary
  exact .ite (fun _ => serves_startKnock s) (fun _ => .ite (fun _ => serves_startLatch s) (fun _ => .update))

theorem serves_linkEnable (on : Bool) : Serves s (s.linkEnable on) := by
  unfold State.linkEnable
  have enabled := serves_setReg s (f := SHL_CTRL.LINK_EN) (by decide) 1
  have down := (serves_setReg s (f := SHL_CTRL.LINK_EN) (by decide) 0).trans (serves_linkStop _ .down)
  exact .ite (fun _ => .ite (fun _ => enabled) (fun _ => enabled.trans (serves_startKnock _)))
    (fun _ => .ite (fun _ => down.trans .update) (fun _ => down))

theorem serves_linkFollow (fs : List (Nat × Nat)) : Serves s (s.linkFollow fs) := by
  unfold State.linkFollow
  extract_lets s1
  have h : Serves s s1 := by
    dsimp only [s1]
    split
    · exact .ite (fun _ => .refl s) (fun _ => serves_linkEnable s _)
    · exact .refl s
  exact .ite (fun _ => h.trans .update) (fun _ => h)

theorem serves_relatch : Serves s s.relatch := by
  unfold State.relatch
  exact .ite (fun _ => serves_startLatch s) (fun _ => .refl s)

/-! ### Fences, solo operation, rejoin -/

theorem serves_setFence (cause : Nat) (hard : Bool) : Serves s (s.setFence cause hard) := by
  unfold State.setFence
  extract_lets s1 s2
  have h1 : Serves s s1 := (Serves.trans .update (serves_setReg _ (f := NLK_STATE.CAUSE) (by decide) cause)).trans
    (serves_addReg _ (f := NLK_LOSSES.FENCES) (by decide) 1)
  have h2 : Serves s s2 := .ite (fun _ => h1) (fun _ => h1.trans (serves_linkStop _ .down))
  exact (h2.trans (serves_naluSend _ _)).trans (serves_postDev _ _ _ _ _ _)

theorem serves_mirrorApart : Serves s s.mirrorApart := by
  unfold State.mirrorApart
  exact .ite (fun _ => .refl s) (fun _ => (serves_fresh s 8).trans (serves_setFence _ _ _))

theorem serves_naluDown : Serves s s.naluDown := Serves.trans .update (serves_setReg _ (by decide) 0)

theorem serves_naluTrain : Serves s s.naluTrain := (serves_naluDown s).trans .update

theorem serves_unpair : Serves s s.unpair := Serves.trans .update (serves_setReg _ (by decide) _)

theorem serves_soloBoundary : Serves s s.soloBoundary := by
  unfold State.soloBoundary
  extract_lets s1
  have h : Serves s s1 := (serves_naluDown s).trans (serves_unpair _)
  exact .ite (fun _ => .ite (fun _ => h.trans (serves_setFence s1 _ _)) (fun _ => h)) (fun _ => .refl s)

theorem serves_startRejoin : Serves s s.startRejoin := by
  unfold State.startRejoin
  extract_lets _ s1
  have h : Serves s s1 := .update
  exact .ite (fun _ => .ite (fun _ => h.trans (serves_relatch s1)) (fun _ => h.trans (serves_naluTrain s1)))
    (fun _ => .update)

/-! ### COMMITs -/

theorem serves_commitEnds (q idx id status block reason : Nat) :
    Serves s (s.commitEnds q idx id status block reason) := by
  unfold State.commitEnds
  extract_lets s1 s2 release auth
  have h1 : Serves s s1 := (serves_setReg s (f := MGT_CMT_STATUS.LAST_STATUS) (by decide) _).trans
    (serves_setReg _ (f := MGT_CMT_LAST_ID.COMMIT_ID) (by decide) _)
  have h2 : Serves s s2 := .ite (fun _ => h1.trans ((serves_setReg _ (f := MGT_CMT_STATUS.LAST_BLOCK) (by decide) _).trans
    (serves_setReg _ (f := MGT_CMT_STATUS.LAST_REASON) (by decide) _))) (fun _ => h1)
  exact (h2.trans .update).trans (serves_complete _ _ _ _ _ _ _)

theorem serves_setFails (c : PendingCommit) : Serves s (s.setFails c) := by
  unfold State.setFails
  exact .ite (fun _ => serves_mirrorApart s) (fun _ => serves_commitEnds s _ _ _ _ _ _)

theorem serves_factoryCodes : Serves s s.factoryCodes :=
  .foldl (fun s _ => .ite (fun _ => .refl s) (fun _ =>
    (serves_setHigh s (addr_high (by decide) _) _).trans (serves_setHigh _ (addr_high (by decide) _) _))) _ s

theorem serves_trimsActive (st : Store) : Serves s (s.trimsActive st) := by
  have shown := ((serves_setReg s (f := CAL_STATUS.TRIMS_VALID) (by decide) 1).trans
    (serves_setReg _ (f := CAL_STATUS.ACTIVE_SLOT) (by decide) st.slot)).trans
    (serves_setReg _ (f := CAL_TRIM_SEQ.SEQ) (by decide) st.seq)
  have settled := shown.trans ((serves_setReg _ (f := MGT_STATE.UNCAL) (by decide) 0).trans
    (serves_setReg _ (f := CAL_STATUS.STORE_PENDING) (by decide) 0))
  exact settled.trans (serves_postDev _ _ _ _ _ _)

theorem serves_sendTable (id offset : Nat) (bs : List Byte) : Serves s (s.sendTable id offset bs) :=
  .foldl (fun s _ => serves_naluSend s _) _ s

theorem serves_sendTables (t : Tables) (ids : List Nat) : Serves s (s.sendTables t ids) :=
  .foldl (fun s _ => serves_sendTable s _ _ _) _ s

theorem serves_sendAll : Serves s s.sendAll :=
  ((serves_sendTables s _ _).trans (serves_naluSend _ _)).trans (serves_sendTables _ _ _)

theorem serves_fieldsLive (fs : List (Nat × Nat)) : Serves s (s.fieldsLive fs) := by
  refine .foldl (fun s kv => ?_) fs s
  split
  · exact .update
  · exact .refl s

theorem serves_setLiveAll (c : PendingCommit) : Serves s (s.setLiveAll c) := by
  unfold State.setLiveAll
  extract_lets rate spread eq s1 s2 s3
  have h1 : Serves s s1 := (serves_fieldsLive s c.fields).trans .update
  have h2 : Serves s s2 := .ite (fun _ => h1.trans (serves_setReg s1 (by decide) _)) (fun _ => h1)
  have h3 : Serves s s3 := by
    refine Serves.trans (Serves.trans ?_ (serves_linkFollow _ _)) (serves_wakeBlocks _ _)
    exact .ite (fun _ => h2.trans (serves_factoryCodes s2)) (fun _ => h2)
  exact (h3.trans .update).trans (serves_count _ _ _ _)

theorem serves_applyCommit (c : PendingCommit) : Serves s (s.applyCommit c) := by
  unfold State.applyCommit
  split
  · exact .ite (fun _ => serves_linkFollow s _) (fun _ => .ite (fun _ => serves_setFails s c)
      (fun _ => (serves_setLiveAll s c).trans (serves_commitEnds _ _ _ _ _ _ _)))
  · next st _ =>
    extract_lets _ s1 old hadOld s2 s3 s4
    have h1 : Serves s s1 := Serves.trans .update (serves_setReg _ (f := CAL_STATUS.STORE_PENDING) (by decide) 0)
    have h3 : Serves s s3 := (h1.trans .update).trans (serves_setLiveAll s2 c)
    have h4 : Serves s s4 := .ite (fun _ => h3.trans .update) (fun _ => h3)
    exact .ite (fun _ => (h4.trans (serves_trimsActive s4 st)).trans (serves_commitEnds _ _ _ _ _ _ _))
      (fun _ => h1.trans (serves_setFails s1 c))

theorem serves_applyCommits : Serves s s.applyCommits := by
  unfold State.applyCommits
  extract_lets due _ t
  have h : Serves s t := Serves.trans .update (.foldl serves_applyCommit _ _)
  exact .ite (fun _ => h.trans (serves_sendAll t)) (fun _ => h)

/-! ### A whole boundary -/

theorem serves_boundary : Serves s s.boundary :=
  ((((serves_itemsLive s).trans (serves_applyCommits _)).trans (serves_linkBoundary _)).trans
    (serves_soloBoundary _)).trans ((serves_startRejoin _).trans (serves_jobsGo _))

theorem serves_commitWaits (c : PendingCommit) : Serves s (s.commitWaits c) := by
  unfold State.commitWaits
  extract_lets s1 _ s2
  have h1 : Serves s s1 := by
    dsimp only [s1]
    unfold State.sendSet
    exact .ite (fun _ => serves_naluSend s _) (fun _ => .refl s)
  have h2 : Serves s s2 := h1.trans .update
  exact .ite (fun _ => h2.trans (serves_boundary s2)) (fun _ => .ite (fun _ => h2.trans (serves_applyCommits s2)) (fun _ => h2))

theorem serves_commitValid (c : PendingCommit) : Serves s (s.commitValid c) := by
  unfold State.commitValid
  extract_lets s1
  have h : Serves s s1 := by
    refine Serves.trans ?_ (serves_startEntry _ c.q c.idx)
    unfold State.reserveAuth
    exact .ite (fun _ => .update) (fun _ => .refl s)
  exact .ite (fun _ => h.trans .update) (fun _ => h.trans (serves_commitWaits s1 c))

theorem serves_takeCommit (e : Entry) : Serves s (s.takeCommit e) := by
  unfold State.takeCommit
  extract_lets mask id s1 c
  refine .ite (fun _ => serves_commitEnds s _ _ _ _ _ _) (fun _ => ?_)
  split
  · exact serves_commitEnds s _ _ _ _ _ _
  · have h : Serves s s1 := serves_bistYield s _
    split
    · exact h.trans (serves_commitEnds s1 _ _ _ _ _ _)
    · exact h.trans (serves_commitValid s1 c)

end Sys2Proof.Machine

end

/-! ## ARM_STRIPE and ABORT_STRIPE (R77, R79, R80) -/

section

namespace Sys2Proof.Machine

variable {s : State} {q opc : Nat} {e : Entry}

/-! ### An entry that acts is held -/

theorem mem_of_nextEntry (next : s.nextEntry q opc = some e) : e ∈ s.hif.entries := List.mem_of_find?_eq_some next

theorem entry?_isSome_of_mem (mem : e ∈ s.hif.entries) : (s.entry? e.q e.idx).isSome = true :=
  List.find?_isSome.mpr ⟨e, mem, by simp⟩

/-- An entry stays held when it starts. -/
theorem entry?_startEntry (s : State) (q idx q' idx' : Nat) :
    ((s.startEntry q idx).entry? q' idx').isSome = (s.entry? q' idx').isSome := by
  have same (x : Entry) : (if x.q == q && x.idx == idx then { x with started := true } else x).q = x.q ∧
      (if x.q == q && x.idx == idx then { x with started := true } else x).idx = x.idx := by split <;> exact ⟨rfl, rfl⟩
  simp only [State.entry?, State.startEntry, List.find?_map, Option.isSome_map]
  congr 2
  funext x
  simp only [Function.comp, same]

/-! ### ARM_STRIPE -/

theorem armEntry_rejected (none : s.waiting = none) {off : Bool} (e : Entry)
    (refused : e.answer = 0x09 ∨ s.joined = true ∧ off = true) :
    s.armEntry off e = s.complete e.q e.idx 0x09 0 0 0 := by
  rw [State.armEntry, none, if_neg (by decide), if_pos (by simpa using refused)]

theorem armEntry_uncalibrated (none : s.waiting = none) {off : Bool} (e : Entry) (uncal : e.answer = 0x12)
    (lets : s.joined = false ∨ off = false) : s.armEntry off e = s.complete e.q e.idx 0x12 0 0 0 := by
  rw [State.armEntry, none, if_neg (by decide), if_neg, if_pos uncal]
  obtain h | h := lets <;> simp [h, uncal]

theorem armEntry_waits (none : s.waiting = none) {off : Bool} (e : Entry) (ok : e.answer ≠ 0x09) (cal : e.answer ≠ 0x12)
    (lets : s.joined = false ∨ off = false) : s.armEntry off e =
      { s.startEntry e.q e.idx with waiting := some (armOf e.q e.idx e.raw), cal := { s.cal with turn := false } } := by
  rw [State.armEntry, none, if_neg (by decide), if_neg, if_neg cal]
  obtain h | h := lets <;> simp [h, ok]

theorem armStripe_acts (s : State) (q : Nat) (off : Bool) (e : Entry) (acts : s.acts q 0x01 e) (none : s.waiting = none) :
    (e.answer = 0x09 ∨ s.joined = true ∧ off = true →
      exec (.armStripe q off) s = .next (s.complete e.q e.idx 0x09 0 0 0)) ∧
    (e.answer = 0x12 → s.joined = false ∨ off = false →
      exec (.armStripe q off) s = .next (s.complete e.q e.idx 0x12 0 0 0)) ∧
    (e.answer ≠ 0x09 → e.answer ≠ 0x12 → s.joined = false ∨ off = false →
      ∃ t, exec (.armStripe q off) s = .next t ∧ t.waiting = some (armOf e.q e.idx e.raw) ∧ t.stripe = s.stripe ∧ t.g = s.g ∧
        t.regs = s.regs ∧ SameMemories s t ∧ (t.entry? e.q e.idx).isSome = true) := by
  have exec_eq : exec (.armStripe q off) s = .next (s.armEntry off e) :=
    congrArg Host.Outcome.next (onEntry_of_acts acts _)
  refine ⟨fun refused => ?_, fun uncal lets => ?_, fun ok cal lets => ⟨_, exec_eq, ?_⟩⟩
  · rw [exec_eq, armEntry_rejected none e refused]
  · rw [exec_eq, armEntry_uncalibrated none e uncal lets]
  · rw [armEntry_waits none e ok cal lets]
    refine ⟨rfl, rfl, rfl, rfl, ⟨rfl, rfl, rfl⟩, ?_⟩
    exact (entry?_startEntry s e.q e.idx e.q e.idx).trans (entry?_isSome_of_mem (mem_of_nextEntry acts.2.1))

/-! ### A stripe that waits ends unarmed -/

/-- The snapshot that ON_END asks for shows the stripe that never armed, which leaves the stripe held (R418). -/
def State.snapshotWith (s : State) (st : Stripe) : State :=
  if s.reg PMU_SNAP_CFG.ON_END = 1 then
    { ({ s with stripe := s.stripe.or (some st) } : State).snapshot with stripe := s.stripe } else s

theorem calm_snapshotWith (s : State) (st : Stripe) : Calm s (s.snapshotWith st) := by
  have h := calm_snapshot { s with stripe := s.stripe.or (some st) }
  exact .ite (fun _ => ⟨congrArg (fun t : State => { t with stripe := s.stripe }) h.calm, h.cause⟩) (fun _ => .refl s)

theorem keeps_snapshotWith (s : State) (st : Stripe) : Keeps s (s.snapshotWith st) :=
  .ite (fun _ => keeps_snapshot { s with stripe := s.stripe.or (some st) }) (fun _ => .refl s)

/-- The stripe waits no more; its cause is shown. -/
def State.unarmed (s : State) (r : ArmReq) (cause : Nat) : State :=
  let s := { s with waiting := none, shl := { s.shl with freshAsked := false, freshEnded := false }
                    nlk := { s.nlk with leadArmed := false } }.setReg EMS_STATE.CAUSE cause
  if s.stripe.isNone then s.setReg EMS_STRIPE.STRIPE_ID r.id else s

/-- Its buffers and witnesses go, and its outcome is written. -/
def State.unarmedEnds (s : State) (toHost : Bool) (r : ArmReq) (st : Stripe) : State :=
  ((((s.addDiscard r).mirrorDrops r.streamSq).dropWitnesses r.id r.pass).snapshotWith st).writeOutcome toHost st

theorem endUnarmed_eq (s : State) (toHost : Bool) (r : ArmReq) (cause : Nat) : s.endUnarmed toHost r cause =
    ((s.unarmed r cause).unarmedEnds toHost r { Stripe.fresh r with cause, st := .aborted }).setsFollow := rfl

theorem calm_unarmedEnds (s : State) (toHost : Bool) (r : ArmReq) (st : Stripe) :
    Calm s (s.unarmedEnds toHost r st) :=
  ((((calm_addDiscard s r).trans (calm_mirrorDrops _ _)).trans (calm_dropWitnesses _ _ _)).trans
    (calm_snapshotWith _ st)).trans (calm_writeOutcome _ toHost st)

theorem keeps_unarmedEnds (s : State) (toHost : Bool) (r : ArmReq) (st : Stripe) :
    Keeps s (s.unarmedEnds toHost r st) :=
  ((((Keeps.of_same ⟨rfl, rfl, rfl⟩).trans (keeps_mirrorDrops (s.addDiscard r) _)).trans
    (keeps_dropWitnesses _ _ _)).trans (keeps_snapshotWith _ st)).trans (keeps_writeOutcome _ toHost st)

/-- What the end of a stripe that never arms leaves and shows. -/
structure Unarmed (cause : Nat) (s t : State) : Prop where
  waiting : t.waiting = none
  stripe : t.stripe = s.stripe
  g : t.g = s.g
  cause : t.reg EMS_STATE.CAUSE = cause
  hbm : t.hbm = s.hbm

theorem unarmed_unarmed (s : State) (r : ArmReq) {cause : Nat} (small : cause < 256) :
    Unarmed cause s (s.unarmed r cause) := by
  unfold State.unarmed
  extract_lets _ _ s1
  have shown : s1.reg EMS_STATE.CAUSE = cause := (reg_setReg_same _ _ _).trans (Nat.mod_eq_of_lt small)
  split
  · exact ⟨rfl, rfl, rfl, (reg_setReg_ne s1 _ (by decide)).trans shown, rfl⟩
  · exact ⟨rfl, rfl, rfl, shown, rfl⟩

namespace Unarmed

variable {cause : Nat} {t u : State}

theorem calm (h : Unarmed cause s t) (k : Calm t u) (keeps : Keeps t u) : Unarmed cause s u where
  waiting := (congrArg State.waiting k.calm).trans h.waiting
  stripe := k.stripe.trans h.stripe
  g := k.g.trans h.g
  cause := k.cause.trans h.cause
  hbm := keeps.1.trans h.hbm

theorem bounded (h : Unarmed cause s t) (k : Bounded t u) (rings : Serves t u) (keeps : Keeps t u) : Unarmed cause s u where
  waiting := rings.waiting.trans h.waiting
  stripe := k.stripe.trans h.stripe
  g := k.g.trans h.g
  cause := k.cause.trans h.cause
  hbm := keeps.1.trans h.hbm

end Unarmed

theorem unarmed_endUnarmed (s : State) (toHost : Bool) (r : ArmReq) {cause : Nat} (small : cause < 256) :
    Unarmed cause s (s.endUnarmed toHost r cause) := by
  rw [endUnarmed_eq]
  have h := (unarmed_unarmed s r small).calm
    (calm_unarmedEnds _ toHost r { Stripe.fresh r with cause, st := .aborted }) (keeps_unarmedEnds _ _ _ _)
  unfold State.setsFollow
  split
  · exact h.bounded (bounded_applyCommits _) (serves_applyCommits _) (keeps_applyCommits _)
  · exact h

/-! ### ABORT_STRIPE -/

/-- With every earlier ARM_STRIPE of the ring acted on, none is left to act on. -/
theorem armTaken_of_acted {es : List Entry} (acted : es.all (fun x => rawOpc x.raw != 0x01 || x.started) = true)
    (s : State) (off : Bool) : s.armTaken off es = s := by
  have none : es.filter (fun e => rawOpc e.raw == 0x01 && !e.started) = [] := by
    refine List.filter_eq_nil_iff.mpr fun x mem => ?_
    have done := List.all_eq_true.mp acted x mem
    cases h : x.started <;> simp_all
  rw [State.armTaken, none, List.foldl_nil]

/-- No stripe that this ABORT_STRIPE names is in work. -/
theorem abortEntry_eq (s : State) (off : Bool) {e : Entry}
    (acted : (s.entriesBefore e.q e.idx).all (fun x => rawOpc x.raw != 0x01 || x.started) = true) :
    s.abortEntry off e =
      if s.liveStripe.any (fun st => st.req.id == num e.raw 8 4 && !e.before st.req) then
        (s.abortStripe 0x01).complete e.q e.idx 0x00 0 0 0
      else
        match s.waiting.filter (fun r => r.id == num e.raw 8 4 && !e.before r) with
        | some r => (s.endUnarmed true r 0x01).complete e.q e.idx 0x00 0 0 0
        | none => s.complete e.q e.idx 0x09 0 0 0 := by
  unfold State.abortEntry
  rw [armTaken_of_acted acted] <;> rfl

/-- What an ABORT_STRIPE names, or does not. -/
theorem named_eq_not (id id' : Nat) (before : Bool) : (id == id' && !before) = !(id != id' || before) := by
  rw [bne, Bool.not_or, Bool.not_not]

theorem any_named {o : Option Stripe} {id : Nat} {e : Entry} (none : o.all (fun st => st.req.id != id || e.before st.req) = true) :
    o.any (fun st => st.req.id == id && !e.before st.req) = false := by
  cases o with
  | none => rfl
  | some st =>
    have all : (st.req.id != id || e.before st.req) = true := none
    show (st.req.id == id && !e.before st.req) = false
    rw [named_eq_not, all]
    rfl

theorem filter_named {o : Option ArmReq} {id : Nat} {e : Entry} (none : o.all (fun r => r.id != id || e.before r) = true) :
    o.filter (fun r => r.id == id && !e.before r) = .none := by
  cases o with
  | none => rfl
  | some r =>
    have all : (r.id != id || e.before r) = true := none
    exact Option.filter_some_neg (by rw [named_eq_not, all]; decide)

theorem liveStripe_ongoing {st : Stripe} (live : s.liveStripe = some st) : s.stripe = some st ∧ st.ongoing := by
  obtain ⟨held, ongoing⟩ := Option.filter_eq_some_iff.mp live
  exact ⟨held, by simpa using ongoing⟩

/-- A completion leaves what the abort of a stripe has come to. -/
theorem AbortedBy.complete {cause : Nat} {t : State} (h : AbortedBy cause s t) (q idx status info d0 d1 : Nat) :
    AbortedBy cause s (t.complete q idx status info d0 d1) := by
  obtain ⟨g, shown, hbm, st, st', held, stripe, state, reason, hold, req, fired, record⟩ := h
  have calm := calm_complete t q idx status info d0 d1
  exact ⟨calm.g.trans g, calm.cause.trans shown, (complete_hbm t _ _ _ _ _ _).trans hbm, st, st', held,
    calm.stripe.trans stripe, state, reason, hold, req, fired, (complete_lastOutcome t _ _ _ _ _ _).trans record⟩

theorem abortStripe_acts (s : State) (q : Nat) (off : Bool) (e : Entry) (acts : s.acts q 0x02 e)
    (acted : (s.entriesBefore e.q e.idx).all (fun x => rawOpc x.raw != 0x01 || x.started) = true) :
    let id := num e.raw 8 4
    (s.liveStripe.all (fun st => st.req.id != id || e.before st.req) = true →
      s.waiting.all (fun r => r.id != id || e.before r) = true →
      exec (.abortStripe q off) s = .next (s.complete e.q e.idx 0x09 0 0 0)) ∧
    (∀ r, s.liveStripe.all (fun st => st.req.id != id || e.before st.req) = true → s.waiting = some r → r.id = id →
      e.before r = false →
      exec (.abortStripe q off) s = .next ((s.endUnarmed true r 0x01).complete e.q e.idx 0x00 0 0 0) ∧
      ∃ t, exec (.abortStripe q off) s = .next t ∧ t.waiting = none ∧ t.stripe = s.stripe ∧ t.g = s.g ∧
        t.reg EMS_STATE.CAUSE = 1 ∧ t.hbm = s.hbm ∧ t.entry? e.q e.idx = none) ∧
    (∀ st, s.liveStripe = some st → st.req.id = id → e.before st.req = false →
      exec (.abortStripe q off) s = .next ((s.abortStripe 0x01).complete e.q e.idx 0x00 0 0 0) ∧
      ∃ t, exec (.abortStripe q off) s = .next t ∧ t.entry? e.q e.idx = none ∧
        (st.st = .armed ∨ st.st = .waitSos → t.stripe = none ∧ t.g = .ready ∧ t.hbm = s.hbm) ∧
        (st.st = .run ∨ st.st = .tail → AbortedBy 0x01 s t)) := by
  intro id
  have exec_eq : exec (.abortStripe q off) s = .next (s.abortEntry off e) :=
    congrArg Host.Outcome.next (onEntry_of_acts acts _)
  rw [abortEntry_eq s off acted] at exec_eq
  refine ⟨fun other idle => ?_, fun r other waits same behind => ?_, fun st live same behind => ?_⟩
  · rw [exec_eq, any_named other, filter_named idle]
    rfl
  · have named : s.waiting.filter (fun r => r.id == num e.raw 8 4 && !e.before r) = some r := by
      rw [waits]
      exact Option.filter_some_pos (by rw [same, behind]; exact (Bool.and_true _).trans (beq_self_eq_true id))
    rw [any_named other, named] at exec_eq
    have ended := (unarmed_endUnarmed s true r (cause := 0x01) (by decide)).calm
      (calm_complete _ e.q e.idx 0x00 0 0 0) (keeps_complete _ _ _ _ _ _ _)
    exact ⟨exec_eq, _, exec_eq, ended.waiting, ended.stripe, ended.g, ended.cause, ended.hbm, entry?_complete _ _ _ _ _ _ _⟩
  · have named : s.liveStripe.any (fun st => st.req.id == num e.raw 8 4 && !e.before st.req) = true := by
      rw [live]
      show (st.req.id == id && !e.before st.req) = true
      rw [same, behind]
      exact (Bool.and_true _).trans (beq_self_eq_true id)
    rw [named, if_pos rfl] at exec_eq
    obtain ⟨held, ongoing⟩ := liveStripe_ongoing live
    refine ⟨exec_eq, _, exec_eq, entry?_complete _ _ _ _ _ _ _, fun unfired => ?_, fun flashing => ?_⟩
    · have unfired' : st.flashing = false := by obtain h | h := unfired <;> rw [Stripe.flashing, h] <;> rfl
      have bounded := (abortWith_unfired held ongoing unfired' true 0x01).trans
        (calm_complete _ e.q e.idx 0x00 0 0 0).steady.toBounded
      exact ⟨bounded.stripe, bounded.g, (complete_hbm _ _ _ _ _ _ _).trans (keeps_abortWith s true 0x01).1⟩
    · have flashing' : st.flashing = true := by obtain h | h := flashing <;> rw [Stripe.flashing, h] <;> rfl
      exact (abortWith_flashing held flashing' true (by decide)).complete _ _ _ _ _ _

end Sys2Proof.Machine

end

/-- Settles O16: what a validated ARM_STRIPE does, and the three stripes that an ABORT_STRIPE may meet. -/
theorem stripeEntries : Obligations.StripeEntries :=
  ⟨fun _ _ _ _ arm => if_pos arm, Sys2Proof.Machine.armStripe_acts, Sys2Proof.Machine.abortStripe_acts⟩

/-! ## The taking of an entry (R75, R76) and STREAM_BUF (R81, R101)

`State.still` forgets what the taking of an entry other than a COMMIT may change. -/

section

namespace Sys2Proof.Machine

variable (s : State)

/-- The state without what a poll that meets no COMMIT may change. -/
def State.still (s : State) : State :=
  { s with regs := [], free := 0, host := [], hif := .reset, nlk := .reset, bst := .reset, pmu := .reset, power := [] }

theorem still_of_untaken {s t : State} (h : t.untaken = s.untaken) : t.still = s.still := (congrArg State.still h :)

theorem still_of_quiet {s t : State} (h : t.quiet = s.quiet) : t.still = s.still := (congrArg State.still h :)

theorem still_setReg (f : Field) (v : Nat) : (s.setReg f v).still = s.still := rfl

theorem still_count (b ev n : Nat) : (s.count b ev n).still = s.still := still_of_quiet (count_quiet s b ev n)

theorem still_complete (q idx status info d0 d1 : Nat) : (s.complete q idx status info d0 d1).still = s.still :=
  still_of_quiet (complete_quiet s q idx status info d0 d1)

theorem still_addReg (f : Field) (n : Nat) : (s.addReg f n).still = s.still := rfl

theorem still_fresh (w : Nat) : (s.fresh w).2.still = s.still := rfl

theorem still_bistResult (k status code kind sig count : Nat) :
    (s.bistResult k status code kind sig count).still = s.still := by
  unfold State.bistResult
  extract_lets s1 s2 s3
  have h : s3.still = s.still := by
    dsimp only [s3, s2, s1]
    rw [still_count, still_setReg, still_setReg, still_addReg, still_setReg, still_setReg, still_setReg]
  split
  · rw [still_count, h]
  · exact h

theorem still_bistNotRun (kind k : Nat) : (s.bistNotRun kind k).still = s.still := by
  unfold State.bistNotRun
  extract_lets a b
  rw [still_bistResult]
  exact (still_fresh a.2 32).trans (still_fresh s 64)

theorem still_bistOver (status ms : Nat) : (s.bistOver status ms).still = s.still := by
  unfold State.bistOver
  extract_lets _ t
  rw [still_setReg, still_setReg, still_setReg]
  rfl

theorem still_bistAbort : s.bistAbort.still = s.still := by
  unfold State.bistAbort
  split
  · rfl
  · rw [still_bistOver, still_bistNotRun, still_fresh]

theorem still_bistYield (uses : Nat → Bool) : (s.bistYield uses).still = s.still := by
  unfold State.bistYield
  split
  · exact still_bistAbort s
  · rfl

/-! ### Taking -/

/-- The entry that ring `q` has next, as it is held. -/
def State.nextHeld (s : State) (q : Nat) : Entry := s.heldEntry q (s.nextIdx q) (s.nextRaw q)

/-- The next entry of ring `q` is held, and forwarded in a pair; what it does is still to come. -/
def State.takenOf (s : State) (q : Nat) : State :=
  let t := s.modRing q (fun r => { r with cons := (r.cons + 1) % 2 ^ 32 })
  let t := ({ t with hif := { t.hif with entries := t.hif.entries ++ [s.nextHeld q] } }.count 1 0x11 1).count 2 0x10 64
  if t.joined then t.naluSend (.entry q (s.ring q).cons (s.nextRaw q)) else t

theorem takeEntry_eq (q : Nat) : s.takeEntry q =
    if malformed ((s.takenOf q).sqType q) (s.nextRaw q) then (s.takenOf q).malformedEnds (s.nextHeld q)
    else if rawOpc (s.nextRaw q) = 0x60 then (s.takenOf q).takeCommit (s.nextHeld q)
    else (s.takenOf q).bistYield ((s.takenOf q).entryUses (s.nextRaw q)) := rfl

theorem takes_takenOf (q : Nat) : Takes q s (s.takenOf q) := by
  unfold State.takenOf
  extract_lets s1 _ s2
  have taken : Takes q s { s1 with hif := { s1.hif with entries := s1.hif.entries ++ [s.nextHeld q] } } :=
    ⟨rfl, rfl, rfl, modAt_ringEq s q _ fun _ => rfl, fun _ h => h⟩
  have h2 : Takes q s s2 := takes_count (takes_count taken 1 0x11 1) 2 0x10 64
  split
  · exact takes_naluSend h2 _
  · exact h2

theorem takenOf_hif (q : Nat) : (s.takenOf q).hif =
    { s.hif with sq := modAt s.hif.sq q (fun r => { r with cons := (r.cons + 1) % 2 ^ 32 })
                 entries := s.hif.entries ++ [s.nextHeld q] } := by
  unfold State.takenOf
  extract_lets s1 _ s2
  have h : s2.hif = { s1.hif with entries := s1.hif.entries ++ [s.nextHeld q] } := by
    dsimp only [s2]
    rw [count_hif, count_hif]
  split
  · rw [naluSend_hif, h]
    rfl
  · rw [h]
    rfl

variable {s} in
theorem Takes.regs {q : Nat} {u : State} (h : Takes q s u) : u.regs = s.regs := (congrArg State.regs h.rest :)

theorem takenOf_reg (q : Nat) (f : Field) : (s.takenOf q).reg f = s.reg f := by
  rw [State.reg, (takes_takenOf s q).regs]
  rfl

theorem takenOf_sqType (q j : Nat) : (s.takenOf q).sqType j = s.sqType j := takenOf_reg s q _

/-- A COMMIT is malformed on every ring but a CONTROL ring. -/
theorem malformed_commit {ty : Nat} (other : ty ≠ 7) {raw : List Byte} (opc : rawOpc raw = 0x60) :
    malformed ty raw = true := by
  have type : opcType (rawOpc raw) = 7 := by rw [opc]; rfl
  simp [malformed, type, other.symm]

variable {s} in
theorem malformedEnds_complete {e : Entry} (other : s.sqType e.q ≠ 7) :
    s.malformedEnds e = s.complete e.q e.idx 0x08 0 0 0 := if_neg fun h => other h.1

variable {s} in
/-- The taking of an entry of another ring than a CONTROL ring leaves all that `State.still` keeps. -/
theorem still_takeEntry {q : Nat} (other : s.sqType q ≠ 7) : (s.takeEntry q).still = s.still := by
  have taken : (s.takenOf q).still = s.still := still_of_untaken (takes_takenOf s q).rest
  have type : (s.takenOf q).sqType q ≠ 7 := by rw [takenOf_sqType]; exact other
  rw [takeEntry_eq]
  split
  · rw [malformedEnds_complete (e := s.nextHeld q) type, still_complete, taken]
  · next well =>
    split
    · next opc => exact absurd (malformed_commit type opc) well
    · rw [still_bistYield, taken]

/-! ### STREAM_BUF -/

/-- Nothing is left to discard of a ring. -/
theorem discardsDue_nil {q : Nat} (none : (s.ring q).discard = []) : s.discardsDue q = [] := by
  unfold State.discardsDue
  rw [none]
  split <;> rfl

theorem discardBufs_of_none {q : Nat} (none : (s.ring q).discard = []) (n : Nat) : State.discardBufs q n s = s := by
  cases n with
  | zero => rfl
  | succ n => rw [State.discardBufs, discardsDue_nil s none]

theorem still_chans {s t : State} (h : t.still = s.still) : t.chans = s.chans := (congrArg State.chans h :)

theorem nextBuf_fst (q : Nat) : (s.nextBuf q).1 =
    if !s.isMirror && (s.bufTaken q).isNone && s.mayTake q then s.takeEntry q else s := rfl

/-- The search for the next buffer takes at most one entry of the ring. -/
theorem still_nextBuf {q : Nat} (stream : s.sqType q = 2) : (s.nextBuf q).1.still = s.still := by
  rw [nextBuf_fst]
  split
  · exact still_takeEntry (by rw [stream]; decide)
  · rfl

theorem streamBuf_starts {s : State} {q ch : Nat} {hw : Cells} {st : Stripe} {u : State} {e : Entry}
    (served : s.serviced = true) (lead : s.isMirror = false) (stream : s.sqType q = 2) (none : (s.ring q).discard = [])
    (live : s.liveStripe = some st) (chan : s.streamChan q = some ch) (own : st.req.streamSq = q)
    (more : s.cdc.feed.lastTaken = false) (free : (s.chan ch).req = .none) (runs : s.reg (DMA_CH_STATUS.HALTED ch) = 0)
    (next : (s.hostWrites hw).nextBuf q = (u, some e)) : exec (.streamBuf q hw) s = .next (u.bufStart ch st e) := by
  show execStreamBuf q hw s = _
  unfold execStreamBuf
  extract_lets v r w
  have hw : w = v := by
    dsimp only [w]
    rw [show v.isMirror = false from lead, if_neg (by decide)]
    exact discardBufs_of_none v none _
  have goes : (!v.serviced || !(v.isMirror || v.sqType q == 2)) = false := by
    rw [show v.serviced = true from served, show v.isMirror = false from lead, show v.sqType q = 2 from stream]
    rfl
  have due : (v.discardsDue q).isEmpty = true := by rw [discardsDue_nil v none]; rfl
  rw [goes, hw, show v.liveStripe = some st from live, show v.streamChan q = some ch from chan]
  refine congrArg Host.Outcome.next ((if_neg Bool.false_ne_true).trans ((if_pos ?_).trans ?_))
  · rw [show v.cdc.feed.lastTaken = false from more, show (v.chan ch).req = .none from free,
      show v.reg (DMA_CH_STATUS.HALTED ch) = 0 from runs, due, own]
    simp
  · rw [next]

/-- The decompressors' counts are registers. -/
theorem regsMoved_feedBegins (raw : Bool) : (s.feedBegins raw) = { s with regs := (s.feedBegins raw).regs } := by
  have fold (l : List Nat) : ∀ s : State,
      (l.foldl (fun s k => (s.setReg (CDC_ENG_IN.IN k) 0).setReg (CDC_ENG_OUT.OUT k) 0) s) =
        { s with regs := (l.foldl (fun s k => (s.setReg (CDC_ENG_IN.IN k) 0).setReg (CDC_ENG_OUT.OUT k) 0) s).regs } := by
    induction l with
    | nil => exact fun _ => rfl
    | cons k l ih => exact fun s => ih _
  unfold State.feedBegins
  split
  · rfl
  · exact fold _ s

/-- The request that a start puts on a channel. -/
def Entry.request (e : Entry) (addr len link : Nat) : Request :=
  { q := e.q, idx := e.idx, piece := { addr, len, swap := 0, wrap := 0, moved := 0 }, next := link, hops := 0, named := len
    delivered := 0 }

variable {s} in
theorem reach_rest (ch : Nat) (raw : List Byte) :
    s.reach ch raw = { s with regs := (s.reach ch raw).regs, power := (s.reach ch raw).power } := by
  have fold (l : List Nat) : ∀ s : State,
      (l.foldl (fun (s : State) k => if s.pwr k == .idle then { s with power := setAt s.power k .run } else s) s) =
        { s with power := (l.foldl (fun (s : State) k =>
          if s.pwr k == .idle then { s with power := setAt s.power k .run } else s) s).power } := by
    induction l with
    | nil => exact fun _ => rfl
    | cons k l ih =>
      intro s
      rw [List.foldl_cons, ih]
      split <;> rfl
  unfold State.reach
  extract_lets ts nap t
  rw [show t = { s with power := t.power } from fold ts s]
  rfl

/-- With its buffer in a window a request starts, its bytes still to be read. -/
theorem startReq_of_window {s : State} {ch : Nat} {e : Entry} {addr len link : Nat}
    (window : len = 0 ∨ s.inWindow addr len = true) : s.startReq ch e addr len link =
      (((s.reach ch e.raw).startEntry e.q e.idx).modChan ch (fun c => { c with req := some (e.request addr len link) })).setReg
        (DMA_CH_STATUS.HELD ch) 0 := by
  have same : (s.reach ch e.raw).inWindow addr len = s.inWindow addr len := by rw [reach_rest]; rfl
  have inside : (len ≠ 0 && !(s.reach ch e.raw).inWindow addr len) = false := by
    rw [same]
    obtain h | h := window <;> simp [h]
  unfold State.startReq
  extract_lets u out piece req v w
  have out' : out = false := inside
  have whole : req = e.request addr len link := by
    dsimp only [req, piece, Entry.request]
    rw [out']
    rfl
  rw [out', if_neg Bool.false_ne_true]
  dsimp only [w, v]
  rw [whole]

theorem chan_modChan_same {s : State} {ch : Nat} (lt : ch < s.chans.length) (f : Chan → Chan) :
    (s.modChan ch f).chan ch = f (s.chan ch) := getD_modAt_same lt f _

/-- The feed notes the buffer's mode, and whether it is the last one. -/
def State.bufNoted (s : State) (e : Entry) : State :=
  { s.feedBegins (streamOf e.raw).raw with
    cdc := { s.cdc with feed := { s.cdc.feed with raw := some (streamOf e.raw).raw, lastTaken := (streamOf e.raw).last } } }

/-- A buffer with bytes of its own, of the stripe in work and of the stream's mode. -/
structure Own (u : State) (st : Stripe) (b : StreamOp) : Prop where
  id : b.id = st.req.id
  pass : b.pass = st.req.pass
  first : u.cdc.feed.raw = none
  len : b.len ≠ 0

theorem bufStart_eq {u : State} {st : Stripe} {e : Entry} (own : Own u st (streamOf e.raw)) (ch : Nat) :
    u.bufStart ch st e =
      let t := (u.bufNoted e).startReq ch e (streamOf e.raw).addr (streamOf e.raw).len (streamOf e.raw).link
      if (t.chan ch).req.isNone then t.channelLost else t := by
  obtain ⟨id, pass, first, len⟩ := own
  have whole : (decide ((streamOf e.raw).len = 0) && decide ((streamOf e.raw).link = 0)) = false := by simp [len]
  unfold State.bufStart
  dsimp only
  rw [if_neg (by simp [id, pass]), if_neg (by simp [first]), if_neg (by rw [whole]; decide)]
  rfl

theorem bufNoted_rest (s : State) (e : Entry) : s.bufNoted e = { s with
    regs := (s.feedBegins (streamOf e.raw).raw).regs
    cdc := { s.cdc with feed := { s.cdc.feed with raw := some (streamOf e.raw).raw, lastTaken := (streamOf e.raw).last } } } := by
  rw [State.bufNoted, regsMoved_feedBegins]

/-- The channel takes up a buffer of the stripe in work. -/
theorem bufStart_request {u : State} {ch : Nat} {st : Stripe} {e : Entry} (lt : ch < u.chans.length)
    (own : Own u st (streamOf e.raw)) (window : u.inWindow (streamOf e.raw).addr (streamOf e.raw).len = true) :
    (u.bufStart ch st e).cdc.feed.raw = some (streamOf e.raw).raw ∧
    (u.bufStart ch st e).cdc.feed.lastTaken = (streamOf e.raw).last ∧
    ((u.bufStart ch st e).chan ch).req =
      some (e.request (streamOf e.raw).addr (streamOf e.raw).len (streamOf e.raw).link) := by
  have noted := bufNoted_rest u e
  have window' : (u.bufNoted e).inWindow (streamOf e.raw).addr (streamOf e.raw).len = true := by rw [noted]; exact window
  have cdc : (u.bufNoted e).cdc.feed.raw = some (streamOf e.raw).raw ∧
      (u.bufNoted e).cdc.feed.lastTaken = (streamOf e.raw).last := by rw [noted]; exact ⟨rfl, rfl⟩
  have lt' : ch < (u.bufNoted e).chans.length := by rw [noted]; exact lt
  rw [bufStart_eq own, startReq_of_window (.inr window')]
  generalize u.bufNoted e = v at cdc lt' ⊢
  have reached : ((v.reach ch e.raw).startEntry e.q e.idx).cdc = v.cdc := by rw [reach_rest]; rfl
  have lt'' : ch < ((v.reach ch e.raw).startEntry e.q e.idx).chans.length := by rw [reach_rest]; exact lt'
  generalize (v.reach ch e.raw).startEntry e.q e.idx = w at reached lt'' ⊢
  have request (r : Request) : (((w.modChan ch (fun c => { c with req := some r })).setReg (DMA_CH_STATUS.HELD ch) 0).chan
      ch).req = some r := congrArg Chan.req (chan_modChan_same lt'' _)
  dsimp only
  rw [request, if_neg (by simp), request]
  exact ⟨(congrArg (·.feed.raw) reached).trans cdc.1, (congrArg (·.feed.lastTaken) reached).trans cdc.2, rfl⟩

end Sys2Proof.Machine

end

/-- Settles O17: `nextBuf` takes at most one entry, which leaves the channels, and the buffer's request starts. -/
theorem streamBufStarts : Obligations.StreamBufStarts := by
  intro s q ch hw st u e served lead stream none live chan own more free runs lt next
  refine ⟨u.bufStart ch st e,
    Sys2Proof.Machine.streamBuf_starts served lead stream none live chan own more free runs next, ?_⟩
  intro b id pass first len window
  have chans : u.chans = s.chans := by
    have still := Sys2Proof.Machine.still_nextBuf (s.hostWrites hw) (q := q) stream
    rw [next] at still
    exact Sys2Proof.Machine.still_chans (s := s.hostWrites hw) still
  obtain ⟨raw, last, req⟩ :=
    Sys2Proof.Machine.bufStart_request (ch := ch) (chans ▸ lt) ⟨id, pass, first, len⟩ window
  exact ⟨raw, last, _, req, rfl, rfl, rfl, rfl, rfl, rfl, rfl⟩

/-! ## LOAD_TABLE and SAVE_TABLE (R82, R101, R110) -/

section

namespace Sys2Proof.Machine

/-! ### An entry starts -/

/-- What a table entry that may start comes to. -/
structure TableStarts (ch : Nat) (e : Entry) (s t : State) : Prop where
  tabLive : t.tabLive = s.tabLive
  tabStaged : t.tabStaged = s.tabStaged
  stripe : t.stripe = s.stripe
  memories : SameMemories s t
  held : (t.entry? e.q e.idx).isSome = true
  req : (t.chan ch).req = some (e.request (tableOf e.raw).addr (tableOf e.raw).len 0)

theorem startReq_starts {s : State} {ch : Nat} {e : Entry} {addr len link : Nat} (lt : ch < s.chans.length)
    (window : s.inWindow addr len = true) (mem : e ∈ s.hif.entries) :
    let t := s.startReq ch e addr len link
    t.tabLive = s.tabLive ∧ t.tabStaged = s.tabStaged ∧ t.stripe = s.stripe ∧ SameMemories s t ∧
      (t.entry? e.q e.idx).isSome = true ∧ (t.chan ch).req = some (e.request addr len link) := by
  dsimp only
  rw [startReq_of_window (.inr window)]
  have reached := reach_rest (s := s) ch e.raw
  generalize s.reach ch e.raw = u at reached ⊢
  have held : ((u.startEntry e.q e.idx).entry? e.q e.idx).isSome = true := by
    rw [entry?_startEntry, reached]
    exact entry?_isSome_of_mem mem
  have lt' : ch < (u.startEntry e.q e.idx).chans.length := by rw [reached]; exact lt
  refine ⟨by rw [reached]; rfl, by rw [reached]; rfl, by rw [reached]; rfl, by rw [reached]; exact ⟨rfl, rfl, rfl⟩, held, ?_⟩
  exact congrArg Chan.req (chan_modChan_same lt' _)

theorem tableEntry_acts (s : State) (c : Instr) (u : State) (e : Entry) (run : exec c s = .next (u.tableEntry e))
    (mem : e ∈ u.hif.entries) :
    let t0 := tableOf e.raw
    (t0.len = 0 → exec c s = .next (u.complete e.q e.idx 0x01 0 0 0)) ∧
    (t0.len ≠ 0 → u.tableBad t0 = true → exec c s = .next (u.complete e.q e.idx 0x09 0 0 0)) ∧
    (t0.len ≠ 0 → u.tableBad t0 = false → u.freeChan 3 = none → exec c s = .next u) ∧
    (t0.len ≠ 0 → u.tableBad t0 = false → ∀ ch, u.freeChan 3 = some ch → ch < u.chans.length →
      u.inWindow t0.addr t0.len = true → ∃ t, exec c s = .next t ∧ t.tabLive = u.tabLive ∧ t.tabStaged = u.tabStaged ∧
        t.stripe = u.stripe ∧ SameMemories u t ∧ (t.entry? e.q e.idx).isSome = true ∧
        (t.chan ch).req = some (e.request t0.addr t0.len 0)) := by
  intro t0
  unfold State.tableEntry at run
  refine ⟨fun zero => ?_, fun some bad => ?_, fun some ok none => ?_, fun some ok ch free lt window => ?_⟩
  · rw [run, if_pos zero]
  · rw [run, if_neg some, if_pos bad]
  · rw [run, if_neg some, if_neg (by rw [show u.tableBad (tableOf e.raw) = false from ok]; decide), none]
  · refine ⟨_, run, ?_⟩
    rw [if_neg some, if_neg (by rw [show u.tableBad (tableOf e.raw) = false from ok]; decide), free]
    exact startReq_starts lt window mem

theorem exec_table {s : State} {q : Nat} {e : Entry} {hw : Cells} {load : Bool}
    (acts : if load then (s.hostWrites hw).acts q 0x20 e else hw = [] ∧ s.acts q 0x21 e) :
    exec (if load then .loadTable q hw else .saveTable q) s = .next ((s.hostWrites hw).tableEntry e) ∧
      e ∈ (s.hostWrites hw).hif.entries := by
  cases load with
  | true => exact ⟨congrArg Host.Outcome.next (onEntry_of_acts acts _), mem_of_nextEntry acts.2.1⟩
  | false =>
    obtain ⟨rfl, acts⟩ := acts
    exact ⟨congrArg Host.Outcome.next (onEntry_of_acts acts _), mem_of_nextEntry acts.2.1⟩

/-! ### A request ends -/

/-- A completed entry is dropped, and no other. -/
theorem complete_entries (s : State) (q idx status info d0 d1 : Nat) :
    (s.complete q idx status info d0 d1).hif.entries = (s.dropEntry q idx).hif.entries := by
  cases held : s.entry? q idx with
  | none =>
    rw [complete_of_not_held held]
    refine (List.filter_eq_self.mpr fun e mem => ?_).symm
    have other := List.find?_eq_none.mp held e mem
    simpa [imp_iff_not_or] using other
  | some e => exact (puts_complete s q idx status info d0 d1 held).entries

/-- What the end of a request leaves and shows. -/
structure ReqEnds (ch status : Nat) (r : Request) (s t : State) : Prop where
  tabLive : t.tabLive = s.tabLive
  tabStaged : t.tabStaged = s.tabStaged
  req : (t.chan ch).req = none
  entries : t.hif.entries = (s.dropEntry r.q r.idx).hif.entries
  status : t.reg (DMA_CH_STATUS.LAST_STATUS ch) = status
  memories : MemoriesBut (s.cplSlot r.q) s t

/-- The registers show how a request ended. -/
def State.reqShown (s : State) (ch status : Nat) (r : Request) : State :=
  ((s.chanRecord ch status 0 r.delivered (r.named - r.delivered)).setReg (DMA_CH_STATUS.HELD ch) 0).setReg
    (DMA_CH_STATUS.WAKE_WAIT ch) 0

/-- The channel is free; the entry is still to complete. -/
def State.reqRecorded (s : State) (ch status : Nat) (r : Request) : State :=
  (s.reqShown ch status r).modChan ch (fun c => { c with req := none })

theorem endReq_eq {s : State} {ch : Nat} {r : Request} (held : (s.chan ch).req = some r) (status info d0 d1 : Nat) :
    s.endReq ch status info d0 d1 = (s.reqRecorded ch status r).complete r.q r.idx status info d0 d1 := by
  rw [State.endReq, held]
  rfl

/-- The fields that show how a request of channel `ch` ended. -/
def reqFields (ch : Nat) : List Field :=
  [DMA_CH_STATUS.LAST_STATUS ch, DMA_CH_STATUS.CAUSE ch, DMA_CH_DONE.DONE ch, DMA_CH_RESIDUE.RESIDUE ch,
    DMA_CH_STATUS.HELD ch, DMA_CH_STATUS.WAKE_WAIT ch]

theorem regsMoved_reqShown (s : State) (ch status : Nat) (r : Request) :
    RegsMoved (reqFields ch) s (s.reqShown ch status r) := by
  unfold State.reqShown State.chanRecord
  have mem (f : Field) (h : f ∈ reqFields ch) (t : State) (v : Nat) (m : RegsMoved (reqFields ch) s t) :
      RegsMoved (reqFields ch) s (t.setReg f v) := m.setReg h v
  exact mem _ (by simp [reqFields]) _ _ (mem _ (by simp [reqFields]) _ _ (mem _ (by simp [reqFields]) _ _
    (mem _ (by simp [reqFields]) _ _ (mem _ (by simp [reqFields]) _ _ (mem _ (by simp [reqFields]) _ _ (.refl _ s))))))

theorem reqShown_status (s : State) (ch : Nat) {status : Nat} (small : status < 256) (r : Request) :
    (s.reqShown ch status r).reg (DMA_CH_STATUS.LAST_STATUS ch) = status := by
  have key (f : Field) (other : f.key ≠ (DMA_CH_STATUS.LAST_STATUS ch).key) (t : State) (v : Nat) :
      (t.setReg f v).reg (DMA_CH_STATUS.LAST_STATUS ch) = t.reg (DMA_CH_STATUS.LAST_STATUS ch) := reg_setReg_ne t v other
  unfold State.reqShown State.chanRecord
  dsimp only
  rw [key, key, key, key, key, reg_setReg_same]
  · exact Nat.mod_eq_of_lt small
  all_goals
    simp only [Field.key, DMA_CH_STATUS.LAST_STATUS, DMA_CH_STATUS.CAUSE, DMA_CH_DONE.DONE, DMA_CH_RESIDUE.RESIDUE,
      DMA_CH_STATUS.HELD, DMA_CH_STATUS.WAKE_WAIT]
    omega

theorem reqRecorded_rest (s : State) (ch status : Nat) (r : Request) : s.reqRecorded ch status r = { s with
    regs := (s.reqShown ch status r).regs, chans := modAt s.chans ch (fun c => { c with req := none }) } := by
  unfold State.reqRecorded
  rw [(regsMoved_reqShown s ch status r).rest]
  rfl

theorem reqEnds {s : State} {ch : Nat} {r : Request} (lt : ch < s.chans.length) (held : (s.chan ch).req = some r)
    {status : Nat} (small : status < 256) (info d0 d1 : Nat) :
    ReqEnds ch status r s (s.endReq ch status info d0 d1) := by
  rw [endReq_eq held]
  have recorded : (s.reqRecorded ch status r).reg (DMA_CH_STATUS.LAST_STATUS ch) = status := reqShown_status s ch small r
  have rest := reqRecorded_rest s ch status r
  generalize s.reqRecorded ch status r = u at recorded rest ⊢
  generalize (s.reqShown ch status r).regs = regs at rest
  have slot : u.cplSlot r.q = s.cplSlot r.q := by rw [rest]; rfl
  have done := memoriesBut_complete u r.q r.idx status info d0 d1
  have chan : (u.complete r.q r.idx status info d0 d1).chan ch = { s.chan ch with req := none } := by
    rw [State.chan, complete_chans, rest]
    exact getD_modAt_same lt _ _
  exact {
    tabLive := (complete_tabLive u _ _ _ _ _ _).trans (by rw [rest])
    tabStaged := (complete_tabStaged u _ _ _ _ _ _).trans (by rw [rest])
    req := by rw [chan]
    entries := (complete_entries u _ _ _ _ _ _).trans (by rw [rest]; rfl)
    status := (regsButHif_complete u [] _ _ _ _ _ _ _ List.not_mem_nil (keyBlock_of_addr (addr_high (by decide) _))).trans
      recorded
    memories := by
      rw [slot, rest] at done
      rw [rest]
      exact done }

/-- With no entry left there is nothing to try again. -/
theorem pump_of_no_entries {s : State} (none : s.hif.entries = []) (ty : Nat) (act : State → Entry → State) :
    s.pump ty act = s := by
  unfold State.pump
  rw [none]
  split <;> rfl

/-! ### A transfer completes -/

/-- The request of a TABLE channel, of the one entry that is held, whose bytes have gone over or may do so. -/
structure TableRuns (s : State) (ch : Nat) (r : Request) (e : Entry) : Prop where
  served : s.serviced = true
  table : dmaClass ch = 2
  lt : ch < s.chans.length
  req : (s.chan ch).req = some r
  awake : s.reg (DMA_CH_STATUS.WAKE_WAIT ch) = 0
  held : s.entry? r.q r.idx = some e
  only : s.hif.entries = [e]

namespace TableRuns

variable {s : State} {ch : Nat} {r : Request} {e : Entry}

/-- The one entry is the request's. -/
theorem dropped (h : TableRuns s ch r e) : (s.dropEntry r.q r.idx).hif.entries = [] := by
  have own : (e.q == r.q && e.idx == r.idx) = true := List.find?_some (p := fun e : Entry => e.q == r.q && e.idx == r.idx) h.held
  show s.hif.entries.filter _ = []
  rw [h.only, List.filter_cons_of_neg (by simpa using own), List.filter_nil]

/-- With its one entry gone the chip has nothing to try again. -/
theorem ends (h : TableRuns s ch r e) {t : State}
    (acts : (if rawOpc e.raw = 0x20 then s.loadArrives ch r (tableOf e.raw) else s.saveRuns ch r (tableOf e.raw)) = t)
    (none : t.hif.entries = []) : exec (.transferComplete ch) s = .next t := by
  show execTransferComplete ch s = _
  unfold execTransferComplete
  have run : s.tableTransfer ch = t := by
    unfold State.tableTransfer
    rw [h.req]
    dsimp only
    rw [if_neg (by rw [h.awake]; decide), h.held]
    dsimp only
    rw [acts, pump_of_no_entries none]
  rw [h.served, h.table]
  exact congrArg Host.Outcome.next run

/-- A transfer leaves the entries of the HIF. -/
theorem reqEnds (h : TableRuns s ch r e) {w : State} {r' : Request} (hif : w.hif = s.hif) (lt : ch < w.chans.length)
    (req : (w.chan ch).req = some r') (q : r'.q = r.q) (idx : r'.idx = r.idx) {status : Nat} (small : status < 256)
    (info d0 d1 : Nat) : ReqEnds ch status r' w (w.endReq ch status info d0 d1) ∧
      (w.endReq ch status info d0 d1).hif.entries = [] := by
  have ended := Machine.reqEnds lt req small info d0 d1
  refine ⟨ended, ended.entries.trans ?_⟩
  have same : (w.dropEntry r'.q r'.idx).hif.entries = (s.dropEntry r.q r.idx).hif.entries := by
    rw [q, idx, State.dropEntry, hif]
    rfl
  rw [same, h.dropped]

end TableRuns

/-- The request once all its bytes have moved. -/
def Request.whole (r : Request) (len : Nat) : Request :=
  { r with piece := { r.piece with moved := len }, delivered := len }

/-- The bytes of a load have moved. -/
def State.loaded (s : State) (ch : Nat) (r : Request) (t : TableOp) : State :=
  (s.modChan ch (fun c => { c with req := some (r.whole t.len) })).count 2 0x10 t.len

theorem loaded_req {s : State} {ch : Nat} (lt : ch < s.chans.length) (r : Request) (t : TableOp) :
    ((s.loaded ch r t).chan ch).req = some (r.whole t.len) := by
  rw [State.chan, State.loaded, count_chans]
  exact congrArg Chan.req (chan_modChan_same lt _)

theorem loaded_lt {s : State} {ch : Nat} (lt : ch < s.chans.length) (r : Request) (t : TableOp) :
    ch < (s.loaded ch r t).chans.length := by
  rw [State.loaded, count_chans]
  simpa [State.modChan, modAt] using lt

/-- The bytes of a load on a chip without a partner: the staged copy takes them, or their CRC is wrong. -/
theorem loadArrives_alone {s : State} {ch : Nat} {r : Request} {t : TableOp} (own : t.ofMirror = false)
    (solo : s.joined = false) (moves : r.piece.moved ≠ t.len) :
    let bs := Memory.bytes s.host t.addr t.len
    let w := s.loaded ch r t
    (crc32c 0 bs = t.check → s.loadArrives ch r t =
      { w with tabStaged := w.tabStaged.write t.table t.offset bs }.endReq ch 0x00 0 t.check 0) ∧
    (crc32c 0 bs ≠ t.check → s.loadArrives ch r t = w.endReq ch 0x07 0 (crc32c 0 bs) 0) := by
  intro bs w
  have arrives : s.loadArrives ch r t = if crc32c 0 bs ≠ t.check then w.endReq ch 0x07 0 (crc32c 0 bs) 0
      else { w with tabStaged := w.tabStaged.write t.table t.offset bs }.endReq ch 0x00 0 (crc32c 0 bs) 0 := by
    unfold State.loadArrives
    dsimp only
    have joined : w.joined = false := by
      dsimp only [w, State.loaded]
      rw [count_rest]
      exact solo
    rw [own, Bool.false_and, if_neg Bool.false_ne_true, if_neg moves]
    refine ite_congr rfl (fun _ => rfl) (fun _ => ?_)
    rw [if_neg Bool.false_ne_true]
    refine if_pos ?_
    show (!w.joined || _) = true
    rw [joined]
    rfl
  rw [arrives]
  refine ⟨fun right => ?_, fun wrong => if_pos wrong⟩
  rw [if_neg (not_not.mpr right), right]

theorem tableBytes_length (t : Tables) (id o n : Nat) : (t.bytes id o n).length = n := by
  simp [Tables.bytes, Sparse.getList]

/-- The bytes of a save stand in host memory. -/
def State.saved (s : State) (ch : Nat) (r : Request) (t : TableOp) : State :=
  (({ s with host := Memory.write s.host t.addr (s.tabLive.bytes t.table t.offset t.len) }.count 2 0x11 t.len).saveOver
    r.q r.idx).modChan ch (fun c => { c with req := some (r.whole t.len) })

theorem saveRuns_own {s : State} {ch : Nat} {r : Request} {t : TableOp} (own : t.ofMirror = false) :
    s.saveRuns ch r t =
      (s.saved ch r t).endReq ch 0x00 0 (crc32c 0 (s.tabLive.bytes t.table t.offset t.len)) 0 := by
  unfold State.saveRuns
  dsimp only
  rw [own, Bool.false_and, if_neg Bool.false_ne_true, if_neg Bool.false_ne_true, if_neg]
  · rfl
  · rw [tableBytes_length]
    exact Nat.lt_irrefl _

theorem saved_rest (s : State) (ch : Nat) (r : Request) (t : TableOp) : s.saved ch r t = { s with
    host := Memory.write s.host t.addr (s.tabLive.bytes t.table t.offset t.len)
    nlk := (s.saved ch r t).nlk, pmu := (s.saved ch r t).pmu
    chans := modAt s.chans ch (fun c => { c with req := some (r.whole t.len) }) } := by
  unfold State.saved
  rw [count_rest]
  rfl

namespace TableRuns

variable {s : State} {ch : Nat} {r : Request} {e : Entry}

theorem load (h : TableRuns s ch r e) (own : (tableOf e.raw).ofMirror = false) (opc : rawOpc e.raw = 0x20)
    (solo : s.joined = false) (moves : r.piece.moved ≠ (tableOf e.raw).len) :
    let t0 := tableOf e.raw
    let bs := Memory.bytes s.host t0.addr t0.len
    let w := s.loaded ch r t0
    ∃ t, exec (.transferComplete ch) s = .next t ∧ t.tabLive = s.tabLive ∧ (t.chan ch).req = none ∧ t.hif.entries = [] ∧
      t.hbm = s.hbm ∧
      (crc32c 0 bs = t0.check → t.tabStaged = s.tabStaged.write t0.table t0.offset bs ∧
        t.reg (DMA_CH_STATUS.LAST_STATUS ch) = 0x00 ∧
        t = { w with tabStaged := w.tabStaged.write t0.table t0.offset bs }.endReq ch 0x00 0 t0.check 0) ∧
      (crc32c 0 bs ≠ t0.check → t.tabStaged = s.tabStaged ∧ t.reg (DMA_CH_STATUS.LAST_STATUS ch) = 0x07 ∧
        t = w.endReq ch 0x07 0 (crc32c 0 bs) 0) := by
  intro t0 bs w
  obtain ⟨right, wrong⟩ := loadArrives_alone (ch := ch) own solo moves
  have req : (w.chan ch).req = some (r.whole t0.len) := loaded_req h.lt r t0
  have lt : ch < w.chans.length := loaded_lt h.lt r t0
  have rest : w.hif = s.hif ∧ w.tabLive = s.tabLive ∧ w.tabStaged = s.tabStaged ∧ w.hbm = s.hbm := by
    dsimp only [w, State.loaded]
    rw [count_rest]
    exact ⟨rfl, rfl, rfl, rfl⟩
  obtain ⟨hif, tabLive, tabStaged, hbm⟩ := rest
  by_cases check : crc32c 0 bs = t0.check
  · obtain ⟨ended, none⟩ := h.reqEnds (w := { w with tabStaged := w.tabStaged.write t0.table t0.offset bs }) hif lt req rfl
      rfl (status := 0x00) (by decide) 0 t0.check 0
    refine ⟨_, h.ends ((if_pos opc).trans (right check)) none, ended.tabLive.trans tabLive, ended.req, none,
      ended.memories.1.trans hbm, fun _ => ⟨ended.tabStaged.trans ?_, ended.status, rfl⟩, fun other => absurd check other⟩
    rw [tabStaged]
  · obtain ⟨ended, none⟩ := h.reqEnds hif lt req rfl rfl (status := 0x07) (by decide) 0 (crc32c 0 bs) 0
    exact ⟨_, h.ends ((if_pos opc).trans (wrong check)) none, ended.tabLive.trans tabLive, ended.req, none,
      ended.memories.1.trans hbm, fun same => absurd same check,
      fun _ => ⟨ended.tabStaged.trans tabStaged, ended.status, rfl⟩⟩

/-- A load whose bytes have moved, and of which nothing is on its way to the partner, ends. -/
theorem loadEnds (h : TableRuns s ch r e) (own : (tableOf e.raw).ofMirror = false) (opc : rawOpc e.raw = 0x20)
    (moved : r.piece.moved = (tableOf e.raw).len) (sent : s.sending (tableOf e.raw).id = false) :
    exec (.transferComplete ch) s = .next (s.endReq ch 0x00 0 (tableOf e.raw).check 0) := by
  have arrives : s.loadArrives ch r (tableOf e.raw) = s.endReq ch 0x00 0 (tableOf e.raw).check 0 := by
    unfold State.loadArrives
    dsimp only
    rw [own, Bool.false_and, if_neg Bool.false_ne_true, if_pos moved, if_neg (by rw [sent]; decide)]
  exact h.ends ((if_pos opc).trans arrives) (h.reqEnds rfl h.lt h.req rfl rfl (by decide) 0 _ 0).2

theorem save (h : TableRuns s ch r e) (own : (tableOf e.raw).ofMirror = false) (opc : rawOpc e.raw = 0x21) :
    let t0 := tableOf e.raw
    let bs := s.tabLive.bytes t0.table t0.offset t0.len
    let w := s.saved ch r t0
    ∃ t, exec (.transferComplete ch) s = .next t ∧ t = w.endReq ch 0x00 0 (crc32c 0 bs) 0 ∧ t.tabLive = s.tabLive ∧
      t.tabStaged = s.tabStaged ∧ (t.chan ch).req = none ∧ t.hif.entries = [] ∧ t.hbm = s.hbm ∧
      t.reg (DMA_CH_STATUS.LAST_STATUS ch) = 0x00 ∧
      (∀ i, i < t0.len → (t0.addr + i < s.cplSlot r.q ∨ s.cplSlot r.q + 32 ≤ t0.addr + i) →
        Memory.byte t.host (t0.addr + i) = bs.getD i 0#8) ∧
      ∀ a, (a < t0.addr ∨ t0.addr + t0.len ≤ a) → (a < s.cplSlot r.q ∨ s.cplSlot r.q + 32 ≤ a) →
        Memory.byte t.host a = Memory.byte s.host a := by
  intro t0 bs w
  have size : bs.length = t0.len := tableBytes_length _ _ _ _
  have rest : w = _ := saved_rest s ch r t0
  generalize w.nlk = nlk at rest
  generalize w.pmu = pmu at rest
  have hif : w.hif = s.hif := by rw [rest]
  have slot : w.cplSlot r.q = s.cplSlot r.q := by rw [rest]; rfl
  have lt : ch < w.chans.length := by rw [rest]; simpa [modAt] using h.lt
  have req : (w.chan ch).req = some (r.whole t0.len) := by
    rw [rest]
    exact congrArg Chan.req (getD_modAt_same h.lt _ _)
  have host : w.host = Memory.write s.host t0.addr bs := by rw [rest]
  obtain ⟨ended, none⟩ := h.reqEnds hif lt req rfl rfl (status := 0x00) (by decide) 0 (crc32c 0 bs) 0
  obtain ⟨hbm, -, outside⟩ := ended.memories
  have outside' (a : Nat) (other : a < s.cplSlot r.q ∨ s.cplSlot r.q + 32 ≤ a) := outside a (slot.symm ▸ other)
  refine ⟨_, h.ends ((if_neg (by rw [opc]; decide)).trans (saveRuns_own own)) none, rfl, ended.tabLive.trans (by rw [rest]),
    ended.tabStaged.trans (by rw [rest]), ended.req, none, hbm.trans (by rw [rest]), ended.status,
    fun i hi other => ?_, fun a away other => ?_⟩
  · rw [outside' _ other, host, Memory.byte_write_inside _ _ _ _ (size.symm ▸ hi)]
    simp [size, hi]
  · rw [outside' _ other, host, Memory.byte_write_outside _ _ _ _ (size.symm ▸ away)]

end TableRuns

end Sys2Proof.Machine

end

/-- Settles O18: `State.tableEntry` by its four cases, and the end of a request on a TABLE channel (`TableRuns`). -/
theorem tableTransfers : Obligations.TableTransfers := by
  refine ⟨fun s q e hw load acts => ?_, fun s ch r e served table lt req awake held only => ?_⟩
  · obtain ⟨run, mem⟩ := Sys2Proof.Machine.exec_table acts
    exact Sys2Proof.Machine.tableEntry_acts s _ (s.hostWrites hw) e run mem
  · have runs : Sys2Proof.Machine.TableRuns s ch r e := ⟨served, table, lt, req, awake, held, only⟩
    exact fun own => ⟨runs.load own, runs.loadEnds own, runs.save own⟩

/-! ## WITNESS entries and the writing of a witness (R85, R184, R235) -/

section

namespace Sys2Proof.Machine

/-! ### An entry is taken -/

/-- A witness that waits for its pane. -/
def WitnessOp.waits (w : WitnessOp) (e : Entry) : WitnessReq := ⟨e.q, e.idx, w.id, w.pass, w.paneX, w.band, none⟩

/-- The answer that a WITNESS taken completes with at once; `none` where it is held. -/
def State.witnessAnswer (s : State) (w : WitnessOp) : Option Nat :=
  match s.namedStripe w.id w.pass with
  | none => some 0x09
  | some r =>
    if bandsOf r.rows ≤ w.band || 15 < w.paneX || w.dstLen < 327784 then some 0x09
    else if 16 ≤ s.witnessHeld then some 0x11
    else if s.stripe.any (fun st => st.req == r) && s.paneEntered w.band w.paneX then some 0x0A
    else if s.stripe.any (fun st => st.req == r) && s.liveStripe.isNone then some 0x04
    else none

/-- A WITNESS taken completes at once, or starts and waits. -/
def State.witnessAnswered (s : State) (e : Entry) (answer : Option Nat) : State :=
  match answer with
  | some status => s.complete e.q e.idx status 0 0 0
  | none => { s.startEntry e.q e.idx with pec :=
      { s.pec with witnesses := s.pec.witnesses ++ [(witnessOf e.raw).waits e] } }

theorem witnessEntry_eq (s : State) (e : Entry) :
    s.witnessEntry e = s.witnessAnswered e (s.witnessAnswer (witnessOf e.raw)) := by
  unfold State.witnessEntry State.witnessAnswer
  dsimp only
  cases s.namedStripe (witnessOf e.raw).id (witnessOf e.raw).pass with
  | none => rfl
  | some r =>
    dsimp only
    rw [apply_ite (s.witnessAnswered e), apply_ite (s.witnessAnswered e), apply_ite (s.witnessAnswered e),
      apply_ite (s.witnessAnswered e)]
    rfl

theorem witnessAnswered_keeps (s : State) (e : Entry) (answer : Option Nat) :
    (s.witnessAnswered e answer).hbm = s.hbm ∧ (s.witnessAnswered e answer).stripe = s.stripe ∧
      (s.witnessAnswered e answer).tabLive = s.tabLive := by
  cases answer with
  | none => exact ⟨rfl, rfl, rfl⟩
  | some status => exact ⟨complete_hbm s _ _ _ _ _ _, complete_stripe s _ _ _ _ _ _, complete_tabLive s _ _ _ _ _ _⟩

theorem witnessAnswer_rejected {s : State} {w : WitnessOp} (bad : s.namedStripe w.id w.pass = none ∨
    ∃ r, s.namedStripe w.id w.pass = some r ∧ (bandsOf r.rows ≤ w.band ∨ 15 < w.paneX ∨ w.dstLen < 327784)) :
    s.witnessAnswer w = some 0x09 := by
  unfold State.witnessAnswer
  obtain none | ⟨r, some, out⟩ := bad
  · rw [none]
  · rw [some]
    exact if_pos (by simpa [or_assoc] using out)

/-- The answers of a WITNESS that names a stripe, and a pane of it, with room for the capture. -/
theorem witnessAnswer_named {s : State} {w : WitnessOp} {r : ArmReq} (named : s.namedStripe w.id w.pass = some r)
    (band : w.band < bandsOf r.rows) (pane : w.paneX ≤ 15) (room : 327784 ≤ w.dstLen) :
    s.witnessAnswer w = if 16 ≤ s.witnessHeld then some 0x11
      else if s.stripe.any (fun st => st.req == r) && s.paneEntered w.band w.paneX then some 0x0A
      else if s.stripe.any (fun st => st.req == r) && s.liveStripe.isNone then some 0x04
      else none := by
  unfold State.witnessAnswer
  rw [named]
  exact if_neg (by simp; omega)

theorem witnessEntry_acts {s : State} {q : Nat} {e : Entry} (acts : s.acts q 0x50 e) :
    let w := witnessOf e.raw
    ∃ t, exec (.witness q) s = .next t ∧ t.hbm = s.hbm ∧ t.stripe = s.stripe ∧ t.tabLive = s.tabLive ∧
      (s.namedStripe w.id w.pass = none ∨
        (∃ r, s.namedStripe w.id w.pass = some r ∧ (bandsOf r.rows ≤ w.band ∨ 15 < w.paneX ∨ w.dstLen < 327784)) →
        t = s.complete e.q e.idx 0x09 0 0 0 ∧ t.pec = s.pec ∧ t.entry? e.q e.idx = none ∧
        MemoriesBut (s.cplSlot e.q) s t) ∧
      (∀ r, s.namedStripe w.id w.pass = some r → w.band < bandsOf r.rows → w.paneX ≤ 15 → 327784 ≤ w.dstLen →
        (16 ≤ s.witnessHeld → t = s.complete e.q e.idx 0x11 0 0 0) ∧
        (s.witnessHeld < 16 → s.stripe.any (fun st => st.req == r) = true → s.paneEntered w.band w.paneX = true →
          t = s.complete e.q e.idx 0x0A 0 0 0)) ∧
      (∀ r, s.namedStripe w.id w.pass = some r → w.band < bandsOf r.rows → w.paneX ≤ 15 → 327784 ≤ w.dstLen →
        s.witnessHeld < 16 → s.paneEntered w.band w.paneX = false →
        (s.stripe.any (fun st => st.req == r) = true → s.liveStripe.isSome = true) →
        t.pec = { s.pec with witnesses := s.pec.witnesses ++ [⟨e.q, e.idx, w.id, w.pass, w.paneX, w.band, none⟩] } ∧
        SameMemories s t) := by
  intro w
  have run : exec (.witness q) s = .next (s.witnessAnswered e (s.witnessAnswer w)) :=
    (congrArg Host.Outcome.next (onEntry_of_acts acts _)).trans (congrArg Host.Outcome.next (witnessEntry_eq s e))
  obtain ⟨hbm, stripe, tabLive⟩ := witnessAnswered_keeps s e (s.witnessAnswer w)
  refine ⟨_, run, hbm, stripe, tabLive, fun bad => ?_, fun r named band pane room => ⟨fun full => ?_, fun few own late => ?_⟩,
    fun r named band pane room few early live => ?_⟩
  · rw [witnessAnswer_rejected bad]
    exact ⟨rfl, complete_pec s _ _ _ _ _ _, entry?_complete s _ _ _ _ _ _, memoriesBut_complete s _ _ _ _ _ _⟩
  · rw [witnessAnswer_named named band pane room, if_pos full]
    rfl
  · rw [witnessAnswer_named named band pane room, if_neg (by omega), if_pos (by rw [own, late]; rfl)]
    rfl
  · have waits : s.witnessAnswer w = none := by
      rw [witnessAnswer_named named band pane room, if_neg (by omega), if_neg (by rw [early, Bool.and_false]; decide), if_neg]
      intro dead
      obtain ⟨own, none⟩ := (Bool.and_eq_true _ _).mp dead
      have some := live own
      rw [Option.isNone_iff_eq_none] at none
      rw [none] at some
      cases some
    rw [waits]
    exact ⟨rfl, rfl, rfl, rfl⟩

/-! ### A witness is written -/

/-- The registers show what compressor `k` has done. -/
def State.captureShown (s : State) (k : Nat) (out : List Byte) : State :=
  ((s.setReg (CDC_ENG_IN.IN k) captureBytes).setReg (CDC_ENG_OUT.OUT k) out.length).engineEnds k 0x00 0

/-- The fields that `State.captureShown` writes. -/
def captureFields (k : Nat) : List Field :=
  [CDC_ENG_IN.IN k, CDC_ENG_OUT.OUT k, CDC_ENG_STATUS.LAST_STATUS k, CDC_ENG_STATUS.LAST_REASON k]

theorem regsMoved_captureShown (s : State) (k : Nat) (out : List Byte) :
    RegsMoved (captureFields k) s (s.captureShown k out) := by
  unfold State.captureShown State.engineEnds
  generalize captureBytes = n
  exact ((((RegsMoved.refl _ s).setReg (by simp [captureFields]) n).setReg (by simp [captureFields]) _).setReg
    (by simp [captureFields]) _).setReg (by simp [captureFields]) _

/-- The stream `out` of a capture stands at `dst`; the request of channel `ch` and the entry are still to end. -/
def State.captureWritten (s : State) (k ch dst : Nat) (out : List Byte) : State :=
  let all := fun (r : Request) => { r with named := out.length, delivered := out.length }
  ((({ s with host := Memory.write s.host dst out }.modChan ch (fun c => { c with req := c.req.map all })).captureShown
    k out).compressed false captureBytes out).count 2 0x11 out.length

theorem captureWritten_rest (s : State) (k ch dst : Nat) (out : List Byte) : ∃ regs pmu, s.captureWritten k ch dst out =
    { s with host := Memory.write s.host dst out, regs := regs, pmu := pmu, chans := modAt s.chans ch (fun c => { c with
      req := c.req.map (fun r => { r with named := out.length, delivered := out.length }) }) } := by
  unfold State.captureWritten State.compressed
  rw [count_rest, count_rest, count_rest, (regsMoved_captureShown _ k out).rest]
  exact ⟨_, _, rfl⟩

/-- No capture waits for a compressor. -/
theorem witnessStart_of_none {s : State} (none : s.pec.witnesses = []) : s.witnessStart = s := by
  have next : s.witnessNext = s := by
    unfold State.witnessNext
    rw [none]
    rfl
  rw [State.witnessStart, next, next]

/-- A compressor is free, and nothing waits for it. -/
theorem witnessDone_of_none {s : State} (none : s.pec.witnesses = []) (empty : s.hif.entries = []) (k : Nat) :
    s.witnessDone k = s.setJob k Option.none := by
  rw [State.witnessDone, witnessStart_of_none (s := s.setJob k Option.none) none]
  exact pump_of_no_entries (s := s.setJob k Option.none) empty 4 _

theorem engine_setJob_same {s : State} {k : Nat} (lt : k < s.cdc.engines.length) (j : Option CodecJob) :
    (s.setJob k j).cdc.engines.getD k none = j := by
  simp [State.setJob, setAt, List.getD_eq_getElem?_getD, lt]

/-- The stream of capture copy `copy` (R267). -/
def State.captureStream (s : State) (copy : Nat) : List Byte :=
  azradStream (Memory.bytes s.hbm (witnessCopy copy) captureBytes)

theorem witnessEnds_eq {s : State} {k : Nat} {j : CodecJob} {w : WitnessOp} (inside : s.inWindow w.dst w.dstLen = true) :
    s.witnessEnds k j w = ((s.captureWritten k j.ch w.dst (s.captureStream j.copy)).endReq j.ch 0x00 0 captureBytes
      (s.captureStream j.copy).length).witnessDone k := by
  unfold State.witnessEnds
  dsimp only
  rw [if_neg (by rw [inside]; decide)]
  rfl

/-- The end of a request leaves the codec, the corrector and the stripe. -/
theorem endReq_leaves {s : State} {ch : Nat} {r : Request} (held : (s.chan ch).req = some r) (status info d0 d1 : Nat) :
    let t := s.endReq ch status info d0 d1
    t.cdc = s.cdc ∧ t.pec = s.pec ∧ t.stripe = s.stripe := by
  dsimp only
  rw [endReq_eq held, complete_cdc, complete_pec, complete_stripe]
  have rest := reqRecorded_rest s ch status r
  generalize s.reqRecorded ch status r = u at rest ⊢
  generalize (s.reqShown ch status r).regs = regs at rest
  subst rest
  exact ⟨rfl, rfl, rfl⟩

/-- The request of a capture once its stream of `n` bytes stands in host memory. -/
def Request.written (r : Request) (n : Nat) : Request := { r with named := n, delivered := n }

/-- Compressor `k` writes the witness of the one entry that is held. -/
structure WitnessRuns (s : State) (k : Nat) (j : CodecJob) (e : Entry) (r : Request) : Prop where
  lt : k < s.cdc.engines.length
  chan : j.ch < s.chans.length
  held : s.entry? j.q j.idx = some e
  only : s.hif.entries = [e]
  req : (s.chan j.ch).req = some r
  q : r.q = j.q
  idx : r.idx = j.idx
  none : s.pec.witnesses = []

namespace WitnessRuns

variable {s : State} {k : Nat} {j : CodecJob} {e : Entry} {r : Request}

/-- A read of HBM3 leaves the witness as it is. -/
theorem read (h : WitnessRuns s k j e r) {u : State} (reads : ReadsOnly s u) : WitnessRuns u k j e r := by
  have unread := reads.unread
  have cdc : u.cdc = s.cdc := (congrArg State.cdc unread :)
  have chans : u.chans = s.chans := (congrArg State.chans unread :)
  have hif : u.hif = s.hif := (congrArg State.hif unread :)
  have pec : u.pec = s.pec := (congrArg State.pec unread :)
  exact {
    lt := by rw [cdc]; exact h.lt
    chan := by rw [chans]; exact h.chan
    held := by rw [State.entry?, hif]; exact h.held
    only := by rw [hif]; exact h.only
    req := by rw [State.chan, chans]; exact h.req
    q := h.q
    idx := h.idx
    none := by rw [pec]; exact h.none }

/-- The one entry is the witness's. -/
theorem dropped (h : WitnessRuns s k j e r) {w : State} (hif : w.hif = s.hif) :
    (w.dropEntry j.q j.idx).hif.entries = [] := by
  have own : (e.q == j.q && e.idx == j.idx) = true :=
    List.find?_some (p := fun e : Entry => e.q == j.q && e.idx == j.idx) h.held
  show w.hif.entries.filter _ = []
  rw [hif, h.only, List.filter_cons_of_neg (by simpa using own), List.filter_nil]

/-- The stream stands at DST, the entry is completed, and the compressor and its channel are free. -/
theorem ends (h : WitnessRuns s k j e r) {w : WitnessOp} (inside : s.inWindow w.dst w.dstLen = true) :
    let out := s.captureStream j.copy
    let t := s.witnessEnds k j w
    t.cdc.engines.getD k Option.none = Option.none ∧ (t.chan j.ch).req = Option.none ∧ t.hif.entries = [] ∧
      t.hbm = s.hbm ∧ t.stripe = s.stripe ∧
      (∀ a, (a < w.dst ∨ w.dst + out.length ≤ a) → (a < s.cplSlot j.q ∨ s.cplSlot j.q + 32 ≤ a) →
        Memory.byte t.host a = Memory.byte s.host a) ∧
      (∀ i, i < out.length → (w.dst + i < s.cplSlot j.q ∨ s.cplSlot j.q + 32 ≤ w.dst + i) →
        Memory.byte t.host (w.dst + i) = out.getD i 0#8) := by
  dsimp only
  rw [witnessEnds_eq inside]
  generalize s.captureStream j.copy = out
  generalize captureBytes = n
  obtain ⟨regs, pmu, rest⟩ := captureWritten_rest s k j.ch w.dst out
  generalize s.captureWritten k j.ch w.dst out = v at rest
  have hif : v.hif = s.hif := by rw [rest]
  have slot : v.cplSlot j.q = s.cplSlot j.q := by rw [rest]; rfl
  have lt : j.ch < v.chans.length := by rw [rest]; simpa [modAt] using h.chan
  have req : (v.chan j.ch).req = some (r.written out.length) := by
    rw [rest]
    refine (congrArg Chan.req (getD_modAt_same h.chan _ _)).trans ?_
    show Option.map _ (s.chan j.ch).req = _
    rw [h.req]
    rfl
  have ended := reqEnds lt req (status := 0x00) (by decide) 0 n out.length
  have none : (v.endReq j.ch 0x00 0 n out.length).hif.entries = [] := by
    rw [ended.entries, Request.written, h.q, h.idx]
    exact h.dropped hif
  obtain ⟨engine, pec, stripe⟩ := endReq_leaves req 0x00 0 n out.length
  have engine := engine.trans (show v.cdc = s.cdc by rw [rest])
  have pec := pec.trans (show v.pec = s.pec by rw [rest])
  have stripe := stripe.trans (show v.stripe = s.stripe by rw [rest])
  obtain ⟨u, eq⟩ : ∃ u, v.endReq j.ch 0x00 0 n out.length = u := ⟨_, rfl⟩
  rw [eq] at ended none engine pec stripe ⊢
  obtain ⟨hbm, -, outside⟩ := ended.memories
  have own : v.cplSlot (r.written out.length).q = s.cplSlot j.q := by rw [Request.written, h.q, slot]
  have host : v.host = Memory.write s.host w.dst out := by rw [rest]
  rw [own, host] at outside
  have waits : u.pec.witnesses = [] := by rw [pec]; exact h.none
  rw [witnessDone_of_none waits none]
  refine ⟨engine_setJob_same (by rw [engine]; exact h.lt) _, ended.req, none, hbm.trans (by rw [rest]), stripe,
    fun a away other => ?_, fun i hi other => ?_⟩
  · exact (outside a other).trans (Memory.byte_write_outside _ _ _ _ away)
  · refine (outside _ other).trans ?_
    rw [Memory.byte_write_inside _ _ _ _ hi, List.getD_eq_getElem]

end WitnessRuns

theorem witnessComplete_acts {s : State} {k : Nat} {j : CodecJob} {e : Entry} {ecc : EccReads} (served : s.serviced = true)
    (engine : s.cdc.engines.getD k none = some j) (kind : j.kind = 3) (clean : ecc.bad = none)
    (awake : s.reg (DMA_CH_STATUS.WAKE_WAIT j.ch) = 0) (held : s.entry? j.q j.idx = some e) :
    ∃ u, ReadsOnly s u ∧ exec (.witnessComplete k ecc) s = .next (u.witnessEnds k j (witnessOf e.raw)) := by
  obtain ⟨u, reads, eq⟩ := portRead_clean s clean 7 (witnessCopy j.copy) captureBytes
    (fun s => s.witnessEnds k j (witnessOf e.raw))
  refine ⟨u, reads, Eq.trans ?_ (congrArg Host.Outcome.next eq)⟩
  show execWitnessComplete k ecc s = _
  unfold execWitnessComplete
  have own : (s.cdc.engines.getD k none).filter (fun j => j.kind == 3) = some j := by
    rw [engine]
    exact Option.filter_some_pos (by simp [kind])
  rw [own]
  dsimp only
  rw [if_neg (by rw [served, awake]; decide), held]

end Sys2Proof.Machine

end

/-- Settles O24: the answers of a WITNESS taken (`State.witnessAnswer`), and what a compressor that holds a witness leaves
(`WitnessRuns.ends`). -/
theorem witnesses : Obligations.Witnesses := by
  refine ⟨fun s q e acts => Sys2Proof.Machine.witnessEntry_acts acts, ?_⟩
  intro s k j e r ecc served lt engine kind chan clean awake held only req q idx none w out inside
  obtain ⟨u, reads, run⟩ := Sys2Proof.Machine.witnessComplete_acts served engine kind clean awake held
  have runs : Sys2Proof.Machine.WitnessRuns s k j e r := ⟨lt, chan, held, only, req, q, idx, none⟩
  have prot : u.prot = s.prot := (congrArg Sys2Proof.Machine.State.prot reads.unread :)
  have host : u.host = s.host := (congrArg Sys2Proof.Machine.State.host reads.unread :)
  have hif : u.hif = s.hif := (congrArg Sys2Proof.Machine.State.hif reads.unread :)
  have slot : u.cplSlot j.q = s.cplSlot j.q := by
    rw [Sys2Proof.Machine.State.cplSlot, Sys2Proof.Machine.State.evRing, Sys2Proof.Machine.State.ring, hif]
    rfl
  have stream : u.captureStream j.copy = out := by rw [Sys2Proof.Machine.State.captureStream, reads.hbm]
  have ends := (runs.read reads).ends (w := w) (by rw [Sys2Proof.Machine.State.inWindow, prot]; exact inside)
  rw [stream, slot, host, reads.hbm, reads.stripe] at ends
  exact ⟨_, run, ends⟩

/-! ## What the lead sends and the mirror takes (R81, R92, R348 to R352, R354) -/

section

namespace Sys2Proof.Machine

/-! ### Delivery -/

theorem deliver_of_passesBy {s : State} {seq : Nat} (passes : s.passesBy seq) (act : State → State) :
    s.deliver seq act = s := by
  unfold State.deliver
  obtain served | down | other := passes
  · rw [if_neg (by simp [served])]
  · rw [if_neg (by simp [down])]
  · rw [if_neg (by simp [other])]

theorem deliver_of_arrives {s : State} {seq : Nat} (arrives : s.arrives seq) (act : State → State) :
    s.deliver seq act = act (s.took seq) := by
  obtain ⟨runs, up, next, test⟩ := arrives
  have serves : s.naluServes = true := by simp [State.naluServes, State.bistHolds, runs, test]
  unfold State.deliver
  rw [if_pos (by simp [serves, up, next]), State.naluWork, bistYield_of_no_test s test]
  rfl

/-- A message that arrives changes the link and wakes its block, and no more. -/
theorem took_rest (s : State) (seq : Nat) : s.took seq = { s with
    nlk := { s.nlk with rxSeq := (seq + 1) % 2 ^ 16 }, power := (s.wakeBlock 11).power, pmu := (s.wakeBlock 11).pmu } :=
  congrArg (·.modNlk (fun n => { n with rxSeq := (seq + 1) % 2 ^ 16 })) (wakeBlock_rest s 11)

/-! ### Entries -/

theorem mirrorEntry_arm (s : State) (r x : Nat) {raw : List Byte} (opc : rawOpc raw = 0x01)
    (whole : malformed (opcType 1) raw = false) :
    s.mirrorEntry r x raw = { s with hif := { s.hif with entries := s.hif.entries ++ [s.heldEntry r x raw] } } := by
  unfold State.mirrorEntry
  simp only [opc, whole]
  rfl

theorem mirrorEntry_commit (s : State) (q x : Nat) {raw : List Byte} (opc : rawOpc raw = 0x60) (named : num raw 8 4 ≠ 0)
    (whole : malformed (opcType 0x60) raw = false) : s.mirrorEntry q x raw =
      { s with commits := { s.commits with taken := some (s.copySet 64 0 (num raw 8 4) (num raw 12 4)) } } := by
  unfold State.mirrorEntry
  simp only [opc, whole, if_neg named]
  rfl

/-! ### Sets -/

theorem withStore_fields (s : State) (c : PendingCommit) : (s.withStore c).fields = c.fields := rfl
theorem withStore_tables (s : State) (c : PendingCommit) : (s.withStore c).tables = c.tables := rfl

theorem tablesOf_taken {s : State} {c : PendingCommit} (taken : s.commits.taken = some c) :
    s.tablesOf c.id c.mask = c := by
  unfold State.tablesOf
  rw [taken, Option.filter_some_pos (by simp)]
  rfl

theorem setTaken_rest (s : State) (mask : Nat) (copy : Bool) : s.setTaken mask copy =
    { s with commits := { s.commits with taken := (s.setTaken mask copy).commits.taken } } := by
  unfold State.setTaken
  split <;> rfl

theorem busy_of_stripeActive {s : State} (active : s.stripeActive = true) : s.g ≠ .ready ∧ s.g ≠ .start := by
  unfold State.stripeActive at active
  constructor <;> (intro idle; rw [idle] at active; cases active)

/-- While a stripe is ARMED or RUN a validated set waits. -/
theorem commitWaits_of_stripeActive {s : State} (mirror : s.isMirror = true) (active : s.stripeActive = true)
    (c : PendingCommit) :
    s.commitWaits c = { s with commits := { s.commits with waiting := s.commits.waiting ++ [c] } } := by
  have sent : s.sendSet c.id c.mask c.fields = s := if_neg (by simp [mirror])
  have busy := busy_of_stripeActive active
  unfold State.commitWaits
  dsimp only
  rw [sent, if_neg (by simpa using busy.1), if_neg (by simpa using busy.2)]

/-- A set that stores no trims waits for the boundary behind a stripe. -/
theorem mirrorTakesSet_waits {s : State} (mirror : s.isMirror = true) (active : s.stripeActive = true)
    (storing : s.commits.storing = none) {c : PendingCommit} (stores : c.storesTrims = false) :
    s.mirrorTakesSet c = { s with commits := { s.commits with waiting := s.commits.waiting ++ [c] } } := by
  unfold State.mirrorTakesSet State.mirrorWaits
  rw [if_neg (by simp [stores]), if_neg (by simp [storing]), if_neg (by simp [stores]),
    commitWaits_of_stripeActive mirror active]

/-- A set of a COMMIT brings the lead's fields. -/
theorem mirrorSet_fields (s : State) (id mask : Nat) (set : List (Nat × Nat)) :
    (s.mirrorSet id mask set false).fields = set.filter (fun kv => kv.1 != setAfter) := by
  unfold State.mirrorSet
  rfl

/-- It finds the tables that the mirror copied when the COMMIT's entry came. -/
theorem mirrorSet_tables {s : State} {c : PendingCommit} (taken : s.commits.taken = some c) (set : List (Nat × Nat)) :
    (s.mirrorSet c.id c.mask set false).tables = c.tables := by
  unfold State.mirrorSet
  dsimp only
  rw [if_neg Bool.false_ne_true, if_neg Bool.false_ne_true, withStore_tables, tablesOf_taken taken]

theorem naluCommitSet_waits {s : State} {seq : Nat} (arrives : s.arrives seq) (c m : Nat) (l : List (Nat × Nat))
    (k : List Nat) (mirror : s.isMirror = true) (active : s.stripeActive = true) (storing : s.commits.storing = none)
    (stores : ((s.took seq).mirrorSet c m l (!k.isEmpty)).storesTrims = false) :
    ∃ t, exec (.naluCommitSet seq c m l k) s = .next t ∧ t.live = s.live ∧ t.tabLive = s.tabLive ∧ t.fence = s.fence ∧
      t.commits.waiting = s.commits.waiting ++ [(s.took seq).mirrorSet c m l (!k.isEmpty)] ∧ SameMemories s t := by
  have took := took_rest s seq
  generalize set : (s.took seq).mirrorSet c m l (!k.isEmpty) = w at stores
  let v := (s.took seq).setTaken m (!k.isEmpty)
  have taken : v = _ := setTaken_rest (s.took seq) m (!k.isEmpty)
  have waits : v.mirrorTakesSet w = { v with commits := { v.commits with waiting := v.commits.waiting ++ [w] } } := by
    refine mirrorTakesSet_waits ?_ ?_ ?_ stores
    all_goals rw [taken, took]; assumption
  refine ⟨{ v with commits := { v.commits with waiting := v.commits.waiting ++ [w] } }, ?_, ?_⟩
  · refine congrArg Host.Outcome.next ((deliver_of_arrives arrives _).trans ?_)
    have own : (s.took seq).isMirror = true := by rw [took]; exact mirror
    rw [if_neg (by simp [own])]
    dsimp only
    rw [set, waits, if_neg (by simp)]
  · rw [taken, took]
    exact ⟨rfl, rfl, rfl, rfl, rfl, rfl, rfl⟩

/-- Bytes of a table reach the mirror's staged copy. -/
theorem naluTableChunk_staged {s : State} {seq a : Nat} (arrives : s.arrives seq) (mirror : s.isMirror = true)
    (small : a < 0x100) (o : Nat) (d : List Byte) : exec (.naluTableChunk seq a o d) s = .next { s.took seq with
      tabStaged := (s.took seq).tabStaged.write a o d } := by
  have own : (s.took seq).isMirror = true := by rw [took_rest]; exact mirror
  refine congrArg Host.Outcome.next ((deliver_of_arrives arrives _).trans ?_)
  dsimp only
  rw [if_neg (by simp [own]), if_neg (by simp; omega)]

/-! ### Buffers and events -/

/-- A buffer that the lead has not fetched is noted. -/
theorem naluFetched_notes {s : State} {seq : Nat} (arrives : s.arrives seq) (r x : Nat)
    (others : s.hif.entries.all (fun e => e.q != r) = true) : exec (.naluFetched seq r x) s = .next { s.took seq with
      nlk := { (s.took seq).nlk with fetchedByMirror := (s.took seq).nlk.fetchedByMirror ++ [(r, x)] } } := by
  refine congrArg Host.Outcome.next ((deliver_of_arrives arrives _).trans ?_)
  have entries : (s.took seq).hif.entries = s.hif.entries := by rw [took_rest]
  dsimp only
  rw [entries, List.find?_eq_none.mpr]
  · rfl
  · intro e mem
    have other := List.all_eq_true.mp others e mem
    simp_all

/-- A buffer that the lead has fetched too completes with OK. -/
theorem naluFetched_completes {s : State} {seq : Nat} (arrives : s.arrives seq) {e : Entry} (only : s.hif.entries = [e])
    (opc : rawOpc e.raw = 0x10) (started : e.started = true) (free : ∀ c ∈ s.chans, c.req = none) :
    exec (.naluFetched seq e.q (e.idx % 2 ^ 32)) s = .next ((s.took seq).complete e.q e.idx 0x00 0 0 0) := by
  refine congrArg Host.Outcome.next ((deliver_of_arrives arrives _).trans ?_)
  have entries : (s.took seq).hif.entries = [e] := by rw [took_rest]; exact only
  have chans : (s.took seq).chans = s.chans := by rw [took_rest]
  have served : s.chans.any (fun c => c.req.any (fun r => r.q == e.q && r.idx == e.idx)) = false :=
    List.any_eq_false.mpr fun c mem => by simp [free c mem]
  dsimp only
  rw [entries, chans, List.find?_cons_of_pos (by simp [opc, started, served])]

theorem memoriesBut_putEvent (s : State) (e : Nat) (ev : Event) :
    MemoriesBut (s.evRing e).slot s (s.putEvent e ev) :=
  ⟨putEvent_hbm s e ev, putEvent_flash s e ev, fun a away => putEvent_host s e ev a away⟩

theorem naluEvent_posts {s : State} {seq : Nat} (arrives : s.arrives seq) (raw : List Byte) (lead : s.isMirror = false) :
    ∃ t, exec (.naluEvent seq raw) s = .next t ∧ t.quiet = s.quiet ∧ MemoriesBut s.devSlot s t ∧ RegsButHif [] s t ∧
      t.nlk = (s.took seq).nlk := by
  have took := took_rest s seq
  have quiet : (s.took seq).quiet = s.quiet := wakeBlock_quiet s
  have regs : (s.took seq).regs = s.regs := by rw [took]
  have own : (s.took seq).isMirror = false := by rw [took]; exact lead
  have slot : ((s.took seq).evRing (s.took seq).devEq).slot = s.devSlot := by rw [took]; rfl
  have memories : SameMemories s (s.took seq) := by rw [took]; exact ⟨rfl, rfl, rfl⟩
  let ev : Event := { eventOf raw with source := 4 }
  have puts := puts_putEvent (s.took seq) (s.took seq).devEq ev
  obtain ⟨hbm, flash, bytes⟩ := memoriesBut_putEvent (s.took seq) (s.took seq).devEq ev
  obtain ⟨sameHost, sameHbm, sameFlash⟩ := memories
  rw [slot, sameHost] at bytes
  refine ⟨(s.took seq).putEvent (s.took seq).devEq ev, ?_, puts.quiet.trans quiet,
    ⟨hbm.trans sameHbm, flash.trans sameFlash, bytes⟩, fun f out other => ?_, puts.nlk⟩
  · refine congrArg Host.Outcome.next ((deliver_of_arrives arrives _).trans ?_)
    exact if_neg (by simp [own])
  · rw [regsButHif_putEvent _ [] _ ev f out other, State.reg, State.reg, regs]

end Sys2Proof.Machine

end

/-- Settles O55: a message that is not taken (`deliver_of_passesBy`), and what each does that arrives
(`deliver_of_arrives`). -/
theorem naluForwards : Obligations.NaluForwards := by
  intro s seq
  refine ⟨fun i passes message => ?_, fun arrives => ?_⟩
  · obtain ⟨_, _, _, rfl⟩ | ⟨_, _, _, _, rfl⟩ | ⟨_, _, _, rfl⟩ | ⟨_, _, rfl⟩ | ⟨_, _, _, rfl⟩ | ⟨_, _, _, _, rfl⟩ |
      ⟨_, _, _, _, _, rfl⟩ | ⟨_, _, _, rfl⟩ | ⟨_, _, _, rfl⟩ | ⟨_, _, rfl⟩ | ⟨_, rfl⟩ | ⟨_, _, _, rfl⟩ | ⟨_, _, _, rfl⟩ |
      ⟨_, rfl⟩ | ⟨_, _, rfl⟩ | ⟨_, _, rfl⟩ := message
    all_goals exact congrArg Host.Outcome.next (Sys2Proof.Machine.deliver_of_passesBy passes _)
  · intro u
    have role : u.isMirror = s.isMirror := by
      show (s.took seq).isMirror = _
      rw [Sys2Proof.Machine.took_rest]
      rfl
    have takes (act : Sys2Proof.Machine.State → Sys2Proof.Machine.State) :=
      Sys2Proof.Machine.deliver_of_arrives arrives act
    refine ⟨fun r x raw mirror opc whole => ?_, fun r x raw lead => ?_, fun q x raw mirror opc named whole => ?_,
      fun c m l k mirror active storing stores => ?_, fun a o d mirror small => ?_,
      fun r x others => Sys2Proof.Machine.naluFetched_notes arrives r x others,
      fun e only opc started free => Sys2Proof.Machine.naluFetched_completes arrives only opc started free,
      fun raw lead => Sys2Proof.Machine.naluEvent_posts arrives raw lead, fun raw mirror => ?_⟩
    · refine congrArg Host.Outcome.next ((takes _).trans ((if_pos (role.trans mirror)).trans ?_))
      exact Sys2Proof.Machine.mirrorEntry_arm u r x opc whole
    · exact congrArg Host.Outcome.next ((takes _).trans (if_neg (by rw [role, lead]; decide)))
    · refine congrArg Host.Outcome.next ((takes _).trans ((if_pos (role.trans mirror)).trans ?_))
      exact Sys2Proof.Machine.mirrorEntry_commit u q x opc named whole
    · obtain ⟨t, run, live, tabLive, fence, waiting, memories⟩ :=
        Sys2Proof.Machine.naluCommitSet_waits arrives c m l k mirror active storing stores
      refine ⟨t, run, live, tabLive, fence, waiting, memories, fun _ =>
        ⟨Sys2Proof.Machine.mirrorSet_fields u c m l, fun c0 taken id mask => ?_⟩⟩
      subst id mask
      exact Sys2Proof.Machine.mirrorSet_tables (by rw [show u = _ from Sys2Proof.Machine.took_rest s seq]; exact taken) l
    · exact Sys2Proof.Machine.naluTableChunk_staged arrives mirror small o d
    · exact congrArg Host.Outcome.next ((takes _).trans (if_pos (role.trans mirror)))

/-! ## When a poll happens and what it leaves (R70, R109)

`Polls s t` says what a poll leaves from one of its steps to the next: the poll that is owed, which rings are enabled and
their TYPEs, and, while no CONTROL ring is enabled, all that `State.still` keeps. -/

section

namespace Sys2Proof.Machine

/-- From `s` to `t` a poll has gone on. -/
structure Polls (s t : State) : Prop where
  again : t.hif.pollAgain = s.hif.pollAgain
  on : ∀ q, q < 64 → t.sqOn q = s.sqOn q
  type : ∀ q, q < 64 → t.sqType q = s.sqType q
  still : (∀ q, q < 64 → s.sqOn q = true → s.sqType q ≠ 7) → t.still = s.still

/-- What an event may change holds no bit of a ring's configuration. -/
theorem sqCfg_not_event {q : Nat} (lt : q < 64) {f : Field} (word : f.addr = 0x11008 + 16 * q) (low : f.lo < 64) :
    keyBlock f.key = 1 ∧ f.key ∉ eventFields.map Field.key := by
  constructor
  · simp only [keyBlock, Field.key, word]
    omega
  · rw [mem_eventFields_keys]
    simp only [Field.key, word, HIF_EVT_LOST.LOST, MSIX.PENDING]
    rintro (lost | ⟨v, small, pending⟩) <;> omega

namespace Polls

variable {s t u : State}

theorem refl (s : State) : Polls s s := ⟨rfl, fun _ _ => rfl, fun _ _ => rfl, fun _ => rfl⟩

theorem trans (h : Polls s t) (k : Polls t u) : Polls s u where
  again := k.again.trans h.again
  on q lt := (k.on q lt).trans (h.on q lt)
  type q lt := (k.type q lt).trans (h.type q lt)
  still none := (k.still fun q lt on => by rw [h.type q lt]; exact none q lt (h.on q lt ▸ on)).trans (h.still none)

theorem ite {c : Prop} [Decidable c] (h : c → Polls s t) (k : ¬c → Polls s u) : Polls s (if c then t else u) := by
  split
  · next e => exact h e
  · next e => exact k e

theorem foldl {α : Type} {f : State → α → State} {l : List α} (hf : ∀ a ∈ l, ∀ s, Polls s (f s a)) :
    ∀ s, Polls s (l.foldl f s) := by
  induction l with
  | nil => exact refl
  | cons a l ih =>
    exact fun s => (hf a List.mem_cons_self s).trans (ih (fun b mem => hf b (List.mem_cons_of_mem _ mem)) _)

/-- A step that moves no register of the HIF but for what an event may change. -/
theorem of_regs (again : t.hif.pollAgain = s.hif.pollAgain)
    (regs : ∀ f : Field, keyBlock f.key = 1 → f.key ∉ eventFields.map Field.key → t.reg f = s.reg f)
    (still : (∀ q, q < 64 → s.sqOn q = true → s.sqType q ≠ 7) → t.still = s.still) : Polls s t where
  again := again
  on q lt := by
    obtain ⟨hif, other⟩ := sqCfg_not_event lt (f := HIF_SQ_CFG.ENABLE q) rfl (show 0 < 64 by decide)
    rw [State.sqOn, State.sqOn, regs _ hif other]
  type q lt := by
    obtain ⟨hif, other⟩ := sqCfg_not_event lt (f := HIF_SQ_CFG.TYPE q) rfl (show 8 < 64 by decide)
    exact regs _ hif other
  still := still

theorem of_serves (h : Serves s t)
    (still : (∀ q, q < 64 → s.sqOn q = true → s.sqType q ≠ 7) → t.still = s.still) : Polls s t :=
  of_regs h.pollAgain h.regs still

/-- A step that leaves the registers and all that `State.still` keeps. -/
theorem of_still (again : t.hif.pollAgain = s.hif.pollAgain) (regs : t.regs = s.regs) (still : t.still = s.still) :
    Polls s t :=
  of_regs again (fun f _ _ => by rw [State.reg, State.reg, regs]) fun _ => still

theorem of_puts (h : Puts s t) : Polls s t := of_serves (.of_puts h) fun _ => still_of_quiet h.quiet

end Polls

variable (s : State)

/-! ### The page is read -/

theorem polls_count (b ev n : Nat) : Polls s (s.count b ev n) := .of_puts (puts_count s b ev n)

theorem still_wakeBlock (k : Nat) : (s.wakeBlock k).still = s.still := by
  rw [wakeBlock_rest]
  rfl

theorem polls_wakeBlock (k : Nat) : Polls s (s.wakeBlock k) := .of_serves (serves_wakeBlock s k) fun _ => still_wakeBlock s k

/-- The consumer index of event ring `e` is read. -/
def State.readConsOf (s : State) (e : Nat) : State :=
  if s.eqOn e then s.modEvRing e (fun r => { r with consSeen := s.hostWord (s.page + 0x100 + 4 * e) }) else s

theorem readCons_eq : s.readCons = (List.range 8).foldl State.readConsOf s := by
  unfold State.readCons
  rfl

theorem polls_readConsOf (e : Nat) : Polls s (s.readConsOf e) := by
  unfold State.readConsOf
  exact .ite (fun _ => .of_still rfl rfl rfl) (fun _ => .refl s)

theorem polls_readCons : Polls s s.readCons := by
  rw [readCons_eq]
  exact .foldl (fun e _ s => polls_readConsOf s e) s

theorem polls_halt (q : Nat) : Polls s (s.setReg (HIF_SQ_CFG.HALTED q) 1) where
  again := rfl
  on j _ := by
    have other : (HIF_SQ_CFG.HALTED q).key ≠ (HIF_SQ_CFG.ENABLE j).key := by
      simp only [Field.key, HIF_SQ_CFG.HALTED, HIF_SQ_CFG.ENABLE]
      omega
    rw [State.sqOn, State.sqOn, reg_setReg_ne s 1 other]
  type j _ := by
    have other : (HIF_SQ_CFG.HALTED q).key ≠ (HIF_SQ_CFG.TYPE j).key := by
      simp only [Field.key, HIF_SQ_CFG.HALTED, HIF_SQ_CFG.TYPE]
      omega
    exact reg_setReg_ne s 1 other
  still _ := rfl

theorem polls_postDev (code status info d0 d1 : Nat) : Polls s (s.postDev code status info d0 d1) :=
  .of_serves (serves_postDev s _ _ _ _ _) fun _ => still_of_quiet (postDev_quiet s _ _ _ _ _)

theorem polls_readProd (q : Nat) : Polls s (s.readProd q) := by
  unfold State.readProd
  exact .ite (fun _ => .ite (fun _ => (polls_halt s q).trans (polls_postDev _ _ _ _ _ _))
    (fun _ => .of_still rfl rfl rfl)) (fun _ => .refl s)

/-! ### Entries are taken -/

theorem polls_complete (q idx status info d0 d1 : Nat) : Polls s (s.complete q idx status info d0 d1) :=
  .of_serves (serves_complete s _ _ _ _ _ _) fun _ => still_complete s _ _ _ _ _ _

theorem serves_malformedEnds (e : Entry) : Serves s (s.malformedEnds e) := by
  unfold State.malformedEnds
  exact .ite (fun _ => serves_commitEnds s _ _ _ _ _ _) (fun _ => serves_complete s _ _ _ _ _ _)

/-- What follows once the entry is held leaves the rings as they are. -/
theorem serves_takenOf_takeEntry (q : Nat) : Serves (s.takenOf q) (s.takeEntry q) := by
  rw [takeEntry_eq]
  exact .ite (fun _ => serves_malformedEnds _ _) (fun _ => .ite (fun _ => serves_takeCommit _ _) (fun _ => serves_bistYield _ _))

theorem polls_takeEntry {s : State} {q : Nat} (lt : q < 64) (on : s.sqOn q = true) : Polls s (s.takeEntry q) := by
  have serves := serves_takenOf_takeEntry s q
  refine .of_regs (serves.pollAgain.trans (by rw [takenOf_hif]))
    (fun f hif other => (serves.regs f hif other).trans (takenOf_reg s q f))
    fun none => still_takeEntry (none q lt on)

theorem on_of_mayTake {s : State} {q : Nat} (may : s.mayTake q = true) : s.sqOn q = true := by
  by_contra off
  rw [mayTake_of_off (Bool.eq_false_iff.mpr off)] at may
  cases may

theorem polls_takeEntries {q : Nat} (lt : q < 64) (n : Nat) : ∀ s, Polls s (State.takeEntries q n s) := by
  induction n with
  | zero => exact .refl
  | succ n ih =>
    intro s
    unfold State.takeEntries
    refine .ite (fun may => ?_) (fun _ => .refl s)
    obtain ⟨takes, -⟩ := (Bool.and_eq_true _ _).mp may
    exact (polls_takeEntry lt (on_of_mayTake takes)).trans (ih _)

theorem polls_discardOver (q : Nat) : Polls s (s.discardOver q) := .of_still rfl rfl rfl

theorem polls_discardBufs {q : Nat} (lt : q < 64) (n : Nat) : ∀ s, Polls s (State.discardBufs q n s) := by
  induction n with
  | zero => exact .refl
  | succ n ih =>
    intro s
    unfold State.discardBufs
    split
    · exact .refl s
    · refine .ite (fun takes => .ite (fun _ => (polls_discardOver s q).trans (ih _)) (fun _ => ?_)) (fun _ => .refl s)
      have taken := polls_takeEntry lt (on_of_mayTake takes)
      generalize s.takeEntry q = u at taken ⊢
      extract_lets _ _ t
      have h : Polls s t := taken.trans (.ite (fun _ => .refl _) (fun _ => polls_complete _ _ _ _ _ _ _))
      exact (h.trans (.ite (fun _ => polls_discardOver t q) (fun _ => .refl t))).trans (ih _)

theorem polls_pollRing {q : Nat} (lt : q < 64) : Polls s (s.pollRing q) := by
  unfold State.pollRing
  exact .ite (fun _ => polls_discardBufs lt _ s) (fun _ => polls_takeEntries lt _ s)

/-! ### Indices are written back -/

/-- The step of the write-back for submission ring `q`. -/
def State.sqBack (s : State) (q : Nat) : State :=
  if s.sqOn q && (s.ring q).written ≠ (s.ring q).cons then
    ((s.hostWriteWord (s.page + 0x200 + 4 * q) (s.ring q).cons).modRing q
      (fun r => { r with written := r.cons })).count 2 0x11 4
  else s

/-- The step of the write-back for event ring `e`. -/
def State.eqBack (s : State) (e : Nat) : State :=
  if s.eqOn e && (s.evRing e).written ≠ (s.evRing e).prod then
    ((s.hostWriteWord (s.page + 0x300 + 4 * e) (s.evRing e).prod).modEvRing e
      (fun r => { r with written := r.prod })).count 2 0x11 4
  else s

theorem writeBack_eq : s.writeBack = (List.range 8).foldl State.eqBack ((List.range 64).foldl State.sqBack s) := by
  unfold State.writeBack
  rfl

theorem polls_sqBack (q : Nat) : Polls s (s.sqBack q) := by
  unfold State.sqBack
  refine .ite (fun _ => Polls.trans ?_ (polls_count _ _ _ _)) (fun _ => .refl s)
  exact .of_still rfl rfl rfl

theorem polls_eqBack (e : Nat) : Polls s (s.eqBack e) := by
  unfold State.eqBack
  refine .ite (fun _ => Polls.trans ?_ (polls_count _ _ _ _)) (fun _ => .refl s)
  exact .of_still rfl rfl rfl

theorem polls_writeBack : Polls s s.writeBack := by
  rw [writeBack_eq]
  exact (Polls.foldl (fun q _ s => polls_sqBack s q) s).trans (.foldl (fun e _ s => polls_eqBack s e) _)

/-! ### The poll -/

/-- A poll wakes the HIF and the DMA and reads the consumer indices of the event rings. -/
def State.pollStart (s : State) : State := ((((s.wakeBlock 1).wakeBlock 2).count 1 0x10 1).count 2 0x10 0x120).readCons

/-- It reads the producer indices of the submission rings and writes held events. -/
def State.pollRead (s : State) : State := ((List.range 64).foldl State.readProd s.pollStart).drainHeld

/-- The submission rings in the order in which a poll serves them: CONTROL first. -/
def State.pollOrder (s : State) : List Nat :=
  (List.range 64).filter (fun q => s.sqType q == 7) ++ (List.range 64).filter (fun q => s.sqType q != 7)

/-- It takes entries, ring by ring. -/
def State.pollTakes (s : State) : State := s.pollOrder.foldl State.pollRing s

/-- A chip that services rings, polls, is not the mirror and has its doorbell page in a window. -/
structure Served (s : State) : Prop where
  serviced : s.serviced = true
  polling : s.hif.polling = true
  lead : s.isMirror = false
  page : s.inWindow s.page 4096 = true

variable {s}

theorem poll_of_served (h : Served s) : s.poll = s.pollRead.pollTakes.writeBack := by
  unfold State.poll
  rw [if_pos (by simp [h.serviced, h.polling, h.lead, h.page])]
  show _ = ((State.pollOrder _).foldl State.pollRing _).writeBack
  rw [State.pollOrder, List.foldl_append]
  rfl

theorem poll_of_unserved (h : ¬Served s) : s.poll = s := by
  unfold State.poll
  refine if_neg fun may => h ?_
  simp only [Bool.and_eq_true, Bool.not_eq_true'] at may
  obtain ⟨⟨⟨serviced, polling⟩, lead⟩, page⟩ := may
  exact ⟨serviced, polling, lead, page⟩

variable (s)

theorem mem_pollOrder {q : Nat} : q ∈ s.pollOrder ↔ q < 64 := by
  simp only [State.pollOrder, List.mem_append, List.mem_filter, List.mem_range, ← and_or_left, beq_iff_eq, bne_iff_ne]
  exact and_iff_left (em _)

theorem polls_pollRead : Polls s s.pollRead := by
  have start : Polls s s.pollStart := ((((polls_wakeBlock s 1).trans (polls_wakeBlock _ 2)).trans
    (polls_count _ 1 0x10 1)).trans (polls_count _ 2 0x10 0x120)).trans (polls_readCons _)
  exact (start.trans (.foldl (fun q _ s => polls_readProd s q) _)).trans (.of_puts (puts_drainHeld _))

theorem polls_poll : Polls s s.poll := by
  by_cases served : Served s
  · rw [poll_of_served served]
    refine ((polls_pollRead s).trans ?_).trans (polls_writeBack _)
    exact .foldl (fun q mem s => polls_pollRing s ((mem_pollOrder _).mp mem)) _
  · rw [poll_of_unserved served]
    exact .refl s

/-! ### DOORBELL_POLL and NUDGE -/

/-- The poll that a nudge asked for is no longer owed. -/
def State.pollOwed (s : State) : State := { s with hif := { s.hif with pollAgain := false } }

theorem doorbellPoll_run (hw : Cells) : exec (.doorbellPoll hw) s =
    .next (if (s.hostWrites hw).poll.hif.pollAgain then (s.hostWrites hw).poll.pollOwed.poll else (s.hostWrites hw).poll) :=
  rfl

variable {s}

theorem poll_pollAgain (u : State) : u.poll.hif.pollAgain = u.hif.pollAgain := (polls_poll u).again

/-- With no poll owed DOORBELL_POLL is one poll. -/
theorem doorbellPoll_once (hw : Cells) (none : s.hif.pollAgain = false) :
    exec (.doorbellPoll hw) s = .next (s.hostWrites hw).poll := by
  have again : (s.hostWrites hw).poll.hif.pollAgain = false := (poll_pollAgain _).trans none
  rw [doorbellPoll_run, again]
  rfl

theorem doorbellPoll_polls (s : State) (hw : Cells) : ∃ t, exec (.doorbellPoll hw) s = .next t ∧
    t.hif.pollAgain = false ∧
    ((∀ q, q < 64 → s.sqOn q = true → s.sqType q ≠ 7) → t.still = s.still) := by
  have first := polls_poll (s.hostWrites hw)
  rw [doorbellPoll_run]
  refine ⟨_, rfl, ?_⟩
  cases again : (s.hostWrites hw).poll.hif.pollAgain with
  | false => exact ⟨again, first.still⟩
  | true =>
    have owed : (s.hostWrites hw).poll.pollOwed.still = (s.hostWrites hw).poll.still := rfl
    have second := polls_poll (s.hostWrites hw).poll.pollOwed
    refine ⟨second.again, fun none => ((second.still ?_).trans owed).trans (first.still none)⟩
    exact fun q lt on => (first.type q lt).trans_ne (none q lt ((first.on q lt).symm.trans on))

theorem unserved_hostWrites {hw : Cells} (h : s.serviced = false ∨ s.hif.polling = false ∨ s.isMirror = true ∨
    s.inWindow s.page 4096 = false) : ¬Served (s.hostWrites hw) := by
  rintro ⟨serviced, polling, lead, page⟩
  obtain off | stopped | mirror | out := h
  · exact absurd (serviced.symm.trans off) (by decide)
  · exact absurd (polling.symm.trans stopped) (by decide)
  · exact absurd (mirror.symm.trans lead) (by decide)
  · exact absurd (page.symm.trans out) (by decide)

/-! ### Polling starts -/

/-- From `s` to `t` events have been posted: nothing else of the queues changed. -/
structure Posts (s t : State) : Prop where
  serves : Serves s t
  quiet : t.quiet = s.quiet
  entries : t.hif.entries = s.hif.entries
  polling : t.hif.polling = s.hif.polling

theorem Posts.refl (s : State) : Posts s s := ⟨.refl s, rfl, rfl, rfl⟩

theorem Posts.trans {s t u : State} (h : Posts s t) (k : Posts t u) : Posts s u :=
  ⟨h.serves.trans k.serves, k.quiet.trans h.quiet, k.entries.trans h.entries, k.polling.trans h.polling⟩

theorem Posts.of_puts {s t : State} (h : Puts s t) : Posts s t := ⟨.of_puts h, h.quiet, h.entries, h.polling⟩

/-- From `s` to `t` the entries and the polling stay. -/
def Queues (s t : State) : Prop := t.hif.entries = s.hif.entries ∧ t.hif.polling = s.hif.polling

theorem Queues.of_puts {s t : State} (h : Puts s t) : Queues s t := ⟨h.entries, h.polling⟩

theorem Queues.ite {c : Prop} [Decidable c] {s t u : State} (h : Queues s t) (k : Queues s u) :
    Queues s (if c then t else u) := by
  split
  · exact h
  · exact k

theorem queues_naluSend (s : State) (m : NaluMsg) : Queues s (s.naluSend m) := by
  rw [Queues, naluSend_hif]
  exact ⟨rfl, rfl⟩

theorem queues_postDev (s : State) (code status info d0 d1 : Nat) : Queues s (s.postDev code status info d0 d1) := by
  have counted (t : State) (h : Queues (s.count (eventBlock code) 6 1) t) : Queues s t := by
    rw [Queues, count_hif] at h
    exact h
  unfold State.postDev
  extract_lets ev c
  split
  · exact ⟨rfl, rfl⟩
  · exact ⟨rfl, rfl⟩
  · exact counted _ (.ite ⟨rfl, rfl⟩ ⟨rfl, rfl⟩)
  · exact counted _ (.ite (.ite (queues_naluSend c _) (.of_puts (puts_holdEvent c _ _))) (.of_puts (puts_putEvent c _ _)))

theorem posts_postDev (s : State) (code status info d0 d1 : Nat) : Posts s (s.postDev code status info d0 d1) :=
  ⟨serves_postDev s _ _ _ _ _, postDev_quiet s _ _ _ _ _, (queues_postDev s _ _ _ _ _).1, (queues_postDev s _ _ _ _ _).2⟩

theorem posts_pageCheck (s : State) : Posts s s.pageCheck := by
  unfold State.pageCheck
  split
  · exact posts_postDev s _ _ _ _ _
  · exact .refl s

/-- The events that a reset kept go to the holding queue. -/
theorem posts_hold (s : State) (await : Bool) (outcomes events : List Event) (hold : List HeldEvent) :
    Posts s { s with hif := { s.hif with awaitDevEq := await, keptOutcomes := outcomes, keptEvents := events, hold } } :=
  ⟨⟨rfl, rfl, rfl, fun _ _ _ => rfl⟩, rfl, rfl, rfl⟩

theorem posts_releaseKept (s : State) : Posts s s.releaseKept := by
  unfold State.releaseKept
  extract_lets held
  split
  · exact (posts_hold s false [] [] (held ++ s.hif.hold)).trans (.of_puts (puts_drainHeld _))
  · exact .refl s

/-- HIF_CTRL as a write of `w` leaves it. -/
def State.hifCtrlSet (s : State) (w : Nat) : State :=
  { ((s.setReg HIF_CTRL.DB_EN (bits w 0 1)).setReg HIF_CTRL.POLL_US (min 1000 (max 1 (bits w 8 10)))).setReg
      HIF_CTRL.DEV_EQ (bits w 18 3) with hif := { s.hif with polling := bit w 0 } }

theorem hifCtrlWrite_posts (s : State) (w : Nat) : Posts (s.hifCtrlSet w) (s.hifCtrlWrite w) := by
  unfold State.hifCtrlWrite
  refine Posts.trans ?_ (posts_releaseKept _)
  dsimp only
  split
  · exact posts_pageCheck _
  · exact .refl _

theorem hifCtrlSet_regs (s : State) {w : Nat} (one : bit w 0 = true) :
    (s.hifCtrlSet w).reg HIF_CTRL.DB_EN = 1 ∧
    (s.hifCtrlSet w).reg HIF_CTRL.POLL_US = min 1000 (max 1 (bits w 8 10)) ∧
    (s.hifCtrlSet w).reg HIF_CTRL.DEV_EQ = bits w 18 3 := by
  have key (f g : Field) (other : f.key ≠ g.key) (t : State) (v : Nat) : (t.setReg f v).reg g = t.reg g :=
    reg_setReg_ne t v other
  have db : bits w 0 1 = 1 := by simpa [bit, bits] using one
  generalize hp : min 1000 (max 1 (bits w 8 10)) = p
  have small : p < 1024 := by omega
  have shown (f : Field) : (s.hifCtrlSet w).reg f = (((s.setReg HIF_CTRL.DB_EN (bits w 0 1)).setReg HIF_CTRL.POLL_US
      p).setReg HIF_CTRL.DEV_EQ (bits w 18 3)).reg f := by rw [← hp]; rfl
  refine ⟨?_, ?_, ?_⟩ <;> rw [shown]
  · rw [key _ _ (by decide), key _ _ (by decide), reg_setReg_same, db]
    rfl
  · rw [key _ _ (by decide), reg_setReg_same]
    exact Nat.mod_eq_of_lt small
  · rw [reg_setReg_same]
    exact Nat.mod_eq_of_lt (by simp only [bits, HIF_CTRL.DEV_EQ]; omega)

theorem landed_hifCtrl (s : State) (w : Nat) : s.landed 0x10008 w = s.hifCtrlWrite w := by
  simp [State.landed, State.hifWrite]

theorem hifCtrlSet_quiet (s : State) (w : Nat) : (s.hifCtrlSet w).quiet = s.quiet := by
  have queue (t : State) (h : Hif) : { t with hif := h }.quiet = t.quiet := rfl
  rw [State.hifCtrlSet, queue, setReg_quiet, setReg_quiet, setReg_quiet]

theorem doorbellEnable_starts (s : State) (w : Word) (lands : s.writeLands 0x10008) :
    ∃ t, exec (.doorbellEnable w) s = .next t ∧ t.hif.polling = true ∧ t.reg HIF_CTRL.DB_EN = 1 ∧
      t.reg HIF_CTRL.POLL_US = min 1000 (max 1 (bits (w ||| 1#32).toNat 8 10)) ∧
      t.reg HIF_CTRL.DEV_EQ = bits (w ||| 1#32).toNat 18 3 ∧ t.quiet = s.quiet ∧ t.hif.sq = s.hif.sq ∧
      t.hif.entries = s.hif.entries := by
  have one : bit (w ||| 1#32).toNat 0 = true := bit_zero_or_one w
  have run : exec (.doorbellEnable w) s = .next (s.hifCtrlWrite (w ||| 1#32).toNat) :=
    congrArg Host.Outcome.next ((busWrite_of_lands lands (by decide) (by decide) _).trans (landed_hifCtrl s _))
  generalize (w ||| 1#32).toNat = x at one run ⊢
  have posts := hifCtrlWrite_posts s x
  obtain ⟨db, us, eq⟩ := hifCtrlSet_regs s one
  have kept (f : Field) (hif : keyBlock f.key = 1) (other : f.key ∉ eventFields.map Field.key) := posts.serves.regs f hif other
  refine ⟨_, run, posts.polling.trans one, (kept _ (by decide) ?_).trans db, (kept _ (by decide) ?_).trans us,
    (kept _ (by decide) ?_).trans eq, posts.quiet.trans (hifCtrlSet_quiet s x), posts.serves.sq, posts.entries⟩
  all_goals
    rw [mem_eventFields_keys]
    simp only [Field.key, HIF_CTRL.DB_EN, HIF_CTRL.POLL_US, HIF_CTRL.DEV_EQ, HIF_EVT_LOST.LOST, MSIX.PENDING]
    rintro (lost | ⟨v, small, pending⟩) <;> omega

end Sys2Proof.Machine

end

/-! ## A poll that finds one new entry (R70, R74, R76)

A poll goes through three states: the page has been read (`Reads`), the one entry has been taken, the indices have been
written back (`Shown`). -/

section

namespace Sys2Proof.Machine

/-- The state without what the reading of the doorbell page may change. -/
def State.unpolled (s : State) : State := { s with hif := .reset, power := [], pmu := .reset }

/-- From `u` to `v` a poll has read indices: rings and event rings note what they saw. -/
structure Reads (u v : State) : Prop where
  rest : v.unpolled = u.unpolled
  hif : v.hif = { u.hif with sq := v.hif.sq, eq := v.hif.eq }
  size : v.hif.sq.length = u.hif.sq.length
  ring : ∀ j, v.ring j = { u.ring j with prodSeen := (v.ring j).prodSeen }
  awake : ∀ k, u.pwr k ≠ .off → v.pwr k ≠ .off

namespace Reads

variable {s u v w : State}

theorem refl (s : State) : Reads s s := ⟨rfl, rfl, rfl, fun _ => rfl, fun _ h => h⟩

theorem trans (h : Reads u v) (k : Reads v w) : Reads u w where
  rest := k.rest.trans h.rest
  hif := by rw [k.hif, h.hif]
  size := k.size.trans h.size
  ring j := by rw [k.ring j, h.ring j]
  awake p on := k.awake p (h.awake p on)

theorem foldl {α : Type} {f : State → α → State} (hf : ∀ s a, Reads s (f s a)) (l : List α) : ∀ s, Reads s (l.foldl f s) := by
  induction l with
  | nil => exact refl
  | cons a l ih => exact fun s => (hf s a).trans (ih _)

theorem regs (h : Reads u v) : v.regs = u.regs := (congrArg State.regs h.rest :)
theorem host (h : Reads u v) : v.host = u.host := (congrArg State.host h.rest :)
theorem prot (h : Reads u v) : v.prot = u.prot := (congrArg State.prot h.rest :)
theorem bst (h : Reads u v) : v.bst = u.bst := (congrArg State.bst h.rest :)
theorem waiting (h : Reads u v) : v.waiting = u.waiting := (congrArg State.waiting h.rest :)
theorem commits (h : Reads u v) : v.commits = u.commits := (congrArg State.commits h.rest :)
theorem entries (h : Reads u v) : v.hif.entries = u.hif.entries := (congrArg Hif.entries h.hif :)
theorem hold (h : Reads u v) : v.hif.hold = u.hif.hold := (congrArg Hif.hold h.hif :)
theorem lostToPost (h : Reads u v) : v.hif.lostToPost = u.hif.lostToPost := (congrArg Hif.lostToPost h.hif :)

theorem reg (h : Reads u v) (f : Field) : v.reg f = u.reg f := by rw [State.reg, State.reg, h.regs]

theorem sqOn (h : Reads u v) (q : Nat) : v.sqOn q = u.sqOn q := by rw [State.sqOn, State.sqOn, h.reg]
theorem sqType (h : Reads u v) (q : Nat) : v.sqType q = u.sqType q := h.reg _
theorem page (h : Reads u v) : v.page = u.page := by rw [State.page, State.page, h.reg]
theorem hostWord (h : Reads u v) (a : Nat) : v.hostWord a = u.hostWord a := by rw [State.hostWord, State.hostWord, h.host]

theorem nextRaw (h : Reads u v) (q : Nat) : v.nextRaw q = u.nextRaw q := by
  rw [State.nextRaw, State.nextRaw, h.host, h.ring q]

/-- The entry that a ring has next is held as it would have been before. -/
theorem nextHeld (h : Reads u v) (q : Nat) : v.nextHeld q = u.nextHeld q := by
  have held (i : Nat) (raw : List Byte) : v.heldEntry q i raw = u.heldEntry q i raw :=
    (congrArg (State.heldEntry · q i raw) h.rest :)
  rw [State.nextHeld, State.nextHeld, held, h.nextRaw, State.nextIdx, State.nextIdx, h.ring q]

theorem parkWaiting (h : Reads u v) : v.parkWaiting = u.parkWaiting := by
  rw [State.parkWaiting, State.parkWaiting, h.bst, h.entries]

end Reads

variable {s u v w : State}

theorem reads_count (s : State) (b ev n : Nat) : Reads s (s.count b ev n) := by
  rw [count_rest]
  exact ⟨rfl, rfl, rfl, fun _ => rfl, fun _ h => h⟩

theorem reads_wakeBlock (s : State) (k : Nat) : Reads s (s.wakeBlock k) := by
  have awake := wakeBlock_pwr_ne_off s k
  rw [wakeBlock_rest] at awake ⊢
  exact ⟨rfl, rfl, rfl, fun _ => rfl, awake⟩

theorem reads_readConsOf (s : State) (e : Nat) : Reads s (s.readConsOf e) := by
  unfold State.readConsOf
  split
  · exact ⟨rfl, rfl, rfl, fun _ => rfl, fun _ h => h⟩
  · exact .refl s

theorem reads_pollStart (s : State) : Reads s s.pollStart := by
  have woken := (((reads_wakeBlock s 1).trans (reads_wakeBlock _ 2)).trans (reads_count _ 1 0x10 1)).trans
    (reads_count _ 2 0x10 0x120)
  rw [State.pollStart, readCons_eq]
  exact woken.trans (.foldl reads_readConsOf _ _)

/-! ### Producer indices -/

theorem ring_modRing_ne (s : State) {q j : Nat} (other : q ≠ j) (f : SubRing → SubRing) :
    (s.modRing q f).ring j = s.ring j := getD_modAt_ne _ other _ _

theorem ring_modRing_same {q : Nat} (lt : q < s.hif.sq.length) (f : SubRing → SubRing) :
    (s.modRing q f).ring q = f (s.ring q) := getD_modAt_same lt _ _

/-- There is no ring beyond the last. -/
theorem ring_beyond {q : Nat} (ge : s.hif.sq.length ≤ q) : s.ring q = .reset := by
  rw [State.ring, List.getD_eq_getElem?_getD, List.getElem?_eq_none ge]
  rfl

theorem length_modRing (s : State) (q : Nat) (f : SubRing → SubRing) : (s.modRing q f).hif.sq.length = s.hif.sq.length := by
  simp [State.modRing, modAt]

theorem reads_seen (s : State) (q p : Nat) : Reads s (s.modRing q (fun r => { r with prodSeen := p })) where
  rest := rfl
  hif := rfl
  size := length_modRing s q _
  ring j := by
    by_cases same : q = j
    · subst same
      by_cases lt : q < s.hif.sq.length
      · rw [ring_modRing_same lt]
      · have none := ring_beyond (s := s) (Nat.le_of_not_lt lt)
        rw [none, ring_beyond (s := s.modRing q _) (by rw [length_modRing]; exact Nat.le_of_not_lt lt)]
    · rw [ring_modRing_ne s same]
  awake _ h := h

/-- A ring that is enabled and runs. -/
def State.runs (s : State) (q : Nat) : Prop := s.sqOn q = true ∧ s.reg (HIF_SQ_CFG.HALTED q) = 0

theorem Reads.runs (h : Reads u v) (q : Nat) : v.runs q ↔ u.runs q := by
  rw [State.runs, State.runs, h.sqOn, h.reg]

/-- The entries that the page tells of for ring `q` are those that it has room for. -/
def State.fits (u : State) (q : Nat) : Prop := idxDiff (u.hostWord (u.page + 4 * q)) (u.ring q).cons ≤ (u.ring q).size

/-- The page's producer index of ring `q` has been read. -/
def State.sees (u v : State) (q : Nat) : Prop :=
  q < u.hif.sq.length → u.runs q → (v.ring q).prodSeen = u.hostWord (u.page + 4 * q)

theorem Reads.readProd (h : Reads u v) {q : Nat} (fits : u.runs q → u.fits q) :
    Reads u (v.readProd q) ∧ u.sees (v.readProd q) q ∧ ∀ j, u.sees v j → u.sees (v.readProd q) j := by
  unfold State.readProd
  by_cases on : v.runs q
  · have room := fits ((h.runs q).mp on)
    have ahead : ¬ idxDiff (v.hostWord (v.page + 4 * q)) (v.ring q).cons > (v.ring q).size := by
      rw [h.ring q, h.page, h.hostWord]
      exact Nat.not_lt.mpr room
    obtain ⟨enabled, running⟩ := on
    rw [if_pos (by simp [enabled, running]), if_neg ahead, h.page, h.hostWord]
    have same : u.sees (v.modRing q (fun r => { r with prodSeen := u.hostWord (u.page + 4 * q) })) q := by
      intro lt _
      rw [ring_modRing_same (h.size.symm ▸ lt)]
    refine ⟨h.trans (reads_seen v q _), same, fun j seen => ?_⟩
    by_cases eq : q = j
    · exact eq ▸ same
    · intro lt on
      rw [ring_modRing_ne v eq]
      exact seen lt on
  · have off : (v.sqOn q && decide (v.reg (HIF_SQ_CFG.HALTED q) = 0)) = false := by
      rw [Bool.eq_false_iff]
      intro both
      exact on (by simpa [State.runs] using both)
    rw [off, if_neg Bool.false_ne_true]
    exact ⟨h, fun _ run => absurd ((h.runs q).mpr run) on, fun _ seen => seen⟩

theorem Reads.readProds {l : List Nat} (fits : ∀ q ∈ l, u.runs q → u.fits q) : ∀ {v}, Reads u v →
    Reads u (l.foldl State.readProd v) ∧ (∀ j, u.sees v j ∨ j ∈ l → u.sees (l.foldl State.readProd v) j) := by
  induction l with
  | nil => exact fun h => ⟨h, fun j seen => seen.resolve_right List.not_mem_nil⟩
  | cons q l ih =>
    intro v h
    obtain ⟨reads, own, kept⟩ := h.readProd (fits q List.mem_cons_self)
    obtain ⟨all, seen⟩ := ih (fun j mem => fits j (List.mem_cons_of_mem _ mem)) reads
    refine ⟨all, fun j before => seen j ?_⟩
    obtain before | mem := before
    · exact .inl (kept j before)
    · obtain rfl | mem := List.mem_cons.mp mem
      · exact .inl own
      · exact .inr mem

/-- With nothing held, a poll has only read the page when it begins to take entries. -/
theorem reads_pollRead (empty : u.hif.hold = []) (none : u.hif.lostToPost = 0)
    (fits : ∀ q < 64, u.runs q → u.fits q) : Reads u u.pollRead ∧ ∀ q < 64, u.sees u.pollRead q := by
  have all : ∀ q ∈ List.range 64, u.runs q → u.fits q := fun q mem => fits q (List.mem_range.mp mem)
  obtain ⟨reads, seen⟩ := (reads_pollStart u).readProds all
  unfold State.pollRead
  generalize (List.range 64).foldl State.readProd u.pollStart = v at reads seen ⊢
  rw [drainHeld_of_nil (reads.hold.trans empty) (reads.lostToPost.trans none)]
  exact ⟨reads, fun q lt => seen q (.inr (List.mem_range.mpr lt))⟩

/-! ### Rings with nothing new -/

/-- Nothing is new on ring `q`. -/
def State.idle (s : State) (q : Nat) : Prop := s.runs q → idxDiff (s.ring q).prodSeen (s.ring q).cons = 0

theorem mayTake_of_idle {q : Nat} (idle : s.idle q) : s.mayTake q = false := by
  by_contra may
  have takes : s.mayTake q = true := by simpa using may
  simp only [State.mayTake, Bool.and_eq_true, beq_iff_eq, bne_iff_ne] at takes
  obtain ⟨⟨⟨⟨⟨on, runs⟩, new⟩, -⟩, -⟩, -⟩ := takes
  exact new (idle ⟨on, runs⟩)

/-- A ring from which no entry may be taken is passed over. -/
theorem pollRing_of_idle {q : Nat} (idle : s.idle q) : s.pollRing q = s := by
  have no := mayTake_of_idle idle
  have takes (n : Nat) : State.takeEntries q n s = s := by
    cases n with
    | zero => rfl
    | succ n => rw [State.takeEntries, no, Bool.false_and, if_neg Bool.false_ne_true]
  have discards (n : Nat) : State.discardBufs q n s = s := by
    cases n with
    | zero => rfl
    | succ n =>
      rw [State.discardBufs]
      split
      · rfl
      · rw [no, if_neg Bool.false_ne_true]
  unfold State.pollRing
  dsimp only
  rw [takes, discards, ite_self]

theorem pollRings_of_idle {l : List Nat} (idle : ∀ q ∈ l, s.idle q) : l.foldl State.pollRing s = s := by
  induction l with
  | nil => rfl
  | cons q l ih =>
    rw [List.foldl_cons, pollRing_of_idle (idle q List.mem_cons_self)]
    exact ih fun j mem => idle j (List.mem_cons_of_mem _ mem)

/-- A ring that is no STREAM ring and has one entry new gives it up. -/
theorem pollRing_of_one {q : Nat} (type : s.sqType q ≠ 2) (one : idxDiff (s.ring q).prodSeen (s.ring q).cons = 1)
    (may : s.mayTake q = true) (lets : s.orderLets q = true) : s.pollRing q = s.takeEntry q := by
  unfold State.pollRing
  dsimp only
  rw [if_neg type, one, State.takeEntries, may, lets]
  rfl

/-- The taking of an entry leaves the other rings as they are. -/
theorem idle_takeEntry {q j : Nat} (other : q ≠ j) (lt : j < 64) (idle : s.idle j) : (s.takeEntry q).idle j := by
  have serves := serves_takenOf_takeEntry s q
  have ring : (s.takeEntry q).ring j = s.ring j := by
    rw [State.ring, serves.sq, takenOf_hif]
    exact getD_modAt_ne _ other _ _
  have reg (f : Field) (word : f.addr = 0x11008 + 16 * j) (low : f.lo < 64) : (s.takeEntry q).reg f = s.reg f := by
    obtain ⟨hif, kept⟩ := sqCfg_not_event lt word low
    rw [serves.regs f hif kept, takenOf_reg]
  rintro ⟨on, runs⟩
  rw [ring]
  refine idle ⟨?_, ?_⟩
  · rw [State.sqOn, ← reg (HIF_SQ_CFG.ENABLE j) rfl (show 0 < 64 by decide)]
    exact on
  · rw [← reg (HIF_SQ_CFG.HALTED j) rfl (show 1 < 64 by decide)]
    exact runs

theorem nodup_pollOrder (s : State) : s.pollOrder.Nodup := by
  refine List.Nodup.append (List.nodup_range.filter _) (List.nodup_range.filter _) ?_
  intro q control other
  simp only [List.mem_filter, beq_iff_eq, bne_iff_ne] at control other
  exact other.2 control.2

/-- With one entry new, on ring `q`, the poll takes it and nothing else. -/
theorem pollTakes_of_one {q : Nat} (lt : q < 64) (type : s.sqType q ≠ 2)
    (one : idxDiff (s.ring q).prodSeen (s.ring q).cons = 1) (may : s.mayTake q = true) (lets : s.orderLets q = true)
    (idle : ∀ j < 64, j ≠ q → s.idle j) : s.pollTakes = s.takeEntry q := by
  obtain ⟨before, after, order⟩ := List.append_of_mem ((mem_pollOrder s).mpr lt)
  have nodup := nodup_pollOrder s
  have small (j : Nat) (mem : j ∈ s.pollOrder) : j < 64 := (mem_pollOrder s).mp mem
  rw [order] at nodup small
  have own : q ∉ before ++ after := (List.nodup_cons.mp (List.nodup_middle.mp nodup)).1
  have first : ∀ j ∈ before, s.idle j := fun j mem =>
    idle j (small j (by simp [mem])) (by rintro rfl; exact own (by simp [mem]))
  have last : ∀ j ∈ after, (s.takeEntry q).idle j := fun j mem => by
    have other : j ≠ q := by rintro rfl; exact own (by simp [mem])
    have lt := small j (by simp [mem])
    exact idle_takeEntry other.symm lt (idle j lt other)
  rw [State.pollTakes, order, List.foldl_append, List.foldl_cons, pollRings_of_idle first,
    pollRing_of_one type one may lets, pollRings_of_idle last]

end Sys2Proof.Machine

end

/-! ## Indices are written back, and the entry that the poll has taken (R34, R70, R74, R92) -/

section

namespace Sys2Proof.Machine

variable {s t u v w : State}

/-! ### Words of host memory -/

theorem hostWord_hostWriteWord_same (s : State) (a : Nat) {v : Nat} (small : v < 2 ^ 32) :
    (s.hostWriteWord a v).hostWord a = v := by
  have bytes : Memory.bytes (s.hostWriteWord a v).host a 4 = ((le 4 v).drop 0).take 4 :=
    Sparse.getList_setList ramByte s.host a 0 4 (le 4 v) (by rw [le_length])
  rw [State.hostWord, bytes, List.drop_zero, List.take_of_length_le (by rw [le_length]), unle_le]
  exact Nat.mod_eq_of_lt small

theorem hostWord_hostWriteWord_away (s : State) {a b : Nat} (away : a + 4 ≤ b ∨ b + 4 ≤ a) (v : Nat) :
    (s.hostWriteWord b v).hostWord a = s.hostWord a := by
  have bytes : Memory.bytes (s.hostWriteWord b v).host a 4 = Memory.bytes s.host a 4 := by
    refine List.map_congr_left fun i mem => Memory.byte_write_outside _ _ _ _ ?_
    have small := List.mem_range.mp mem
    rw [le_length]
    omega
  rw [State.hostWord, State.hostWord, bytes]

/-! ### The write-back -/

/-- From `s` to `t` indices have been written back. -/
structure Backs (s t : State) : Prop where
  rest : t = { s with host := t.host, pmu := t.pmu, hif := { s.hif with sq := t.hif.sq, eq := t.hif.eq } }
  cons : ∀ j, (t.ring j).cons = (s.ring j).cons

theorem Backs.refl (s : State) : Backs s s := ⟨rfl, fun _ => rfl⟩

theorem Backs.trans (h : Backs s t) (k : Backs t u) : Backs s u := by
  refine ⟨?_, fun j => (k.cons j).trans (h.cons j)⟩
  rw [k.rest, h.rest]

theorem Backs.foldl {α : Type} {f : State → α → State} (hf : ∀ s a, Backs s (f s a)) (l : List α) :
    ∀ s, Backs s (l.foldl f s) := by
  induction l with
  | nil => exact refl
  | cons a l ih => exact fun s => (hf s a).trans (ih _)

theorem backs_count (s : State) (b ev n : Nat) : Backs s (s.count b ev n) := by
  rw [count_rest]
  exact ⟨rfl, fun _ => rfl⟩

/-- The index last written back of ring `q` is the consumer index. -/
theorem backs_written (s : State) (q a v : Nat) :
    Backs s ((s.hostWriteWord a v).modRing q (fun r => { r with written := r.cons })) := by
  refine ⟨rfl, fun j => ?_⟩
  by_cases same : q = j
  · subst same
    by_cases lt : q < s.hif.sq.length
    · rw [ring_modRing_same (s := s.hostWriteWord a v) lt]
      rfl
    · have ge := Nat.le_of_not_lt lt
      rw [ring_beyond ge, ring_beyond (s := (s.hostWriteWord a v).modRing q _) (by rw [length_modRing]; exact ge)]
  · rw [ring_modRing_ne _ same]
    rfl

theorem backs_sqBack (s : State) (q : Nat) : Backs s (s.sqBack q) := by
  unfold State.sqBack
  split
  · exact (backs_written s q _ _).trans (backs_count _ _ _ _)
  · exact .refl s

theorem backs_eqBack (s : State) (e : Nat) : Backs s (s.eqBack e) := by
  unfold State.eqBack
  split
  · refine Backs.trans ?_ (backs_count _ _ _ _)
    exact ⟨rfl, fun _ => rfl⟩
  · exact .refl s

theorem backs_writeBack (s : State) : Backs s s.writeBack := by
  rw [writeBack_eq]
  exact (Backs.foldl backs_sqBack _ s).trans (.foldl backs_eqBack _ _)

/-- Ring `q` of the page at `p` stands at index `c`, which the page shows once it is written back. -/
structure Backed (p q c : Nat) (s : State) : Prop where
  page : s.page = p
  on : s.sqOn q = true
  lt : q < s.hif.sq.length
  cons : (s.ring q).cons = c
  small : c < 2 ^ 32
  shown : (s.ring q).written = c → s.hostWord (p + 0x200 + 4 * q) = c

namespace Backed

variable {p q c : Nat}

theorem count (h : Backed p q c s) (b ev n : Nat) : Backed p q c (s.count b ev n) := by
  rw [count_rest]
  exact ⟨h.page, h.on, h.lt, h.cons, h.small, h.shown⟩

/-- The page shows the index of ring `q` once it is written. -/
theorem writes (h : Backed p q c s) : Backed p q c ((s.hostWriteWord (p + 0x200 + 4 * q) c).modRing q
    (fun r => { r with written := r.cons })) where
  page := h.page
  on := h.on
  lt := by rw [length_modRing]; exact h.lt
  cons := by rw [ring_modRing_same (s := s.hostWriteWord _ _) h.lt]; exact h.cons
  small := h.small
  shown _ := hostWord_hostWriteWord_same s _ h.small

/-- The words of the other rings stand elsewhere. -/
theorem writesOther (h : Backed p q c s) {j : Nat} (other : j ≠ q) (v : Nat) :
    Backed p q c ((s.hostWriteWord (p + 0x200 + 4 * j) v).modRing j (fun r => { r with written := r.cons })) where
  page := h.page
  on := h.on
  lt := by rw [length_modRing]; exact h.lt
  cons := by rw [ring_modRing_ne _ other]; exact h.cons
  small := h.small
  shown written := by
    rw [ring_modRing_ne _ other] at written
    exact (hostWord_hostWriteWord_away s (by omega) v).trans (h.shown written)

/-- So do those of the event rings. -/
theorem writesEvent (h : Backed p q c s) (lt : q < 64) (e v : Nat) :
    Backed p q c ((s.hostWriteWord (p + 0x300 + 4 * e) v).modEvRing e (fun r => { r with written := r.prod })) where
  page := h.page
  on := h.on
  lt := h.lt
  cons := h.cons
  small := h.small
  shown written := (hostWord_hostWriteWord_away s (by omega) v).trans (h.shown written)

theorem ring_count (s : State) (b ev n j : Nat) : (s.count b ev n).ring j = s.ring j := by
  rw [State.ring, count_hif]
  rfl

/-- The step for ring `q` itself. -/
theorem own (h : Backed p q c s) : Backed p q c (s.sqBack q) ∧ ((s.sqBack q).ring q).written = c := by
  unfold State.sqBack
  by_cases written : (s.ring q).written = c
  · rw [if_neg (by simp [written, h.cons])]
    exact ⟨h, written⟩
  · rw [if_pos (by simp [h.on, h.cons, written]), h.page, h.cons]
    refine ⟨h.writes.count _ _ _, ?_⟩
    rw [ring_count, ring_modRing_same (s := s.hostWriteWord _ _) h.lt]
    exact h.cons

/-- The step for another ring. -/
theorem other (h : Backed p q c s) {j : Nat} (other : j ≠ q) :
    Backed p q c (s.sqBack j) ∧ ((s.sqBack j).ring q).written = (s.ring q).written := by
  unfold State.sqBack
  split
  · rw [h.page, ring_count, ring_modRing_ne _ other]
    exact ⟨(h.writesOther other _).count _ _ _, rfl⟩
  · exact ⟨h, rfl⟩

/-- The step for an event ring. -/
theorem event (h : Backed p q c s) (lt : q < 64) (e : Nat) :
    Backed p q c (s.eqBack e) ∧ ((s.eqBack e).ring q).written = (s.ring q).written := by
  unfold State.eqBack
  split
  · rw [h.page, ring_count]
    exact ⟨(h.writesEvent lt e _).count _ _ _, rfl⟩
  · exact ⟨h, rfl⟩

theorem rings {l : List Nat} : ∀ {s}, Backed p q c s →
    Backed p q c (l.foldl State.sqBack s) ∧
      ((s.ring q).written = c ∨ q ∈ l → ((l.foldl State.sqBack s).ring q).written = c) := by
  induction l with
  | nil => exact fun h => ⟨h, fun written => written.resolve_right List.not_mem_nil⟩
  | cons j l ih =>
    intro s h
    rw [List.foldl_cons]
    by_cases same : j = q
    · subst same
      obtain ⟨next, written⟩ := h.own
      exact ⟨(ih next).1, fun _ => (ih next).2 (.inl written)⟩
    · obtain ⟨next, written⟩ := h.other same
      refine ⟨(ih next).1, fun before => (ih next).2 ?_⟩
      rw [written]
      exact before.imp_right fun mem => (List.mem_cons.mp mem).resolve_left (Ne.symm same)

theorem events (lt : q < 64) {l : List Nat} : ∀ {s}, Backed p q c s →
    Backed p q c (l.foldl State.eqBack s) ∧
      ((s.ring q).written = c → ((l.foldl State.eqBack s).ring q).written = c) := by
  induction l with
  | nil => exact fun h => ⟨h, id⟩
  | cons e l ih =>
    intro s h
    rw [List.foldl_cons]
    obtain ⟨next, written⟩ := h.event lt e
    exact ⟨(ih next).1, fun before => (ih next).2 (written.trans before)⟩

/-- After the write-back the page shows the index. -/
theorem writeBack (h : Backed p q c s) (lt : q < 64) : s.writeBack.hostWord (p + 0x200 + 4 * q) = c := by
  rw [writeBack_eq]
  obtain ⟨rings, written⟩ := h.rings (l := List.range 64)
  obtain ⟨events, kept⟩ := rings.events lt (l := List.range 8)
  exact events.shown (kept (written (.inr (List.mem_range.mpr lt))))

end Backed

/-! ### The one entry -/

/-- With no block under test R117 makes no entry wait. -/
theorem gate_ne_wait (test : s.bst.test = none) (raw : List Byte) : s.gate raw ≠ .wait := by
  unfold State.gate
  extract_lets ts
  split
  · simp
  · split
    · simp
    · rw [if_neg (by simp [State.bistHolds, test])]
      simp

theorem Reads.orderLets (h : Reads u v) (test : u.bst.test = none) {q : Nat} (lets : u.orderLets q = true) :
    v.orderLets q = true := by
  have entriesOf : v.entriesOf q = u.entriesOf q := by rw [State.entriesOf, State.entriesOf, h.entries]
  have barred : v.barred q = u.barred q := by rw [State.barred, State.barred, entriesOf]
  have waits (x : State) (test : x.bst.test = none) (raw : List Byte) : (x.gate raw != .wait) = true :=
    bne_iff_ne.mpr (gate_ne_wait test raw)
  unfold State.orderLets at lets ⊢
  dsimp only at lets ⊢
  rw [waits u test] at lets
  rw [waits v (by rw [h.bst]; exact test), h.sqType, h.nextRaw, h.waiting, entriesOf, barred, h.commits]
  exact lets

/-- One well-formed entry is new on ring `q`, and none on the others. -/
structure OneNew (u : State) (q : Nat) : Prop where
  served : Served u
  test : u.bst.test = none
  hold : u.hif.hold = []
  lost : u.hif.lostToPost = 0
  park : u.parkWaiting = false
  lt : q < 64
  size : q < u.hif.sq.length
  runs : u.runs q
  type : u.sqType q ≠ 2
  inside : u.inWindow ((u.ring q).base + (u.ring q).cons % (u.ring q).size * 64) 64 = true
  room : 0 < (u.ring q).size
  new : u.hostWord (u.page + 4 * q) = ((u.ring q).cons + 1) % 2 ^ 32
  behind : (u.ring q).written ≠ ((u.ring q).cons + 1) % 2 ^ 32
  others : ∀ j, j < 64 → j ≠ q → u.sqOn j = false ∨ u.hostWord (u.page + 4 * j) = (u.ring j).cons
  well : malformed (u.sqType q) (u.nextRaw q) = false
  lets : u.orderLets q = true

theorem idxDiff_self (c : Nat) : idxDiff c c = 0 := by
  simp only [idxDiff]
  omega

theorem idxDiff_next (c : Nat) : idxDiff ((c + 1) % 2 ^ 32) c = 1 := by
  simp only [idxDiff]
  omega

namespace OneNew

variable {q : Nat}

/-- Of another ring that runs the page shows the consumer index. -/
theorem pageShows (h : OneNew u q) {j : Nat} (lt : j < 64) (other : j ≠ q) (runs : u.runs j) :
    u.hostWord (u.page + 4 * j) = (u.ring j).cons :=
  (h.others j lt other).resolve_left (by rw [runs.1]; decide)

theorem fits (h : OneNew u q) (j : Nat) (lt : j < 64) (runs : u.runs j) : u.fits j := by
  unfold State.fits
  by_cases same : j = q
  · subst same
    rw [h.new, idxDiff_next]
    exact h.room
  · rw [h.pageShows lt same runs, idxDiff_self]
    exact Nat.zero_le _

/-- The entry is taken once the page has been read, and the indices are written back. -/
theorem poll (h : OneNew u q) : ∃ v, Reads u v ∧ u.poll = (v.takeEntry q).writeBack := by
  obtain ⟨reads, seen⟩ := reads_pollRead h.hold h.lost h.fits
  rw [poll_of_served h.served]
  generalize u.pollRead = v at reads seen ⊢
  have one : idxDiff (v.ring q).prodSeen (v.ring q).cons = 1 := by
    have cons : (v.ring q).cons = (u.ring q).cons := by rw [reads.ring q]
    rw [seen q h.lt h.size h.runs, cons, h.new, idxDiff_next]
  have may : v.mayTake q = true := by
    have inside : v.inWindow ((v.ring q).base + (v.ring q).cons % (v.ring q).size * 64) 64 = true := by
      rw [State.inWindow, reads.prot, reads.ring q]
      exact h.inside
    obtain ⟨on, running⟩ := (reads.runs q).mpr h.runs
    simp [State.mayTake, on, running, one, inside, reads.hold, h.hold, reads.parkWaiting, h.park]
  have idle (j : Nat) (lt : j < 64) (other : j ≠ q) : v.idle j := by
    intro runs
    have running := (reads.runs j).mp runs
    by_cases within : j < u.hif.sq.length
    · have cons : (v.ring j).cons = (u.ring j).cons := by rw [reads.ring j]
      rw [seen j lt within running, cons, h.pageShows lt other running, idxDiff_self]
    · rw [ring_beyond (by rw [reads.size]; exact Nat.le_of_not_lt within)]
      rfl
  refine ⟨v, reads, ?_⟩
  rw [pollTakes_of_one h.lt (by rw [reads.sqType]; exact h.type) one may (reads.orderLets h.test h.lets) idle]

/-- The ring and the page once the entry is taken. -/
theorem backed (h : OneNew u q) (reads : Reads u v) :
    Backed u.page q (((u.ring q).cons + 1) % 2 ^ 32) (v.takeEntry q) := by
  have serves := serves_takenOf_takeEntry v q
  have ring : (v.takeEntry q).ring q = { v.ring q with cons := ((v.ring q).cons + 1) % 2 ^ 32 } := by
    rw [State.ring, serves.sq, takenOf_hif]
    exact getD_modAt_same (by rw [reads.size]; exact h.size) _ _
  have reg (f : Field) (hif : keyBlock f.key = 1) (kept : f.key ∉ eventFields.map Field.key) :
      (v.takeEntry q).reg f = u.reg f := by
    rw [serves.regs f hif kept, takenOf_reg, reads.reg]
  obtain ⟨hif, kept⟩ := sqCfg_not_event h.lt (f := HIF_SQ_CFG.ENABLE q) rfl (show 0 < 64 by decide)
  refine ⟨?_, ?_, ?_, ?_, Nat.mod_lt _ (by decide), fun written => absurd written ?_⟩
  · rw [State.page, reg HIF_DB_BASE.ADDR (by decide) (by decide)]
    rfl
  · rw [State.sqOn, reg _ hif kept]
    exact h.runs.1
  · rw [serves.sq, takenOf_hif]
    simpa [modAt, reads.size] using h.size
  · rw [ring, reads.ring q]
  · rw [ring, reads.ring q]
    exact h.behind

/-- An entry other than a COMMIT is held, last. -/
theorem held (h : OneNew u q) (reads : Reads u v) (other : rawOpc (u.nextRaw q) ≠ 0x60) :
    (v.takeEntry q).hif.entries = u.hif.entries ++ [u.nextHeld q] := by
  have test : (v.takenOf q).bst.test = none := by
    have bst : (v.takenOf q).bst = v.bst := (congrArg State.bst (takes_takenOf v q).rest :)
    rw [bst, reads.bst]
    exact h.test
  rw [takeEntry_eq, takenOf_sqType, reads.sqType, reads.nextRaw, h.well, if_neg Bool.false_ne_true, if_neg other,
    bistYield_of_no_test _ test, takenOf_hif, reads.entries, reads.nextHeld]

end OneNew

/-! ### A COMMIT in a stripe -/

/-- While a stripe is ARMED or RUN a validated set that stores no trims waits. -/
theorem commitValid_waits {c : PendingCommit} (active : s.stripeActive = true) (stores : c.storesTrims = false) :
    (s.commitValid c).commits.waiting = s.commits.waiting ++ [c] ∧ (s.commitValid c).live = s.live := by
  have reserved : (s.reserveAuth c).commits = s.commits ∧ (s.reserveAuth c).live = s.live ∧ (s.reserveAuth c).g = s.g := by
    unfold State.reserveAuth
    split <;> exact ⟨rfl, rfl, rfl⟩
  obtain ⟨commits, live, g⟩ := reserved
  unfold State.commitValid
  dsimp only
  rw [if_neg (by rw [stores]; decide)]
  generalize started : (s.reserveAuth c).startEntry c.q c.idx = x
  have sent : (x.sendSet c.id c.mask c.fields).commits = x.commits ∧ (x.sendSet c.id c.mask c.fields).live = x.live ∧
      (x.sendSet c.id c.mask c.fields).g = x.g := by
    unfold State.sendSet
    split
    · exact ⟨naluSend_commits _ _, naluSend_live _ _, naluSend_g _ _⟩
    · exact ⟨rfl, rfl, rfl⟩
  obtain ⟨commits', live', g'⟩ := sent
  have own : x.commits = s.commits ∧ x.live = s.live ∧ x.g = s.g := started ▸ ⟨commits, live, g⟩
  have ready : (x.sendSet c.id c.mask c.fields).g ≠ .ready ∧ (x.sendSet c.id c.mask c.fields).g ≠ .start := by
    rw [g', own.2.2]
    exact busy_of_stripeActive active
  unfold State.commitWaits
  dsimp only
  rw [if_neg (by simpa using ready.1), if_neg (by simpa using ready.2)]
  exact ⟨by rw [commits', own.1], live'.trans own.2.1⟩

theorem OneNew.commit {q : Nat} (h : OneNew u q) (reads : Reads u v) (opc : rawOpc (u.nextRaw q) = 0x60)
    (named : num (u.nextRaw q) 8 4 ≠ 0) (gate : u.gate (u.nextRaw q) = .go) (active : u.stripeActive = true)
    {c : PendingCommit} (set : u.takeSet q (u.nextIdx q) (num (u.nextRaw q) 8 4) (num (u.nextRaw q) 12 4) = c)
    (passes : u.refusing c = none) (stores : c.storesTrims = false) :
    (v.takeEntry q).commits.waiting = u.commits.waiting ++ [c] ∧ (v.takeEntry q).live = u.live := by
  have taken := takes_takenOf v q
  have rest : (v.takenOf q).untaken = u.untaken := taken.rest.trans (congrArg State.untaken reads.rest :)
  have awake (k : Nat) (on : u.pwr k ≠ .off) : (v.takenOf q).pwr k ≠ .off := taken.awake k (reads.awake k on)
  have run : v.takeEntry q = (v.takenOf q).takeCommit (u.nextHeld q) := by
    rw [takeEntry_eq, takenOf_sqType, reads.sqType, reads.nextRaw, h.well, if_neg Bool.false_ne_true, if_pos opc,
      reads.nextHeld]
  rw [run]
  generalize v.takenOf q = x at rest awake ⊢
  have keeps {α : Type} (f : State → α) : f x.untaken = f u.untaken := congrArg f rest
  have test : x.bst.test = none := (keeps (fun t => t.bst.test)).trans h.test
  have go : x.gate (u.nextRaw q) = .go := (gate_commit x opc test).mpr fun k mem =>
    have before := (gate_commit u opc h.test).mp gate k mem
    ⟨awake k before.1, fun asked => before.2 ((keeps (fun t => t.pwrReq k)).symm.trans asked)⟩
  have set' : x.takeSet q (u.nextIdx q) (num (u.nextRaw q) 8 4) (num (u.nextRaw q) 12 4) = c :=
    (keeps (fun t => t.takeSet _ _ _ _)).trans set
  have verdict : x.refusing c = none := (keeps (fun t => t.refusing c)).trans passes
  have valid : x.takeCommit (u.nextHeld q) = x.commitValid c := by
    unfold State.takeCommit
    simp only [State.nextHeld, State.heldEntry, named, if_false, go, bistYield_of_no_test x test, set', verdict]
  rw [valid]
  obtain ⟨waiting, live⟩ := commitValid_waits (s := x) ((keeps State.stripeActive).trans active) stores
  exact ⟨waiting.trans (by rw [show x.commits = u.commits from keeps State.commits]), live.trans (keeps State.live)⟩

end Sys2Proof.Machine

end

/-- Settles O13: what a poll leaves (`polls_poll`), the poll that takes one entry (`OneNew`), and the start of polling
(`doorbellEnable_starts`). -/
theorem pollingIsGuarded : Obligations.PollingIsGuarded := by
  refine ⟨fun s hw => ⟨fun none out => ?_, ?_, fun served lead => ?_, fun none => ?_⟩, ?_,
    fun s w lands => Sys2Proof.Machine.doorbellEnable_starts s w lands⟩
  · rw [Sys2Proof.Machine.doorbellPoll_once hw none,
      Sys2Proof.Machine.poll_of_unserved (Sys2Proof.Machine.unserved_hostWrites out)]
  · obtain ⟨t, run, again, still⟩ := Sys2Proof.Machine.doorbellPoll_polls s hw
    refine ⟨t, run, again, fun none => ?_⟩
    have same := still none
    exact ⟨(congrArg Sys2Proof.Machine.State.hbm same :), (congrArg Sys2Proof.Machine.State.flash same :),
      (congrArg Sys2Proof.Machine.State.stripe same :), (congrArg Sys2Proof.Machine.State.g same :),
      (congrArg Sys2Proof.Machine.State.tabLive same :), (congrArg Sys2Proof.Machine.State.prot same :)⟩
  · exact ⟨_, rfl, rfl, rfl, rfl, rfl⟩
  · rw [Sys2Proof.Machine.doorbellPoll_once hw none]
    rfl
  · intro s hw q served polling lead test none hold lost park lt size on type runs u r raw page inside room new behind others
      well lets idx
    have one : Sys2Proof.Machine.OneNew u q :=
      ⟨⟨served, polling, lead, page⟩, test, hold, lost, park, lt, size, ⟨on, runs⟩, type, inside, room, new, behind, others,
        well, lets⟩
    obtain ⟨v, reads, poll⟩ := one.poll
    have backed := one.backed reads
    have backs := Sys2Proof.Machine.backs_writeBack (v.takeEntry q)
    have entries : (v.takeEntry q).writeBack.hif.entries = (v.takeEntry q).hif.entries := by rw [backs.rest]
    have commits : (v.takeEntry q).writeBack.commits = (v.takeEntry q).commits := by rw [backs.rest]
    have live : (v.takeEntry q).writeBack.live = (v.takeEntry q).live := by rw [backs.rest]
    refine ⟨(v.takeEntry q).writeBack, (Sys2Proof.Machine.doorbellPoll_once hw none).trans (congrArg _ poll),
      fun other => entries.trans (one.held reads other), (backs.cons q).trans backed.cons, backed.writeBack lt, ?_⟩
    intro opc named gate active c passes stores
    obtain ⟨waiting, same⟩ := one.commit reads opc named gate active (c := c) rfl passes stores
    exact ⟨(congrArg _ commits).trans waiting, live.trans same⟩

/-! ## SCAN and SCAN_COMPLETE (R84, R119 to R124) -/

section

namespace Sys2Proof.Machine

/-! ### A SCAN is taken -/

theorem exec_scan {s : State} {q : Nat} {hw : Cells} {e : Entry} (acts : (s.hostWrites hw).acts q 0x40 e) :
    exec (.scan q hw) s = .next ((s.hostWrites hw).scanEntry e) :=
  congrArg Host.Outcome.next (onEntry_of_acts acts _)

/-- The scan that a SCAN asks for, with its starting value. -/
def Entry.scan (e : Entry) (value : Nat) : Scan :=
  let p := scanOf e.raw
  { q := e.q, idx := e.idx, addr := p.addr, len := p.len, value, poly := p.poly, space := p.space, seedAddr := p.seedAddr
    done := 0 }

section Taken

variable {s : State} {e : Entry}

theorem scanEntry_rejected (bad : s.scanBad (scanOf e.raw) = true) : s.scanEntry e = s.complete e.q e.idx 0x09 0 0 0 :=
  if_pos bad

theorem scanEntry_empty (ok : s.scanBad (scanOf e.raw) = false) (empty : (scanOf e.raw).len = 0) : s.scanEntry e =
    s.complete e.q e.idx (if (scanOf e.raw).ctx = 1 then 0x00 else 0x01) 0 (s.scanStart (scanOf e.raw)) 0 := by
  unfold State.scanEntry
  dsimp only
  rw [if_neg (by rw [ok]; decide), if_pos empty]

theorem scanEntry_starts (ok : s.scanBad (scanOf e.raw) = false) (data : (scanOf e.raw).len ≠ 0) {k : Nat}
    (free : s.freeEngine = some k) :
    s.scanEntry e = (s.reach (17 + k) e.raw).scanOn k (e.scan (s.scanStart (scanOf e.raw))) := by
  unfold State.scanEntry
  dsimp only
  rw [if_neg (by rw [ok]; decide), if_neg data, free]
  rfl

end Taken

/-- CHK_ENG_VAL shows a scan's value. -/
theorem scanRegs_value (s : State) (k v n : Nat) : (s.scanRegs k v n).reg (CHK_ENG_VAL.VAL k) = v % 2 ^ 64 := by
  rw [State.scanRegs, reg_setReg_ne, reg_setReg_same]
  · rfl
  · simp only [Field.key, CHK_ENG_VAL.VAL, CHK_ENG_DONE.BYTES]
    omega

theorem scanRegs_rest (s : State) (k v n : Nat) : s.scanRegs k v n = { s with regs := (s.scanRegs k v n).regs } := rfl

theorem scanRegs_scans (s : State) (k v n : Nat) : (s.scanRegs k v n).scans = s.scans := rfl

theorem sameMemories_scanRegs (s : State) (k v n : Nat) : SameMemories s (s.scanRegs k v n) := ⟨rfl, rfl, rfl⟩

theorem getD_setAt_same {α : Type} {l : List α} {i : Nat} (lt : i < l.length) (v d : α) : (setAt l i v).getD i d = v := by
  simp [setAt, List.getD_eq_getElem?_getD, lt]

/-- What an engine that takes up a scan holds and shows. -/
theorem scanOn_starts {s : State} {k : Nat} (lt : k < s.scans.length) (sc : Scan) :
    (s.scanOn k sc).scans.getD k none = some sc ∧ SameMemories s (s.scanOn k sc) ∧
      (s.scanOn k sc).reg (CHK_ENG_VAL.VAL k) = sc.value % 2 ^ 64 := by
  unfold State.scanOn
  extract_lets piece req u
  have same : SameMemories s u := ⟨rfl, rfl, rfl⟩
  have noted := (same.trans (sameMemories_setReg u (CHK_ENG_STATUS.POLY k) sc.poly)).trans
    (sameMemories_setReg _ (CHK_ENG_STATUS.SPACE k) sc.space)
  rw [scanRegs_scans]
  exact ⟨getD_setAt_same lt _ _, noted.trans (sameMemories_scanRegs _ k _ _), scanRegs_value _ k _ _⟩

theorem scanEntry_acts (s : State) (e : Entry) :
    let p := scanOf e.raw
    let t := s.scanEntry e
    t.hbm = s.hbm ∧ t.stripe = s.stripe ∧ t.tabLive = s.tabLive ∧
      (s.scanBad p = true → t = s.complete e.q e.idx 0x09 0 0 0 ∧ t.scans = s.scans ∧ t.chans = s.chans ∧
        t.entry? e.q e.idx = none ∧ MemoriesBut (s.cplSlot e.q) s t) ∧
      (s.scanBad p = false → p.len ≠ 0 → ∀ k, s.freeEngine = some k → k < s.scans.length →
        t.scans.getD k none = some (e.scan (s.scanStart p)) ∧ SameMemories s t ∧
        t.reg (CHK_ENG_VAL.VAL k) = s.scanStart p % 2 ^ 64) := by
  intro p t
  have calm : Calm s t := calm_scanEntry s e
  refine ⟨(keeps_scanEntry s e).1, calm.stripe, calm.tabLive, fun bad => ?_, fun ok data k free lt => ?_⟩
  · rw [show t = _ from scanEntry_rejected bad]
    exact ⟨rfl, complete_scans s _ _ _ _ _ _, complete_chans s _ _ _ _ _ _, entry?_complete s _ _ _ _ _ _,
      memoriesBut_complete s _ _ _ _ _ _⟩
  · rw [show t = _ from scanEntry_starts ok data free]
    have reached := reach_rest (s := s) (17 + k) e.raw
    obtain ⟨held, same, value⟩ := scanOn_starts (s := s.reach (17 + k) e.raw) (k := k) (by rw [reached]; exact lt)
      (e.scan (s.scanStart p))
    exact ⟨held, SameMemories.trans (by rw [reached]; exact ⟨rfl, rfl, rfl⟩) same, value⟩

/-! ### Nothing waits to be tried again -/

/-- With its one entry dropped a chip holds none. -/
theorem dropEntry_only {s : State} {q idx : Nat} {e : Entry} (held : s.entry? q idx = some e)
    (only : s.hif.entries = [e]) : (s.dropEntry q idx).hif.entries = [] := by
  have own : (e.q == q && e.idx == idx) = true := List.find?_some (p := fun e : Entry => e.q == q && e.idx == idx) held
  show s.hif.entries.filter _ = []
  rw [only, List.filter_cons_of_neg (by simpa using own), List.filter_nil]

/-- With every entry begun there is nothing to try again. -/
theorem pump_of_all_started {s : State} (begun : s.hif.entries.all (·.started) = true) (ty : Nat)
    (act : State → Entry → State) : s.pump ty act = s := by
  have none : s.hif.entries.filter (fun e => opcType (rawOpc e.raw) == ty && !e.started) = [] :=
    List.filter_eq_nil_iff.mpr fun e mem => by simp [List.all_eq_true.mp begun e mem]
  unfold State.pump
  rw [none]
  split <;> rfl

/-- With no scan and no entry waiting no engine is taken. -/
theorem scanNext_of_none {s : State} (begun : s.hif.entries.all (·.started) = true) (none : s.scanWait = []) :
    s.scanNext = s := by
  rw [State.scanNext, none, List.length_nil, State.scanResume, none]
  exact pump_of_all_started begun 5 _

/-! ### A scan reads to its end -/

/-- A scan that meets no uncorrectable word takes in its next bytes. -/
theorem scanReads_clean (s : State) {ecc : EccReads} (clean : ecc.bad = none) (k : Nat) (sc : Scan) (n : Nat) :
    ∃ u, ReadsOnly s u ∧ s.scanReads k sc n ecc = (u.scanSteps k sc n, false) := by
  unfold State.scanReads
  split
  · exact ⟨s, .refl s, rfl⟩
  · extract_lets r
    have none : r.2 = none := eccRead_clean _ clean 4 sc.addr n
    refine ⟨r.1, (readsOnly_count s 8 0x10 _).trans (readsOnly_eccRead _ 4 sc.addr n ecc), ?_⟩
    rw [none]

/-- A scan over bytes that the model holds comes to the check value over them. -/
theorem scanResult_held {s : State} {sc : Scan} {n : Nat} (holds : sc.space = 1 → hbmUnheld sc.addr n = false) :
    s.scanResult sc n = (s.scanValue sc n, s) := by
  refine if_neg fun free => ?_
  obtain ⟨hbm, unheld⟩ := (Bool.and_eq_true _ _).mp free
  rw [holds (of_decide_eq_true hbm)] at unheld
  cases unheld

/-- The end of a request leaves every register but those of its channel and of the HIF. -/
theorem endReq_reg {s : State} {ch : Nat} {r : Request} (held : (s.chan ch).req = some r) {status : Nat}
    (info d0 d1 : Nat) {f : Field} (other : f.key ∉ (reqFields ch).map Field.key) (high : keyBlock f.key ≠ 1) :
    (s.endReq ch status info d0 d1).reg f = s.reg f := by
  rw [endReq_eq held]
  exact (regsButHif_complete _ [] _ _ _ _ _ _ f List.not_mem_nil high).trans
    ((regsMoved_reqShown s ch status r).regs f other)

/-- The end of a request leaves the check engines. -/
theorem endReq_scans {s : State} {ch : Nat} {r : Request} (held : (s.chan ch).req = some r) (status info d0 d1 : Nat) :
    let t := s.endReq ch status info d0 d1
    t.scans = s.scans ∧ t.scanWait = s.scanWait ∧ t.stripe = s.stripe := by
  dsimp only
  rw [endReq_eq held, complete_scans, complete_scanWait, complete_stripe, reqRecorded_rest]
  exact ⟨rfl, rfl, rfl⟩

/-- The request of a scan that has come to `sc`. -/
def Request.scanned (r : Request) (sc : Scan) : Request :=
  { r with piece := { addr := sc.addr, len := sc.len, swap := 0, wrap := 0, moved := 0 }, delivered := sc.done }

/-- CHK_ENG_VAL is no register of a DMA channel. -/
theorem valueKey_notMem (k : Nat) : (CHK_ENG_VAL.VAL k).key ∉ (reqFields (17 + k)).map Field.key := by
  simp only [reqFields, List.map_cons, List.map_nil, List.mem_cons, List.not_mem_nil, or_false, not_or, Field.key,
    CHK_ENG_VAL.VAL, DMA_CH_STATUS.LAST_STATUS, DMA_CH_STATUS.CAUSE, DMA_CH_DONE.DONE, DMA_CH_RESIDUE.RESIDUE,
    DMA_CH_STATUS.HELD, DMA_CH_STATUS.WAKE_WAIT]
  omega

/-- Engine `k` holds the scan of the one entry that is held. -/
structure ScanRuns (s : State) (k : Nat) (sc : Scan) (e : Entry) (r : Request) : Prop where
  engine : s.scans.getD k none = some sc
  lt : k < s.scans.length
  req : (s.chan (17 + k)).req = some r
  chan : 17 + k < s.chans.length
  q : r.q = sc.q
  idx : r.idx = sc.idx
  held : s.entry? sc.q sc.idx = some e
  only : s.hif.entries = [e]
  none : s.scanWait = []

/-- What the end of the scan `sc` on engine `k` leaves of host memory, beside the slot of its completion: its value `v`
stands at SEED_ADDR. -/
def ScanWrites (sc : Scan) (slot v : Nat) (s t : State) : Prop :=
  (sc.seedAddr = 0 → MemoriesBut slot s t) ∧
  (sc.seedAddr ≠ 0 → (slot + 32 ≤ sc.seedAddr ∨ sc.seedAddr + 8 ≤ slot) →
    (∀ i, i < 8 → Memory.byte t.host (sc.seedAddr + i) = (le 8 v).getD i 0#8) ∧
    ∀ a, (a < sc.seedAddr ∨ sc.seedAddr + 8 ≤ a) → (a < slot ∨ slot + 32 ≤ a) →
      Memory.byte t.host a = Memory.byte s.host a)

/-- A value is written back, and then the completion. -/
theorem scanWrites_of_complete {s t : State} {sc : Scan} {slot v : Nat}
    (done : MemoriesBut slot (s.scanWriteBack sc v) t) : ScanWrites sc slot v s t := by
  obtain ⟨hbm, flash, outside⟩ := done
  refine ⟨fun zero => ?_, fun some apart => ?_⟩
  · rw [State.scanWriteBack, if_neg (not_not.mpr zero)] at hbm flash outside
    exact ⟨hbm, flash, outside⟩
  · rw [State.scanWriteBack, if_pos some] at outside
    refine ⟨fun i hi => ?_, fun a away other => ?_⟩
    · rw [outside _ (by omega), Memory.byte_write_inside _ _ _ _ (by rwa [le_length]), List.getD_eq_getElem]
    · rw [outside a other, Memory.byte_write_outside _ _ _ _ (by rwa [le_length])]

/-- What is written does not depend on registers and counters. -/
theorem ScanWrites.of_same {s t u : State} {sc : Scan} {slot v n : Nat} (h : ScanWrites (sc.ahead n v) slot v u t)
    (same : SameMemories s u) : ScanWrites sc slot v s t := by
  obtain ⟨host, hbm, flash⟩ := same
  obtain ⟨zero, some⟩ := h
  rw [MemoriesBut, host, hbm, flash] at zero
  rw [host] at some
  exact ⟨zero, some⟩

namespace ScanRuns

variable {s : State} {k : Nat} {sc : Scan} {e : Entry} {r : Request}

/-- A scan goes on in a state with the same engines, channels and entries. -/
theorem of_same (h : ScanRuns s k sc e r) {u : State} (scans : u.scans = s.scans) (wait : u.scanWait = s.scanWait)
    (chans : u.chans = s.chans) (hif : u.hif = s.hif) : ScanRuns u k sc e r where
  engine := by rw [scans]; exact h.engine
  lt := by rw [scans]; exact h.lt
  req := by rw [State.chan, chans]; exact h.req
  chan := by rw [chans]; exact h.chan
  q := h.q
  idx := h.idx
  held := by rw [State.entry?, hif]; exact h.held
  only := by rw [hif]; exact h.only
  none := by rw [wait]; exact h.none

theorem read (h : ScanRuns s k sc e r) {u : State} (reads : ReadsOnly s u) : ScanRuns u k sc e r :=
  h.of_same (congrArg State.scans reads.unread :) (congrArg State.scanWait reads.unread :)
    (congrArg State.chans reads.unread :) (congrArg State.hif reads.unread :)

/-- The scan takes in its next `n` bytes: engine and request have come further, and of the rest of the state only
registers and counters have changed. -/
theorem steps (h : ScanRuns s k sc e r) {n : Nat} (holds : sc.space = 1 → hbmUnheld sc.addr n = false) :
    let sc' := sc.ahead n (s.scanValue sc n)
    ScanRuns (s.scanSteps k sc n) k sc' e (r.scanned sc') ∧ ∃ scans chans regs pmu,
      s.scanSteps k sc n = { s with scans := scans, chans := chans, regs := regs, pmu := pmu } := by
  intro sc'
  have rest : ∃ regs pmu, s.scanSteps k sc n = { s with
      scans := setAt s.scans k (some sc')
      chans := modAt s.chans (17 + k) (fun c => { c with req := c.req.map (Request.scanned · sc') })
      regs := regs, pmu := pmu } := by
    unfold State.scanSteps
    rw [scanResult_held holds, count_rest, count_rest, scanRegs_rest]
    exact ⟨_, _, rfl⟩
  obtain ⟨regs, pmu, rest⟩ := rest
  refine ⟨?_, _, _, _, _, rest⟩
  rw [rest]
  exact {
    engine := getD_setAt_same h.lt _ _
    lt := by simpa [setAt] using h.lt
    req := (congrArg Chan.req (getD_modAt_same h.chan _ _)).trans (congrArg (Option.map _) h.req)
    chan := by simpa [modAt] using h.chan
    q := h.q
    idx := h.idx
    held := h.held
    only := h.only
    none := h.none }

/-- The value of a scan is written back, and its engine is free. -/
theorem freeScan_rest (s : State) (k v n : Nat) (sc : Scan) : (s.scanWriteBack sc v).freeScan k v n = { s with
    host := (s.scanWriteBack sc v).host, scans := setAt s.scans k Option.none
    regs := ((s.scanWriteBack sc v).freeScan k v n).regs } := by
  unfold State.scanWriteBack
  split <;> rfl

/-- A scan is over: its value stands in CHK_ENG_VAL and at SEED_ADDR, its engine is free and its entry gone. -/
theorem ends (h : ScanRuns s k sc e r) {status : Nat} (small : status < 256) :
    let t := s.scanOver k status
    t.scans.getD k Option.none = Option.none ∧ t.hif.entries = [] ∧ t.reg (CHK_ENG_VAL.VAL k) = sc.value % 2 ^ 64 ∧
      t.hbm = s.hbm ∧ t.flash = s.flash ∧ t.stripe = s.stripe ∧ ScanWrites sc (s.cplSlot sc.q) sc.value s t := by
  have rest := freeScan_rest s k sc.value sc.done sc
  have value : ((s.scanWriteBack sc sc.value).freeScan k sc.value sc.done).reg (CHK_ENG_VAL.VAL k) = sc.value % 2 ^ 64 :=
    scanRegs_value _ k _ _
  unfold State.scanOver
  rw [h.engine]
  dsimp only
  generalize (s.scanWriteBack sc sc.value).freeScan k sc.value sc.done = x at rest value ⊢
  have req : (x.chan (17 + k)).req = some r := by rw [rest]; exact h.req
  have chan : 17 + k < x.chans.length := by rw [rest]; exact h.chan
  have entries : (x.dropEntry r.q r.idx).hif.entries = [] := by rw [rest, h.q, h.idx]; exact dropEntry_only h.held h.only
  have shown := endReq_reg req (status := status) 0 sc.value 0 (valueKey_notMem k)
    (keyBlock_of_addr (addr_high (by decide) _))
  obtain ⟨scans, wait, stripe⟩ := endReq_scans req status 0 sc.value 0
  have ended := reqEnds chan req small 0 sc.value 0
  generalize x.endReq (17 + k) status 0 sc.value 0 = y at shown scans wait stripe ended ⊢
  have gone : y.hif.entries = [] := ended.entries.trans entries
  rw [scanNext_of_none (by rw [gone]; rfl) (wait.trans (by rw [rest]; exact h.none))]
  have writes : MemoriesBut (s.cplSlot sc.q) (s.scanWriteBack sc sc.value) y := by
    have done := ended.memories
    rw [h.q, rest] at done
    have hbm : (s.scanWriteBack sc sc.value).hbm = s.hbm := by unfold State.scanWriteBack; split <;> rfl
    have flash : (s.scanWriteBack sc sc.value).flash = s.flash := by unfold State.scanWriteBack; split <;> rfl
    exact ⟨done.1.trans hbm.symm, done.2.1.trans flash.symm, done.2.2⟩
  refine ⟨?_, gone, shown.trans value, ended.memories.1.trans (by rw [rest]), ended.memories.2.1.trans (by rw [rest]),
    stripe.trans (by rw [rest]), scanWrites_of_complete writes⟩
  rw [scans, rest]
  exact getD_setAt_same h.lt _ _

end ScanRuns

theorem scanComplete_ends {s : State} {k : Nat} {sc : Scan} {e : Entry} {r : Request} {ecc : EccReads}
    (served : s.serviced = true) (awake : s.reg (DMA_CH_STATUS.WAKE_WAIT (17 + k)) = 0) (runs : ScanRuns s k sc e r)
    (clean : ecc.bad = none) (holds : sc.space = 1 → hbmUnheld sc.addr sc.len = false) :
    let v := s.scanValue sc sc.len
    ∃ t, exec (.scanComplete k ecc) s = .next t ∧ t.scans.getD k none = none ∧ t.hif.entries = [] ∧
      t.reg (CHK_ENG_VAL.VAL k) = v % 2 ^ 64 ∧ t.hbm = s.hbm ∧ t.flash = s.flash ∧ t.stripe = s.stripe ∧
      ScanWrites sc (s.cplSlot sc.q) v s t := by
  intro v
  obtain ⟨u, reads, eq⟩ := scanReads_clean s clean k sc sc.len
  have run : exec (.scanComplete k ecc) s = .next ((u.scanSteps k sc sc.len).scanOver k 0x00) := by
    show execScanComplete k ecc s = _
    unfold execScanComplete
    rw [if_neg (by rw [served, awake]; decide), runs.engine]
    dsimp only
    rw [eq]
    rfl
  obtain ⟨host, hbm, flash⟩ := reads.sameMemories
  have value : u.scanValue sc sc.len = v := by rw [State.scanValue, hbm, host]; rfl
  obtain ⟨stepped, scans, chans, regs, pmu, rest⟩ := (runs.read reads).steps holds
  rw [value] at stepped
  generalize u.scanSteps k sc sc.len = w at run stepped rest
  obtain ⟨engine, entries, shown, hbm', flash', stripe, writes⟩ := stepped.ends (status := 0x00) (by decide)
  have slot : w.cplSlot sc.q = s.cplSlot sc.q := by
    rw [rest]
    show ((u.hif.eq.getD (u.hif.sq.getD sc.q .reset).eq .reset)).slot = _
    rw [show u.hif = s.hif from (congrArg State.hif reads.unread :)]
    rfl
  have memories : SameMemories s w := by rw [rest]; exact reads.sameMemories
  refine ⟨_, run, engine, entries, shown, hbm'.trans memories.2.1, flash'.trans memories.2.2,
    stripe.trans (by rw [rest]; exact reads.stripe), ?_⟩
  exact slot ▸ writes.of_same memories

end Sys2Proof.Machine

end

/-- Settles O20: a SCAN without bytes is answered at once, with its starting value. -/
theorem emptyScan : Obligations.EmptyScan := by
  intro s q hw e acts u p ok empty
  have run : Sys2Proof.Machine.exec (.scan q hw) s = .next (u.scanEntry e) := Sys2Proof.Machine.exec_scan acts
  rw [run, Sys2Proof.Machine.scanEntry_empty ok empty, Sys2Proof.Machine.State.scanStart]
  exact ⟨fun seed => by rw [if_neg seed, if_neg seed], fun stored => by rw [if_pos stored, if_pos stored]⟩

/-- Settles O21: a SCAN that acts is refused, answered or put on an engine (`scanEntry_acts`); a scan reads to its end
(`ScanRuns.steps`) and is over (`ScanRuns.ends`). -/
theorem scanRuns : Obligations.ScanRuns := by
  refine ⟨fun s q hw e acts => ⟨_, Sys2Proof.Machine.exec_scan acts, Sys2Proof.Machine.scanEntry_acts _ e⟩, ?_⟩
  intro s k sc e r ecc served _ awake engine lt req chan q idx held only none clean holds
  exact Sys2Proof.Machine.scanComplete_ends served awake ⟨engine, lt, req, chan, q, idx, held, only, none⟩ clean holds
/-! ## What a stopped request leaves and shows (R112, R113) -/

section

namespace Sys2Proof.Machine

/-- An event that is posted leaves the entries that are held. -/
theorem postDev_entries (s : State) (code status info d0 d1 : Nat) :
    (s.postDev code status info d0 d1).hif.entries = s.hif.entries := by
  unfold State.postDev
  extract_lets ev c
  have counted : c.hif.entries = s.hif.entries := congrArg Hif.entries (count_hif s _ _ _)
  split
  · rfl
  · rfl
  · split <;> exact counted
  · split
    · split
      · exact (congrArg Hif.entries (naluSend_hif c _)).trans counted
      · exact (holdEvent_entries c _ _).trans counted
    · exact (putEvent_entries c _ _).trans counted

/-! ### Several registers are written -/

theorem setRegs_rest (ws : List (Field × Nat)) : ∀ s : State, s.setRegs ws = { s with regs := (s.setRegs ws).regs } := by
  induction ws with
  | nil => exact fun _ => rfl
  | cons w ws ih => exact fun s => ih (s.setReg w.1 w.2)

theorem reg_setRegs_of_notMem {f : Field} (ws : List (Field × Nat)) (other : f.key ∉ ws.map (·.1.key)) :
    ∀ s : State, (s.setRegs ws).reg f = s.reg f := by
  induction ws with
  | nil => exact fun _ => rfl
  | cons w ws ih =>
    intro s
    obtain ⟨first, rest⟩ := not_or.mp (mt List.mem_cons.mpr other)
    exact (ih rest (s.setReg w.1 w.2)).trans (reg_setReg_ne s w.2 (Ne.symm first))

/-- Of fields with keys of their own each shows what was written in it. -/
theorem reg_setRegs_of_mem {f : Field} {v : Nat} (ws : List (Field × Nat)) (keys : (ws.map (·.1.key)).Nodup)
    (mem : (f, v) ∈ ws) : ∀ s : State, (s.setRegs ws).reg f = v % 2 ^ f.width := by
  induction ws with
  | nil => cases mem
  | cons w ws ih =>
    intro s
    obtain ⟨first, others⟩ := List.nodup_cons.mp keys
    obtain rfl | later := List.mem_cons.mp mem
    · exact (reg_setRegs_of_notMem ws first _).trans (reg_setReg_same s f v)
    · exact ih others later _

/-! ### The record of a stop -/

/-- What a stop of the request `r` writes in the registers of channel `ch`, beside HALTED. -/
def stopWrites (ch status cause : Nat) (r : Request) : List (Field × Nat) :=
  [(DMA_CH_STATUS.LAST_STATUS ch, status), (DMA_CH_STATUS.CAUSE ch, cause), (DMA_CH_DONE.DONE ch, r.delivered),
    (DMA_CH_RESIDUE.RESIDUE ch, r.named - r.delivered), (DMA_CH_STATUS.HELD ch, 0), (DMA_CH_STATUS.WAKE_WAIT ch, 0)]

/-- The fields that a stop writes have keys of their own. -/
theorem stopWrites_keys (ch status cause : Nat) (r : Request) :
    ((DMA_CH_STATUS.HALTED ch).key :: (stopWrites ch status cause r).map (·.1.key)).Nodup := by
  simp only [stopWrites, List.map_cons, List.map_nil, List.nodup_cons, List.mem_cons, List.not_mem_nil, or_false, not_or,
    not_false_eq_true, List.nodup_nil, and_true, Field.key, DMA_CH_STATUS.LAST_STATUS, DMA_CH_STATUS.CAUSE,
    DMA_CH_DONE.DONE, DMA_CH_RESIDUE.RESIDUE, DMA_CH_STATUS.HELD, DMA_CH_STATUS.WAKE_WAIT, DMA_CH_STATUS.HALTED]
  omega

/-- The registers show how a request stopped. -/
def State.stopShown (s : State) (ch status cause : Nat) (r : Request) : State :=
  let t := s.setRegs (stopWrites ch status cause r)
  if haltingCause cause then t.setReg (DMA_CH_STATUS.HALTED ch) 1 else t

theorem stopShown_reg (s : State) (ch status cause : Nat) (r : Request) (f : Field) :
    (s.stopShown ch status cause r).reg f = if haltingCause cause then
      ((s.setRegs (stopWrites ch status cause r)).setReg (DMA_CH_STATUS.HALTED ch) 1).reg f
    else (s.setRegs (stopWrites ch status cause r)).reg f := apply_ite (State.reg · f) _ _ _

theorem stopRecord_eq (s : State) (ch status cause : Nat) (r : Request) :
    s.stopRecord ch status cause r = (s.stopShown ch status cause r).modChan ch (fun c => { c with req := none }) := rfl

theorem stopShown_rest (s : State) (ch status cause : Nat) (r : Request) :
    s.stopShown ch status cause r = { s with regs := (s.stopShown ch status cause r).regs } := by
  unfold State.stopShown
  dsimp only
  rw [setRegs_rest]
  split <;> rfl

/-- What the registers of channel `ch` show of a request that stopped, HALTED where it had `halted`. -/
structure ShowsStop (ch status cause : Nat) (r : Request) (halted : Nat) (t : State) : Prop where
  status : t.reg (DMA_CH_STATUS.LAST_STATUS ch) = status % 2 ^ 8
  reason : t.reg (DMA_CH_STATUS.CAUSE ch) = cause % 2 ^ 4
  done : t.reg (DMA_CH_DONE.DONE ch) = r.delivered % 2 ^ 64
  residue : t.reg (DMA_CH_RESIDUE.RESIDUE ch) = (r.named - r.delivered) % 2 ^ 64
  halted : t.reg (DMA_CH_STATUS.HALTED ch) = if haltingCause cause then 1 else halted

theorem stopShown_shows (s : State) (ch status cause : Nat) (r : Request) :
    ShowsStop ch status cause r (s.reg (DMA_CH_STATUS.HALTED ch)) (s.stopShown ch status cause r) := by
  obtain ⟨halted, keys⟩ := List.nodup_cons.mp (stopWrites_keys ch status cause r)
  have written {f : Field} {v : Nat} (mem : (f, v) ∈ stopWrites ch status cause r) :
      (s.stopShown ch status cause r).reg f = v % 2 ^ f.width := by
    have shown := reg_setRegs_of_mem _ keys mem s
    have other : (DMA_CH_STATUS.HALTED ch).key ≠ f.key := fun same =>
      halted (List.mem_map.mpr ⟨(f, v), mem, same.symm⟩)
    rw [stopShown_reg]
    split
    · rw [reg_setReg_ne _ 1 other, shown]
    · exact shown
  refine ⟨written (.head _), written (.tail _ (.head _)), written (.tail _ (.tail _ (.head _))),
    written (.tail _ (.tail _ (.tail _ (.head _)))), ?_⟩
  rw [stopShown_reg]
  split
  · exact reg_setReg_same _ _ _
  · exact reg_setRegs_of_notMem _ halted s

/-- What a stopped request leaves. -/
structure Stops (ch status cause : Nat) (r : Request) (s t : State) : Prop where
  quiet : t.quiet = (s.modChan ch (fun c => { c with req := none })).quiet
  entries : t.hif.entries = (s.dropEntry r.q r.idx).hif.entries
  gone : t.entry? r.q r.idx = none
  shows : ShowsStop ch status cause r (s.reg (DMA_CH_STATUS.HALTED ch)) t

theorem stops_stopFinish (s : State) (ch status cause : Nat) (r : Request) (d0 d1 : Nat) :
    Stops ch status cause r s (s.stopFinish ch status cause r d0 d1) := by
  unfold State.stopFinish
  have rest : s.stopRecord ch status cause r = { s with
      regs := (s.stopShown ch status cause r).regs, chans := modAt s.chans ch (fun c => { c with req := none }) } := by
    rw [stopRecord_eq, stopShown_rest]
    rfl
  have shown : ShowsStop ch status cause r (s.reg (DMA_CH_STATUS.HALTED ch)) (s.stopRecord ch status cause r) := by
    obtain ⟨status, reason, done, residue, halted⟩ := stopShown_shows s ch status cause r
    exact ⟨status, reason, done, residue, halted⟩
  generalize s.stopRecord ch status cause r = u at rest shown ⊢
  have event : (u.stopEvent ch status cause (r.named - r.delivered)).hif.entries = s.hif.entries :=
    (postDev_entries u _ _ _ _ _).trans (by rw [rest])
  have quiet : (u.stopEvent ch status cause (r.named - r.delivered)).quiet =
      (s.modChan ch (fun c => { c with req := none })).quiet := (postDev_quiet u _ _ _ _ _).trans (by rw [rest]; rfl)
  have posted : RegsButHif [] u (u.stopEvent ch status cause (r.named - r.delivered)) := regsButHif_postDev u [] _ _ _ _ _
  generalize u.stopEvent ch status cause (r.named - r.delivered) = v at event quiet posted ⊢
  have same (f : Field) (high : 0x20000 ≤ f.addr) : (v.complete r.q r.idx status 0 d0 d1).reg f = u.reg f :=
    posted.trans (regsButHif_complete v [] _ _ _ _ _ _) f List.not_mem_nil (keyBlock_of_addr high)
  exact {
    quiet := (complete_quiet v _ _ _ _ _ _).trans quiet
    entries := (complete_entries v _ _ _ _ _ _).trans (congrArg (List.filter _) event)
    gone := entry?_complete v _ _ _ _ _ _
    shows := {
      status := (same _ (addr_high (by decide) _)).trans shown.status
      reason := (same _ (addr_high (by decide) _)).trans shown.reason
      done := (same _ (addr_high (by decide) _)).trans shown.done
      residue := (same _ (addr_high (by decide) _)).trans shown.residue
      halted := (same _ (addr_high (by decide) _)).trans shown.halted } }

namespace Stops

variable {ch status cause : Nat} {r : Request} {s t : State}

theorem req (h : Stops ch status cause r s t) (lt : ch < s.chans.length) : (t.chan ch).req = none := by
  rw [State.chan, show t.chans = _ from (congrArg State.chans h.quiet :)]
  exact congrArg Chan.req (getD_modAt_same lt _ _)

theorem hbm (h : Stops ch status cause r s t) : t.hbm = s.hbm := (congrArg State.hbm h.quiet :)
theorem flash (h : Stops ch status cause r s t) : t.flash = s.flash := (congrArg State.flash h.quiet :)
theorem stripe (h : Stops ch status cause r s t) : t.stripe = s.stripe := (congrArg State.stripe h.quiet :)
theorem tabStaged (h : Stops ch status cause r s t) : t.tabStaged = s.tabStaged := (congrArg State.tabStaged h.quiet :)

end Stops

/-- Of a piece that has moved whole nothing more arrives. -/
theorem settle_whole {s : State} {ch : Nat} {r : Request} (whole : r.piece.moved = r.piece.len) :
    s.settle ch r = (r, s) := by
  unfold State.settle
  rw [whole, Nat.sub_self]
  rfl

theorem stopChan_whole {s : State} {ch : Nat} {r : Request} (held : (s.chan ch).req = some r)
    (whole : r.piece.moved = r.piece.len) (status cause : Nat) :
    s.stopChan ch status cause = s.stopFinish ch status cause r 0 0 := by
  unfold State.stopChan
  rw [held]
  dsimp only
  rw [settle_whole whole]

end Sys2Proof.Machine

end
/-! ## DESCRIPTOR_FETCH (R104 to R108) -/

section

namespace Sys2Proof.Machine

/-! ### What a STREAM channel changes while it fetches -/

/-- The state without what a STREAM channel that writes no byte may change. -/
def State.unfetched (s : State) : State := { s.unread with chans := [], cdc := .reset }

/-- From `s` to `t` a STREAM channel has come to the request `r`: no byte has gone anywhere, and of the registers HELD
alone may differ. -/
structure Fetches (ch : Nat) (r : Request) (s t : State) : Prop where
  rest : t.unfetched = s.unfetched
  regs : RegsBut [DMA_CH_STATUS.HELD ch] s t
  lt : ch < t.chans.length
  req : (t.chan ch).req = some r

namespace Fetches

variable {ch : Nat} {r : Request} {s t u : State}

theorem refl (lt : ch < s.chans.length) (req : (s.chan ch).req = some r) : Fetches ch r s s := ⟨rfl, .refl _ s, lt, req⟩

theorem trans {r' : Request} (h : Fetches ch r s t) (k : Fetches ch r' t u) : Fetches ch r' s u :=
  ⟨k.rest.trans h.rest, fun f hf => (k.regs f hf).trans (h.regs f hf), k.lt, k.req⟩

theorem host (h : Fetches ch r s t) : t.host = s.host := (congrArg State.host h.rest :)
theorem hbm (h : Fetches ch r s t) : t.hbm = s.hbm := (congrArg State.hbm h.rest :)
theorem flash (h : Fetches ch r s t) : t.flash = s.flash := (congrArg State.flash h.rest :)
theorem hif (h : Fetches ch r s t) : t.hif = s.hif := (congrArg State.hif h.rest :)
theorem stripe (h : Fetches ch r s t) : t.stripe = s.stripe := (congrArg State.stripe h.rest :)
theorem g (h : Fetches ch r s t) : t.g = s.g := (congrArg State.g h.rest :)

theorem inWindow (h : Fetches ch r s t) (a n : Nat) : t.inWindow a n = s.inWindow a n := by
  have prot : t.prot = s.prot := (congrArg State.prot h.rest :)
  rw [State.inWindow, State.inWindow, prot]

/-- A step that leaves channels and registers. -/
theorem unread (h : Fetches ch r s t) (rest : u.unread = t.unread) (regs : u.regs = t.regs) : Fetches ch r s u := by
  have chans : u.chans = t.chans := (congrArg State.chans rest :)
  refine ⟨(congrArg (fun x : State => { x with chans := [], cdc := .reset }) rest).trans h.rest, fun f hf => ?_,
    by rw [chans]; exact h.lt, by rw [State.chan, chans]; exact h.req⟩
  rw [State.reg, regs]
  exact h.regs f hf

theorem count (h : Fetches ch r s t) (b ev n : Nat) : Fetches ch r s (t.count b ev n) :=
  h.unread (readsOnly_count t b ev n).unread (count_regs t b ev n)

/-- Nothing is written into HBM3, though a request for it wakes its pseudo-channels. -/
theorem hbmWrite_nil (h : Fetches ch r s t) (a : Nat) : Fetches ch r s (t.hbmWrite a []) :=
  h.unread (hbmWrite_writes t a []).rest (hbmWrite_writes t a []).regs

theorem setHeld (h : Fetches ch r s t) (v : Nat) : Fetches ch r s (t.setReg (DMA_CH_STATUS.HELD ch) v) :=
  h.trans ⟨rfl, regsBut_setReg List.mem_cons_self t v, h.lt, h.req⟩

theorem modChan (h : Fetches ch r s t) {f : Chan → Chan} {r' : Request} (req : (f (t.chan ch)).req = some r') :
    Fetches ch r' s (t.modChan ch f) :=
  ⟨h.rest, h.regs, by simpa [State.modChan, modAt] using h.lt, (congrArg Chan.req (chan_modChan_same h.lt f)).trans req⟩

theorem feed (h : Fetches ch r s t) (cdc : Cdc) : Fetches ch r s { t with cdc } := ⟨h.rest, h.regs, h.lt, h.req⟩

theorem stagePut_nil (h : Fetches ch r s t) : Fetches ch r s (t.stagePut ch []) := by
  have written := (h.hbmWrite_nil (stagingBase ch + (t.chan ch).wr % t.stagingSize ch)).hbmWrite_nil (stagingBase ch)
  unfold State.stagePut
  dsimp only
  rw [List.take_nil, List.drop_nil]
  exact written.modChan written.req

/-- Of a piece that has moved whole nothing more is read. -/
theorem move_whole (h : Fetches ch r s t) (whole : r.piece.moved = r.piece.len) : Fetches ch r s (t.move ch r) := by
  have none : t.mayMove ch r.piece = 0 := by rw [State.mayMove, whole, Nat.sub_self, Nat.zero_min]
  unfold State.move
  rw [none]
  exact (((h.modChan (f := fun c => { c with req := some r }) rfl).stagePut_nil.feed _).setHeld _).count _ _ _

end Fetches

/-- A request of a STREAM channel whose piece has moved whole, with descriptors left to read. -/
structure AtDescriptor (s : State) (ch : Nat) (r : Request) : Prop where
  served : s.serviced = true
  stream : dmaClass ch = 1
  lt : ch < s.chans.length
  held : (s.chan ch).req = some r
  whole : r.piece.moved = r.piece.len
  next : r.next ≠ 0
  hops : r.hops < 4096
  awake : s.reg (DMA_CH_STATUS.WAKE_WAIT ch) = 0

/-- WAKE_WAIT and HALTED are other fields than HELD. -/
theorem heldKey_ne (ch : Nat) : (DMA_CH_STATUS.WAKE_WAIT ch).key ∉ [DMA_CH_STATUS.HELD ch].map Field.key ∧
    (DMA_CH_STATUS.HALTED ch).key ∉ [DMA_CH_STATUS.HELD ch].map Field.key := by
  simp only [List.map_cons, List.map_nil, List.mem_singleton, Field.key, DMA_CH_STATUS.WAKE_WAIT, DMA_CH_STATUS.HALTED,
    DMA_CH_STATUS.HELD]
  omega

section Piece

variable {s : State} {ch : Nat} {r : Request}

/-- TRANSFER_COMPLETE moves nothing of such a request. -/
theorem AtDescriptor.streamTransfer (h : AtDescriptor s ch r) : Fetches ch r s (s.streamTransfer ch) := by
  have moved : Fetches ch r s (s.move ch r) := (Fetches.refl h.lt h.held).move_whole h.whole
  have stays : s.streamTransfer ch = s.move ch r := by
    unfold State.streamTransfer
    rw [h.held]
    dsimp only
    rw [if_neg (by rw [h.awake]; decide), moved.req]
    dsimp only
    rw [if_neg (by rw [h.whole]; exact Nat.lt_irrefl _), if_neg h.next, if_neg h.hops.ne]
  rw [stays]
  exact moved

/-- With the piece in work moved whole the fetch reads the next descriptor. -/
theorem AtDescriptor.fetch (h : AtDescriptor s ch r) (hw : Cells) : ∃ u, Fetches ch r (s.hostWrites hw) u ∧
    exec (.descriptorFetch ch hw) s = .next (u.descriptor ch r) := by
  have there : AtDescriptor (s.hostWrites hw) ch r := ⟨h.served, h.stream, h.lt, h.held, h.whole, h.next, h.hops, h.awake⟩
  have moved := there.streamTransfer
  have awake : ((s.hostWrites hw).streamTransfer ch).reg (DMA_CH_STATUS.WAKE_WAIT ch) = 0 :=
    (moved.regs _ (heldKey_ne ch).1).trans h.awake
  have served : ((s.hostWrites hw).streamTransfer ch).serviced = true := by
    rw [State.serviced, moved.g]
    exact h.served
  refine ⟨_, moved, ?_⟩
  show execDescriptorFetch ch hw s = _
  unfold execDescriptorFetch
  dsimp only
  rw [if_pos there.served, if_pos served, moved.req]
  dsimp only
  rw [if_neg]
  simp [h.stream, h.next, h.whole, awake, h.hops.ne]

end Piece

/-! ### The descriptor that is read -/

/-- The request once the descriptor `d` is the piece in work. -/
def Request.hop (r : Request) (d : Descriptor) : Request :=
  { r with hops := r.hops + 1, named := r.named + d.len, next := d.next
           piece := ⟨d.addr, d.len, d.swap, if d.wrap then d.wrapLog2 else 0, 0⟩ }

/-- The request once the descriptor `d` has been read and refused. -/
def Request.refused (r : Request) (d : Descriptor) : Request :=
  { r with hops := r.hops + 1, named := r.named + d.len }

/-- Reading a descriptor is counted, and the request of channel `ch` is `r`. -/
def State.hopped (s : State) (ch : Nat) (r : Request) : State :=
  ((s.count 2 0x13 1).count 2 0x10 32).modChan ch (fun c => { c with req := some r })

theorem Fetches.hopped {ch : Nat} {r : Request} {s t : State} (h : Fetches ch r s t) (r' : Request) :
    Fetches ch r' s (t.hopped ch r') :=
  ((h.count 2 0x13 1).count 2 0x10 32).modChan rfl

section Read

variable {s : State} {ch : Nat} {r : Request} {d : Descriptor}

theorem descriptor_wellFormed (inside : s.inWindow r.next 32 = true) (read : descOf (Memory.bytes s.host r.next 32) = d)
    (ok : d.bad = false) (window : d.len = 0 ∨ s.inWindow d.range.1 d.range.2 = true) :
    s.descriptor ch r = s.hopped ch (r.hop d) := by
  have same : ((s.count 2 0x13 1).count 2 0x10 32).inWindow d.range.1 d.range.2 = s.inWindow d.range.1 d.range.2 := by
    simp only [State.inWindow, count_prot]
  have data : (d.len ≠ 0 && !((s.count 2 0x13 1).count 2 0x10 32).inWindow d.range.1 d.range.2) = false := by
    rw [same]
    obtain h | h := window <;> simp [h]
  unfold State.descriptor
  rw [if_neg (by rw [inside]; decide), read]
  dsimp only
  rw [ok, if_neg Bool.false_ne_true, data, if_neg Bool.false_ne_true]
  rfl

theorem descriptor_malformed (inside : s.inWindow r.next 32 = true) (read : descOf (Memory.bytes s.host r.next 32) = d)
    (bad : d.bad = true) : s.descriptor ch r = (s.hopped ch (r.refused d)).stopRequest ch 0x08 4 := by
  unfold State.descriptor
  rw [if_neg (by rw [inside]; decide), read]
  exact if_pos bad

theorem stopRequest_of_no_stripe (none : s.liveStripe = none) (ch status cause : Nat) :
    s.stopRequest ch status cause = s.stopChan ch status cause := by
  unfold State.stopRequest
  rw [none]
  rfl

end Read

/-- A malformed descriptor stops the channel of a chip that holds no stripe. -/
theorem Fetches.malformed {ch : Nat} {r : Request} {d : Descriptor} {s t : State} (h : Fetches ch r s t)
    (whole : r.piece.moved = r.piece.len) (none : s.liveStripe = none) :
    ∃ v, Fetches ch (r.refused d) s v ∧
      Stops ch 0x08 4 (r.refused d) v ((t.hopped ch (r.refused d)).stopRequest ch 0x08 4) := by
  have hopped := h.hopped (r.refused d)
  have none' : (t.hopped ch (r.refused d)).liveStripe = .none := by rw [State.liveStripe, hopped.stripe]; exact none
  refine ⟨_, hopped, ?_⟩
  rw [stopRequest_of_no_stripe none', stopChan_whole hopped.req whole]
  exact stops_stopFinish _ ch 0x08 4 _ 0 0

end Sys2Proof.Machine

end

/-- Settles O19: the piece in work has moved whole, so the fetch reads the next descriptor alone (`AtDescriptor.fetch`);
it becomes the piece in work (`descriptor_wellFormed`), or stops the channel (`Fetches.malformed`). -/
theorem descriptorFetched : Obligations.DescriptorFetched := by
  intro s ch hw r served stream lt held whole next hops awake inside d
  have there : Sys2Proof.Machine.AtDescriptor s ch r := ⟨served, stream, lt, held, whole, next, hops, awake⟩
  obtain ⟨u, fetches, run⟩ := there.fetch hw
  have read : Sys2Proof.Machine.descOf (Sys2Proof.Machine.Memory.bytes u.host r.next 32) = d := by rw [fetches.host]; rfl
  have window (a n : Nat) : u.inWindow a n = s.inWindow a n := fetches.inWindow a n
  have inside' : u.inWindow r.next 32 = true := (window _ _).trans inside
  refine ⟨fun ok data => ⟨_, run, ?_⟩, fun bad none => ⟨_, run, ?_⟩⟩
  · rw [Sys2Proof.Machine.descriptor_wellFormed inside' read ok (by rw [window]; exact data)]
    have hops := fetches.hopped (r.hop d)
    exact ⟨hops.req, hops.regs _ (Sys2Proof.Machine.heldKey_ne ch).2, hops.regs, hops.host, hops.flash,
      fun a => congrArg (Sys2Proof.Machine.Memory.byte · a) hops.hbm, hops.hif, hops.stripe, hops.g⟩
  · rw [Sys2Proof.Machine.descriptor_malformed inside' read bad]
    obtain ⟨v, hopped, stops⟩ := fetches.malformed (d := d) whole none
    exact ⟨stops.req hopped.lt, stops.shows.halted, stops.shows.reason, stops.shows.status,
      stops.stripe.trans hopped.stripe⟩
/-! ## Stops of a DMA channel from outside, and its release (R111 to R113) -/

section

namespace Sys2Proof.Machine

/-! ### Nothing waits for what becomes free -/

/-- No capture waits for a compressor. -/
theorem witnessStart_of_no_capture {s : State} (none : s.pec.witnesses.all (·.capture.isNone) = true) :
    s.witnessStart = s := by
  have next : s.witnessNext = s := by
    have find : s.pec.witnesses.find? (fun w => w.capture.isSome) = Option.none :=
      List.find?_eq_none.mpr fun w mem => by simpa using List.all_eq_true.mp none w mem
    unfold State.witnessNext
    rw [find]
  rw [State.witnessStart, next, next]

theorem pumpAll_of_nothingWaits {s : State} (idle : s.nothingWaits) : s.pumpAll = s := by
  obtain ⟨begun, scans, captures⟩ := idle
  rw [State.pumpAll, witnessStart_of_no_capture captures, pump_of_all_started begun, pump_of_all_started begun,
    scanNext_of_none begun scans]

/-- A stopped request leaves nothing waiting where nothing waited. -/
theorem Stops.nothingWaits {ch status cause : Nat} {r : Request} {s t : State} (h : Stops ch status cause r s t)
    (idle : s.nothingWaits) : t.nothingWaits := by
  obtain ⟨begun, scans, captures⟩ := idle
  have pec : t.pec = s.pec := (congrArg State.pec h.quiet :)
  refine ⟨?_, (congrArg State.scanWait h.quiet :).trans scans, by rw [pec]; exact captures⟩
  rw [h.entries]
  exact List.all_eq_true.mpr fun e mem => List.all_eq_true.mp begun e (List.mem_of_mem_filter mem)

/-! ### A TABLE request stops -/

/-- What a TABLE request with nothing in flight has delivered: of a save the first bytes stand in host memory; a load is
counted as it stood. -/
structure TableDelivers (s : State) (r : Request) (d : Stopped) : Prop where
  rest : d.s = { s with host := d.s.host, nlk := d.s.nlk }
  q : d.r.q = r.q
  idx : d.r.idx = r.idx
  bad : d.bad = false
  load : ∀ e, s.entry? r.q r.idx = some e → rawOpc e.raw = 0x20 → d.r = r

theorem tableDelivers {s : State} {ch : Nat} {r : Request} (table : dmaClass ch = 2)
    (whole : r.piece.moved = r.piece.len) (status : Nat) : TableDelivers s r (s.stopDelivers ch status r) := by
  unfold State.stopDelivers
  rw [settle_whole whole]
  cases held : s.entry? r.q r.idx with
  | none => exact ⟨rfl, rfl, rfl, rfl, fun _ _ _ => rfl⟩
  | some e =>
    dsimp only
    rw [table]
    show TableDelivers s r (s.tableStops ch r e)
    unfold State.tableStops
    rw [settle_whole whole]
    by_cases load : rawOpc e.raw = 0x20
    · rw [if_pos load]
      exact ⟨rfl, rfl, rfl, rfl, fun _ _ _ => rfl⟩
    · rw [if_neg load]
      refine ⟨rfl, rfl, rfl, rfl, fun e' same opc => ?_⟩
      cases held.symm.trans same
      exact absurd opc load

/-- A TABLE request with nothing in flight is stopped from outside. -/
theorem stopOutside_table {s : State} {ch : Nat} {r : Request} (table : dmaClass ch = 2) (held : (s.chan ch).req = some r)
    (whole : r.piece.moved = r.piece.len) (idle : s.nothingWaits) (status cause : Nat) :
    ∃ d, TableDelivers s r d ∧ Stops ch status cause d.r d.s (s.stopOutside ch status cause) := by
  have delivers := tableDelivers (s := s) table whole status
  refine ⟨s.stopDelivers ch status r, delivers, ?_⟩
  unfold State.stopOutside
  rw [held]
  dsimp only
  rw [if_neg (by rw [table]; decide)]
  generalize s.stopDelivers ch status r = d at delivers ⊢
  have finish : (d.s.stopLeaves ch status cause d).complete r.q r.idx (if d.bad then 0x07 else status) 0 d.d0 d.d1 =
      d.s.stopFinish ch status cause d.r d.d0 d.d1 := by
    unfold State.stopLeaves State.stopFinish
    rw [delivers.bad, delivers.q, delivers.idx]
    rfl
  have stops := stops_stopFinish d.s ch status cause d.r d.d0 d.d1
  have idle' : d.s.nothingWaits := by rw [delivers.rest]; exact idle
  rw [finish, pumpAll_of_nothingWaits (stops.nothingWaits idle')]
  exact stops

/-! ### The commands -/

/-- DMA_CH_CTRL of channel `ch`. -/
theorem landed_chanCtrl (s : State) {ch : Nat} (lt : ch < 32) (w : Nat) :
    s.landed (0x21004 + 32 * ch) w = if bit w 0 then s.dmaAbort ch else s := by
  have window : (0x21004 + 32 * ch) / 0x10000 = 2 := by omega
  have chan : (0x21004 + 32 * ch - 0x21000) / 32 = ch := by omega
  have timeout : 0x21004 + 32 * ch ≠ 0x20000 := by omega
  have array : 0x21000 ≤ 0x21004 + 32 * ch ∧ 0x21004 + 32 * ch < 0x21400 := by omega
  have word : (0x21004 + 32 * ch) % 32 = 4 := by omega
  simp only [State.landed, window, State.dmaWrite, timeout, array, and_self, word, chan, if_true, if_false]
  rfl

/-- DMA_CH_STATUS of channel `ch`. -/
theorem landed_chanStatus (s : State) {ch : Nat} (lt : ch < 32) (w : Nat) :
    s.landed (0x21008 + 32 * ch) w = if bit w 1 then s.dmaRelease ch else s := by
  have window : (0x21008 + 32 * ch) / 0x10000 = 2 := by omega
  have chan : (0x21008 + 32 * ch - 0x21000) / 32 = ch := by omega
  have timeout : 0x21008 + 32 * ch ≠ 0x20000 := by omega
  have array : 0x21000 ≤ 0x21008 + 32 * ch ∧ 0x21008 + 32 * ch < 0x21400 := by omega
  have word : (0x21008 + 32 * ch) % 32 = 8 := by omega
  simp only [State.landed, window, State.dmaWrite, timeout, array, and_self, word, chan, if_true, if_false]
  rfl

/-- DMA_CH_CTRL.ABORT is written as 1. -/
theorem exec_dmaAbort {s : State} {ch : Nat} (lt : ch < 32) (lands : s.writeLands (0x21004 + 32 * ch)) :
    exec (.dmaAbort ch) s = .next (s.dmaAbort ch) := by
  show execDmaAbort ch s = _
  rw [execDmaAbort, State.ringWrite, if_pos lt, busWrite_of_lands lands (by omega) (by omega), landed_chanCtrl s lt]
  rfl

/-- DMA_CH_STATUS.HALTED is written as 1. -/
theorem exec_dmaReleaseHalt {s : State} {ch : Nat} (lt : ch < 32) (lands : s.writeLands (0x21008 + 32 * ch)) :
    exec (.dmaReleaseHalt ch) s = .next (s.dmaRelease ch) := by
  show execDmaReleaseHalt ch s = _
  rw [execDmaReleaseHalt, State.ringWrite, if_pos lt, busWrite_of_lands lands (by omega) (by omega),
    landed_chanStatus s lt]
  rfl

section Commands

variable {s : State} {ch : Nat}

theorem stopAny_table (served : s.serviced = true) (table : dmaClass ch = 2) (status cause : Nat) :
    s.stopAny ch status cause = s.stopOutside ch status cause := by
  have first : ch ≠ 0 := by rintro rfl; cases table
  have off : s.g ≠ .off := by intro h; rw [State.serviced, h] at served; cases served
  have safe : s.g ≠ .safe := by intro h; rw [State.serviced, h] at served; cases served
  unfold State.stopAny
  rw [if_neg (by simp [first, off, safe]), if_neg (by rw [table]; decide), if_neg (by rw [table]; decide)]

/-- There are 32 channels. -/
theorem lt_of_table (table : dmaClass ch = 2) : ch < 32 := by
  by_contra beyond
  have gate : dmaClass ch = 7 := by simp (disch := omega) only [dmaClass, if_neg]
  rw [gate] at table
  cases table

/-- A stop by DMA_CH_CTRL.ABORT, a timeout or an error status (R111 to R113), with its status and its cause. -/
abbrev StopsBy (s : State) (ch : Nat) (i : Instr) (status cause : Nat) : Prop :=
  (i = .dmaAbort ch ∧ status = 0x04 ∧ cause = 1 ∧ s.writeLands (0x21004 + 32 * ch)) ∨
    (i = .dmaCplTimeout ch ∧ status = 0x06 ∧ cause = 6) ∨ (i = .dmaCplError ch ∧ status = 0x04 ∧ cause = 7)

theorem StopsBy.small {i : Instr} {status cause : Nat} (stop : StopsBy s ch i status cause) :
    status < 2 ^ 8 ∧ cause < 2 ^ 4 := by
  obtain ⟨-, rfl, rfl, -⟩ | ⟨-, rfl, rfl⟩ | ⟨-, rfl, rfl⟩ := stop <;> decide

theorem StopsBy.runs {i : Instr} {status cause : Nat} (stop : StopsBy s ch i status cause) (served : s.serviced = true)
    (table : dmaClass ch = 2) (awake : s.reg (DMA_CH_STATUS.WAKE_WAIT ch) = 0) :
    exec i s = .next (s.stopOutside ch status cause) := by
  obtain ⟨rfl, rfl, rfl, lands⟩ | ⟨rfl, rfl, rfl⟩ | ⟨rfl, rfl, rfl⟩ := stop
  · rw [exec_dmaAbort (lt_of_table table) lands, State.dmaAbort, if_neg (by rw [table]; decide),
      stopAny_table served table]
  · show execDmaCplTimeout ch s = _
    rw [execDmaCplTimeout, if_neg (by rw [awake]; decide), stopAny_table served table]
  · show execDmaCplError ch s = _
    rw [execDmaCplError, stopAny_table served table]

theorem tableRequest_stops {i : Instr} {status cause : Nat} {r : Request} (served : s.serviced = true)
    (table : dmaClass ch = 2) (lt : ch < s.chans.length) (held : (s.chan ch).req = some r)
    (whole : r.piece.moved = r.piece.len) (runs : s.reg (DMA_CH_STATUS.HALTED ch) = 0)
    (awake : s.reg (DMA_CH_STATUS.WAKE_WAIT ch) = 0) (idle : s.nothingWaits) (stop : StopsBy s ch i status cause) :
    ∃ t, exec i s = .next t ∧ (t.chan ch).req = none ∧ t.reg (DMA_CH_STATUS.LAST_STATUS ch) = status ∧
      t.reg (DMA_CH_STATUS.CAUSE ch) = cause ∧ t.reg (DMA_CH_STATUS.HALTED ch) = b2n (haltingCause cause) ∧
      (∀ e, s.entry? r.q r.idx = some e → rawOpc e.raw = 0x20 → t.reg (DMA_CH_DONE.DONE ch) = r.delivered % 2 ^ 64 ∧
        t.reg (DMA_CH_RESIDUE.RESIDUE ch) = (r.named - r.delivered) % 2 ^ 64) ∧ t.entry? r.q r.idx = none ∧
      t.hbm = s.hbm ∧ t.flash = s.flash ∧ t.stripe = s.stripe ∧ t.tabStaged = s.tabStaged := by
  obtain ⟨statusSmall, causeSmall⟩ := stop.small
  obtain ⟨d, delivers, stops⟩ := stopOutside_table table held whole idle status cause
  have rest := delivers.rest
  have halted : d.s.reg (DMA_CH_STATUS.HALTED ch) = 0 := by rw [rest]; exact runs
  refine ⟨_, stop.runs served table awake, stops.req (by rw [rest]; exact lt),
    stops.shows.status.trans (Nat.mod_eq_of_lt statusSmall), stops.shows.reason.trans (Nat.mod_eq_of_lt causeSmall),
    stops.shows.halted.trans (by rw [halted]; rfl), fun e own load => ?_, ?_,
    stops.hbm.trans (by rw [rest]), stops.flash.trans (by rw [rest]), stops.stripe.trans (by rw [rest]),
    stops.tabStaged.trans (by rw [rest])⟩
  · have same := delivers.load e own load
    exact ⟨same ▸ stops.shows.done, same ▸ stops.shows.residue⟩
  · rw [← delivers.q, ← delivers.idx]
    exact stops.gone

theorem dmaRelease_of_nothingWaits (idle : s.nothingWaits) (ch : Nat) :
    s.dmaRelease ch = s.setReg (DMA_CH_STATUS.HALTED ch) 0 :=
  pumpAll_of_nothingWaits (s := s.setReg (DMA_CH_STATUS.HALTED ch) 0) idle

/-- A completion after its timeout is reported in AER, and nothing else comes of it. -/
theorem lateCompletion_reports (on : s.g ≠ .off) (ch : Nat) : exec (.lateCompletion ch) s =
    .next { s with cfg := { s.cfg with uncStatus := s.cfg.uncStatus ||| 2 ^ 16, corStatus := s.cfg.corStatus ||| 2 ^ 13 } } :=
  congrArg Host.Outcome.next (if_neg (by simpa using on))

theorem bit_or_two_pow (n i : Nat) : bit (n ||| 2 ^ i) i = true := by
  rw [bit, Nat.testBit_or, Nat.testBit_two_pow_self, Bool.or_true]

end Commands

end Sys2Proof.Machine

end

/-- Settles O34: a TABLE request stops (`tableRequest_stops`), a wake holds the timeout back, a release with nothing
waiting writes HALTED alone, and a late completion reaches AER alone. -/
theorem channelStops : Obligations.ChannelStops := by
  refine ⟨fun s i ch status cause r => Sys2Proof.Machine.tableRequest_stops, fun s ch wakes => ?_,
    fun s ch lt lands idle => ?_, fun s ch on => ?_⟩
  · exact congrArg Host.Outcome.next (if_pos wakes)
  · refine ⟨_, Sys2Proof.Machine.exec_dmaReleaseHalt lt lands, ?_⟩
    rw [Sys2Proof.Machine.dmaRelease_of_nothingWaits idle]
    exact ⟨Sys2Proof.Machine.reg_setReg_same s _ _, Sys2Proof.Machine.regsBut_setReg List.mem_cons_self s 0, rfl, rfl, rfl⟩
  · exact ⟨_, Sys2Proof.Machine.lateCompletion_reports on ch, rfl, Sys2Proof.Machine.bit_or_two_pow _ 16,
      Sys2Proof.Machine.bit_or_two_pow _ 13⟩
